-- ==== Sys2Proof/Word.lean ====
section
/-! DEFINITION. Word types and the sparse maps in which the state holds registers and memory. -/

namespace Sys2Proof

/-- A 64-bit register image. -/
abbrev Word := BitVec 64

/-- A 32-bit lane. -/
abbrev Lane := BitVec 32

/-- A sparse map from natural keys: pairs with strictly rising keys, none of them holding the map's default. -/
abbrev Map (α : Type) := List (Nat × α)

end Sys2Proof
end

