-- ==== Sys2Proof/Config.lean ====
section
/-! DEFINITION. What the spec leaves to the implementation or leaves open: constants with no value in the model. Each
is named in an entry of the assumption log. -/

namespace Sys2Proof

/-- The n-th free byte: contents of a range that a completed move leaves undefined (R289), and
the bytes of a context image for which the spec gives no layout (R435). Log entries 6 and 11. -/
opaque Config.freeByte : Nat → BitVec 8

/-- The n-th free word: an XINFO whose raising rule names no value (R429). Log entry 8. -/
opaque Config.freeWord : Nat → BitVec 64

/-- Whether the ATS translation request of a PASID for a page is refused, at a cycle (R236: paging is the host's). Log
entry 12. -/
opaque Config.atsRefuses : Nat → Nat → Nat → Bool

/-- The verdict of RFC 8554 LMS verification under the ROM's key: message, signature (R462). Log entry 13. -/
opaque Config.lmsVerifies : List (BitVec 8) → List (BitVec 8) → Bool

/-- The bytes of the two-level HSS signature of a quote with given leaves (R464): the device key is secret. Log entry 13. -/
opaque Config.hssSign : List Nat → List (BitVec 8) → Nat → BitVec 8

/-- Whether a fuse blows when it is programmed: fuse, attempt (R417). Log entry 14. -/
opaque Config.fuseBlows : Nat → Nat → Bool

/-- The digests by which the firmware extends MEAS1, MEAS2 and MEAS3 at boot (R463): of the repair masters, STAGE and FWDSZ,
of the translator, of the software of the management cores that an image brings. The spec does not say over what bytes they
are taken. Log entry 13. -/
opaque Config.setupDigest : List (List (Nat × BitVec 64)) → Nat → Nat → List (BitVec 8)
opaque Config.translatorDigest : List (BitVec 8) → List (BitVec 8)
opaque Config.softwareDigest : List (BitVec 8) → List (BitVec 8)

/-- The window that the host driver exports through a pod port: tenant, base and size in pages of 64 KiB (R461). Log entry
37. -/
opaque Config.podWindow : Nat → Nat → Nat × Nat × Nat

/-- Whether a pod peer refuses a PODSEND: port, command number (R361: the peer decides). Log entry 19. -/
opaque Config.podRefuses : Nat → Nat → Bool

/-- Whether the mailbox of a pod peer is full: port, command number (R361). Log entry 19. -/
opaque Config.podMailboxFull : Nat → Nat → Bool

/-- Whether a requester newly asks for a near-store bank: cycle, bank of all the device, requester (R243). Log entry 40. -/
opaque Config.bankAsks : Nat → Nat → Nat → Bool

/-- Whether the line that a move copies is under copy in a cycle of a die (R287). Log entry 41. -/
opaque Config.underCopy : Nat → Nat → Bool

/-- The errors that a die corrects in a cycle: in a dictionary, a forwarding entry, a repair table, a memory layer (R254,
R371, R384, R387). Log entry 68. -/
opaque Config.corrected : Nat → Nat → BitVec 4

/-- The cycles, up to 64, for which the n-th rewriting of a dictionary entry holds issue (R371). Log entry 41. -/
opaque Config.rewriteCycles : Nat → Nat

/-- The flash blocks that a checkpoint erases: checkpoint, die (R468). Log entry 39. -/
opaque Config.ckptBlocks : Nat → Nat → List Nat

/-- What the host driver chooses at a boot: STAGE less 4, and FWDSZ (R229, R382). Log entry 81. -/
opaque Config.bootStage : Nat → Fin 21
opaque Config.bootFwdsz : Nat → Fin 9

/-- Whether the repair master of a die fails its read at a boot: boot, die (R387). Log entry 69. -/
opaque Config.masterFails : Nat → Nat → Bool

/-- The copy of a leaf counter that cannot be read at a boot, none of them for 0: boot, level (R418). Log entry 69. -/
opaque Config.leafCopyBad : Nat → Nat → Nat

/-- The device's secret of a boot (R388). Log entry 50. -/
opaque Config.bootSecret : Nat → List (BitVec 8)

/-- The version of the translator that a firmware image brings (R388). Log entry 50. -/
opaque Config.translatorVersion : List (BitVec 8) → List (BitVec 8)

/-- What the translator of a version makes of a Nueri section; none where it fails (R106). Log entry 50. -/
opaque Config.translate : List (BitVec 8) → List (BitVec 8) → Option (List (BitVec 8))

/-- How many entries of the kick-pending FIFO the management cores read in a frame (R327). Log entry 84. -/
opaque Config.kicksRead : Nat → Nat

/-- The erase blocks of a flash unit, one bit each, that an install replaces because they failed program-verify: the
flash decides (R350). Log entry 69. -/
opaque Config.failedBlocks : Nat → BitVec 8

/-- Whether the n-th access on which a use count or a discard mark bears finds its line in the L2 (R249): what else the L2
holds decides it. Log entry 23. -/
opaque Config.l2Holds : Nat → Bool

/-- The set of a near-store cache that a line belongs to: the spec does not say which bits of its address choose it (R239).
Log entry 24. -/
opaque Config.nearSet : Nat → Nat

/-- The line of a full set, by its place among the lines it holds, that the n-th allocation evicts: the spec gives no
replacement rule (R239). Log entry 24. -/
opaque Config.nearVictim : Nat → Nat

end Sys2Proof
end

