-- ==== Sys2Proof/Syntax.lean ====
section
/-! DEFINITION. The syntax of the machine's steps: one constructor of `Instr` per row of the table of operations
and events. A row of the table is either an event (its operands say which context, die, cell or engine it happens
to) or an instruction (its operands are the fields of its slot). Register and immediate fields are the raw unsigned
values of their bit fields; `g` is a raw 7-bit guard, negate in bit 6 and the predicate or lane mask below it
(R46, R62). `ord`, `sc`, `ty`, `rm` and `cc` are the decoded codes of R52, R9, R70 and R163. -/

namespace Sys2Proof

/-- Element types of R70 that a V operation may name (BF16 never appears as a `ty3`). -/
inductive Ty where
  | i32 | n32 | f32 | i16x2 | n16x2 | i8x4 | n8x4
  deriving DecidableEq, Repr

/-- Rounding modes of R70. `dyn` stands for the mode in CCTL. -/
inductive Rm where
  | rne | rtz | rup | rdn | sr | dyn
  deriving DecidableEq, Repr

/-- Conditions of XCMP, R163. -/
inductive Cc where
  | eq | ne | lt | le | ltu | leu
  deriving DecidableEq, Repr

/-- Ordering codes of R52. -/
inductive Ord where
  | relaxed | acquire | release | acqRel
  deriving DecidableEq, Repr

/-- Scopes of R9. -/
inductive Scope where
  | cell | die | field | device | system
  deriving DecidableEq, Repr

/-- The engines that run commands (R342): the four copy engines, the pointing engine and the Kiln of a die, and the
Armature, which runs ENG classes 3 to 7. -/
inductive EngineId where
  | copy (die e : Nat)
  | pointing (die : Nat)
  | kiln (die : Nat)
  | armature (cls : Nat)
  deriving DecidableEq, Repr

/-- Answers of the page request relay, R437. `success` carries nothing: the host has written the leaf before. -/
inductive PageAnswer where
  | success | invalid | failure
  deriving DecidableEq, Repr

/-- How the programming of one 32 MiB unit ended at the flash (R350): nothing to report, with a block retired and
remapped, with a source line in error, or failing verify. -/
inductive InstallOutcome where
  | done | remapped | srcEcc | verifyFail
  deriving DecidableEq, Repr

/-- What a request of the host that returns something asks for (R457, R459): a read of the memory window, an AtomicOp on it, a
read of the control window, a read of a register page; each with its size in bytes. -/
inductive HostAccess where
  | read (n : Nat) | fetchAdd (n v : Nat) | swap (n v : Nat) | cas (n old new : Nat) | control (n : Nat) | register (n die : Nat)
  deriving DecidableEq, Repr

/-- The steps of the machine, one constructor per row of the table of operations and events. -/
inductive Instr where
  /-- R42: context c issues the word at its PC. -/
  | wordIssue (c : Nat)
  /-- R63: die d takes the head bundle of context c. -/
  | bundleIssue (c : Nat) (d : Nat)
  /-- R37: one cycle of the merge stage. -/
  | mergeCycle
  /-- R26: the oldest frame item of context c on its way to die d arrives. -/
  | broadcastFrameArrival (c : Nat) (d : Nat)
  /-- R29: the oldest occupancy sample of context c arrives at the sequencer. -/
  | occupancyReport (c : Nat)
  /-- R32: the access stream of die d issues the next A-marked load of context c. -/
  | accessStreamIssue (c : Nat) (d : Nat)
  /-- R82: a position without an issue ends at the sequencer (none) or at a die. -/
  | fixedLatencyLand (c : Nat) (die : Option Nat)
  /-- R396: long-latency operation r is performed and its result lands. -/
  | loadResultLands (r : Nat)
  /-- R13: completed operation r posts its token. -/
  | tokPost (r : Nat)
  /-- R402: the bundle held on WAIT issues. -/
  | waitSatisfied (c : Nat) (d : Nat)
  /-- R401: the word held on WAITS issues. -/
  | waitsSatisfied (c : Nat)
  /-- R403: the bundle held on WAITF issues. -/
  | waitfSatisfied (c : Nat) (d : Nat)
  /-- R125: the context waiting on IDLE resumes. -/
  | idleResume (c : Nat)
  /-- R359: a host or pod delivery of 64 bytes to mailbox m of record c. -/
  | mailboxDelivery (c : Nat) (m : Nat) (msg : List (BitVec 64))
  /-- R333: die d samples for the RED of group grp. -/
  | redSample (c : Nat) (grp : Nat) (d : Nat)
  /-- R335: the value of die d reaches the sequencer. -/
  | redValueArrival (c : Nat) (grp : Nat) (d : Nat)
  /-- R336: the oldest barrier report of die d reaches the sequencer. -/
  | barReport (c : Nat) (d : Nat)
  /-- R336: the barrier release reaches die d. -/
  | barRelease (c : Nat) (d : Nat)
  /-- R339: the phase release reaches every die of the field. -/
  | phaseRelease (c : Nat)
  /-- R424: die d passes the mark at which it stands. -/
  | markPass (c : Nat) (d : Nat)
  /-- R424: the sequencer commits the oldest mark that every die has passed. -/
  | markCommit (c : Nat)
  /-- R426: the oldest commit on its way to die d arrives. -/
  | commitArrival (c : Nat) (d : Nat)
  /-- R428: the fault flag of die d reaches the sequencer. -/
  | faultFlag (c : Nat) (d : Nat)
  /-- R428: the field of context c rolls back and the trap is entered. -/
  | rollback (c : Nat)
  /-- R434: the context freezes. -/
  | preemptionRequest (c : Nat)
  /-- R434: the last die report arrives and the image is written. -/
  | preemptHalt (c : Nat)
  /-- R437: the answer to the page request of context c. -/
  | pageRequestAnswer (c : Nat) (ans : PageAnswer)
  /-- R387: a machine check retires die d. -/
  | dieRetirement (d : Nat)
  /-- R371: hub rewrites entry x of context c on die d. -/
  | dictEntryRewrite (c : Nat) (d : Nat) (hub : Nat) (x : Nat)
  /-- R342: the Armature queue of an ENG class forwards its head. -/
  | armatureCommandForward (cls : Nat)
  /-- R342: an engine starts the head of its queue. -/
  | engineCommandStart (e : EngineId)
  /-- R344: the running command of an engine ends. -/
  | engineCommandComplete (e : EngineId)
  /-- R350: the Kiln of die d finishes programming a unit. -/
  | installUnitCommit (d : Nat) (out : InstallOutcome)
  /-- R287: the pointing engine of die d copies one line. -/
  | relocLineCopy (d : Nat)
  /-- R292: the oldest forwarding-cache invalidation reaches die d. -/
  | fwdInvalidation (d : Nat)
  /-- R289: die d acknowledges the oldest received invalidation. -/
  | fwdInvalidationAck (d : Nat)
  /-- R380: the oldest MAPINV invalidation reaches die d. -/
  | tlbInvalidation (d : Nat)
  /-- R380: die d acknowledges. -/
  | tlbInvalidationAck (d : Nat)
  /-- R236: the host port completes an ATS invalidation. -/
  | atsInvalidation (pasid : Nat) (page : Nat)
  /-- R379: a walk for die d reaches a leaf. -/
  | tableWalk (d : Nat) (pasid : Nat) (va : Nat)
  /-- R198: a started load stream fetches its next item. -/
  | streamFetch (c : Nat) (d : Nat) (cell : Nat) (st : Nat)
  /-- R207: the head macro-operation starts. -/
  | matrixOpStart (c : Nat) (d : Nat) (cell : Nat)
  /-- R211: the array completes one tile row. -/
  | matrixRowComplete (c : Nat) (d : Nat) (cell : Nat)
  /-- R179: the generator appends one entry. -/
  | rbqRefill (c : Nat) (d : Nat) (cell : Nat)
  /-- R325: ownership of a line returns to its home slice. -/
  | ownershipReturn (line : Nat)
  /-- R413: die d takes the bank-conflict snapshot. -/
  | bankSnapshot (c : Nat) (d : Nat)
  /-- R441: BREAK is taken after the drain. -/
  | breakTaken (c : Nat)
  /-- R441: STEP is taken after the drain. -/
  | stepTaken (c : Nat)
  /-- R443: an engine write matches a watchpoint. -/
  | watchEngine (e : EngineId)
  /-- R451: a new Atelier frame begins. -/
  | atelierFrameTick
  /-- R354: the poll position of queue slot n. -/
  | queueSlotPoll (n : Nat)
  /-- R356: a host or pod store to the kick page. -/
  | kick (pasid : Nat) (qid : Nat)
  /-- R358: a store to MBXSTAT of record c. -/
  | mbxstatStore (c : Nat) (v : Nat)
  /-- R406: a host or Atelier store to TCn of context c at die d. -/
  | ticketBlockStore (c : Nat) (d : Nat) (n : Nat) (v : BitVec 64)
  /-- R321: a host posted write to the memory window. -/
  | hostPostedWrite (pasid : Nat) (off : Nat) (bytes : List (BitVec 8)) (relaxed : Bool)
  /-- R457: a host read of the memory window, or another request of the host that returns something. -/
  | hostRead (pasid : Nat) (off : Nat) (acc : HostAccess)
  /-- R461: a PODSEND of a peer arrives. -/
  | podArrival (port : Nat) (mbx : Option (Nat × Nat)) (off : Nat) (bytes : List (BitVec 8))
  /-- R460: link-up of a pod port with the range the peer offers. -/
  | podLinkUp (port : Nat) (lo : Nat) (hi : Nat) (peer : Nat)
  /-- R460: the link of a pod port is lost. -/
  | podLinkLoss (port : Nat)
  /-- R450: a fault stops the Atelier. -/
  | atelierFault
  /-- R450: the reloaded Atelier starts at PC 0. -/
  | atelierReloadComplete
  /-- R466: the next power state is entered. -/
  | powerStateEntry
  /-- R467: a wake event. -/
  | wakeEvent
  /-- R467: the device reaches RUN. -/
  | wakeComplete
  /-- R468: the checkpoint is written. -/
  | checkpointComplete
  /-- R462: the boot ROM checks the image. -/
  | boot
  /-- R462: the recovery doorbell. -/
  | recoveryImage
  /-- R280: the heap service allocates an object. -/
  | heapAllocate (pasid : Nat) (hid : Nat) (obj : Nat) (base : Nat) (size : Nat)
  /-- R280: the heap service frees an object. -/
  | heapFree (pasid : Nat) (hid : Nat) (obj : Nat)
  /-- R386: a repair entry is written. -/
  | repairDecision (d : Nat) (ix : Nat) (ent : BitVec 64)
  /-- R455: a host or Atelier write to a device register. -/
  | registerWrite (pa : Nat) (d : Nat) (n : Nat) (v : BitVec 64)
  /-- R458: firmware command 0x01. -/
  | negotiate
  /-- R378: firmware command 0x02. -/
  | tenantSet
  /-- R378: firmware command 0x03. -/
  | tenantRemove
  /-- R382: firmware command 0x04. -/
  | heapSet
  /-- R380: firmware command 0x05. -/
  | mapinv
  /-- R416: firmware command 0x06. -/
  | budgetSet
  /-- R454: firmware command 0x07. -/
  | launch
  /-- R459: firmware command 0x08. -/
  | preempt
  /-- R468: firmware command 0x09. -/
  | checkpoint
  /-- R417: firmware command 0x0A. -/
  | svnCommit
  /-- R464: firmware command 0x0B. -/
  | attest
  /-- R463: firmware command 0x0C. -/
  | measExtend
  /-- R466: firmware command 0x0D. -/
  | ltolSet
  /-- R417: power is lost without a VAULT checkpoint. -/
  | powerLoss
  /-- R410: one main-clock cycle at die d. -/
  | dieCycle (d : Nat)
  /-- R47 (scalar slot). -/
  | nop
  /-- R118 (scalar slot). -/
  | mov (g : Nat) (d : Nat) (a : Nat)
  /-- R118 (scalar slot). -/
  | movi (g : Nat) (d : Nat) (imm : Nat)
  /-- R118; val is the K28 literal of the same word (scalar slot). -/
  | movl (g : Nat) (d : Nat) (val : Nat)
  /-- R118; val is the K28 literal of the same word (scalar slot). -/
  | movlh (g : Nat) (d : Nat) (val : Nat)
  /-- R118; val is the K28 literal of the same word (scalar slot). -/
  | movlt (g : Nat) (d : Nat) (val : Nat)
  /-- R118 (scalar slot). -/
  | addi (g : Nat) (d : Nat) (imm : Nat)
  /-- R119 (scalar slot). -/
  | add (g : Nat) (d : Nat) (a : Nat) (b : Nat)
  /-- R119 (scalar slot). -/
  | sub (g : Nat) (d : Nat) (a : Nat) (b : Nat)
  /-- R119 (scalar slot). -/
  | and (g : Nat) (d : Nat) (a : Nat) (b : Nat)
  /-- R119 (scalar slot). -/
  | or (g : Nat) (d : Nat) (a : Nat) (b : Nat)
  /-- R119 (scalar slot). -/
  | xor (g : Nat) (d : Nat) (a : Nat) (b : Nat)
  /-- R119 (scalar slot). -/
  | andn (g : Nat) (d : Nat) (a : Nat) (b : Nat)
  /-- R119 (scalar slot). -/
  | shl (g : Nat) (d : Nat) (a : Nat) (b : Nat)
  /-- R119 (scalar slot). -/
  | shr (g : Nat) (d : Nat) (a : Nat) (b : Nat)
  /-- R119 (scalar slot). -/
  | sar (g : Nat) (d : Nat) (a : Nat) (b : Nat)
  /-- R119 (scalar slot). -/
  | shli (g : Nat) (d : Nat) (a : Nat) (n : Nat)
  /-- R119 (scalar slot). -/
  | shri (g : Nat) (d : Nat) (a : Nat) (n : Nat)
  /-- R119 (scalar slot). -/
  | sari (g : Nat) (d : Nat) (a : Nat) (n : Nat)
  /-- R120 (scalar slot). -/
  | mul (g : Nat) (d : Nat) (a : Nat) (b : Nat)
  /-- R120 (scalar slot). -/
  | mulhu (g : Nat) (d : Nat) (a : Nat) (b : Nat)
  /-- R120 (scalar slot). -/
  | mulhs (g : Nat) (d : Nat) (a : Nat) (b : Nat)
  /-- R120 (scalar slot). -/
  | divu (g : Nat) (d : Nat) (a : Nat) (b : Nat)
  /-- R120 (scalar slot). -/
  | remu (g : Nat) (d : Nat) (a : Nat) (b : Nat)
  /-- R119 (scalar slot). -/
  | min (g : Nat) (d : Nat) (a : Nat) (b : Nat)
  /-- R119 (scalar slot). -/
  | max (g : Nat) (d : Nat) (a : Nat) (b : Nat)
  /-- R119 (scalar slot). -/
  | minu (g : Nat) (d : Nat) (a : Nat) (b : Nat)
  /-- R119 (scalar slot). -/
  | maxu (g : Nat) (d : Nat) (a : Nat) (b : Nat)
  /-- R119 (scalar slot). -/
  | clz (g : Nat) (d : Nat) (a : Nat)
  /-- R119 (scalar slot). -/
  | popc (g : Nat) (d : Nat) (a : Nat)
  /-- R121 (scalar slot). -/
  | sel (g : Nat) (d : Nat) (a : Nat) (b : Nat)
  /-- R122 (scalar slot). -/
  | cmpEq (g : Nat) (d : Nat) (a : Nat) (b : Nat)
  /-- R122 (scalar slot). -/
  | cmpNe (g : Nat) (d : Nat) (a : Nat) (b : Nat)
  /-- R122 (scalar slot). -/
  | cmpLt (g : Nat) (d : Nat) (a : Nat) (b : Nat)
  /-- R122 (scalar slot). -/
  | cmpLe (g : Nat) (d : Nat) (a : Nat) (b : Nat)
  /-- R122 (scalar slot). -/
  | cmpLtu (g : Nat) (d : Nat) (a : Nat) (b : Nat)
  /-- R122 (scalar slot). -/
  | cmpLeu (g : Nat) (d : Nat) (a : Nat) (b : Nat)
  /-- R122 (scalar slot). -/
  | tstb (g : Nat) (d : Nat) (a : Nat) (n : Nat)
  /-- R122 (scalar slot). -/
  | pmov (g : Nat) (d : Nat) (a : Nat)
  /-- R122 (scalar slot). -/
  | pand (g : Nat) (d : Nat) (a : Nat) (b : Nat)
  /-- R122 (scalar slot). -/
  | por (g : Nat) (d : Nat) (a : Nat) (b : Nat)
  /-- R122 (scalar slot). -/
  | pxor (g : Nat) (d : Nat) (a : Nat) (b : Nat)
  /-- R122 (scalar slot). -/
  | pandn (g : Nat) (d : Nat) (a : Nat) (b : Nat)
  /-- R123 (scalar slot). -/
  | ptos (g : Nat) (d : Nat)
  /-- R123 (scalar slot). -/
  | stop (g : Nat) (a : Nat)
  /-- R128; stages is the stage count minus 1 (scalar slot). -/
  | lsetup (g : Nat) (loop : Nat) (stages : Nat) (a : Nat)
  /-- R124 (scalar slot). -/
  | ldB (g : Nat) (d : Nat) (a : Nat) (off : Nat)
  /-- R124 (scalar slot). -/
  | ldH (g : Nat) (d : Nat) (a : Nat) (off : Nat)
  /-- R124 (scalar slot). -/
  | ldW (g : Nat) (d : Nat) (a : Nat) (off : Nat)
  /-- R124 (scalar slot). -/
  | ldD (g : Nat) (d : Nat) (a : Nat) (off : Nat)
  /-- R124 (scalar slot). -/
  | ldsW (g : Nat) (d : Nat) (a : Nat) (off : Nat)
  /-- R124 (scalar slot). -/
  | stB (g : Nat) (d : Nat) (a : Nat) (off : Nat)
  /-- R124 (scalar slot). -/
  | stH (g : Nat) (d : Nat) (a : Nat) (off : Nat)
  /-- R124 (scalar slot). -/
  | stW (g : Nat) (d : Nat) (a : Nat) (off : Nat)
  /-- R124 (scalar slot). -/
  | stD (g : Nat) (d : Nat) (a : Nat) (off : Nat)
  /-- R125 (next-address field). -/
  | seq
  /-- R125 (next-address field). -/
  | jmp (off : Nat)
  /-- R125 (next-address field). -/
  | br (p : Nat) (neg : Bool) (off : Nat)
  /-- R126 (next-address field). -/
  | call (off : Nat)
  /-- R126 (next-address field). -/
  | ret
  /-- R129 (next-address field). -/
  | lend (loop : Nat) (off : Nat)
  /-- R127 (next-address field). -/
  | trap (code : Nat)
  /-- R127, R430 (next-address field). -/
  | rft
  /-- R125 (next-address field). -/
  | halt
  /-- R125 (next-address field). -/
  | idle (m : Nat)
  /-- R48 (X slot). -/
  | xnop
  /-- R329; rep is the repeat count minus 1 (X slot). -/
  | bcast (rep : Nat) (idx : Nat)
  /-- R330 (X slot). -/
  | lit
  /-- R51 (X slot). -/
  | k28 (val : Nat)
  /-- R401 (X slot). -/
  | waits (ts : Nat) (thr : Nat)
  /-- R332, R333 (X slot). -/
  | red (grp : Nat) (op : Nat) (ty : Nat) (dc : Nat) (ts : Nat) (d : Nat)
  /-- R131 (X slot). -/
  | csrr (num : Nat) (d : Nat)
  /-- R131 (X slot). -/
  | csrw (num : Nat) (a : Nat)
  /-- R131 (X slot). -/
  | csrs (num : Nat) (d : Nat) (a : Nat)
  /-- R131 (X slot). -/
  | csrc (num : Nat) (d : Nat) (a : Nat)
  /-- R132 (X slot). -/
  | dmset (a : Nat)
  /-- R132 (X slot). -/
  | dmget (d : Nat)
  /-- R132 (X slot). -/
  | cmset (a : Nat)
  /-- R132 (X slot). -/
  | cmget (d : Nat)
  /-- R132 (X slot). -/
  | tmand (a : Nat)
  /-- R132 (X slot). -/
  | tmget (d : Nat)
  /-- R132 (X slot). -/
  | prio (a : Nat)
  /-- R133 (X slot). -/
  | feat (d : Nat) (n : Nat)
  /-- R269 (X slot, kind MEM). -/
  | ldgB (ord : Ord) (sc : Scope) (ts : Nat) (d : Nat) (a : Nat)
  /-- R269 (X slot, kind MEM). -/
  | ldgH (ord : Ord) (sc : Scope) (ts : Nat) (d : Nat) (a : Nat)
  /-- R269 (X slot, kind MEM). -/
  | ldgW (ord : Ord) (sc : Scope) (ts : Nat) (d : Nat) (a : Nat)
  /-- R269 (X slot, kind MEM). -/
  | ldgD (ord : Ord) (sc : Scope) (ts : Nat) (d : Nat) (a : Nat)
  /-- R269 (X slot, kind MEM). -/
  | stgB (ord : Ord) (sc : Scope) (ts : Nat) (d : Nat) (a : Nat)
  /-- R269 (X slot, kind MEM). -/
  | stgH (ord : Ord) (sc : Scope) (ts : Nat) (d : Nat) (a : Nat)
  /-- R269 (X slot, kind MEM). -/
  | stgW (ord : Ord) (sc : Scope) (ts : Nat) (d : Nat) (a : Nat)
  /-- R269 (X slot, kind MEM). -/
  | stgD (ord : Ord) (sc : Scope) (ts : Nat) (d : Nat) (a : Nat)
  /-- R270 (X slot, kind MEM). -/
  | afadd (ord : Ord) (sc : Scope) (ts : Nat) (d : Nat) (e2 : Nat) (a : Nat)
  /-- R270 (X slot, kind MEM). -/
  | amin (ord : Ord) (sc : Scope) (ts : Nat) (d : Nat) (e2 : Nat) (a : Nat)
  /-- R270 (X slot, kind MEM). -/
  | amax (ord : Ord) (sc : Scope) (ts : Nat) (d : Nat) (e2 : Nat) (a : Nat)
  /-- R270 (X slot, kind MEM). -/
  | aand (ord : Ord) (sc : Scope) (ts : Nat) (d : Nat) (e2 : Nat) (a : Nat)
  /-- R270 (X slot, kind MEM). -/
  | aor (ord : Ord) (sc : Scope) (ts : Nat) (d : Nat) (e2 : Nat) (a : Nat)
  /-- R270 (X slot, kind MEM). -/
  | axor (ord : Ord) (sc : Scope) (ts : Nat) (d : Nat) (e2 : Nat) (a : Nat)
  /-- R270 (X slot, kind MEM). -/
  | aswap (ord : Ord) (sc : Scope) (ts : Nat) (d : Nat) (e2 : Nat) (a : Nat)
  /-- R270 (X slot, kind MEM). -/
  | acas (ord : Ord) (sc : Scope) (ts : Nat) (d : Nat) (e2 : Nat) (a : Nat)
  /-- R270 (X slot, kind MEM). -/
  | amaxf (ord : Ord) (sc : Scope) (ts : Nat) (d : Nat) (a : Nat)
  /-- R270 (X slot, kind MEM). -/
  | memAmaxrr (ord : Ord) (sc : Scope) (ts : Nat) (d : Nat) (a : Nat)
  /-- R271 (X slot, kind MEM). -/
  | memFence (ord : Ord) (sc : Scope) (ts : Nat)
  /-- R302 (X slot, kind MEM). -/
  | memLdref (ord : Ord) (sc : Scope) (ts : Nat) (d : Nat) (h : Nat) (h2 : Nat)
  /-- R302 (X slot, kind MEM). -/
  | memStref (ord : Ord) (sc : Scope) (ts : Nat) (d : Nat) (h : Nat) (h2 : Nat)
  /-- R302 (X slot, kind MEM). -/
  | memPin (ord : Ord) (sc : Scope) (ts : Nat) (d : Nat) (h : Nat)
  /-- R302 (X slot, kind MEM). -/
  | memUnpin (ord : Ord) (sc : Scope) (ts : Nat) (h : Nat)
  /-- R302 (X slot, kind MEM). -/
  | memLdr (ord : Ord) (sc : Scope) (ts : Nat) (d : Nat) (e2 : Nat) (h : Nat)
  /-- R302 (X slot, kind MEM). -/
  | memStr (ord : Ord) (sc : Scope) (ts : Nat) (d : Nat) (e2 : Nat) (h : Nat)
  /-- R409 (X slot, kind MEM). -/
  | memJraise (ord : Ord) (sc : Scope) (ts : Nat) (d : Nat) (a : Nat)
  /-- R409 (X slot, kind MEM). -/
  | memJdone (ord : Ord) (sc : Scope) (ts : Nat) (a : Nat)
  /-- R347 (X slot, kind ENG). -/
  | engCpy (desc : Nat) (ts : Nat) (acq : Bool) (rel : Bool) (sc : Scope) (bp : Nat)
  /-- R350 (X slot, kind ENG). -/
  | engInstall (desc : Nat) (ts : Nat) (acq : Bool) (rel : Bool) (sc : Scope) (bp : Nat)
  /-- R349 (X slot, kind ENG). -/
  | engReloc (desc : Nat) (ts : Nat) (acq : Bool) (rel : Bool) (sc : Scope) (bp : Nat)
  /-- R360 (X slot, kind ENG). -/
  | mbxsend (desc : Nat) (ts : Nat) (acq : Bool) (rel : Bool) (sc : Scope) (bp : Nat)
  /-- R355 (X slot, kind ENG). -/
  | enq (desc : Nat) (ts : Nat) (acq : Bool) (rel : Bool) (sc : Scope) (bp : Nat)
  /-- R361 (X slot, kind ENG). -/
  | podsend (desc : Nat) (ts : Nat) (acq : Bool) (rel : Bool) (sc : Scope) (bp : Nat)
  /-- R363, launch (X slot, kind ENG). -/
  | ctxstart (desc : Nat) (ts : Nat) (acq : Bool) (rel : Bool) (sc : Scope) (bp : Nat)
  /-- R363, restore; the same words as CTXSTART (X slot, kind ENG). -/
  | ctxstartRestore (desc : Nat) (ts : Nat) (acq : Bool) (rel : Bool) (sc : Scope) (bp : Nat)
  /-- R363, GO; the same words as CTXSTART (X slot, kind ENG). -/
  | ctxstartGo (desc : Nat) (ts : Nat) (acq : Bool) (rel : Bool) (sc : Scope) (bp : Nat)
  /-- R364 (X slot, kind ENG). -/
  | ctxsave (desc : Nat) (ts : Nat) (acq : Bool) (rel : Bool) (sc : Scope) (bp : Nat)
  /-- R149 (slot V0 or V1). -/
  | vmov (g : Nat) (d : Nat) (a : Nat)
  /-- R149 (slot V0 or V1). -/
  | vmovi (g : Nat) (ty : Ty) (d : Nat) (imm20 : Nat)
  /-- R149 (slot V0 or V1). -/
  | vbcst (g : Nat) (d : Nat) (a : Nat)
  /-- R149 (slot V0 or V1). -/
  | vlane (g : Nat) (d : Nat)
  /-- R149 (slot V0 or V1). -/
  | vcoord (g : Nat) (d : Nat) (which : Nat)
  /-- R150 (slot V0 or V1). -/
  | vadd (g : Nat) (ty : Ty) (d : Nat) (a : Nat) (b : Nat)
  /-- R150 (slot V0 or V1). -/
  | vsub (g : Nat) (ty : Ty) (d : Nat) (a : Nat) (b : Nat)
  /-- R150 (slot V0 or V1). -/
  | vmullo (g : Nat) (ty : Ty) (d : Nat) (a : Nat) (b : Nat)
  /-- R150 (slot V0 or V1). -/
  | vmulhi (g : Nat) (ty : Ty) (d : Nat) (a : Nat) (b : Nat)
  /-- R150 (slot V0 or V1). -/
  | vmin (g : Nat) (ty : Ty) (d : Nat) (a : Nat) (b : Nat)
  /-- R150 (slot V0 or V1). -/
  | vmax (g : Nat) (ty : Ty) (d : Nat) (a : Nat) (b : Nat)
  /-- R150 (slot V0 or V1). -/
  | vabsd (g : Nat) (ty : Ty) (d : Nat) (a : Nat) (b : Nat)
  /-- R150 (slot V0 or V1). -/
  | vaddsat (g : Nat) (ty : Ty) (d : Nat) (a : Nat) (b : Nat)
  /-- R152 (slot V0 or V1). -/
  | vand (g : Nat) (d : Nat) (a : Nat) (b : Nat)
  /-- R152 (slot V0 or V1). -/
  | vor (g : Nat) (d : Nat) (a : Nat) (b : Nat)
  /-- R152 (slot V0 or V1). -/
  | vxor (g : Nat) (d : Nat) (a : Nat) (b : Nat)
  /-- R152 (slot V0 or V1). -/
  | vandn (g : Nat) (d : Nat) (a : Nat) (b : Nat)
  /-- R151 (slot V0 or V1). -/
  | vshl (g : Nat) (ty : Ty) (d : Nat) (a : Nat) (b : Nat)
  /-- R151 (slot V0 or V1). -/
  | vshr (g : Nat) (ty : Ty) (d : Nat) (a : Nat) (b : Nat)
  /-- R151 (slot V0 or V1). -/
  | vsar (g : Nat) (ty : Ty) (d : Nat) (a : Nat) (b : Nat)
  /-- R151 (slot V0 or V1). -/
  | vshli (g : Nat) (ty : Ty) (d : Nat) (a : Nat) (n : Nat)
  /-- R151 (slot V0 or V1). -/
  | vpopc (g : Nat) (ty : Ty) (d : Nat) (a : Nat)
  /-- R151 (slot V0 or V1). -/
  | vclz (g : Nat) (ty : Ty) (d : Nat) (a : Nat)
  /-- R153 (slot V0 or V1). -/
  | vsel (g : Nat) (d : Nat) (a : Nat) (b : Nat) (s : Nat)
  /-- R153 (slot V0 or V1). -/
  | vshf (g : Nat) (d : Nat) (a : Nat) (b : Nat)
  /-- R153 (slot V0 or V1). -/
  | vrot (g : Nat) (d : Nat) (a : Nat) (n : Nat)
  /-- R154 (slot V0 or V1). -/
  | vcmpEq (g : Nat) (ty : Ty) (a : Nat) (b : Nat) (m : Nat)
  /-- R154 (slot V0 or V1). -/
  | vcmpNe (g : Nat) (ty : Ty) (a : Nat) (b : Nat) (m : Nat)
  /-- R154 (slot V0 or V1). -/
  | vcmpLt (g : Nat) (ty : Ty) (a : Nat) (b : Nat) (m : Nat)
  /-- R154 (slot V0 or V1). -/
  | vcmpLe (g : Nat) (ty : Ty) (a : Nat) (b : Nat) (m : Nat)
  /-- R154 (slot V0 or V1). -/
  | vcmpLtu (g : Nat) (ty : Ty) (a : Nat) (b : Nat) (m : Nat)
  /-- R154 (slot V0 or V1). -/
  | vcmpLeu (g : Nat) (ty : Ty) (a : Nat) (b : Nat) (m : Nat)
  /-- R154 (slot V0 or V1). -/
  | vfcmpEq (g : Nat) (a : Nat) (b : Nat) (m : Nat)
  /-- R154 (slot V0 or V1). -/
  | vfcmpLt (g : Nat) (a : Nat) (b : Nat) (m : Nat)
  /-- R154 (slot V0 or V1). -/
  | vfcmpLe (g : Nat) (a : Nat) (b : Nat) (m : Nat)
  /-- R154 (slot V0 or V1). -/
  | vfcmpUn (g : Nat) (a : Nat) (b : Nat) (m : Nat)
  /-- R155 (slot V0 or V1). -/
  | vfadd (g : Nat) (rm : Rm) (d : Nat) (a : Nat) (b : Nat)
  /-- R155 (slot V0 or V1). -/
  | vfsub (g : Nat) (rm : Rm) (d : Nat) (a : Nat) (b : Nat)
  /-- R155 (slot V0 or V1). -/
  | vfmul (g : Nat) (rm : Rm) (d : Nat) (a : Nat) (b : Nat)
  /-- R155 (slot V0 or V1). -/
  | vfma (g : Nat) (rm : Rm) (d : Nat) (a : Nat) (b : Nat) (c : Nat)
  /-- R155 (slot V0 or V1). -/
  | vfms (g : Nat) (rm : Rm) (d : Nat) (a : Nat) (b : Nat) (c : Nat)
  /-- R155 (slot V0 or V1). -/
  | vfnma (g : Nat) (rm : Rm) (d : Nat) (a : Nat) (b : Nat) (c : Nat)
  /-- R157 (slot V0 or V1). -/
  | vfmin (g : Nat) (d : Nat) (a : Nat) (b : Nat)
  /-- R157 (slot V0 or V1). -/
  | vfmax (g : Nat) (d : Nat) (a : Nat) (b : Nat)
  /-- R158 (slot V0 or V1). -/
  | vfabs (g : Nat) (d : Nat) (a : Nat)
  /-- R158 (slot V0 or V1). -/
  | vfneg (g : Nat) (d : Nat) (a : Nat)
  /-- R155 (slot V0 or V1). -/
  | vfdiv (g : Nat) (rm : Rm) (d : Nat) (a : Nat) (b : Nat)
  /-- R156 (slot V0 or V1). -/
  | vfsqrt (g : Nat) (rm : Rm) (d : Nat) (a : Nat)
  /-- R156 (slot V0 or V1). -/
  | vfrsqrt (g : Nat) (rm : Rm) (d : Nat) (a : Nat)
  /-- R156 (slot V0 or V1). -/
  | vfexp2 (g : Nat) (rm : Rm) (d : Nat) (a : Nat)
  /-- R156 (slot V0 or V1). -/
  | vflog2 (g : Nat) (rm : Rm) (d : Nat) (a : Nat)
  /-- R159 (slot V0 or V1). -/
  | vfclass (g : Nat) (d : Nat) (a : Nat)
  /-- R161 (slot V0 or V1). -/
  | vrsumF32 (g : Nat) (rm : Rm) (d : Nat) (a : Nat)
  /-- R160 (slot V0 or V1). -/
  | vrmaxF32 (g : Nat) (d : Nat) (a : Nat)
  /-- R160 (slot V0 or V1). -/
  | vramax (g : Nat) (d : Nat) (a : Nat)
  /-- R160 (slot V0 or V1). -/
  | vrsumI (g : Nat) (ty : Ty) (d : Nat) (a : Nat)
  /-- R160 (slot V0 or V1). -/
  | vrmaxI (g : Nat) (ty : Ty) (d : Nat) (a : Nat)
  /-- R162 (slot V0 or V1). -/
  | xmov (g : Nat) (d : Nat) (a : Nat)
  /-- R162 (slot V0 or V1). -/
  | xmovi (g : Nat) (d : Nat) (imm20 : Nat)
  /-- R162 (slot V0 or V1). -/
  | xadd (g : Nat) (d : Nat) (a : Nat) (b : Nat)
  /-- R162 (slot V0 or V1). -/
  | xsub (g : Nat) (d : Nat) (a : Nat) (b : Nat)
  /-- R162 (slot V0 or V1). -/
  | xmul (g : Nat) (d : Nat) (a : Nat) (b : Nat)
  /-- R162 (slot V0 or V1). -/
  | xand (g : Nat) (d : Nat) (a : Nat) (b : Nat)
  /-- R162 (slot V0 or V1). -/
  | cellXor (g : Nat) (d : Nat) (a : Nat) (b : Nat)
  /-- R162 (slot V0 or V1). -/
  | xshl (g : Nat) (d : Nat) (a : Nat) (b : Nat)
  /-- R162 (slot V0 or V1). -/
  | xshr (g : Nat) (d : Nat) (a : Nat) (b : Nat)
  /-- R163 (slot V0 or V1). -/
  | xcmp (g : Nat) (cc : Cc) (a : Nat) (b : Nat) (m : Nat)
  /-- R162 (slot V0 or V1). -/
  | xfromv (g : Nat) (d : Nat) (a : Nat) (lane : Nat)
  /-- R162 (slot V0 or V1). -/
  | xtok (g : Nat) (d : Nat) (a : Nat)
  /-- R183 (slot V1). -/
  | vcvtF32I32 (g : Nat) (rm : Rm) (d : Nat) (a : Nat)
  /-- R183 (slot V1). -/
  | vcvtI32F32 (g : Nat) (rm : Rm) (d : Nat) (a : Nat)
  /-- R184 (slot V1). -/
  | vcvtBf16F32 (g : Nat) (rm : Rm) (d : Nat) (a : Nat)
  /-- R184 (slot V1). -/
  | vcvtF32Bf16 (g : Nat) (d : Nat) (a : Nat)
  /-- R187 (slot V1). -/
  | vsplit3 (g : Nat) (d : Nat) (a : Nat)
  /-- R188 (slot V1). -/
  | vamaxb (g : Nat) (bs : Bool) (d : Nat) (a : Nat)
  /-- R186 (slot V1). -/
  | vscale (g : Nat) (rm : Rm) (d : Nat) (a : Nat) (b : Nat)
  /-- R189, R190 (slot V1). -/
  | qbfp (g : Nat) (rm : Rm) (bs : Bool) (mb : Nat) (d : Nat) (a : Nat)
  /-- R191 (slot V1). -/
  | dqbfp (g : Nat) (bs : Bool) (mb : Nat) (d : Nat) (a : Nat) (b : Nat)
  /-- R185 (slot V1). -/
  | vcvtI8F32 (g : Nat) (rm : Rm) (j : Nat) (d : Nat) (a : Nat)
  /-- R192 (slot V1). -/
  | vrng (g : Nat) (d : Nat)
  /-- R185 (slot V1). -/
  | vcvtF32I8 (g : Nat) (j : Nat) (d : Nat) (a : Nat)
  /-- R215 (slot MX). -/
  | mma (g : Nat) (base : Nat) (m : Nat) (n : Nat) (a : Nat) (b : Nat) (tk : Nat) (zero : Bool) (neg : Bool) (bt : Bool)
  /-- R216 (slot MX). -/
  | mmaNest (g : Nat) (base : Nat) (m : Nat) (n : Nat) (a : Nat) (b : Nat) (tk : Nat) (zero : Bool) (neg : Bool) (bt : Bool)
  /-- R217; gc is the group count minus 1 (slot MX). -/
  | mmaGrp (g : Nat) (base : Nat) (m : Nat) (n : Nat) (a : Nat) (b : Nat) (tk : Nat) (zero : Bool) (neg : Bool) (bt : Bool) (gc : Nat)
  /-- R219 (slot MX). -/
  | accz (g : Nat) (base : Nat) (m : Nat) (n : Nat) (tk : Nat)
  /-- R221 (slot MX). -/
  | accrd (g : Nat) (base : Nat) (v : Nat) (row : Nat)
  /-- R221 (slot MX). -/
  | accwr (g : Nat) (base : Nat) (v : Nat) (row : Nat)
  /-- R220 (slot MX). -/
  | accout (g : Nat) (base : Nat) (m : Nat) (n : Nat) (o : Nat) (tk : Nat)
  /-- R224 (slot MX). -/
  | wswap
  /-- R218 (slot MX). -/
  | mxprog (g : Nat) (x : Nat)
  /-- R256 (slot LS). -/
  | ldv (g : Nat) (acc : Bool) (d : Nat) (st : Nat) (tk : Nat)
  /-- R256 (slot LS). -/
  | stv (g : Nat) (a : Nat) (st : Nat) (tk : Nat)
  /-- R257 (slot LS). -/
  | ldvn (g : Nat) (acc : Bool) (d : Nat) (a : Nat) (tk : Nat) (imm : Nat)
  /-- R257 (slot LS). -/
  | stvn (g : Nat) (d : Nat) (a : Nat) (tk : Nat) (imm : Nat)
  /-- R258 (slot LS). -/
  | gather (g : Nat) (acc : Bool) (d : Nat) (a : Nat) (b : Nat) (tk : Nat)
  /-- R258 (slot LS). -/
  | scatter (g : Nat) (d : Nat) (a : Nat) (b : Nat) (tk : Nat)
  /-- R259 (slot LS). -/
  | ldx (g : Nat) (acc : Bool) (d : Nat) (a : Nat) (tk : Nat) (sz : Nat) (imm : Nat)
  /-- R259 (slot LS). -/
  | stx (g : Nat) (d : Nat) (a : Nat) (tk : Nat) (sz : Nat) (imm : Nat)
  /-- R259 (slot LS). -/
  | ldxAcq (g : Nat) (d : Nat) (a : Nat) (tk : Nat) (sc : Scope) (sz : Nat) (imm : Nat)
  /-- R259 (slot LS). -/
  | stxRel (g : Nat) (d : Nat) (a : Nat) (tk : Nat) (sc : Scope) (sz : Nat) (imm : Nat)
  /-- R260 (slot LS). -/
  | lsFence (g : Nat) (tk : Nat) (sc : Scope) (ord : Ord)
  /-- R262 (slot LS). -/
  | xafadd (g : Nat) (d : Nat) (a : Nat) (tk : Nat) (sc : Scope) (sz : Nat)
  /-- R262 (slot LS). -/
  | xamax (g : Nat) (d : Nat) (a : Nat) (tk : Nat) (sc : Scope) (sz : Nat)
  /-- R262 (slot LS). -/
  | xacas (g : Nat) (d : Nat) (a : Nat) (b : Nat) (tk : Nat) (sc : Scope) (sz : Nat)
  /-- R262 (slot LS). -/
  | xaswap (g : Nat) (d : Nat) (a : Nat) (tk : Nat) (sc : Scope) (sz : Nat)
  /-- R263 (slot LS). -/
  | vafadd (g : Nat) (d : Nat) (a : Nat) (b : Nat) (tk : Nat) (sc : Scope)
  /-- R263 (slot LS). -/
  | vamaxf (g : Nat) (d : Nat) (a : Nat) (b : Nat) (tk : Nat) (sc : Scope)
  /-- R265 (slot LS). -/
  | lsAmaxrr (g : Nat) (d : Nat) (a : Nat) (tk : Nat) (sc : Scope)
  /-- R202 (slot LS). -/
  | stset (g : Nat) (a : Nat) (st : Nat)
  /-- R202 (slot LS). -/
  | stget (g : Nat) (d : Nat) (st : Nat)
  /-- R202 (slot LS). -/
  | stgo (g : Nat) (st : Nat) (tk : Nat)
  /-- R202 (slot LS). -/
  | stsave (g : Nat) (a : Nat) (st : Nat) (tk : Nat)
  /-- R202 (slot LS). -/
  | stload (g : Nat) (a : Nat) (st : Nat) (tk : Nat)
  /-- R241 (slot LS). -/
  | resize (g : Nat) (tk : Nat) (imm : Nat)
  /-- R266 (slot LS). -/
  | sete (g : Nat) (a : Nat) (tk : Nat) (imm : Nat)
  /-- R266 (slot LS). -/
  | setf (g : Nat) (a : Nat) (tk : Nat) (imm : Nat)
  /-- R267 (slot LS). -/
  | nsflush (g : Nat) (tk : Nat)
  /-- R298 (slot LS). -/
  | lsLdr (g : Nat) (acc : Bool) (d : Nat) (a : Nat) (b : Nat) (tk : Nat) (sz : Nat)
  /-- R298 (slot LS). -/
  | lsStr (g : Nat) (d : Nat) (a : Nat) (b : Nat) (tk : Nat) (sz : Nat)
  /-- R299 (slot LS). -/
  | ldrv (g : Nat) (acc : Bool) (d : Nat) (a : Nat) (b : Nat) (tk : Nat)
  /-- R299 (slot LS). -/
  | strv (g : Nat) (d : Nat) (a : Nat) (b : Nat) (tk : Nat)
  /-- R298 (slot LS). -/
  | lsLdref (g : Nat) (acc : Bool) (d : Nat) (a : Nat) (b : Nat) (tk : Nat)
  /-- R298 (slot LS). -/
  | lsStref (g : Nat) (d : Nat) (a : Nat) (b : Nat) (tk : Nat)
  /-- R301 (slot LS). -/
  | lsPin (g : Nat) (d : Nat) (a : Nat) (tk : Nat)
  /-- R301 (slot LS). -/
  | lsUnpin (g : Nat) (a : Nat) (tk : Nat)
  /-- R300 (slot LS). -/
  | refmov (g : Nat) (d : Nat) (a : Nat)
  /-- R300 (slot LS). -/
  | reftag (g : Nat) (d : Nat) (a : Nat)
  /-- R407 (slot LS). -/
  | take (g : Nat) (d : Nat) (tk : Nat) (imm : Nat)
  /-- R409 (slot LS). -/
  | lsJraise (g : Nat) (a : Nat) (b : Nat) (tk : Nat) (sc : Scope)
  /-- R409 (slot LS). -/
  | lsJdone (g : Nat) (a : Nat) (tk : Nat) (sc : Scope)
  /-- R341 (slot XF). -/
  | perm (g : Nat) (d : Nat) (a : Nat) (pat : Nat) (tk : Nat)
  /-- R341 (slot XF). -/
  | xmit (g : Nat) (a : Nat) (b : Nat) (pat : Nat) (tk : Nat)
  /-- R341 (slot XF). -/
  | recv (g : Nat) (a : Nat) (pat : Nat) (tk : Nat)
  /-- R341 (slot XF). -/
  | cshuf (g : Nat) (d : Nat) (a : Nat) (pat : Nat) (tk : Nat)
  /-- R347 (slot XF). -/
  | xfCpy (g : Nat) (xd : Nat) (tk : Nat) (sc : Scope) (acq : Bool) (rel : Bool) (bk : Nat)
  /-- R348 (slot XF). -/
  | binscat (g : Nat) (d : Nat) (a : Nat) (xd : Nat) (tk : Nat) (sc : Scope) (bk : Nat)
  /-- R349 (slot XF). -/
  | xfReloc (g : Nat) (xd : Nat) (tk : Nat) (sc : Scope) (acq : Bool) (rel : Bool) (bk : Nat)
  /-- R350 (slot XF). -/
  | xfInstall (g : Nat) (xd : Nat) (tk : Nat) (sc : Scope) (acq : Bool) (rel : Bool) (bk : Nat)
  /-- R180 (slot XF). -/
  | rbseed (a : Nat)
  /-- R401 (slot CT). -/
  | wait (tk : Nat) (thr : Nat)
  /-- R403 (slot CT). -/
  | waitf (a : Nat) (imm : Nat)
  /-- R404; n is the count minus 1 (slot CT). -/
  | dly (n : Nat)
  /-- R422 (slot CT). -/
  | mark
  /-- R401 (slot CT). -/
  | tokadd (g : Nat) (tk : Nat) (amt : Nat)
  /-- R401 (slot CT). -/
  | tokrd (g : Nat) (tk : Nat) (d : Nat)
  /-- R433 (slot CT). -/
  | setc (g : Nat) (dc : Nat) (op : Nat) (a : Nat)
  /-- R336; fld is true for FIELD scope (slot CT). -/
  | bar (sc : Scope)
  /-- R339 (slot CT). -/
  | phaseX
  /-- R339 (slot CT). -/
  | phaseC
  /-- R338 (slot CT). -/
  | abar
  /-- R432 (slot CT). -/
  | trapc (g : Nat) (code : Nat)
  /-- R164 (slot CT). -/
  | kand (g : Nat) (d : Nat) (a : Nat) (b : Nat)
  /-- R164 (slot CT). -/
  | kor (g : Nat) (d : Nat) (a : Nat) (b : Nat)
  /-- R164 (slot CT). -/
  | kxor (g : Nat) (d : Nat) (a : Nat) (b : Nat)
  /-- R164 (slot CT). -/
  | kandn (g : Nat) (d : Nat) (a : Nat) (b : Nat)
  /-- R164 (slot CT). -/
  | knot (g : Nat) (d : Nat) (a : Nat)
  /-- R164 (slot CT). -/
  | kmov (g : Nat) (d : Nat) (a : Nat)
  /-- R164 (slot CT). -/
  | kset (g : Nat) (d : Nat) (hi : Nat) (lo : Nat)
  /-- R164 (slot CT). -/
  | kfromx (g : Nat) (d : Nat) (a : Nat)
  /-- R164 (slot CT). -/
  | ktox (g : Nat) (d : Nat) (a : Nat)
  /-- R164 (slot CT). -/
  | kpopc (g : Nat) (d : Nat) (a : Nat)
  deriving DecidableEq, Repr

end Sys2Proof
end

