-- ==== Sys2Proof/WellFormed.lean ====
section
/-! DEFINITION. The encoding tables of both containers (R41 to R78), one row per instruction: where its operation code
stands, its fixed fields, its operand fields in the order of the constructor's operands, the values each may hold, and
what each names. An instruction is well formed when its operands fit the row. The window checks of R24, and every
check that needs the state of a context, are made when a word or a bundle issues. -/

namespace Sys2Proof

/-- The code of a `ty3` (R70); 3, BF16, is illegal in every V operation. -/
def tyCode : Ty → Nat
  | .i32 => 0 | .n32 => 1 | .f32 => 2 | .i16x2 => 4 | .n16x2 => 5 | .i8x4 => 6 | .n8x4 => 7

/-- The `ty3` of a legal code. -/
def tyOf : Nat → Ty
  | 0 => .i32 | 1 => .n32 | 2 => .f32 | 4 => .i16x2 | 5 => .n16x2 | 6 => .i8x4 | _ => .n8x4

/-- The code of an `rm3` (R70). -/
def rmCode : Rm → Nat
  | .rne => 0 | .rtz => 1 | .rup => 2 | .rdn => 3 | .sr => 4 | .dyn => 5

/-- The `rm3` of a legal code. -/
def rmOf : Nat → Rm
  | 0 => .rne | 1 => .rtz | 2 => .rup | 3 => .rdn | 4 => .sr | _ => .dyn

/-- The code of a condition (R163). -/
def ccCode : Cc → Nat
  | .eq => 0 | .ne => 1 | .lt => 2 | .le => 3 | .ltu => 4 | .leu => 5

/-- The condition of a legal code. -/
def ccOf : Nat → Cc
  | 0 => .eq | 1 => .ne | 2 => .lt | 3 => .le | 4 => .ltu | _ => .leu

/-- The code of an ordering (R52). -/
def ordCode : Ord → Nat
  | .relaxed => 0 | .acquire => 1 | .release => 2 | .acqRel => 3

/-- The ordering of a code. -/
def ordOf : Nat → Ord
  | 0 => .relaxed | 1 => .acquire | 2 => .release | _ => .acqRel

/-- The code of a scope (R9). -/
def scopeCode : Scope → Nat
  | .cell => 0 | .die => 1 | .field => 2 | .device => 3 | .system => 4

/-- The scope of a legal code; 5 to 7 are refused (R61). -/
def scopeOf : Nat → Scope
  | 0 => .cell | 1 => .die | 2 => .field | 3 => .device | _ => .system

/-- The bit of a truth value. -/
def bit (b : Bool) : Nat := if b then 1 else 0

/-- Element width in bits, R145. -/
def Ty.width : Ty → Nat
  | .i32 | .n32 | .f32 => 32
  | .i16x2 | .n16x2 => 16
  | .i8x4 | .n8x4 => 8

/-- Where an instruction stands: the four fields of a word (the X slot by its kinds with sub-operations) and the six
slots of a bundle (`conv` is the V1-only range). -/
inductive SlotKind where
  | scalar | na | x | mem | eng | csr | ctx | v | conv | mx | ls | xf | ct
  deriving DecidableEq, Repr

/-- The values a field may hold. -/
inductive Chk where
  /-- every value of its bits -/
  | any
  /-- values below `n` -/
  | lt (n : Nat)
  /-- values from `lo`, below `hi` -/
  | range (lo hi : Nat)
  /-- multiples of `m` below `n` -/
  | mult (m n : Nat)
  /-- `ty3` codes: every one a V operation may name; the integer types; I32 and N32; those of VMOVI -/
  | tyAny | tyInt | ty32 | tyMovi
  /-- `rm3` codes: all six; without SR; RNE or SR -/
  | rmAny | rmNotSr | rmQbfp
  /-- `ord2` codes of loads, of stores, of fences (R53, R75) -/
  | ordLoad | ordStore | ordFence
  /-- scopes of BAR (R78) -/
  | scopeBar
  deriving DecidableEq, Repr

/-- Whether a value passes. -/
def Chk.ok : Chk → Nat → Bool
  | .any, _ => true
  | .lt n, v => decide (v < n)
  | .range lo hi, v => decide (lo ≤ v ∧ v < hi)
  | .mult m n, v => decide (v % m = 0 ∧ v < n)
  | .tyAny, v => decide (v < 8 ∧ v ≠ 3)
  | .tyInt, v => decide (v < 8 ∧ v ≠ 2 ∧ v ≠ 3)
  | .ty32, v => decide (v < 2)
  | .tyMovi, v => decide (v < 3)
  | .rmAny, v => decide (v < 6)
  | .rmNotSr, v => decide (v < 6 ∧ v ≠ 4)
  | .rmQbfp, v => decide (v = 0 ∨ v = 4)
  | .ordLoad, v => decide (v < 2)
  | .ordStore, v => decide (v = 0 ∨ v = 2)
  | .ordFence, v => decide (1 ≤ v ∧ v < 4)
  | .scopeBar, v => decide (v = 1 ∨ v = 2)

/-- What an operand field names. `R` is read, `W` written; a digit counts consecutive registers. -/
inductive Use where
  /-- a number, a code or a flag -/
  | num
  /-- the guard of a scalar slot; of a bundle slot -/
  | pg | kg
  /-- sequencer registers; `sR8` an ENG descriptor; `tsU` a token that is posted or waited on -/
  | sR | sW | sRW | sR8 | pR | pW | tsU
  /-- cell x registers; `xd8` an XF descriptor group -/
  | xR | xW | xRW | xR2 | xR8 | xW8 | xd8
  /-- vector registers; `vX` is read across lanes (R153, R162, R191) -/
  | vR | vW | vRW | vW2 | vW3 | vX
  /-- lane masks, references (cell or sequencer), cell tokens, stream registers -/
  | kR | kW | hR | hW | tkU | stU
  deriving DecidableEq, Repr

/-- An operand field: its lowest bit, its width, its legal values and what it names. A field of width 0 is the K28
literal that MOVL, MOVLH and MOVLT read from the X slot. -/
structure Field where
  lo : Nat
  w : Nat
  chk : Chk
  use : Use
  deriving DecidableEq, Repr

/-- One row of the encoding tables: the operation code, the fields with a fixed nonzero value, the operand fields. -/
structure Row where
  op : Nat
  fixed : List (Nat × Nat)
  fields : List Field
  deriving DecidableEq, Repr

/-- Where the operation code of a slot stands: lowest bit and width. MEM, ENG, CSR and CTX codes include the X kind. -/
def SlotKind.opPos : SlotKind → Nat × Nat
  | .scalar => (25, 7)
  | .na => (28, 4)
  | .x => (28, 4)
  | .mem => (23, 9)
  | .eng => (25, 7)
  | .csr => (26, 6)
  | .ctx => (24, 8)
  | .v => (56, 8)
  | .conv => (56, 8)
  | .mx => (56, 8)
  | .ls => (56, 8)
  | .xf => (56, 8)
  | .ct => (56, 8)

/-- The width of a slot in bits. -/
def SlotKind.bits : SlotKind → Nat
  | .scalar | .na | .x | .mem | .eng | .csr | .ctx => 32
  | .v | .conv | .mx | .ls | .xf | .ct => 64

/-- Rows of R45 to R47, R124. -/
def scalarRows1 : List Row := [
  ⟨0x0, [], []⟩,
  ⟨0x1, [], [⟨18, 7, .any, .pg⟩, ⟨12, 6, .any, .sW⟩, ⟨6, 6, .any, .sR⟩]⟩,
  ⟨0x2, [], [⟨18, 7, .any, .pg⟩, ⟨12, 6, .any, .sW⟩, ⟨0, 12, .any, .num⟩]⟩,
  ⟨0x3, [], [⟨18, 7, .any, .pg⟩, ⟨12, 6, .any, .sW⟩, ⟨0, 0, .lt 0x10000000, .num⟩]⟩,
  ⟨0x4, [], [⟨18, 7, .any, .pg⟩, ⟨12, 6, .any, .sRW⟩, ⟨0, 0, .lt 0x10000000, .num⟩]⟩,
  ⟨0x5, [], [⟨18, 7, .any, .pg⟩, ⟨12, 6, .any, .sRW⟩, ⟨0, 0, .lt 0x10000000, .num⟩]⟩,
  ⟨0x6, [], [⟨18, 7, .any, .pg⟩, ⟨12, 6, .any, .sRW⟩, ⟨0, 12, .any, .num⟩]⟩,
  ⟨0x8, [], [⟨18, 7, .any, .pg⟩, ⟨12, 6, .any, .sW⟩, ⟨6, 6, .any, .sR⟩, ⟨0, 6, .any, .sR⟩]⟩,
  ⟨0x9, [], [⟨18, 7, .any, .pg⟩, ⟨12, 6, .any, .sW⟩, ⟨6, 6, .any, .sR⟩, ⟨0, 6, .any, .sR⟩]⟩,
  ⟨0xa, [], [⟨18, 7, .any, .pg⟩, ⟨12, 6, .any, .sW⟩, ⟨6, 6, .any, .sR⟩, ⟨0, 6, .any, .sR⟩]⟩,
  ⟨0xb, [], [⟨18, 7, .any, .pg⟩, ⟨12, 6, .any, .sW⟩, ⟨6, 6, .any, .sR⟩, ⟨0, 6, .any, .sR⟩]⟩,
  ⟨0xc, [], [⟨18, 7, .any, .pg⟩, ⟨12, 6, .any, .sW⟩, ⟨6, 6, .any, .sR⟩, ⟨0, 6, .any, .sR⟩]⟩,
  ⟨0xd, [], [⟨18, 7, .any, .pg⟩, ⟨12, 6, .any, .sW⟩, ⟨6, 6, .any, .sR⟩, ⟨0, 6, .any, .sR⟩]⟩,
  ⟨0xe, [], [⟨18, 7, .any, .pg⟩, ⟨12, 6, .any, .sW⟩, ⟨6, 6, .any, .sR⟩, ⟨0, 6, .any, .sR⟩]⟩,
  ⟨0xf, [], [⟨18, 7, .any, .pg⟩, ⟨12, 6, .any, .sW⟩, ⟨6, 6, .any, .sR⟩, ⟨0, 6, .any, .sR⟩]⟩,
  ⟨0x10, [], [⟨18, 7, .any, .pg⟩, ⟨12, 6, .any, .sW⟩, ⟨6, 6, .any, .sR⟩, ⟨0, 6, .any, .sR⟩]⟩,
  ⟨0x11, [], [⟨18, 7, .any, .pg⟩, ⟨12, 6, .any, .sW⟩, ⟨6, 6, .any, .sR⟩, ⟨0, 6, .any, .num⟩]⟩,
  ⟨0x12, [], [⟨18, 7, .any, .pg⟩, ⟨12, 6, .any, .sW⟩, ⟨6, 6, .any, .sR⟩, ⟨0, 6, .any, .num⟩]⟩,
  ⟨0x13, [], [⟨18, 7, .any, .pg⟩, ⟨12, 6, .any, .sW⟩, ⟨6, 6, .any, .sR⟩, ⟨0, 6, .any, .num⟩]⟩,
  ⟨0x14, [], [⟨18, 7, .any, .pg⟩, ⟨12, 6, .any, .sW⟩, ⟨6, 6, .any, .sR⟩, ⟨0, 6, .any, .sR⟩]⟩,
  ⟨0x15, [], [⟨18, 7, .any, .pg⟩, ⟨12, 6, .any, .sW⟩, ⟨6, 6, .any, .sR⟩, ⟨0, 6, .any, .sR⟩]⟩,
  ⟨0x16, [], [⟨18, 7, .any, .pg⟩, ⟨12, 6, .any, .sW⟩, ⟨6, 6, .any, .sR⟩, ⟨0, 6, .any, .sR⟩]⟩,
  ⟨0x17, [], [⟨18, 7, .any, .pg⟩, ⟨12, 6, .any, .sW⟩, ⟨6, 6, .any, .sR⟩, ⟨0, 6, .any, .sR⟩]⟩,
  ⟨0x18, [], [⟨18, 7, .any, .pg⟩, ⟨12, 6, .any, .sW⟩, ⟨6, 6, .any, .sR⟩, ⟨0, 6, .any, .sR⟩]⟩,
  ⟨0x19, [], [⟨18, 7, .any, .pg⟩, ⟨12, 6, .any, .sW⟩, ⟨6, 6, .any, .sR⟩, ⟨0, 6, .any, .sR⟩]⟩,
  ⟨0x1a, [], [⟨18, 7, .any, .pg⟩, ⟨12, 6, .any, .sW⟩, ⟨6, 6, .any, .sR⟩, ⟨0, 6, .any, .sR⟩]⟩,
  ⟨0x1b, [], [⟨18, 7, .any, .pg⟩, ⟨12, 6, .any, .sW⟩, ⟨6, 6, .any, .sR⟩, ⟨0, 6, .any, .sR⟩]⟩,
  ⟨0x1c, [], [⟨18, 7, .any, .pg⟩, ⟨12, 6, .any, .sW⟩, ⟨6, 6, .any, .sR⟩, ⟨0, 6, .any, .sR⟩]⟩,
  ⟨0x1d, [], [⟨18, 7, .any, .pg⟩, ⟨12, 6, .any, .sW⟩, ⟨6, 6, .any, .sR⟩]⟩,
  ⟨0x1e, [], [⟨18, 7, .any, .pg⟩, ⟨12, 6, .any, .sW⟩, ⟨6, 6, .any, .sR⟩]⟩,
  ⟨0x1f, [], [⟨18, 7, .any, .pg⟩, ⟨12, 6, .any, .sW⟩, ⟨6, 6, .any, .sR⟩, ⟨0, 6, .any, .sR⟩]⟩,
  ⟨0x20, [], [⟨18, 7, .any, .pg⟩, ⟨12, 6, .any, .pW⟩, ⟨6, 6, .any, .sR⟩, ⟨0, 6, .any, .sR⟩]⟩,
  ⟨0x21, [], [⟨18, 7, .any, .pg⟩, ⟨12, 6, .any, .pW⟩, ⟨6, 6, .any, .sR⟩, ⟨0, 6, .any, .sR⟩]⟩,
  ⟨0x22, [], [⟨18, 7, .any, .pg⟩, ⟨12, 6, .any, .pW⟩, ⟨6, 6, .any, .sR⟩, ⟨0, 6, .any, .sR⟩]⟩,
  ⟨0x23, [], [⟨18, 7, .any, .pg⟩, ⟨12, 6, .any, .pW⟩, ⟨6, 6, .any, .sR⟩, ⟨0, 6, .any, .sR⟩]⟩,
  ⟨0x24, [], [⟨18, 7, .any, .pg⟩, ⟨12, 6, .any, .pW⟩, ⟨6, 6, .any, .sR⟩, ⟨0, 6, .any, .sR⟩]⟩,
  ⟨0x25, [], [⟨18, 7, .any, .pg⟩, ⟨12, 6, .any, .pW⟩, ⟨6, 6, .any, .sR⟩, ⟨0, 6, .any, .sR⟩]⟩,
  ⟨0x26, [], [⟨18, 7, .any, .pg⟩, ⟨12, 6, .any, .pW⟩, ⟨6, 6, .any, .sR⟩, ⟨0, 6, .any, .num⟩]⟩,
  ⟨0x27, [], [⟨18, 7, .any, .pg⟩, ⟨12, 6, .any, .pW⟩, ⟨6, 6, .any, .pR⟩]⟩,
  ⟨0x28, [], [⟨18, 7, .any, .pg⟩, ⟨12, 6, .any, .pW⟩, ⟨6, 6, .any, .pR⟩, ⟨0, 6, .any, .pR⟩]⟩]

/-- Rows of R45 to R47, R124. -/
def scalarRows2 : List Row := [
  ⟨0x29, [], [⟨18, 7, .any, .pg⟩, ⟨12, 6, .any, .pW⟩, ⟨6, 6, .any, .pR⟩, ⟨0, 6, .any, .pR⟩]⟩,
  ⟨0x2a, [], [⟨18, 7, .any, .pg⟩, ⟨12, 6, .any, .pW⟩, ⟨6, 6, .any, .pR⟩, ⟨0, 6, .any, .pR⟩]⟩,
  ⟨0x2b, [], [⟨18, 7, .any, .pg⟩, ⟨12, 6, .any, .pW⟩, ⟨6, 6, .any, .pR⟩, ⟨0, 6, .any, .pR⟩]⟩,
  ⟨0x2c, [], [⟨18, 7, .any, .pg⟩, ⟨12, 6, .any, .sW⟩]⟩,
  ⟨0x2d, [], [⟨18, 7, .any, .pg⟩, ⟨6, 6, .any, .sR⟩]⟩,
  ⟨0x2e, [], [⟨18, 7, .any, .pg⟩, ⟨12, 2, .any, .num⟩, ⟨15, 3, .any, .num⟩, ⟨6, 6, .any, .sR⟩]⟩,
  ⟨0x30, [], [⟨18, 7, .any, .pg⟩, ⟨12, 6, .any, .sW⟩, ⟨6, 6, .any, .sR⟩, ⟨0, 6, .any, .num⟩]⟩,
  ⟨0x31, [], [⟨18, 7, .any, .pg⟩, ⟨12, 6, .any, .sW⟩, ⟨6, 6, .any, .sR⟩, ⟨0, 6, .any, .num⟩]⟩,
  ⟨0x32, [], [⟨18, 7, .any, .pg⟩, ⟨12, 6, .any, .sW⟩, ⟨6, 6, .any, .sR⟩, ⟨0, 6, .any, .num⟩]⟩,
  ⟨0x33, [], [⟨18, 7, .any, .pg⟩, ⟨12, 6, .any, .sW⟩, ⟨6, 6, .any, .sR⟩, ⟨0, 6, .any, .num⟩]⟩,
  ⟨0x34, [], [⟨18, 7, .any, .pg⟩, ⟨12, 6, .any, .sW⟩, ⟨6, 6, .any, .sR⟩, ⟨0, 6, .any, .num⟩]⟩,
  ⟨0x35, [], [⟨18, 7, .any, .pg⟩, ⟨12, 6, .any, .sR⟩, ⟨6, 6, .any, .sR⟩, ⟨0, 6, .any, .num⟩]⟩,
  ⟨0x36, [], [⟨18, 7, .any, .pg⟩, ⟨12, 6, .any, .sR⟩, ⟨6, 6, .any, .sR⟩, ⟨0, 6, .any, .num⟩]⟩,
  ⟨0x37, [], [⟨18, 7, .any, .pg⟩, ⟨12, 6, .any, .sR⟩, ⟨6, 6, .any, .sR⟩, ⟨0, 6, .any, .num⟩]⟩,
  ⟨0x38, [], [⟨18, 7, .any, .pg⟩, ⟨12, 6, .any, .sR⟩, ⟨6, 6, .any, .sR⟩, ⟨0, 6, .any, .num⟩]⟩]

/-- Rows of R45 to R47, R124. -/
def scalarRows : List Row := scalarRows1 ++ scalarRows2

/-- Rows of R44. -/
def naRows : List Row := [
  ⟨0x0, [], []⟩,
  ⟨0x1, [], [⟨0, 21, .any, .num⟩]⟩,
  ⟨0x2, [], [⟨22, 6, .any, .pR⟩, ⟨21, 1, .any, .num⟩, ⟨0, 21, .any, .num⟩]⟩,
  ⟨0x3, [], [⟨0, 21, .any, .num⟩]⟩,
  ⟨0x4, [], []⟩,
  ⟨0x5, [], [⟨18, 2, .any, .num⟩, ⟨0, 18, .any, .num⟩]⟩,
  ⟨0x6, [], [⟨0, 16, .any, .num⟩]⟩,
  ⟨0x7, [], []⟩,
  ⟨0x8, [], []⟩,
  ⟨0x9, [], [⟨0, 2, .any, .num⟩]⟩]

/-- Rows of R48 to R55, R60. -/
def xRows : List Row := [
  ⟨0x0, [], []⟩,
  ⟨0x1, [], [⟨16, 8, .any, .num⟩, ⟨0, 16, .any, .num⟩]⟩,
  ⟨0x2, [], []⟩,
  ⟨0x3, [], [⟨0, 28, .any, .num⟩]⟩,
  ⟨0x5, [], [⟨24, 4, .any, .tsU⟩, ⟨8, 16, .any, .num⟩]⟩,
  ⟨0x6, [], [⟨24, 4, .any, .num⟩, ⟨22, 2, .any, .num⟩, ⟨20, 2, .lt 3, .num⟩, ⟨17, 3, .any, .num⟩, ⟨13, 4, .any, .tsU⟩, ⟨7, 6, .any, .sW⟩]⟩,
  ⟨0xa, [], [⟨22, 6, .any, .sW⟩, ⟨14, 8, .any, .num⟩]⟩]

/-- Rows of R52, R53. -/
def memRows : List Row := [
  ⟨0x80, [], [⟨21, 2, .ordLoad, .num⟩, ⟨18, 3, .lt 5, .num⟩, ⟨14, 4, .any, .tsU⟩, ⟨8, 6, .any, .sW⟩, ⟨0, 6, .any, .sR⟩]⟩,
  ⟨0x81, [], [⟨21, 2, .ordLoad, .num⟩, ⟨18, 3, .lt 5, .num⟩, ⟨14, 4, .any, .tsU⟩, ⟨8, 6, .any, .sW⟩, ⟨0, 6, .any, .sR⟩]⟩,
  ⟨0x82, [], [⟨21, 2, .ordLoad, .num⟩, ⟨18, 3, .lt 5, .num⟩, ⟨14, 4, .any, .tsU⟩, ⟨8, 6, .any, .sW⟩, ⟨0, 6, .any, .sR⟩]⟩,
  ⟨0x83, [], [⟨21, 2, .ordLoad, .num⟩, ⟨18, 3, .lt 5, .num⟩, ⟨14, 4, .any, .tsU⟩, ⟨8, 6, .any, .sW⟩, ⟨0, 6, .any, .sR⟩]⟩,
  ⟨0x84, [], [⟨21, 2, .ordStore, .num⟩, ⟨18, 3, .lt 5, .num⟩, ⟨14, 4, .any, .tsU⟩, ⟨8, 6, .any, .sR⟩, ⟨0, 6, .any, .sR⟩]⟩,
  ⟨0x85, [], [⟨21, 2, .ordStore, .num⟩, ⟨18, 3, .lt 5, .num⟩, ⟨14, 4, .any, .tsU⟩, ⟨8, 6, .any, .sR⟩, ⟨0, 6, .any, .sR⟩]⟩,
  ⟨0x86, [], [⟨21, 2, .ordStore, .num⟩, ⟨18, 3, .lt 5, .num⟩, ⟨14, 4, .any, .tsU⟩, ⟨8, 6, .any, .sR⟩, ⟨0, 6, .any, .sR⟩]⟩,
  ⟨0x87, [], [⟨21, 2, .ordStore, .num⟩, ⟨18, 3, .lt 5, .num⟩, ⟨14, 4, .any, .tsU⟩, ⟨8, 6, .any, .sR⟩, ⟨0, 6, .any, .sR⟩]⟩,
  ⟨0x88, [], [⟨21, 2, .any, .num⟩, ⟨18, 3, .lt 5, .num⟩, ⟨14, 4, .any, .tsU⟩, ⟨8, 6, .any, .sRW⟩, ⟨6, 2, .range 2 4, .num⟩, ⟨0, 6, .any, .sR⟩]⟩,
  ⟨0x89, [], [⟨21, 2, .any, .num⟩, ⟨18, 3, .lt 5, .num⟩, ⟨14, 4, .any, .tsU⟩, ⟨8, 6, .any, .sRW⟩, ⟨6, 2, .range 2 4, .num⟩, ⟨0, 6, .any, .sR⟩]⟩,
  ⟨0x8a, [], [⟨21, 2, .any, .num⟩, ⟨18, 3, .lt 5, .num⟩, ⟨14, 4, .any, .tsU⟩, ⟨8, 6, .any, .sRW⟩, ⟨6, 2, .range 2 4, .num⟩, ⟨0, 6, .any, .sR⟩]⟩,
  ⟨0x8b, [], [⟨21, 2, .any, .num⟩, ⟨18, 3, .lt 5, .num⟩, ⟨14, 4, .any, .tsU⟩, ⟨8, 6, .any, .sRW⟩, ⟨6, 2, .range 2 4, .num⟩, ⟨0, 6, .any, .sR⟩]⟩,
  ⟨0x8c, [], [⟨21, 2, .any, .num⟩, ⟨18, 3, .lt 5, .num⟩, ⟨14, 4, .any, .tsU⟩, ⟨8, 6, .any, .sRW⟩, ⟨6, 2, .range 2 4, .num⟩, ⟨0, 6, .any, .sR⟩]⟩,
  ⟨0x8d, [], [⟨21, 2, .any, .num⟩, ⟨18, 3, .lt 5, .num⟩, ⟨14, 4, .any, .tsU⟩, ⟨8, 6, .any, .sRW⟩, ⟨6, 2, .range 2 4, .num⟩, ⟨0, 6, .any, .sR⟩]⟩,
  ⟨0x8e, [], [⟨21, 2, .any, .num⟩, ⟨18, 3, .lt 5, .num⟩, ⟨14, 4, .any, .tsU⟩, ⟨8, 6, .any, .sRW⟩, ⟨6, 2, .range 2 4, .num⟩, ⟨0, 6, .any, .sR⟩]⟩,
  ⟨0x8f, [], [⟨21, 2, .any, .num⟩, ⟨18, 3, .lt 5, .num⟩, ⟨14, 4, .any, .tsU⟩, ⟨8, 6, .mult 2 64, .sRW⟩, ⟨6, 2, .range 2 4, .num⟩, ⟨0, 6, .any, .sR⟩]⟩,
  ⟨0x90, [], [⟨21, 2, .any, .num⟩, ⟨18, 3, .lt 5, .num⟩, ⟨14, 4, .any, .tsU⟩, ⟨8, 6, .any, .sRW⟩, ⟨0, 6, .any, .sR⟩]⟩,
  ⟨0x91, [], [⟨21, 2, .any, .num⟩, ⟨18, 3, .lt 5, .num⟩, ⟨14, 4, .any, .tsU⟩, ⟨8, 6, .any, .sW⟩, ⟨0, 6, .any, .sR⟩]⟩,
  ⟨0x92, [], [⟨21, 2, .ordFence, .num⟩, ⟨18, 3, .lt 5, .num⟩, ⟨14, 4, .any, .tsU⟩]⟩,
  ⟨0x93, [], [⟨21, 2, .ordLoad, .num⟩, ⟨18, 3, .lt 5, .num⟩, ⟨14, 4, .any, .tsU⟩, ⟨8, 6, .any, .sR⟩, ⟨0, 4, .any, .hR⟩, ⟨4, 4, .any, .hW⟩]⟩,
  ⟨0x94, [], [⟨21, 2, .ordStore, .num⟩, ⟨18, 3, .lt 5, .num⟩, ⟨14, 4, .any, .tsU⟩, ⟨8, 6, .any, .sR⟩, ⟨0, 4, .any, .hR⟩, ⟨4, 4, .any, .hR⟩]⟩,
  ⟨0x95, [], [⟨21, 2, .ordLoad, .num⟩, ⟨18, 3, .lt 5, .num⟩, ⟨14, 4, .any, .tsU⟩, ⟨8, 6, .any, .sW⟩, ⟨0, 4, .any, .hR⟩]⟩,
  ⟨0x96, [], [⟨21, 2, .ordStore, .num⟩, ⟨18, 3, .lt 5, .num⟩, ⟨14, 4, .any, .tsU⟩, ⟨0, 4, .any, .hR⟩]⟩,
  ⟨0x97, [], [⟨21, 2, .ordLoad, .num⟩, ⟨18, 3, .lt 5, .num⟩, ⟨14, 4, .any, .tsU⟩, ⟨8, 6, .any, .sRW⟩, ⟨6, 2, .any, .num⟩, ⟨0, 4, .any, .hR⟩]⟩,
  ⟨0x98, [], [⟨21, 2, .ordStore, .num⟩, ⟨18, 3, .lt 5, .num⟩, ⟨14, 4, .any, .tsU⟩, ⟨8, 6, .mult 2 64, .sR⟩, ⟨6, 2, .any, .num⟩, ⟨0, 4, .any, .hR⟩]⟩,
  ⟨0x99, [], [⟨21, 2, .any, .num⟩, ⟨18, 3, .lt 5, .num⟩, ⟨14, 4, .any, .tsU⟩, ⟨8, 6, .any, .sR⟩, ⟨0, 6, .any, .sR⟩]⟩,
  ⟨0x9a, [], [⟨21, 2, .any, .num⟩, ⟨18, 3, .lt 5, .num⟩, ⟨14, 4, .any, .tsU⟩, ⟨0, 6, .any, .sR⟩]⟩]

/-- Rows of R56. -/
def engRows : List Row := [
  ⟨0x38, [], [⟨22, 3, .any, .sR8⟩, ⟨18, 4, .any, .tsU⟩, ⟨17, 1, .any, .num⟩, ⟨16, 1, .any, .num⟩, ⟨13, 3, .lt 5, .num⟩, ⟨7, 6, .any, .pW⟩]⟩,
  ⟨0x39, [], [⟨22, 3, .any, .sR8⟩, ⟨18, 4, .any, .tsU⟩, ⟨17, 1, .any, .num⟩, ⟨16, 1, .any, .num⟩, ⟨13, 3, .lt 5, .num⟩, ⟨7, 6, .any, .pW⟩]⟩,
  ⟨0x3a, [], [⟨22, 3, .any, .sR8⟩, ⟨18, 4, .any, .tsU⟩, ⟨17, 1, .any, .num⟩, ⟨16, 1, .any, .num⟩, ⟨13, 3, .lt 5, .num⟩, ⟨7, 6, .any, .pW⟩]⟩,
  ⟨0x3b, [], [⟨22, 3, .any, .sR8⟩, ⟨18, 4, .any, .tsU⟩, ⟨17, 1, .any, .num⟩, ⟨16, 1, .any, .num⟩, ⟨13, 3, .lt 5, .num⟩, ⟨7, 6, .any, .pW⟩]⟩,
  ⟨0x3c, [], [⟨22, 3, .any, .sR8⟩, ⟨18, 4, .any, .tsU⟩, ⟨17, 1, .any, .num⟩, ⟨16, 1, .any, .num⟩, ⟨13, 3, .lt 5, .num⟩, ⟨7, 6, .any, .pW⟩]⟩,
  ⟨0x3d, [], [⟨22, 3, .any, .sR8⟩, ⟨18, 4, .any, .tsU⟩, ⟨17, 1, .any, .num⟩, ⟨16, 1, .any, .num⟩, ⟨13, 3, .lt 5, .num⟩, ⟨7, 6, .any, .pW⟩]⟩,
  ⟨0x3e, [], [⟨22, 3, .any, .sR8⟩, ⟨18, 4, .any, .tsU⟩, ⟨17, 1, .any, .num⟩, ⟨16, 1, .any, .num⟩, ⟨13, 3, .lt 5, .num⟩, ⟨7, 6, .any, .pW⟩]⟩,
  ⟨0x3f, [], [⟨22, 3, .any, .sR8⟩, ⟨18, 4, .any, .tsU⟩, ⟨17, 1, .any, .num⟩, ⟨16, 1, .any, .num⟩, ⟨13, 3, .lt 5, .num⟩, ⟨7, 6, .any, .pW⟩]⟩]

/-- Rows of R58. -/
def csrRows : List Row := [
  ⟨0x20, [], [⟨14, 12, .any, .num⟩, ⟨8, 6, .any, .sW⟩]⟩,
  ⟨0x21, [], [⟨14, 12, .any, .num⟩, ⟨0, 6, .any, .sR⟩]⟩,
  ⟨0x22, [], [⟨14, 12, .any, .num⟩, ⟨8, 6, .any, .sW⟩, ⟨0, 6, .any, .sR⟩]⟩,
  ⟨0x23, [], [⟨14, 12, .any, .num⟩, ⟨8, 6, .any, .sW⟩, ⟨0, 6, .any, .sR⟩]⟩]

/-- Rows of R59. -/
def ctxRows : List Row := [
  ⟨0x90, [], [⟨0, 6, .any, .sR⟩]⟩,
  ⟨0x91, [], [⟨8, 6, .any, .sW⟩]⟩,
  ⟨0x92, [], [⟨0, 6, .any, .sR⟩]⟩,
  ⟨0x93, [], [⟨8, 6, .any, .sW⟩]⟩,
  ⟨0x94, [], [⟨0, 6, .any, .sR⟩]⟩,
  ⟨0x95, [], [⟨8, 6, .any, .sW⟩]⟩,
  ⟨0x96, [], [⟨0, 6, .any, .sR⟩]⟩]

/-- Rows of R69 to R72. -/
def vRows1 : List Row := [
  ⟨0x1, [], [⟨49, 7, .any, .kg⟩, ⟨42, 6, .any, .vW⟩, ⟨36, 6, .any, .vR⟩]⟩,
  ⟨0x2, [], [⟨49, 7, .any, .kg⟩, ⟨18, 3, .tyMovi, .num⟩, ⟨42, 6, .any, .vW⟩, ⟨22, 20, .any, .num⟩]⟩,
  ⟨0x3, [], [⟨49, 7, .any, .kg⟩, ⟨42, 6, .any, .vW⟩, ⟨36, 6, .lt 32, .xR⟩]⟩,
  ⟨0x4, [], [⟨49, 7, .any, .kg⟩, ⟨42, 6, .any, .vW⟩]⟩,
  ⟨0x5, [], [⟨49, 7, .any, .kg⟩, ⟨42, 6, .any, .vW⟩, ⟨0, 12, .lt 5, .num⟩]⟩,
  ⟨0x8, [], [⟨49, 7, .any, .kg⟩, ⟨18, 3, .tyInt, .num⟩, ⟨42, 6, .any, .vW⟩, ⟨36, 6, .any, .vR⟩, ⟨30, 6, .any, .vR⟩]⟩,
  ⟨0x9, [], [⟨49, 7, .any, .kg⟩, ⟨18, 3, .tyInt, .num⟩, ⟨42, 6, .any, .vW⟩, ⟨36, 6, .any, .vR⟩, ⟨30, 6, .any, .vR⟩]⟩,
  ⟨0xa, [], [⟨49, 7, .any, .kg⟩, ⟨18, 3, .tyInt, .num⟩, ⟨42, 6, .any, .vW⟩, ⟨36, 6, .any, .vR⟩, ⟨30, 6, .any, .vR⟩]⟩,
  ⟨0xb, [], [⟨49, 7, .any, .kg⟩, ⟨18, 3, .tyInt, .num⟩, ⟨42, 6, .any, .vW⟩, ⟨36, 6, .any, .vR⟩, ⟨30, 6, .any, .vR⟩]⟩,
  ⟨0xc, [], [⟨49, 7, .any, .kg⟩, ⟨18, 3, .tyInt, .num⟩, ⟨42, 6, .any, .vW⟩, ⟨36, 6, .any, .vR⟩, ⟨30, 6, .any, .vR⟩]⟩,
  ⟨0xd, [], [⟨49, 7, .any, .kg⟩, ⟨18, 3, .tyInt, .num⟩, ⟨42, 6, .any, .vW⟩, ⟨36, 6, .any, .vR⟩, ⟨30, 6, .any, .vR⟩]⟩,
  ⟨0xe, [], [⟨49, 7, .any, .kg⟩, ⟨18, 3, .tyInt, .num⟩, ⟨42, 6, .any, .vW⟩, ⟨36, 6, .any, .vR⟩, ⟨30, 6, .any, .vR⟩]⟩,
  ⟨0xf, [], [⟨49, 7, .any, .kg⟩, ⟨18, 3, .tyInt, .num⟩, ⟨42, 6, .any, .vW⟩, ⟨36, 6, .any, .vR⟩, ⟨30, 6, .any, .vR⟩]⟩,
  ⟨0x10, [], [⟨49, 7, .any, .kg⟩, ⟨42, 6, .any, .vW⟩, ⟨36, 6, .any, .vR⟩, ⟨30, 6, .any, .vR⟩]⟩,
  ⟨0x11, [], [⟨49, 7, .any, .kg⟩, ⟨42, 6, .any, .vW⟩, ⟨36, 6, .any, .vR⟩, ⟨30, 6, .any, .vR⟩]⟩,
  ⟨0x12, [], [⟨49, 7, .any, .kg⟩, ⟨42, 6, .any, .vW⟩, ⟨36, 6, .any, .vR⟩, ⟨30, 6, .any, .vR⟩]⟩,
  ⟨0x13, [], [⟨49, 7, .any, .kg⟩, ⟨42, 6, .any, .vW⟩, ⟨36, 6, .any, .vR⟩, ⟨30, 6, .any, .vR⟩]⟩,
  ⟨0x14, [], [⟨49, 7, .any, .kg⟩, ⟨18, 3, .tyInt, .num⟩, ⟨42, 6, .any, .vW⟩, ⟨36, 6, .any, .vR⟩, ⟨30, 6, .any, .vR⟩]⟩,
  ⟨0x15, [], [⟨49, 7, .any, .kg⟩, ⟨18, 3, .tyInt, .num⟩, ⟨42, 6, .any, .vW⟩, ⟨36, 6, .any, .vR⟩, ⟨30, 6, .any, .vR⟩]⟩,
  ⟨0x16, [], [⟨49, 7, .any, .kg⟩, ⟨18, 3, .tyInt, .num⟩, ⟨42, 6, .any, .vW⟩, ⟨36, 6, .any, .vR⟩, ⟨30, 6, .any, .vR⟩]⟩,
  ⟨0x17, [], [⟨49, 7, .any, .kg⟩, ⟨18, 3, .tyInt, .num⟩, ⟨42, 6, .any, .vW⟩, ⟨36, 6, .any, .vR⟩, ⟨0, 12, .any, .num⟩]⟩,
  ⟨0x18, [], [⟨49, 7, .any, .kg⟩, ⟨18, 3, .tyInt, .num⟩, ⟨42, 6, .any, .vW⟩, ⟨36, 6, .any, .vR⟩]⟩,
  ⟨0x19, [], [⟨49, 7, .any, .kg⟩, ⟨18, 3, .tyInt, .num⟩, ⟨42, 6, .any, .vW⟩, ⟨36, 6, .any, .vR⟩]⟩,
  ⟨0x1c, [], [⟨49, 7, .any, .kg⟩, ⟨42, 6, .any, .vW⟩, ⟨36, 6, .any, .vR⟩, ⟨30, 6, .any, .vR⟩, ⟨12, 6, .any, .kR⟩]⟩,
  ⟨0x1d, [], [⟨49, 7, .any, .kg⟩, ⟨42, 6, .any, .vW⟩, ⟨36, 6, .any, .vX⟩, ⟨30, 6, .any, .vR⟩]⟩,
  ⟨0x1e, [], [⟨49, 7, .any, .kg⟩, ⟨42, 6, .any, .vW⟩, ⟨36, 6, .any, .vX⟩, ⟨0, 12, .lt 64, .num⟩]⟩,
  ⟨0x20, [], [⟨49, 7, .any, .kg⟩, ⟨18, 3, .tyInt, .num⟩, ⟨36, 6, .any, .vR⟩, ⟨30, 6, .any, .vR⟩, ⟨12, 6, .any, .kW⟩]⟩,
  ⟨0x21, [], [⟨49, 7, .any, .kg⟩, ⟨18, 3, .tyInt, .num⟩, ⟨36, 6, .any, .vR⟩, ⟨30, 6, .any, .vR⟩, ⟨12, 6, .any, .kW⟩]⟩,
  ⟨0x22, [], [⟨49, 7, .any, .kg⟩, ⟨18, 3, .tyInt, .num⟩, ⟨36, 6, .any, .vR⟩, ⟨30, 6, .any, .vR⟩, ⟨12, 6, .any, .kW⟩]⟩,
  ⟨0x23, [], [⟨49, 7, .any, .kg⟩, ⟨18, 3, .tyInt, .num⟩, ⟨36, 6, .any, .vR⟩, ⟨30, 6, .any, .vR⟩, ⟨12, 6, .any, .kW⟩]⟩,
  ⟨0x24, [], [⟨49, 7, .any, .kg⟩, ⟨18, 3, .tyInt, .num⟩, ⟨36, 6, .any, .vR⟩, ⟨30, 6, .any, .vR⟩, ⟨12, 6, .any, .kW⟩]⟩,
  ⟨0x25, [], [⟨49, 7, .any, .kg⟩, ⟨18, 3, .tyInt, .num⟩, ⟨36, 6, .any, .vR⟩, ⟨30, 6, .any, .vR⟩, ⟨12, 6, .any, .kW⟩]⟩,
  ⟨0x26, [(2, 18)], [⟨49, 7, .any, .kg⟩, ⟨36, 6, .any, .vR⟩, ⟨30, 6, .any, .vR⟩, ⟨12, 6, .any, .kW⟩]⟩,
  ⟨0x27, [(2, 18)], [⟨49, 7, .any, .kg⟩, ⟨36, 6, .any, .vR⟩, ⟨30, 6, .any, .vR⟩, ⟨12, 6, .any, .kW⟩]⟩,
  ⟨0x28, [(2, 18)], [⟨49, 7, .any, .kg⟩, ⟨36, 6, .any, .vR⟩, ⟨30, 6, .any, .vR⟩, ⟨12, 6, .any, .kW⟩]⟩,
  ⟨0x29, [(2, 18)], [⟨49, 7, .any, .kg⟩, ⟨36, 6, .any, .vR⟩, ⟨30, 6, .any, .vR⟩, ⟨12, 6, .any, .kW⟩]⟩,
  ⟨0x30, [(2, 18)], [⟨49, 7, .any, .kg⟩, ⟨21, 3, .rmNotSr, .num⟩, ⟨42, 6, .any, .vW⟩, ⟨36, 6, .any, .vR⟩, ⟨30, 6, .any, .vR⟩]⟩,
  ⟨0x31, [(2, 18)], [⟨49, 7, .any, .kg⟩, ⟨21, 3, .rmNotSr, .num⟩, ⟨42, 6, .any, .vW⟩, ⟨36, 6, .any, .vR⟩, ⟨30, 6, .any, .vR⟩]⟩,
  ⟨0x32, [(2, 18)], [⟨49, 7, .any, .kg⟩, ⟨21, 3, .rmNotSr, .num⟩, ⟨42, 6, .any, .vW⟩, ⟨36, 6, .any, .vR⟩, ⟨30, 6, .any, .vR⟩]⟩,
  ⟨0x33, [(2, 18)], [⟨49, 7, .any, .kg⟩, ⟨21, 3, .rmNotSr, .num⟩, ⟨42, 6, .any, .vW⟩, ⟨36, 6, .any, .vR⟩, ⟨30, 6, .any, .vR⟩, ⟨24, 6, .any, .vR⟩]⟩]

/-- Rows of R69 to R72. -/
def vRows2 : List Row := [
  ⟨0x34, [(2, 18)], [⟨49, 7, .any, .kg⟩, ⟨21, 3, .rmNotSr, .num⟩, ⟨42, 6, .any, .vW⟩, ⟨36, 6, .any, .vR⟩, ⟨30, 6, .any, .vR⟩, ⟨24, 6, .any, .vR⟩]⟩,
  ⟨0x35, [(2, 18)], [⟨49, 7, .any, .kg⟩, ⟨21, 3, .rmNotSr, .num⟩, ⟨42, 6, .any, .vW⟩, ⟨36, 6, .any, .vR⟩, ⟨30, 6, .any, .vR⟩, ⟨24, 6, .any, .vR⟩]⟩,
  ⟨0x36, [(2, 18)], [⟨49, 7, .any, .kg⟩, ⟨42, 6, .any, .vW⟩, ⟨36, 6, .any, .vR⟩, ⟨30, 6, .any, .vR⟩]⟩,
  ⟨0x37, [(2, 18)], [⟨49, 7, .any, .kg⟩, ⟨42, 6, .any, .vW⟩, ⟨36, 6, .any, .vR⟩, ⟨30, 6, .any, .vR⟩]⟩,
  ⟨0x38, [(2, 18)], [⟨49, 7, .any, .kg⟩, ⟨42, 6, .any, .vW⟩, ⟨36, 6, .any, .vR⟩]⟩,
  ⟨0x39, [(2, 18)], [⟨49, 7, .any, .kg⟩, ⟨42, 6, .any, .vW⟩, ⟨36, 6, .any, .vR⟩]⟩,
  ⟨0x3a, [(2, 18)], [⟨49, 7, .any, .kg⟩, ⟨21, 3, .rmNotSr, .num⟩, ⟨42, 6, .any, .vW⟩, ⟨36, 6, .any, .vR⟩, ⟨30, 6, .any, .vR⟩]⟩,
  ⟨0x3b, [(2, 18)], [⟨49, 7, .any, .kg⟩, ⟨21, 3, .rmNotSr, .num⟩, ⟨42, 6, .any, .vW⟩, ⟨36, 6, .any, .vR⟩]⟩,
  ⟨0x3c, [(2, 18)], [⟨49, 7, .any, .kg⟩, ⟨21, 3, .rmNotSr, .num⟩, ⟨42, 6, .any, .vW⟩, ⟨36, 6, .any, .vR⟩]⟩,
  ⟨0x3d, [(2, 18)], [⟨49, 7, .any, .kg⟩, ⟨21, 3, .rmNotSr, .num⟩, ⟨42, 6, .any, .vW⟩, ⟨36, 6, .any, .vR⟩]⟩,
  ⟨0x3e, [(2, 18)], [⟨49, 7, .any, .kg⟩, ⟨21, 3, .rmNotSr, .num⟩, ⟨42, 6, .any, .vW⟩, ⟨36, 6, .any, .vR⟩]⟩,
  ⟨0x3f, [(2, 18)], [⟨49, 7, .any, .kg⟩, ⟨42, 6, .any, .vW⟩, ⟨36, 6, .any, .vR⟩]⟩,
  ⟨0x40, [], [⟨49, 7, .any, .kg⟩, ⟨21, 3, .rmNotSr, .num⟩, ⟨42, 6, .lt 32, .xW⟩, ⟨36, 6, .any, .vR⟩]⟩,
  ⟨0x41, [], [⟨49, 7, .any, .kg⟩, ⟨42, 6, .lt 32, .xW⟩, ⟨36, 6, .any, .vR⟩]⟩,
  ⟨0x42, [], [⟨49, 7, .any, .kg⟩, ⟨42, 6, .lt 32, .xW⟩, ⟨36, 6, .any, .vR⟩]⟩,
  ⟨0x43, [], [⟨49, 7, .any, .kg⟩, ⟨18, 3, .ty32, .num⟩, ⟨42, 6, .lt 32, .xW⟩, ⟨36, 6, .any, .vR⟩]⟩,
  ⟨0x44, [], [⟨49, 7, .any, .kg⟩, ⟨18, 3, .ty32, .num⟩, ⟨42, 6, .lt 32, .xW⟩, ⟨36, 6, .any, .vR⟩]⟩,
  ⟨0x48, [], [⟨49, 7, .any, .kg⟩, ⟨42, 6, .lt 32, .xW⟩, ⟨36, 6, .lt 32, .xR⟩]⟩,
  ⟨0x49, [], [⟨49, 7, .any, .kg⟩, ⟨42, 6, .lt 32, .xW⟩, ⟨22, 20, .any, .num⟩]⟩,
  ⟨0x4a, [], [⟨49, 7, .any, .kg⟩, ⟨42, 6, .lt 32, .xW⟩, ⟨36, 6, .lt 32, .xR⟩, ⟨30, 6, .lt 32, .xR⟩]⟩,
  ⟨0x4b, [], [⟨49, 7, .any, .kg⟩, ⟨42, 6, .lt 32, .xW⟩, ⟨36, 6, .lt 32, .xR⟩, ⟨30, 6, .lt 32, .xR⟩]⟩,
  ⟨0x4c, [], [⟨49, 7, .any, .kg⟩, ⟨42, 6, .lt 32, .xW⟩, ⟨36, 6, .lt 32, .xR⟩, ⟨30, 6, .lt 32, .xR⟩]⟩,
  ⟨0x4d, [], [⟨49, 7, .any, .kg⟩, ⟨42, 6, .lt 32, .xW⟩, ⟨36, 6, .lt 32, .xR⟩, ⟨30, 6, .lt 32, .xR⟩]⟩,
  ⟨0x4e, [], [⟨49, 7, .any, .kg⟩, ⟨42, 6, .lt 32, .xW⟩, ⟨36, 6, .lt 32, .xR⟩, ⟨30, 6, .lt 32, .xR⟩]⟩,
  ⟨0x4f, [], [⟨49, 7, .any, .kg⟩, ⟨42, 6, .lt 32, .xW⟩, ⟨36, 6, .lt 32, .xR⟩, ⟨30, 6, .lt 32, .xR⟩]⟩,
  ⟨0x50, [], [⟨49, 7, .any, .kg⟩, ⟨42, 6, .lt 32, .xW⟩, ⟨36, 6, .lt 32, .xR⟩, ⟨30, 6, .lt 32, .xR⟩]⟩,
  ⟨0x51, [], [⟨49, 7, .any, .kg⟩, ⟨21, 3, .lt 6, .num⟩, ⟨36, 6, .lt 32, .xR⟩, ⟨30, 6, .lt 32, .xR⟩, ⟨12, 6, .any, .kW⟩]⟩,
  ⟨0x52, [], [⟨49, 7, .any, .kg⟩, ⟨42, 6, .lt 32, .xW⟩, ⟨36, 6, .any, .vX⟩, ⟨0, 12, .lt 64, .num⟩]⟩,
  ⟨0x53, [], [⟨49, 7, .any, .kg⟩, ⟨42, 6, .lt 32, .xW⟩, ⟨36, 6, .any, .kR⟩]⟩]

/-- Rows of R69 to R72. -/
def vRows : List Row := vRows1 ++ vRows2

/-- Rows of R71, R182. -/
def convRows : List Row := [
  ⟨0x60, [], [⟨49, 7, .any, .kg⟩, ⟨21, 3, .rmAny, .num⟩, ⟨42, 6, .any, .vW⟩, ⟨36, 6, .any, .vR⟩]⟩,
  ⟨0x61, [], [⟨49, 7, .any, .kg⟩, ⟨21, 3, .rmAny, .num⟩, ⟨42, 6, .any, .vW⟩, ⟨36, 6, .any, .vR⟩]⟩,
  ⟨0x62, [], [⟨49, 7, .any, .kg⟩, ⟨21, 3, .rmAny, .num⟩, ⟨42, 6, .any, .vW⟩, ⟨36, 6, .any, .vR⟩]⟩,
  ⟨0x63, [], [⟨49, 7, .any, .kg⟩, ⟨42, 6, .any, .vW⟩, ⟨36, 6, .any, .vR⟩]⟩,
  ⟨0x64, [], [⟨49, 7, .any, .kg⟩, ⟨42, 6, .any, .vW3⟩, ⟨36, 6, .any, .vR⟩]⟩,
  ⟨0x65, [], [⟨49, 7, .any, .kg⟩, ⟨4, 1, .any, .num⟩, ⟨42, 6, .any, .vW⟩, ⟨36, 6, .any, .vR⟩]⟩,
  ⟨0x66, [], [⟨49, 7, .any, .kg⟩, ⟨21, 3, .rmNotSr, .num⟩, ⟨42, 6, .any, .vW⟩, ⟨36, 6, .any, .vR⟩, ⟨30, 6, .any, .vR⟩]⟩,
  ⟨0x67, [], [⟨49, 7, .any, .kg⟩, ⟨21, 3, .rmQbfp, .num⟩, ⟨4, 1, .any, .num⟩, ⟨0, 4, .range 2 9, .num⟩, ⟨42, 6, .any, .vW2⟩, ⟨36, 6, .any, .vR⟩]⟩,
  ⟨0x68, [], [⟨49, 7, .any, .kg⟩, ⟨4, 1, .any, .num⟩, ⟨0, 4, .range 2 9, .num⟩, ⟨42, 6, .any, .vW⟩, ⟨36, 6, .any, .vR⟩, ⟨30, 6, .any, .vX⟩]⟩,
  ⟨0x69, [], [⟨49, 7, .any, .kg⟩, ⟨21, 3, .rmAny, .num⟩, ⟨0, 2, .any, .num⟩, ⟨42, 6, .any, .vRW⟩, ⟨36, 6, .any, .vR⟩]⟩,
  ⟨0x6a, [], [⟨49, 7, .any, .kg⟩, ⟨42, 6, .any, .vW⟩]⟩,
  ⟨0x6b, [], [⟨49, 7, .any, .kg⟩, ⟨0, 2, .any, .num⟩, ⟨42, 6, .any, .vW⟩, ⟨36, 6, .any, .vR⟩]⟩]

/-- Rows of R73, R74. -/
def mxRows : List Row := [
  ⟨0x1, [], [⟨49, 7, .any, .kg⟩, ⟨41, 7, .any, .num⟩, ⟨39, 2, .any, .num⟩, ⟨33, 6, .any, .num⟩, ⟨29, 4, .any, .stU⟩, ⟨25, 4, .any, .stU⟩, ⟨16, 5, .any, .tkU⟩, ⟨15, 1, .any, .num⟩, ⟨14, 1, .any, .num⟩, ⟨13, 1, .any, .num⟩]⟩,
  ⟨0x2, [], [⟨49, 7, .any, .kg⟩, ⟨41, 7, .any, .num⟩, ⟨39, 2, .any, .num⟩, ⟨33, 6, .any, .num⟩, ⟨29, 4, .any, .stU⟩, ⟨25, 4, .any, .stU⟩, ⟨16, 5, .any, .tkU⟩, ⟨15, 1, .any, .num⟩, ⟨14, 1, .any, .num⟩, ⟨13, 1, .any, .num⟩]⟩,
  ⟨0x3, [], [⟨49, 7, .any, .kg⟩, ⟨41, 7, .any, .num⟩, ⟨39, 2, .any, .num⟩, ⟨33, 6, .any, .num⟩, ⟨29, 4, .any, .stU⟩, ⟨25, 4, .any, .stU⟩, ⟨16, 5, .any, .tkU⟩, ⟨15, 1, .any, .num⟩, ⟨14, 1, .any, .num⟩, ⟨13, 1, .any, .num⟩, ⟨8, 4, .any, .num⟩]⟩,
  ⟨0x4, [], [⟨49, 7, .any, .kg⟩, ⟨41, 7, .any, .num⟩, ⟨39, 2, .any, .num⟩, ⟨33, 6, .any, .num⟩, ⟨16, 5, .any, .tkU⟩]⟩,
  ⟨0x5, [], [⟨49, 7, .any, .kg⟩, ⟨41, 7, .any, .num⟩, ⟨35, 6, .any, .vW⟩, ⟨31, 4, .any, .num⟩]⟩,
  ⟨0x6, [], [⟨49, 7, .any, .kg⟩, ⟨41, 7, .any, .num⟩, ⟨35, 6, .any, .vR⟩, ⟨31, 4, .any, .num⟩]⟩,
  ⟨0x7, [], [⟨49, 7, .any, .kg⟩, ⟨41, 7, .any, .num⟩, ⟨39, 2, .any, .num⟩, ⟨33, 6, .any, .num⟩, ⟨21, 4, .any, .stU⟩, ⟨16, 5, .any, .tkU⟩]⟩,
  ⟨0x8, [], []⟩,
  ⟨0x9, [], [⟨49, 7, .any, .kg⟩, ⟨43, 5, .mult 2 32, .xR2⟩]⟩]

/-- Rows of R75, R76. -/
def lsRows : List Row := [
  ⟨0x1, [], [⟨49, 7, .any, .kg⟩, ⟨48, 1, .any, .num⟩, ⟨42, 6, .any, .vW⟩, ⟨26, 4, .any, .stU⟩, ⟨21, 5, .any, .tkU⟩]⟩,
  ⟨0x2, [], [⟨49, 7, .any, .kg⟩, ⟨36, 6, .any, .vR⟩, ⟨26, 4, .any, .stU⟩, ⟨21, 5, .any, .tkU⟩]⟩,
  ⟨0x3, [], [⟨49, 7, .any, .kg⟩, ⟨48, 1, .any, .num⟩, ⟨42, 6, .any, .vW⟩, ⟨36, 6, .lt 32, .xR⟩, ⟨21, 5, .any, .tkU⟩, ⟨0, 12, .any, .num⟩]⟩,
  ⟨0x4, [], [⟨49, 7, .any, .kg⟩, ⟨42, 6, .any, .vR⟩, ⟨36, 6, .lt 32, .xR⟩, ⟨21, 5, .any, .tkU⟩, ⟨0, 12, .any, .num⟩]⟩,
  ⟨0x5, [], [⟨49, 7, .any, .kg⟩, ⟨48, 1, .any, .num⟩, ⟨42, 6, .any, .vW⟩, ⟨36, 6, .any, .vR⟩, ⟨30, 6, .lt 32, .xR⟩, ⟨21, 5, .any, .tkU⟩]⟩,
  ⟨0x6, [], [⟨49, 7, .any, .kg⟩, ⟨42, 6, .any, .vR⟩, ⟨36, 6, .any, .vR⟩, ⟨30, 6, .lt 32, .xR⟩, ⟨21, 5, .any, .tkU⟩]⟩,
  ⟨0x7, [], [⟨49, 7, .any, .kg⟩, ⟨48, 1, .any, .num⟩, ⟨42, 6, .lt 32, .xW⟩, ⟨36, 6, .lt 32, .xR⟩, ⟨21, 5, .any, .tkU⟩, ⟨16, 2, .any, .num⟩, ⟨0, 12, .any, .num⟩]⟩,
  ⟨0x8, [], [⟨49, 7, .any, .kg⟩, ⟨42, 6, .lt 32, .xR⟩, ⟨36, 6, .lt 32, .xR⟩, ⟨21, 5, .any, .tkU⟩, ⟨16, 2, .any, .num⟩, ⟨0, 12, .any, .num⟩]⟩,
  ⟨0x9, [], [⟨49, 7, .any, .kg⟩, ⟨42, 6, .lt 32, .xW⟩, ⟨36, 6, .lt 32, .xR⟩, ⟨21, 5, .any, .tkU⟩, ⟨18, 3, .lt 5, .num⟩, ⟨16, 2, .any, .num⟩, ⟨0, 12, .any, .num⟩]⟩,
  ⟨0xa, [], [⟨49, 7, .any, .kg⟩, ⟨42, 6, .lt 32, .xR⟩, ⟨36, 6, .lt 32, .xR⟩, ⟨21, 5, .any, .tkU⟩, ⟨18, 3, .lt 5, .num⟩, ⟨16, 2, .any, .num⟩, ⟨0, 12, .any, .num⟩]⟩,
  ⟨0xb, [], [⟨49, 7, .any, .kg⟩, ⟨21, 5, .any, .tkU⟩, ⟨18, 3, .lt 5, .num⟩, ⟨14, 2, .ordFence, .num⟩]⟩,
  ⟨0x10, [], [⟨49, 7, .any, .kg⟩, ⟨42, 6, .lt 32, .xRW⟩, ⟨36, 6, .lt 32, .xR⟩, ⟨21, 5, .any, .tkU⟩, ⟨18, 3, .lt 5, .num⟩, ⟨16, 2, .range 2 4, .num⟩]⟩,
  ⟨0x11, [], [⟨49, 7, .any, .kg⟩, ⟨42, 6, .lt 32, .xRW⟩, ⟨36, 6, .lt 32, .xR⟩, ⟨21, 5, .any, .tkU⟩, ⟨18, 3, .lt 5, .num⟩, ⟨16, 2, .range 2 4, .num⟩]⟩,
  ⟨0x12, [], [⟨49, 7, .any, .kg⟩, ⟨42, 6, .lt 32, .xRW⟩, ⟨36, 6, .lt 32, .xR⟩, ⟨30, 6, .lt 32, .xR⟩, ⟨21, 5, .any, .tkU⟩, ⟨18, 3, .lt 5, .num⟩, ⟨16, 2, .range 2 4, .num⟩]⟩,
  ⟨0x13, [], [⟨49, 7, .any, .kg⟩, ⟨42, 6, .lt 32, .xRW⟩, ⟨36, 6, .lt 32, .xR⟩, ⟨21, 5, .any, .tkU⟩, ⟨18, 3, .lt 5, .num⟩, ⟨16, 2, .range 2 4, .num⟩]⟩,
  ⟨0x14, [(2, 16)], [⟨49, 7, .any, .kg⟩, ⟨42, 6, .any, .vR⟩, ⟨36, 6, .any, .vR⟩, ⟨30, 6, .lt 32, .xR⟩, ⟨21, 5, .any, .tkU⟩, ⟨18, 3, .lt 5, .num⟩]⟩,
  ⟨0x15, [(2, 16)], [⟨49, 7, .any, .kg⟩, ⟨42, 6, .any, .vR⟩, ⟨36, 6, .any, .vR⟩, ⟨30, 6, .lt 32, .xR⟩, ⟨21, 5, .any, .tkU⟩, ⟨18, 3, .lt 5, .num⟩]⟩,
  ⟨0x16, [(2, 16)], [⟨49, 7, .any, .kg⟩, ⟨42, 6, .lt 32, .xW⟩, ⟨36, 6, .lt 32, .xR⟩, ⟨21, 5, .any, .tkU⟩, ⟨18, 3, .lt 5, .num⟩]⟩,
  ⟨0x20, [], [⟨49, 7, .any, .kg⟩, ⟨36, 6, .mult 8 32, .xR8⟩, ⟨26, 4, .any, .stU⟩]⟩,
  ⟨0x21, [], [⟨49, 7, .any, .kg⟩, ⟨42, 6, .mult 8 32, .xW8⟩, ⟨26, 4, .any, .stU⟩]⟩,
  ⟨0x22, [], [⟨49, 7, .any, .kg⟩, ⟨26, 4, .any, .stU⟩, ⟨21, 5, .any, .tkU⟩]⟩,
  ⟨0x23, [], [⟨49, 7, .any, .kg⟩, ⟨36, 6, .lt 32, .xR⟩, ⟨26, 4, .any, .stU⟩, ⟨21, 5, .any, .tkU⟩]⟩,
  ⟨0x24, [], [⟨49, 7, .any, .kg⟩, ⟨36, 6, .lt 32, .xR⟩, ⟨26, 4, .any, .stU⟩, ⟨21, 5, .any, .tkU⟩]⟩,
  ⟨0x28, [], [⟨49, 7, .any, .kg⟩, ⟨21, 5, .any, .tkU⟩, ⟨0, 12, .any, .num⟩]⟩,
  ⟨0x29, [], [⟨49, 7, .any, .kg⟩, ⟨36, 6, .lt 32, .xR⟩, ⟨21, 5, .any, .tkU⟩, ⟨0, 12, .any, .num⟩]⟩,
  ⟨0x2a, [], [⟨49, 7, .any, .kg⟩, ⟨36, 6, .lt 32, .xR⟩, ⟨21, 5, .any, .tkU⟩, ⟨0, 12, .any, .num⟩]⟩,
  ⟨0x2b, [], [⟨49, 7, .any, .kg⟩, ⟨21, 5, .any, .tkU⟩]⟩,
  ⟨0x30, [], [⟨49, 7, .any, .kg⟩, ⟨48, 1, .any, .num⟩, ⟨42, 6, .lt 32, .xW⟩, ⟨36, 6, .lt 16, .hR⟩, ⟨30, 6, .lt 32, .xR⟩, ⟨21, 5, .any, .tkU⟩, ⟨16, 2, .any, .num⟩]⟩,
  ⟨0x31, [], [⟨49, 7, .any, .kg⟩, ⟨42, 6, .lt 32, .xR⟩, ⟨36, 6, .lt 16, .hR⟩, ⟨30, 6, .lt 32, .xR⟩, ⟨21, 5, .any, .tkU⟩, ⟨16, 2, .any, .num⟩]⟩,
  ⟨0x32, [], [⟨49, 7, .any, .kg⟩, ⟨48, 1, .any, .num⟩, ⟨42, 6, .any, .vW⟩, ⟨36, 6, .lt 16, .hR⟩, ⟨30, 6, .lt 32, .xR⟩, ⟨21, 5, .any, .tkU⟩]⟩,
  ⟨0x33, [], [⟨49, 7, .any, .kg⟩, ⟨42, 6, .any, .vR⟩, ⟨36, 6, .lt 16, .hR⟩, ⟨30, 6, .lt 32, .xR⟩, ⟨21, 5, .any, .tkU⟩]⟩,
  ⟨0x34, [], [⟨49, 7, .any, .kg⟩, ⟨48, 1, .any, .num⟩, ⟨42, 6, .lt 16, .hW⟩, ⟨36, 6, .lt 16, .hR⟩, ⟨30, 6, .lt 32, .xR⟩, ⟨21, 5, .any, .tkU⟩]⟩,
  ⟨0x35, [], [⟨49, 7, .any, .kg⟩, ⟨42, 6, .lt 16, .hR⟩, ⟨36, 6, .lt 16, .hR⟩, ⟨30, 6, .lt 32, .xR⟩, ⟨21, 5, .any, .tkU⟩]⟩,
  ⟨0x36, [], [⟨49, 7, .any, .kg⟩, ⟨42, 6, .lt 32, .xW⟩, ⟨36, 6, .lt 16, .hR⟩, ⟨21, 5, .any, .tkU⟩]⟩,
  ⟨0x37, [], [⟨49, 7, .any, .kg⟩, ⟨36, 6, .lt 16, .hR⟩, ⟨21, 5, .any, .tkU⟩]⟩,
  ⟨0x38, [], [⟨49, 7, .any, .kg⟩, ⟨42, 6, .lt 16, .hW⟩, ⟨36, 6, .lt 16, .hR⟩]⟩,
  ⟨0x39, [], [⟨49, 7, .any, .kg⟩, ⟨42, 6, .lt 32, .xW⟩, ⟨36, 6, .lt 16, .hR⟩]⟩,
  ⟨0x40, [], [⟨49, 7, .any, .kg⟩, ⟨42, 6, .lt 32, .xW⟩, ⟨21, 5, .any, .tkU⟩, ⟨0, 12, .lt 8, .num⟩]⟩,
  ⟨0x41, [], [⟨49, 7, .any, .kg⟩, ⟨36, 6, .lt 32, .xR⟩, ⟨30, 6, .lt 32, .xR⟩, ⟨21, 5, .any, .tkU⟩, ⟨18, 3, .lt 5, .num⟩]⟩,
  ⟨0x42, [], [⟨49, 7, .any, .kg⟩, ⟨36, 6, .lt 32, .xR⟩, ⟨21, 5, .any, .tkU⟩, ⟨18, 3, .lt 5, .num⟩]⟩]

/-- Rows of R77. -/
def xfRows : List Row := [
  ⟨0x1, [], [⟨49, 7, .any, .kg⟩, ⟨42, 6, .any, .vW⟩, ⟨36, 6, .any, .vR⟩, ⟨24, 6, .any, .num⟩, ⟨17, 5, .any, .tkU⟩]⟩,
  ⟨0x2, [], [⟨49, 7, .any, .kg⟩, ⟨36, 6, .lt 32, .xR⟩, ⟨30, 6, .lt 32, .xR⟩, ⟨24, 6, .any, .num⟩, ⟨17, 5, .any, .tkU⟩]⟩,
  ⟨0x3, [], [⟨49, 7, .any, .kg⟩, ⟨36, 6, .lt 32, .xR⟩, ⟨24, 6, .any, .num⟩, ⟨17, 5, .any, .tkU⟩]⟩,
  ⟨0x4, [], [⟨49, 7, .any, .kg⟩, ⟨42, 6, .any, .vW⟩, ⟨36, 6, .any, .vR⟩, ⟨24, 6, .any, .num⟩, ⟨17, 5, .any, .tkU⟩]⟩,
  ⟨0x5, [], [⟨49, 7, .any, .kg⟩, ⟨22, 2, .any, .xd8⟩, ⟨17, 5, .any, .tkU⟩, ⟨14, 3, .lt 5, .num⟩, ⟨13, 1, .any, .num⟩, ⟨12, 1, .any, .num⟩, ⟨6, 6, .any, .kW⟩]⟩,
  ⟨0x6, [], [⟨49, 7, .any, .kg⟩, ⟨42, 6, .any, .vR⟩, ⟨36, 6, .any, .vR⟩, ⟨22, 2, .any, .xd8⟩, ⟨17, 5, .any, .tkU⟩, ⟨14, 3, .lt 5, .num⟩, ⟨6, 6, .any, .kW⟩]⟩,
  ⟨0x7, [], [⟨49, 7, .any, .kg⟩, ⟨22, 2, .any, .xd8⟩, ⟨17, 5, .any, .tkU⟩, ⟨14, 3, .lt 5, .num⟩, ⟨13, 1, .any, .num⟩, ⟨12, 1, .any, .num⟩, ⟨6, 6, .any, .kW⟩]⟩,
  ⟨0x8, [], [⟨49, 7, .any, .kg⟩, ⟨22, 2, .any, .xd8⟩, ⟨17, 5, .any, .tkU⟩, ⟨14, 3, .lt 5, .num⟩, ⟨13, 1, .any, .num⟩, ⟨12, 1, .any, .num⟩, ⟨6, 6, .any, .kW⟩]⟩,
  ⟨0xa, [], [⟨36, 6, .lt 32, .xR⟩]⟩]

/-- Rows of R78. -/
def ctRows : List Row := [
  ⟨0x1, [], [⟨43, 5, .any, .tkU⟩, ⟨27, 16, .any, .num⟩]⟩,
  ⟨0x2, [], [⟨36, 6, .lt 32, .xR⟩, ⟨0, 12, .any, .num⟩]⟩,
  ⟨0x3, [], [⟨0, 12, .any, .num⟩]⟩,
  ⟨0x4, [], []⟩,
  ⟨0x5, [], [⟨49, 7, .any, .kg⟩, ⟨43, 5, .any, .tkU⟩, ⟨0, 12, .any, .num⟩]⟩,
  ⟨0x6, [], [⟨49, 7, .any, .kg⟩, ⟨43, 5, .any, .tkU⟩, ⟨36, 6, .lt 32, .xW⟩]⟩,
  ⟨0x7, [], [⟨49, 7, .any, .kg⟩, ⟨45, 3, .any, .num⟩, ⟨43, 2, .any, .num⟩, ⟨36, 6, .lt 32, .xR⟩]⟩,
  ⟨0x8, [], [⟨18, 3, .scopeBar, .num⟩]⟩,
  ⟨0x9, [], []⟩,
  ⟨0xa, [], []⟩,
  ⟨0xb, [], []⟩,
  ⟨0xc, [], [⟨49, 7, .any, .kg⟩, ⟨0, 12, .any, .num⟩]⟩,
  ⟨0x10, [], [⟨49, 7, .any, .kg⟩, ⟨42, 6, .any, .kW⟩, ⟨36, 6, .any, .kR⟩, ⟨30, 6, .any, .kR⟩]⟩,
  ⟨0x11, [], [⟨49, 7, .any, .kg⟩, ⟨42, 6, .any, .kW⟩, ⟨36, 6, .any, .kR⟩, ⟨30, 6, .any, .kR⟩]⟩,
  ⟨0x12, [], [⟨49, 7, .any, .kg⟩, ⟨42, 6, .any, .kW⟩, ⟨36, 6, .any, .kR⟩, ⟨30, 6, .any, .kR⟩]⟩,
  ⟨0x13, [], [⟨49, 7, .any, .kg⟩, ⟨42, 6, .any, .kW⟩, ⟨36, 6, .any, .kR⟩, ⟨30, 6, .any, .kR⟩]⟩,
  ⟨0x14, [], [⟨49, 7, .any, .kg⟩, ⟨42, 6, .any, .kW⟩, ⟨36, 6, .any, .kR⟩]⟩,
  ⟨0x15, [], [⟨49, 7, .any, .kg⟩, ⟨42, 6, .any, .kW⟩, ⟨36, 6, .any, .kR⟩]⟩,
  ⟨0x16, [], [⟨49, 7, .any, .kg⟩, ⟨42, 6, .any, .kW⟩, ⟨6, 6, .any, .num⟩, ⟨0, 6, .any, .num⟩]⟩,
  ⟨0x17, [], [⟨49, 7, .any, .kg⟩, ⟨42, 6, .any, .kW⟩, ⟨36, 6, .lt 32, .xR⟩]⟩,
  ⟨0x18, [], [⟨49, 7, .any, .kg⟩, ⟨42, 6, .lt 32, .xW⟩, ⟨36, 6, .any, .kR⟩]⟩,
  ⟨0x19, [], [⟨49, 7, .any, .kg⟩, ⟨42, 6, .lt 32, .xW⟩, ⟨36, 6, .any, .kR⟩]⟩]

/-- The rows of a kind of slot. -/
def SlotKind.rows : SlotKind → List Row
  | .scalar => scalarRows
  | .na => naRows
  | .x => xRows
  | .mem => memRows
  | .eng => engRows
  | .csr => csrRows
  | .ctx => ctxRows
  | .v => vRows
  | .conv => convRows
  | .mx => mxRows
  | .ls => lsRows
  | .xf => xfRows
  | .ct => ctRows

/-- A slot taken apart: its kind, its operation code, and its operands in the order of its row. -/
structure Raw where
  kind : SlotKind
  op : Nat
  ops : List Nat
  deriving DecidableEq, Repr

/-- The row of a slot. -/
def rowOf (k : SlotKind) (op : Nat) : Option Row := k.rows.find? (fun r => r.op == op)

/-- Every operand fits its field. -/
def fieldsOk : List Field → List Nat → Bool
  | [], [] => true
  | f :: fs, v :: vs => f.chk.ok v && (f.w == 0 || decide (v < 2 ^ f.w)) && fieldsOk fs vs
  | _, _ => false

/-- The two checks that join fields: RED has no OR or AND of F32 (R55), and a VSHLI count is below the element width
(R151). -/
def crossOk (r : Raw) : Bool :=
  match r.kind, r.op, r.ops with
  | .x, 6, [_, op, ty, _, _, _] => decide (ty < 3) && !(ty == 2 && decide (op < 2))
  | .v, 0x17, [_, ty, _, _, n] => decide (n < (tyOf ty).width)
  | _, _, _ => true

/-- The slot has a row and its operands fit it. -/
def Raw.legal (r : Raw) : Bool :=
  match rowOf r.kind r.op with
  | none => false
  | some row => fieldsOk row.fields r.ops && crossOk r

/-- The operands of an instruction as the fields of its slot; events have none. CTXSTART, CTXSTART_RESTORE and
CTXSTART_GO are one encoding, told apart by their descriptor (R363). -/
def Instr.raw : Instr → Option Raw
  | .wordIssue .. => none
  | .bundleIssue .. => none
  | .mergeCycle .. => none
  | .broadcastFrameArrival .. => none
  | .occupancyReport .. => none
  | .accessStreamIssue .. => none
  | .fixedLatencyLand .. => none
  | .loadResultLands .. => none
  | .tokPost .. => none
  | .waitSatisfied .. => none
  | .waitsSatisfied .. => none
  | .waitfSatisfied .. => none
  | .idleResume .. => none
  | .mailboxDelivery .. => none
  | .redSample .. => none
  | .redValueArrival .. => none
  | .barReport .. => none
  | .barRelease .. => none
  | .phaseRelease .. => none
  | .markPass .. => none
  | .markCommit .. => none
  | .commitArrival .. => none
  | .faultFlag .. => none
  | .rollback .. => none
  | .preemptionRequest .. => none
  | .preemptHalt .. => none
  | .pageRequestAnswer .. => none
  | .dieRetirement .. => none
  | .dictEntryRewrite .. => none
  | .armatureCommandForward .. => none
  | .engineCommandStart .. => none
  | .engineCommandComplete .. => none
  | .installUnitCommit .. => none
  | .relocLineCopy .. => none
  | .fwdInvalidation .. => none
  | .fwdInvalidationAck .. => none
  | .tlbInvalidation .. => none
  | .tlbInvalidationAck .. => none
  | .atsInvalidation .. => none
  | .tableWalk .. => none
  | .streamFetch .. => none
  | .matrixOpStart .. => none
  | .matrixRowComplete .. => none
  | .rbqRefill .. => none
  | .ownershipReturn .. => none
  | .bankSnapshot .. => none
  | .breakTaken .. => none
  | .stepTaken .. => none
  | .watchEngine .. => none
  | .atelierFrameTick .. => none
  | .queueSlotPoll .. => none
  | .kick .. => none
  | .mbxstatStore .. => none
  | .ticketBlockStore .. => none
  | .hostPostedWrite .. => none
  | .hostRead .. => none
  | .podArrival .. => none
  | .podLinkUp .. => none
  | .podLinkLoss .. => none
  | .atelierFault .. => none
  | .atelierReloadComplete .. => none
  | .powerStateEntry .. => none
  | .wakeEvent .. => none
  | .wakeComplete .. => none
  | .checkpointComplete .. => none
  | .boot .. => none
  | .recoveryImage .. => none
  | .heapAllocate .. => none
  | .heapFree .. => none
  | .repairDecision .. => none
  | .registerWrite .. => none
  | .negotiate .. => none
  | .tenantSet .. => none
  | .tenantRemove .. => none
  | .heapSet .. => none
  | .mapinv .. => none
  | .budgetSet .. => none
  | .launch .. => none
  | .preempt .. => none
  | .checkpoint .. => none
  | .svnCommit .. => none
  | .attest .. => none
  | .measExtend .. => none
  | .ltolSet .. => none
  | .powerLoss .. => none
  | .dieCycle .. => none
  | .nop => some ⟨.scalar, 0x0, []⟩
  | .mov g d a => some ⟨.scalar, 0x1, [g, d, a]⟩
  | .movi g d imm => some ⟨.scalar, 0x2, [g, d, imm]⟩
  | .movl g d val => some ⟨.scalar, 0x3, [g, d, val]⟩
  | .movlh g d val => some ⟨.scalar, 0x4, [g, d, val]⟩
  | .movlt g d val => some ⟨.scalar, 0x5, [g, d, val]⟩
  | .addi g d imm => some ⟨.scalar, 0x6, [g, d, imm]⟩
  | .add g d a b => some ⟨.scalar, 0x8, [g, d, a, b]⟩
  | .sub g d a b => some ⟨.scalar, 0x9, [g, d, a, b]⟩
  | .and g d a b => some ⟨.scalar, 0xa, [g, d, a, b]⟩
  | .or g d a b => some ⟨.scalar, 0xb, [g, d, a, b]⟩
  | .xor g d a b => some ⟨.scalar, 0xc, [g, d, a, b]⟩
  | .andn g d a b => some ⟨.scalar, 0xd, [g, d, a, b]⟩
  | .shl g d a b => some ⟨.scalar, 0xe, [g, d, a, b]⟩
  | .shr g d a b => some ⟨.scalar, 0xf, [g, d, a, b]⟩
  | .sar g d a b => some ⟨.scalar, 0x10, [g, d, a, b]⟩
  | .shli g d a n => some ⟨.scalar, 0x11, [g, d, a, n]⟩
  | .shri g d a n => some ⟨.scalar, 0x12, [g, d, a, n]⟩
  | .sari g d a n => some ⟨.scalar, 0x13, [g, d, a, n]⟩
  | .mul g d a b => some ⟨.scalar, 0x14, [g, d, a, b]⟩
  | .mulhu g d a b => some ⟨.scalar, 0x15, [g, d, a, b]⟩
  | .mulhs g d a b => some ⟨.scalar, 0x16, [g, d, a, b]⟩
  | .divu g d a b => some ⟨.scalar, 0x17, [g, d, a, b]⟩
  | .remu g d a b => some ⟨.scalar, 0x18, [g, d, a, b]⟩
  | .min g d a b => some ⟨.scalar, 0x19, [g, d, a, b]⟩
  | .max g d a b => some ⟨.scalar, 0x1a, [g, d, a, b]⟩
  | .minu g d a b => some ⟨.scalar, 0x1b, [g, d, a, b]⟩
  | .maxu g d a b => some ⟨.scalar, 0x1c, [g, d, a, b]⟩
  | .clz g d a => some ⟨.scalar, 0x1d, [g, d, a]⟩
  | .popc g d a => some ⟨.scalar, 0x1e, [g, d, a]⟩
  | .sel g d a b => some ⟨.scalar, 0x1f, [g, d, a, b]⟩
  | .cmpEq g d a b => some ⟨.scalar, 0x20, [g, d, a, b]⟩
  | .cmpNe g d a b => some ⟨.scalar, 0x21, [g, d, a, b]⟩
  | .cmpLt g d a b => some ⟨.scalar, 0x22, [g, d, a, b]⟩
  | .cmpLe g d a b => some ⟨.scalar, 0x23, [g, d, a, b]⟩
  | .cmpLtu g d a b => some ⟨.scalar, 0x24, [g, d, a, b]⟩
  | .cmpLeu g d a b => some ⟨.scalar, 0x25, [g, d, a, b]⟩
  | .tstb g d a n => some ⟨.scalar, 0x26, [g, d, a, n]⟩
  | .pmov g d a => some ⟨.scalar, 0x27, [g, d, a]⟩
  | .pand g d a b => some ⟨.scalar, 0x28, [g, d, a, b]⟩
  | .por g d a b => some ⟨.scalar, 0x29, [g, d, a, b]⟩
  | .pxor g d a b => some ⟨.scalar, 0x2a, [g, d, a, b]⟩
  | .pandn g d a b => some ⟨.scalar, 0x2b, [g, d, a, b]⟩
  | .ptos g d => some ⟨.scalar, 0x2c, [g, d]⟩
  | .stop g a => some ⟨.scalar, 0x2d, [g, a]⟩
  | .lsetup g loop stages a => some ⟨.scalar, 0x2e, [g, loop, stages, a]⟩
  | .ldB g d a off => some ⟨.scalar, 0x30, [g, d, a, off]⟩
  | .ldH g d a off => some ⟨.scalar, 0x31, [g, d, a, off]⟩
  | .ldW g d a off => some ⟨.scalar, 0x32, [g, d, a, off]⟩
  | .ldD g d a off => some ⟨.scalar, 0x33, [g, d, a, off]⟩
  | .ldsW g d a off => some ⟨.scalar, 0x34, [g, d, a, off]⟩
  | .stB g d a off => some ⟨.scalar, 0x35, [g, d, a, off]⟩
  | .stH g d a off => some ⟨.scalar, 0x36, [g, d, a, off]⟩
  | .stW g d a off => some ⟨.scalar, 0x37, [g, d, a, off]⟩
  | .stD g d a off => some ⟨.scalar, 0x38, [g, d, a, off]⟩
  | .seq => some ⟨.na, 0x0, []⟩
  | .jmp off => some ⟨.na, 0x1, [off]⟩
  | .br p neg off => some ⟨.na, 0x2, [p, (bit neg), off]⟩
  | .call off => some ⟨.na, 0x3, [off]⟩
  | .ret => some ⟨.na, 0x4, []⟩
  | .lend loop off => some ⟨.na, 0x5, [loop, off]⟩
  | .trap code => some ⟨.na, 0x6, [code]⟩
  | .rft => some ⟨.na, 0x7, []⟩
  | .halt => some ⟨.na, 0x8, []⟩
  | .idle m => some ⟨.na, 0x9, [m]⟩
  | .xnop => some ⟨.x, 0x0, []⟩
  | .bcast rep idx => some ⟨.x, 0x1, [rep, idx]⟩
  | .lit => some ⟨.x, 0x2, []⟩
  | .k28 val => some ⟨.x, 0x3, [val]⟩
  | .waits ts thr => some ⟨.x, 0x5, [ts, thr]⟩
  | .red grp op ty dc ts d => some ⟨.x, 0x6, [grp, op, ty, dc, ts, d]⟩
  | .csrr num d => some ⟨.csr, 0x20, [num, d]⟩
  | .csrw num a => some ⟨.csr, 0x21, [num, a]⟩
  | .csrs num d a => some ⟨.csr, 0x22, [num, d, a]⟩
  | .csrc num d a => some ⟨.csr, 0x23, [num, d, a]⟩
  | .dmset a => some ⟨.ctx, 0x90, [a]⟩
  | .dmget d => some ⟨.ctx, 0x91, [d]⟩
  | .cmset a => some ⟨.ctx, 0x92, [a]⟩
  | .cmget d => some ⟨.ctx, 0x93, [d]⟩
  | .tmand a => some ⟨.ctx, 0x94, [a]⟩
  | .tmget d => some ⟨.ctx, 0x95, [d]⟩
  | .prio a => some ⟨.ctx, 0x96, [a]⟩
  | .feat d n => some ⟨.x, 0xa, [d, n]⟩
  | .ldgB ord sc ts d a => some ⟨.mem, 0x80, [(ordCode ord), (scopeCode sc), ts, d, a]⟩
  | .ldgH ord sc ts d a => some ⟨.mem, 0x81, [(ordCode ord), (scopeCode sc), ts, d, a]⟩
  | .ldgW ord sc ts d a => some ⟨.mem, 0x82, [(ordCode ord), (scopeCode sc), ts, d, a]⟩
  | .ldgD ord sc ts d a => some ⟨.mem, 0x83, [(ordCode ord), (scopeCode sc), ts, d, a]⟩
  | .stgB ord sc ts d a => some ⟨.mem, 0x84, [(ordCode ord), (scopeCode sc), ts, d, a]⟩
  | .stgH ord sc ts d a => some ⟨.mem, 0x85, [(ordCode ord), (scopeCode sc), ts, d, a]⟩
  | .stgW ord sc ts d a => some ⟨.mem, 0x86, [(ordCode ord), (scopeCode sc), ts, d, a]⟩
  | .stgD ord sc ts d a => some ⟨.mem, 0x87, [(ordCode ord), (scopeCode sc), ts, d, a]⟩
  | .afadd ord sc ts d e2 a => some ⟨.mem, 0x88, [(ordCode ord), (scopeCode sc), ts, d, e2, a]⟩
  | .amin ord sc ts d e2 a => some ⟨.mem, 0x89, [(ordCode ord), (scopeCode sc), ts, d, e2, a]⟩
  | .amax ord sc ts d e2 a => some ⟨.mem, 0x8a, [(ordCode ord), (scopeCode sc), ts, d, e2, a]⟩
  | .aand ord sc ts d e2 a => some ⟨.mem, 0x8b, [(ordCode ord), (scopeCode sc), ts, d, e2, a]⟩
  | .aor ord sc ts d e2 a => some ⟨.mem, 0x8c, [(ordCode ord), (scopeCode sc), ts, d, e2, a]⟩
  | .axor ord sc ts d e2 a => some ⟨.mem, 0x8d, [(ordCode ord), (scopeCode sc), ts, d, e2, a]⟩
  | .aswap ord sc ts d e2 a => some ⟨.mem, 0x8e, [(ordCode ord), (scopeCode sc), ts, d, e2, a]⟩
  | .acas ord sc ts d e2 a => some ⟨.mem, 0x8f, [(ordCode ord), (scopeCode sc), ts, d, e2, a]⟩
  | .amaxf ord sc ts d a => some ⟨.mem, 0x90, [(ordCode ord), (scopeCode sc), ts, d, a]⟩
  | .memAmaxrr ord sc ts d a => some ⟨.mem, 0x91, [(ordCode ord), (scopeCode sc), ts, d, a]⟩
  | .memFence ord sc ts => some ⟨.mem, 0x92, [(ordCode ord), (scopeCode sc), ts]⟩
  | .memLdref ord sc ts d h h2 => some ⟨.mem, 0x93, [(ordCode ord), (scopeCode sc), ts, d, h, h2]⟩
  | .memStref ord sc ts d h h2 => some ⟨.mem, 0x94, [(ordCode ord), (scopeCode sc), ts, d, h, h2]⟩
  | .memPin ord sc ts d h => some ⟨.mem, 0x95, [(ordCode ord), (scopeCode sc), ts, d, h]⟩
  | .memUnpin ord sc ts h => some ⟨.mem, 0x96, [(ordCode ord), (scopeCode sc), ts, h]⟩
  | .memLdr ord sc ts d e2 h => some ⟨.mem, 0x97, [(ordCode ord), (scopeCode sc), ts, d, e2, h]⟩
  | .memStr ord sc ts d e2 h => some ⟨.mem, 0x98, [(ordCode ord), (scopeCode sc), ts, d, e2, h]⟩
  | .memJraise ord sc ts d a => some ⟨.mem, 0x99, [(ordCode ord), (scopeCode sc), ts, d, a]⟩
  | .memJdone ord sc ts a => some ⟨.mem, 0x9a, [(ordCode ord), (scopeCode sc), ts, a]⟩
  | .engCpy desc ts acq rel sc bp => some ⟨.eng, 0x38, [desc, ts, (bit acq), (bit rel), (scopeCode sc), bp]⟩
  | .engInstall desc ts acq rel sc bp => some ⟨.eng, 0x39, [desc, ts, (bit acq), (bit rel), (scopeCode sc), bp]⟩
  | .engReloc desc ts acq rel sc bp => some ⟨.eng, 0x3a, [desc, ts, (bit acq), (bit rel), (scopeCode sc), bp]⟩
  | .mbxsend desc ts acq rel sc bp => some ⟨.eng, 0x3b, [desc, ts, (bit acq), (bit rel), (scopeCode sc), bp]⟩
  | .enq desc ts acq rel sc bp => some ⟨.eng, 0x3c, [desc, ts, (bit acq), (bit rel), (scopeCode sc), bp]⟩
  | .podsend desc ts acq rel sc bp => some ⟨.eng, 0x3d, [desc, ts, (bit acq), (bit rel), (scopeCode sc), bp]⟩
  | .ctxstart desc ts acq rel sc bp => some ⟨.eng, 0x3e, [desc, ts, (bit acq), (bit rel), (scopeCode sc), bp]⟩
  | .ctxstartRestore desc ts acq rel sc bp => some ⟨.eng, 0x3e, [desc, ts, (bit acq), (bit rel), (scopeCode sc), bp]⟩
  | .ctxstartGo desc ts acq rel sc bp => some ⟨.eng, 0x3e, [desc, ts, (bit acq), (bit rel), (scopeCode sc), bp]⟩
  | .ctxsave desc ts acq rel sc bp => some ⟨.eng, 0x3f, [desc, ts, (bit acq), (bit rel), (scopeCode sc), bp]⟩
  | .vmov g d a => some ⟨.v, 0x1, [g, d, a]⟩
  | .vmovi g ty d imm20 => some ⟨.v, 0x2, [g, (tyCode ty), d, imm20]⟩
  | .vbcst g d a => some ⟨.v, 0x3, [g, d, a]⟩
  | .vlane g d => some ⟨.v, 0x4, [g, d]⟩
  | .vcoord g d which => some ⟨.v, 0x5, [g, d, which]⟩
  | .vadd g ty d a b => some ⟨.v, 0x8, [g, (tyCode ty), d, a, b]⟩
  | .vsub g ty d a b => some ⟨.v, 0x9, [g, (tyCode ty), d, a, b]⟩
  | .vmullo g ty d a b => some ⟨.v, 0xa, [g, (tyCode ty), d, a, b]⟩
  | .vmulhi g ty d a b => some ⟨.v, 0xb, [g, (tyCode ty), d, a, b]⟩
  | .vmin g ty d a b => some ⟨.v, 0xc, [g, (tyCode ty), d, a, b]⟩
  | .vmax g ty d a b => some ⟨.v, 0xd, [g, (tyCode ty), d, a, b]⟩
  | .vabsd g ty d a b => some ⟨.v, 0xe, [g, (tyCode ty), d, a, b]⟩
  | .vaddsat g ty d a b => some ⟨.v, 0xf, [g, (tyCode ty), d, a, b]⟩
  | .vand g d a b => some ⟨.v, 0x10, [g, d, a, b]⟩
  | .vor g d a b => some ⟨.v, 0x11, [g, d, a, b]⟩
  | .vxor g d a b => some ⟨.v, 0x12, [g, d, a, b]⟩
  | .vandn g d a b => some ⟨.v, 0x13, [g, d, a, b]⟩
  | .vshl g ty d a b => some ⟨.v, 0x14, [g, (tyCode ty), d, a, b]⟩
  | .vshr g ty d a b => some ⟨.v, 0x15, [g, (tyCode ty), d, a, b]⟩
  | .vsar g ty d a b => some ⟨.v, 0x16, [g, (tyCode ty), d, a, b]⟩
  | .vshli g ty d a n => some ⟨.v, 0x17, [g, (tyCode ty), d, a, n]⟩
  | .vpopc g ty d a => some ⟨.v, 0x18, [g, (tyCode ty), d, a]⟩
  | .vclz g ty d a => some ⟨.v, 0x19, [g, (tyCode ty), d, a]⟩
  | .vsel g d a b s => some ⟨.v, 0x1c, [g, d, a, b, s]⟩
  | .vshf g d a b => some ⟨.v, 0x1d, [g, d, a, b]⟩
  | .vrot g d a n => some ⟨.v, 0x1e, [g, d, a, n]⟩
  | .vcmpEq g ty a b m => some ⟨.v, 0x20, [g, (tyCode ty), a, b, m]⟩
  | .vcmpNe g ty a b m => some ⟨.v, 0x21, [g, (tyCode ty), a, b, m]⟩
  | .vcmpLt g ty a b m => some ⟨.v, 0x22, [g, (tyCode ty), a, b, m]⟩
  | .vcmpLe g ty a b m => some ⟨.v, 0x23, [g, (tyCode ty), a, b, m]⟩
  | .vcmpLtu g ty a b m => some ⟨.v, 0x24, [g, (tyCode ty), a, b, m]⟩
  | .vcmpLeu g ty a b m => some ⟨.v, 0x25, [g, (tyCode ty), a, b, m]⟩
  | .vfcmpEq g a b m => some ⟨.v, 0x26, [g, a, b, m]⟩
  | .vfcmpLt g a b m => some ⟨.v, 0x27, [g, a, b, m]⟩
  | .vfcmpLe g a b m => some ⟨.v, 0x28, [g, a, b, m]⟩
  | .vfcmpUn g a b m => some ⟨.v, 0x29, [g, a, b, m]⟩
  | .vfadd g rm d a b => some ⟨.v, 0x30, [g, (rmCode rm), d, a, b]⟩
  | .vfsub g rm d a b => some ⟨.v, 0x31, [g, (rmCode rm), d, a, b]⟩
  | .vfmul g rm d a b => some ⟨.v, 0x32, [g, (rmCode rm), d, a, b]⟩
  | .vfma g rm d a b c => some ⟨.v, 0x33, [g, (rmCode rm), d, a, b, c]⟩
  | .vfms g rm d a b c => some ⟨.v, 0x34, [g, (rmCode rm), d, a, b, c]⟩
  | .vfnma g rm d a b c => some ⟨.v, 0x35, [g, (rmCode rm), d, a, b, c]⟩
  | .vfmin g d a b => some ⟨.v, 0x36, [g, d, a, b]⟩
  | .vfmax g d a b => some ⟨.v, 0x37, [g, d, a, b]⟩
  | .vfabs g d a => some ⟨.v, 0x38, [g, d, a]⟩
  | .vfneg g d a => some ⟨.v, 0x39, [g, d, a]⟩
  | .vfdiv g rm d a b => some ⟨.v, 0x3a, [g, (rmCode rm), d, a, b]⟩
  | .vfsqrt g rm d a => some ⟨.v, 0x3b, [g, (rmCode rm), d, a]⟩
  | .vfrsqrt g rm d a => some ⟨.v, 0x3c, [g, (rmCode rm), d, a]⟩
  | .vfexp2 g rm d a => some ⟨.v, 0x3d, [g, (rmCode rm), d, a]⟩
  | .vflog2 g rm d a => some ⟨.v, 0x3e, [g, (rmCode rm), d, a]⟩
  | .vfclass g d a => some ⟨.v, 0x3f, [g, d, a]⟩
  | .vrsumF32 g rm d a => some ⟨.v, 0x40, [g, (rmCode rm), d, a]⟩
  | .vrmaxF32 g d a => some ⟨.v, 0x41, [g, d, a]⟩
  | .vramax g d a => some ⟨.v, 0x42, [g, d, a]⟩
  | .vrsumI g ty d a => some ⟨.v, 0x43, [g, (tyCode ty), d, a]⟩
  | .vrmaxI g ty d a => some ⟨.v, 0x44, [g, (tyCode ty), d, a]⟩
  | .xmov g d a => some ⟨.v, 0x48, [g, d, a]⟩
  | .xmovi g d imm20 => some ⟨.v, 0x49, [g, d, imm20]⟩
  | .xadd g d a b => some ⟨.v, 0x4a, [g, d, a, b]⟩
  | .xsub g d a b => some ⟨.v, 0x4b, [g, d, a, b]⟩
  | .xmul g d a b => some ⟨.v, 0x4c, [g, d, a, b]⟩
  | .xand g d a b => some ⟨.v, 0x4d, [g, d, a, b]⟩
  | .cellXor g d a b => some ⟨.v, 0x4e, [g, d, a, b]⟩
  | .xshl g d a b => some ⟨.v, 0x4f, [g, d, a, b]⟩
  | .xshr g d a b => some ⟨.v, 0x50, [g, d, a, b]⟩
  | .xcmp g cc a b m => some ⟨.v, 0x51, [g, (ccCode cc), a, b, m]⟩
  | .xfromv g d a lane => some ⟨.v, 0x52, [g, d, a, lane]⟩
  | .xtok g d a => some ⟨.v, 0x53, [g, d, a]⟩
  | .vcvtF32I32 g rm d a => some ⟨.conv, 0x60, [g, (rmCode rm), d, a]⟩
  | .vcvtI32F32 g rm d a => some ⟨.conv, 0x61, [g, (rmCode rm), d, a]⟩
  | .vcvtBf16F32 g rm d a => some ⟨.conv, 0x62, [g, (rmCode rm), d, a]⟩
  | .vcvtF32Bf16 g d a => some ⟨.conv, 0x63, [g, d, a]⟩
  | .vsplit3 g d a => some ⟨.conv, 0x64, [g, d, a]⟩
  | .vamaxb g bs d a => some ⟨.conv, 0x65, [g, (bit bs), d, a]⟩
  | .vscale g rm d a b => some ⟨.conv, 0x66, [g, (rmCode rm), d, a, b]⟩
  | .qbfp g rm bs mb d a => some ⟨.conv, 0x67, [g, (rmCode rm), (bit bs), mb, d, a]⟩
  | .dqbfp g bs mb d a b => some ⟨.conv, 0x68, [g, (bit bs), mb, d, a, b]⟩
  | .vcvtI8F32 g rm j d a => some ⟨.conv, 0x69, [g, (rmCode rm), j, d, a]⟩
  | .vrng g d => some ⟨.conv, 0x6a, [g, d]⟩
  | .vcvtF32I8 g j d a => some ⟨.conv, 0x6b, [g, j, d, a]⟩
  | .mma g base m n a b tk zero neg bt => some ⟨.mx, 0x1, [g, base, m, n, a, b, tk, (bit zero), (bit neg), (bit bt)]⟩
  | .mmaNest g base m n a b tk zero neg bt => some ⟨.mx, 0x2, [g, base, m, n, a, b, tk, (bit zero), (bit neg), (bit bt)]⟩
  | .mmaGrp g base m n a b tk zero neg bt gc => some ⟨.mx, 0x3, [g, base, m, n, a, b, tk, (bit zero), (bit neg), (bit bt), gc]⟩
  | .accz g base m n tk => some ⟨.mx, 0x4, [g, base, m, n, tk]⟩
  | .accrd g base v row => some ⟨.mx, 0x5, [g, base, v, row]⟩
  | .accwr g base v row => some ⟨.mx, 0x6, [g, base, v, row]⟩
  | .accout g base m n o tk => some ⟨.mx, 0x7, [g, base, m, n, o, tk]⟩
  | .wswap => some ⟨.mx, 0x8, []⟩
  | .mxprog g x => some ⟨.mx, 0x9, [g, x]⟩
  | .ldv g acc d st tk => some ⟨.ls, 0x1, [g, (bit acc), d, st, tk]⟩
  | .stv g a st tk => some ⟨.ls, 0x2, [g, a, st, tk]⟩
  | .ldvn g acc d a tk imm => some ⟨.ls, 0x3, [g, (bit acc), d, a, tk, imm]⟩
  | .stvn g d a tk imm => some ⟨.ls, 0x4, [g, d, a, tk, imm]⟩
  | .gather g acc d a b tk => some ⟨.ls, 0x5, [g, (bit acc), d, a, b, tk]⟩
  | .scatter g d a b tk => some ⟨.ls, 0x6, [g, d, a, b, tk]⟩
  | .ldx g acc d a tk sz imm => some ⟨.ls, 0x7, [g, (bit acc), d, a, tk, sz, imm]⟩
  | .stx g d a tk sz imm => some ⟨.ls, 0x8, [g, d, a, tk, sz, imm]⟩
  | .ldxAcq g d a tk sc sz imm => some ⟨.ls, 0x9, [g, d, a, tk, (scopeCode sc), sz, imm]⟩
  | .stxRel g d a tk sc sz imm => some ⟨.ls, 0xa, [g, d, a, tk, (scopeCode sc), sz, imm]⟩
  | .lsFence g tk sc ord => some ⟨.ls, 0xb, [g, tk, (scopeCode sc), (ordCode ord)]⟩
  | .xafadd g d a tk sc sz => some ⟨.ls, 0x10, [g, d, a, tk, (scopeCode sc), sz]⟩
  | .xamax g d a tk sc sz => some ⟨.ls, 0x11, [g, d, a, tk, (scopeCode sc), sz]⟩
  | .xacas g d a b tk sc sz => some ⟨.ls, 0x12, [g, d, a, b, tk, (scopeCode sc), sz]⟩
  | .xaswap g d a tk sc sz => some ⟨.ls, 0x13, [g, d, a, tk, (scopeCode sc), sz]⟩
  | .vafadd g d a b tk sc => some ⟨.ls, 0x14, [g, d, a, b, tk, (scopeCode sc)]⟩
  | .vamaxf g d a b tk sc => some ⟨.ls, 0x15, [g, d, a, b, tk, (scopeCode sc)]⟩
  | .lsAmaxrr g d a tk sc => some ⟨.ls, 0x16, [g, d, a, tk, (scopeCode sc)]⟩
  | .stset g a st => some ⟨.ls, 0x20, [g, a, st]⟩
  | .stget g d st => some ⟨.ls, 0x21, [g, d, st]⟩
  | .stgo g st tk => some ⟨.ls, 0x22, [g, st, tk]⟩
  | .stsave g a st tk => some ⟨.ls, 0x23, [g, a, st, tk]⟩
  | .stload g a st tk => some ⟨.ls, 0x24, [g, a, st, tk]⟩
  | .resize g tk imm => some ⟨.ls, 0x28, [g, tk, imm]⟩
  | .sete g a tk imm => some ⟨.ls, 0x29, [g, a, tk, imm]⟩
  | .setf g a tk imm => some ⟨.ls, 0x2a, [g, a, tk, imm]⟩
  | .nsflush g tk => some ⟨.ls, 0x2b, [g, tk]⟩
  | .lsLdr g acc d a b tk sz => some ⟨.ls, 0x30, [g, (bit acc), d, a, b, tk, sz]⟩
  | .lsStr g d a b tk sz => some ⟨.ls, 0x31, [g, d, a, b, tk, sz]⟩
  | .ldrv g acc d a b tk => some ⟨.ls, 0x32, [g, (bit acc), d, a, b, tk]⟩
  | .strv g d a b tk => some ⟨.ls, 0x33, [g, d, a, b, tk]⟩
  | .lsLdref g acc d a b tk => some ⟨.ls, 0x34, [g, (bit acc), d, a, b, tk]⟩
  | .lsStref g d a b tk => some ⟨.ls, 0x35, [g, d, a, b, tk]⟩
  | .lsPin g d a tk => some ⟨.ls, 0x36, [g, d, a, tk]⟩
  | .lsUnpin g a tk => some ⟨.ls, 0x37, [g, a, tk]⟩
  | .refmov g d a => some ⟨.ls, 0x38, [g, d, a]⟩
  | .reftag g d a => some ⟨.ls, 0x39, [g, d, a]⟩
  | .take g d tk imm => some ⟨.ls, 0x40, [g, d, tk, imm]⟩
  | .lsJraise g a b tk sc => some ⟨.ls, 0x41, [g, a, b, tk, (scopeCode sc)]⟩
  | .lsJdone g a tk sc => some ⟨.ls, 0x42, [g, a, tk, (scopeCode sc)]⟩
  | .perm g d a pat tk => some ⟨.xf, 0x1, [g, d, a, pat, tk]⟩
  | .xmit g a b pat tk => some ⟨.xf, 0x2, [g, a, b, pat, tk]⟩
  | .recv g a pat tk => some ⟨.xf, 0x3, [g, a, pat, tk]⟩
  | .cshuf g d a pat tk => some ⟨.xf, 0x4, [g, d, a, pat, tk]⟩
  | .xfCpy g xd tk sc acq rel bk => some ⟨.xf, 0x5, [g, xd, tk, (scopeCode sc), (bit acq), (bit rel), bk]⟩
  | .binscat g d a xd tk sc bk => some ⟨.xf, 0x6, [g, d, a, xd, tk, (scopeCode sc), bk]⟩
  | .xfReloc g xd tk sc acq rel bk => some ⟨.xf, 0x7, [g, xd, tk, (scopeCode sc), (bit acq), (bit rel), bk]⟩
  | .xfInstall g xd tk sc acq rel bk => some ⟨.xf, 0x8, [g, xd, tk, (scopeCode sc), (bit acq), (bit rel), bk]⟩
  | .rbseed a => some ⟨.xf, 0xa, [a]⟩
  | .wait tk thr => some ⟨.ct, 0x1, [tk, thr]⟩
  | .waitf a imm => some ⟨.ct, 0x2, [a, imm]⟩
  | .dly n => some ⟨.ct, 0x3, [n]⟩
  | .mark => some ⟨.ct, 0x4, []⟩
  | .tokadd g tk amt => some ⟨.ct, 0x5, [g, tk, amt]⟩
  | .tokrd g tk d => some ⟨.ct, 0x6, [g, tk, d]⟩
  | .setc g dc op a => some ⟨.ct, 0x7, [g, dc, op, a]⟩
  | .bar sc => some ⟨.ct, 0x8, [(scopeCode sc)]⟩
  | .phaseX => some ⟨.ct, 0x9, []⟩
  | .phaseC => some ⟨.ct, 0xa, []⟩
  | .abar => some ⟨.ct, 0xb, []⟩
  | .trapc g code => some ⟨.ct, 0xc, [g, code]⟩
  | .kand g d a b => some ⟨.ct, 0x10, [g, d, a, b]⟩
  | .kor g d a b => some ⟨.ct, 0x11, [g, d, a, b]⟩
  | .kxor g d a b => some ⟨.ct, 0x12, [g, d, a, b]⟩
  | .kandn g d a b => some ⟨.ct, 0x13, [g, d, a, b]⟩
  | .knot g d a => some ⟨.ct, 0x14, [g, d, a]⟩
  | .kmov g d a => some ⟨.ct, 0x15, [g, d, a]⟩
  | .kset g d hi lo => some ⟨.ct, 0x16, [g, d, hi, lo]⟩
  | .kfromx g d a => some ⟨.ct, 0x17, [g, d, a]⟩
  | .ktox g d a => some ⟨.ct, 0x18, [g, d, a]⟩
  | .kpopc g d a => some ⟨.ct, 0x19, [g, d, a]⟩

/-- An instruction whose operands fit the row of its encoding. Events are always well formed: what they may name is
checked where they happen. -/
def Instr.wf (i : Instr) : Bool :=
  match i.raw with
  | none => true
  | some r => r.legal

end Sys2Proof
end

