-- ==== Sys2Proof/Decode.lean ====
section
/-! DEFINITION. Decoding and encoding of the two instruction containers: the 128-bit sequencer word (R41 to R61) and
the 384-bit compute bundle (R62 to R78), both from the rows of Sys2Proof/WellFormed.lean. Decoding is total and names
what it rejects. The machine runs the decoded slots (`Raw`); `instrOf` names the instruction a slot holds. -/

namespace Sys2Proof

/-- Why bits are no instruction. -/
inductive DecodeError where
  /-- an operation code that the maps leave undefined (R44, R47, R48, R53, R58, R59, R72, R74, R76 to R78) -/
  | opcode
  /-- a must-be-0 field that is not 0 (R4) or a fixed field that holds another value -/
  | mustBe
  /-- a code or an operand outside its column (R42, R63) -/
  | range
  /-- MOVL, MOVLH or MOVLT in a word whose X kind is not K28 (R47) -/
  | noLiteral
  deriving DecidableEq, Repr

/-- Bits `lo + n - 1` to `lo` of `w`. -/
def fld (w lo n : Nat) : Nat := w / 2 ^ lo % 2 ^ n

/-- The bits of a row's operands. -/
def encodeFields : List Field → List Nat → Nat
  | f :: fs, v :: vs => (if f.w == 0 then 0 else v * 2 ^ f.lo) + encodeFields fs vs
  | _, _ => 0

/-- The bits of a slot: operation code, fixed fields, operands. -/
def encodeRow (k : SlotKind) (row : Row) (ops : List Nat) : Nat :=
  row.op * 2 ^ k.opPos.1 + (row.fixed.map fun f => f.1 * 2 ^ f.2).sum + encodeFields row.fields ops

/-- The bits of a slot: 32 in a word, 64 in a bundle. -/
def Raw.encode (r : Raw) : Nat :=
  match rowOf r.kind r.op with
  | none => 0
  | some row => encodeRow r.kind row r.ops

/-- The operands read from the bits of a slot; `lit` stands for the field of width 0. -/
def readFields (w lit : Nat) (fs : List Field) : List Nat :=
  fs.map fun f => if f.w == 0 then lit else fld w f.lo f.w

/-- The slot reads the K28 literal of its word. -/
def Row.needsLit (row : Row) : Bool := row.fields.any (fun f => f.w == 0)

/-- One slot of a given kind. `k28` is the literal of an X slot of kind K28 in the same word. -/
def decodeRaw (k : SlotKind) (k28 : Option Nat) (w : Nat) : Except DecodeError Raw :=
  match rowOf k (fld w k.opPos.1 k.opPos.2) with
  | none => .error .opcode
  | some row =>
    if row.needsLit && k28.isNone then .error .noLiteral
    else
      let r : Raw := ⟨k, row.op, readFields w (k28.getD 0) row.fields⟩
      if encodeRow k row r.ops ≠ w then .error .mustBe
      else if r.legal then .ok r
      else .error .range

/-- The kind of row an X slot belongs to (R48): MEM, ENG, CSR and CTX have operations of their own. -/
def xKind (w : Nat) : SlotKind :=
  match fld w 28 4 with
  | 4 => .mem | 7 => .eng | 8 => .csr | 9 => .ctx | _ => .x

/-- The X slot. -/
def decodeX (w : Nat) : Except DecodeError Raw := decodeRaw (xKind w) none w

/-- A sequencer word, one slot per field (R41). -/
structure SWord where
  na : Raw
  s0 : Raw
  s1 : Raw
  x : Raw
  deriving DecidableEq, Repr

/-- The K28 literal an X slot supplies (R51). -/
def Raw.literal (r : Raw) : Option Nat :=
  match r.kind, r.op, r.ops with
  | .x, 3, [lit] => some lit
  | _, _, _ => none

/-- A 128-bit word; an illegal field makes the whole word illegal (R42). -/
def decodeWord (w : Nat) : Except DecodeError SWord :=
  match decodeX (fld w 0 32) with
  | .error e => .error e
  | .ok x =>
    match decodeRaw .scalar x.literal (fld w 64 32), decodeRaw .scalar x.literal (fld w 32 32),
        decodeRaw .na none (fld w 96 32) with
    | .ok s0, .ok s1, .ok na => .ok { na := na, s0 := s0, s1 := s1, x := x }
    | .error e, _, _ => .error e
    | .ok _, .error e, _ => .error e
    | .ok _, .ok _, .error e => .error e

/-- A compute bundle: `none` is the NOP of a slot (R62). -/
structure Bundle where
  v0 : Option Raw := none
  v1 : Option Raw := none
  mx : Option Raw := none
  ls : Option Raw := none
  xf : Option Raw := none
  ct : Option Raw := none
  deriving DecidableEq, Repr

/-- One bundle slot: op8 0x00 with every other bit 0 is its NOP. -/
def decodeSlot (k : SlotKind) (w : Nat) : Except DecodeError (Option Raw) :=
  if fld w 56 8 = 0 then (if fld w 0 56 = 0 then .ok none else .error .mustBe)
  else
    match decodeRaw k none w with
    | .ok r => .ok (some r)
    | .error e => .error e

/-- The kind of row slot V1 holds: the conversions are legal there only (R71). -/
def v1Kind (w : Nat) : SlotKind := if 0x60 ≤ fld w 56 8 ∧ fld w 56 8 ≤ 0x6B then .conv else .v

/-- The six slots of a 384-bit bundle (R62, R63). -/
def decodeBundle (w : Nat) : Except DecodeError Bundle :=
  match decodeSlot .v (fld w 320 64), decodeSlot (v1Kind (fld w 256 64)) (fld w 256 64), decodeSlot .mx (fld w 192 64),
      decodeSlot .ls (fld w 128 64), decodeSlot .xf (fld w 64 64), decodeSlot .ct (fld w 0 64) with
  | .ok v0, .ok v1, .ok mx, .ok ls, .ok xf, .ok ct => .ok { v0 := v0, v1 := v1, mx := mx, ls := ls, xf := xf, ct := ct }
  | .error e, _, _, _, _, _ => .error e
  | _, .error e, _, _, _, _ => .error e
  | _, _, .error e, _, _, _ => .error e
  | _, _, _, .error e, _, _ => .error e
  | _, _, _, _, .error e, _ => .error e
  | _, _, _, _, _, .error e => .error e

/-- The instruction of an operation code and operands, R45 to R47, R124. -/
noncomputable def scalarInstr (op : Nat) (o : Nat → Nat) : Option Instr :=
  match op with
  | 0x0 => some .nop
  | 0x1 => some (.mov (o 0) (o 1) (o 2))
  | 0x2 => some (.movi (o 0) (o 1) (o 2))
  | 0x3 => some (.movl (o 0) (o 1) (o 2))
  | 0x4 => some (.movlh (o 0) (o 1) (o 2))
  | 0x5 => some (.movlt (o 0) (o 1) (o 2))
  | 0x6 => some (.addi (o 0) (o 1) (o 2))
  | 0x8 => some (.add (o 0) (o 1) (o 2) (o 3))
  | 0x9 => some (.sub (o 0) (o 1) (o 2) (o 3))
  | 0xa => some (.and (o 0) (o 1) (o 2) (o 3))
  | 0xb => some (.or (o 0) (o 1) (o 2) (o 3))
  | 0xc => some (.xor (o 0) (o 1) (o 2) (o 3))
  | 0xd => some (.andn (o 0) (o 1) (o 2) (o 3))
  | 0xe => some (.shl (o 0) (o 1) (o 2) (o 3))
  | 0xf => some (.shr (o 0) (o 1) (o 2) (o 3))
  | 0x10 => some (.sar (o 0) (o 1) (o 2) (o 3))
  | 0x11 => some (.shli (o 0) (o 1) (o 2) (o 3))
  | 0x12 => some (.shri (o 0) (o 1) (o 2) (o 3))
  | 0x13 => some (.sari (o 0) (o 1) (o 2) (o 3))
  | 0x14 => some (.mul (o 0) (o 1) (o 2) (o 3))
  | 0x15 => some (.mulhu (o 0) (o 1) (o 2) (o 3))
  | 0x16 => some (.mulhs (o 0) (o 1) (o 2) (o 3))
  | 0x17 => some (.divu (o 0) (o 1) (o 2) (o 3))
  | 0x18 => some (.remu (o 0) (o 1) (o 2) (o 3))
  | 0x19 => some (.min (o 0) (o 1) (o 2) (o 3))
  | 0x1a => some (.max (o 0) (o 1) (o 2) (o 3))
  | 0x1b => some (.minu (o 0) (o 1) (o 2) (o 3))
  | 0x1c => some (.maxu (o 0) (o 1) (o 2) (o 3))
  | 0x1d => some (.clz (o 0) (o 1) (o 2))
  | 0x1e => some (.popc (o 0) (o 1) (o 2))
  | 0x1f => some (.sel (o 0) (o 1) (o 2) (o 3))
  | 0x20 => some (.cmpEq (o 0) (o 1) (o 2) (o 3))
  | 0x21 => some (.cmpNe (o 0) (o 1) (o 2) (o 3))
  | 0x22 => some (.cmpLt (o 0) (o 1) (o 2) (o 3))
  | 0x23 => some (.cmpLe (o 0) (o 1) (o 2) (o 3))
  | 0x24 => some (.cmpLtu (o 0) (o 1) (o 2) (o 3))
  | 0x25 => some (.cmpLeu (o 0) (o 1) (o 2) (o 3))
  | 0x26 => some (.tstb (o 0) (o 1) (o 2) (o 3))
  | 0x27 => some (.pmov (o 0) (o 1) (o 2))
  | 0x28 => some (.pand (o 0) (o 1) (o 2) (o 3))
  | 0x29 => some (.por (o 0) (o 1) (o 2) (o 3))
  | 0x2a => some (.pxor (o 0) (o 1) (o 2) (o 3))
  | 0x2b => some (.pandn (o 0) (o 1) (o 2) (o 3))
  | 0x2c => some (.ptos (o 0) (o 1))
  | 0x2d => some (.stop (o 0) (o 1))
  | 0x2e => some (.lsetup (o 0) (o 1) (o 2) (o 3))
  | 0x30 => some (.ldB (o 0) (o 1) (o 2) (o 3))
  | 0x31 => some (.ldH (o 0) (o 1) (o 2) (o 3))
  | 0x32 => some (.ldW (o 0) (o 1) (o 2) (o 3))
  | 0x33 => some (.ldD (o 0) (o 1) (o 2) (o 3))
  | 0x34 => some (.ldsW (o 0) (o 1) (o 2) (o 3))
  | 0x35 => some (.stB (o 0) (o 1) (o 2) (o 3))
  | 0x36 => some (.stH (o 0) (o 1) (o 2) (o 3))
  | 0x37 => some (.stW (o 0) (o 1) (o 2) (o 3))
  | 0x38 => some (.stD (o 0) (o 1) (o 2) (o 3))
  | _ => none

/-- The instruction of an operation code and operands, R44. -/
noncomputable def naInstr (op : Nat) (o : Nat → Nat) : Option Instr :=
  match op with
  | 0x0 => some .seq
  | 0x1 => some (.jmp (o 0))
  | 0x2 => some (.br (o 0) (decide (o 1 = 1)) (o 2))
  | 0x3 => some (.call (o 0))
  | 0x4 => some .ret
  | 0x5 => some (.lend (o 0) (o 1))
  | 0x6 => some (.trap (o 0))
  | 0x7 => some .rft
  | 0x8 => some .halt
  | 0x9 => some (.idle (o 0))
  | _ => none

/-- The instruction of an operation code and operands, R48 to R55, R60. -/
noncomputable def xInstr (op : Nat) (o : Nat → Nat) : Option Instr :=
  match op with
  | 0x0 => some .xnop
  | 0x1 => some (.bcast (o 0) (o 1))
  | 0x2 => some .lit
  | 0x3 => some (.k28 (o 0))
  | 0x5 => some (.waits (o 0) (o 1))
  | 0x6 => some (.red (o 0) (o 1) (o 2) (o 3) (o 4) (o 5))
  | 0xa => some (.feat (o 0) (o 1))
  | _ => none

/-- The instruction of an operation code and operands, R52, R53. -/
noncomputable def memInstr (op : Nat) (o : Nat → Nat) : Option Instr :=
  match op with
  | 0x80 => some (.ldgB (ordOf (o 0)) (scopeOf (o 1)) (o 2) (o 3) (o 4))
  | 0x81 => some (.ldgH (ordOf (o 0)) (scopeOf (o 1)) (o 2) (o 3) (o 4))
  | 0x82 => some (.ldgW (ordOf (o 0)) (scopeOf (o 1)) (o 2) (o 3) (o 4))
  | 0x83 => some (.ldgD (ordOf (o 0)) (scopeOf (o 1)) (o 2) (o 3) (o 4))
  | 0x84 => some (.stgB (ordOf (o 0)) (scopeOf (o 1)) (o 2) (o 3) (o 4))
  | 0x85 => some (.stgH (ordOf (o 0)) (scopeOf (o 1)) (o 2) (o 3) (o 4))
  | 0x86 => some (.stgW (ordOf (o 0)) (scopeOf (o 1)) (o 2) (o 3) (o 4))
  | 0x87 => some (.stgD (ordOf (o 0)) (scopeOf (o 1)) (o 2) (o 3) (o 4))
  | 0x88 => some (.afadd (ordOf (o 0)) (scopeOf (o 1)) (o 2) (o 3) (o 4) (o 5))
  | 0x89 => some (.amin (ordOf (o 0)) (scopeOf (o 1)) (o 2) (o 3) (o 4) (o 5))
  | 0x8a => some (.amax (ordOf (o 0)) (scopeOf (o 1)) (o 2) (o 3) (o 4) (o 5))
  | 0x8b => some (.aand (ordOf (o 0)) (scopeOf (o 1)) (o 2) (o 3) (o 4) (o 5))
  | 0x8c => some (.aor (ordOf (o 0)) (scopeOf (o 1)) (o 2) (o 3) (o 4) (o 5))
  | 0x8d => some (.axor (ordOf (o 0)) (scopeOf (o 1)) (o 2) (o 3) (o 4) (o 5))
  | 0x8e => some (.aswap (ordOf (o 0)) (scopeOf (o 1)) (o 2) (o 3) (o 4) (o 5))
  | 0x8f => some (.acas (ordOf (o 0)) (scopeOf (o 1)) (o 2) (o 3) (o 4) (o 5))
  | 0x90 => some (.amaxf (ordOf (o 0)) (scopeOf (o 1)) (o 2) (o 3) (o 4))
  | 0x91 => some (.memAmaxrr (ordOf (o 0)) (scopeOf (o 1)) (o 2) (o 3) (o 4))
  | 0x92 => some (.memFence (ordOf (o 0)) (scopeOf (o 1)) (o 2))
  | 0x93 => some (.memLdref (ordOf (o 0)) (scopeOf (o 1)) (o 2) (o 3) (o 4) (o 5))
  | 0x94 => some (.memStref (ordOf (o 0)) (scopeOf (o 1)) (o 2) (o 3) (o 4) (o 5))
  | 0x95 => some (.memPin (ordOf (o 0)) (scopeOf (o 1)) (o 2) (o 3) (o 4))
  | 0x96 => some (.memUnpin (ordOf (o 0)) (scopeOf (o 1)) (o 2) (o 3))
  | 0x97 => some (.memLdr (ordOf (o 0)) (scopeOf (o 1)) (o 2) (o 3) (o 4) (o 5))
  | 0x98 => some (.memStr (ordOf (o 0)) (scopeOf (o 1)) (o 2) (o 3) (o 4) (o 5))
  | 0x99 => some (.memJraise (ordOf (o 0)) (scopeOf (o 1)) (o 2) (o 3) (o 4))
  | 0x9a => some (.memJdone (ordOf (o 0)) (scopeOf (o 1)) (o 2) (o 3))
  | _ => none

/-- The instruction of an operation code and operands, R56. -/
noncomputable def engInstr (op : Nat) (o : Nat → Nat) : Option Instr :=
  match op with
  | 0x38 => some (.engCpy (o 0) (o 1) (decide (o 2 = 1)) (decide (o 3 = 1)) (scopeOf (o 4)) (o 5))
  | 0x39 => some (.engInstall (o 0) (o 1) (decide (o 2 = 1)) (decide (o 3 = 1)) (scopeOf (o 4)) (o 5))
  | 0x3a => some (.engReloc (o 0) (o 1) (decide (o 2 = 1)) (decide (o 3 = 1)) (scopeOf (o 4)) (o 5))
  | 0x3b => some (.mbxsend (o 0) (o 1) (decide (o 2 = 1)) (decide (o 3 = 1)) (scopeOf (o 4)) (o 5))
  | 0x3c => some (.enq (o 0) (o 1) (decide (o 2 = 1)) (decide (o 3 = 1)) (scopeOf (o 4)) (o 5))
  | 0x3d => some (.podsend (o 0) (o 1) (decide (o 2 = 1)) (decide (o 3 = 1)) (scopeOf (o 4)) (o 5))
  | 0x3e => some (.ctxstart (o 0) (o 1) (decide (o 2 = 1)) (decide (o 3 = 1)) (scopeOf (o 4)) (o 5))
  | 0x3f => some (.ctxsave (o 0) (o 1) (decide (o 2 = 1)) (decide (o 3 = 1)) (scopeOf (o 4)) (o 5))
  | _ => none

/-- The instruction of an operation code and operands, R58. -/
noncomputable def csrInstr (op : Nat) (o : Nat → Nat) : Option Instr :=
  match op with
  | 0x20 => some (.csrr (o 0) (o 1))
  | 0x21 => some (.csrw (o 0) (o 1))
  | 0x22 => some (.csrs (o 0) (o 1) (o 2))
  | 0x23 => some (.csrc (o 0) (o 1) (o 2))
  | _ => none

/-- The instruction of an operation code and operands, R59. -/
noncomputable def ctxInstr (op : Nat) (o : Nat → Nat) : Option Instr :=
  match op with
  | 0x90 => some (.dmset (o 0))
  | 0x91 => some (.dmget (o 0))
  | 0x92 => some (.cmset (o 0))
  | 0x93 => some (.cmget (o 0))
  | 0x94 => some (.tmand (o 0))
  | 0x95 => some (.tmget (o 0))
  | 0x96 => some (.prio (o 0))
  | _ => none

/-- The instruction of an operation code and operands, R69 to R72. -/
noncomputable def vInstr (op : Nat) (o : Nat → Nat) : Option Instr :=
  match op with
  | 0x1 => some (.vmov (o 0) (o 1) (o 2))
  | 0x2 => some (.vmovi (o 0) (tyOf (o 1)) (o 2) (o 3))
  | 0x3 => some (.vbcst (o 0) (o 1) (o 2))
  | 0x4 => some (.vlane (o 0) (o 1))
  | 0x5 => some (.vcoord (o 0) (o 1) (o 2))
  | 0x8 => some (.vadd (o 0) (tyOf (o 1)) (o 2) (o 3) (o 4))
  | 0x9 => some (.vsub (o 0) (tyOf (o 1)) (o 2) (o 3) (o 4))
  | 0xa => some (.vmullo (o 0) (tyOf (o 1)) (o 2) (o 3) (o 4))
  | 0xb => some (.vmulhi (o 0) (tyOf (o 1)) (o 2) (o 3) (o 4))
  | 0xc => some (.vmin (o 0) (tyOf (o 1)) (o 2) (o 3) (o 4))
  | 0xd => some (.vmax (o 0) (tyOf (o 1)) (o 2) (o 3) (o 4))
  | 0xe => some (.vabsd (o 0) (tyOf (o 1)) (o 2) (o 3) (o 4))
  | 0xf => some (.vaddsat (o 0) (tyOf (o 1)) (o 2) (o 3) (o 4))
  | 0x10 => some (.vand (o 0) (o 1) (o 2) (o 3))
  | 0x11 => some (.vor (o 0) (o 1) (o 2) (o 3))
  | 0x12 => some (.vxor (o 0) (o 1) (o 2) (o 3))
  | 0x13 => some (.vandn (o 0) (o 1) (o 2) (o 3))
  | 0x14 => some (.vshl (o 0) (tyOf (o 1)) (o 2) (o 3) (o 4))
  | 0x15 => some (.vshr (o 0) (tyOf (o 1)) (o 2) (o 3) (o 4))
  | 0x16 => some (.vsar (o 0) (tyOf (o 1)) (o 2) (o 3) (o 4))
  | 0x17 => some (.vshli (o 0) (tyOf (o 1)) (o 2) (o 3) (o 4))
  | 0x18 => some (.vpopc (o 0) (tyOf (o 1)) (o 2) (o 3))
  | 0x19 => some (.vclz (o 0) (tyOf (o 1)) (o 2) (o 3))
  | 0x1c => some (.vsel (o 0) (o 1) (o 2) (o 3) (o 4))
  | 0x1d => some (.vshf (o 0) (o 1) (o 2) (o 3))
  | 0x1e => some (.vrot (o 0) (o 1) (o 2) (o 3))
  | 0x20 => some (.vcmpEq (o 0) (tyOf (o 1)) (o 2) (o 3) (o 4))
  | 0x21 => some (.vcmpNe (o 0) (tyOf (o 1)) (o 2) (o 3) (o 4))
  | 0x22 => some (.vcmpLt (o 0) (tyOf (o 1)) (o 2) (o 3) (o 4))
  | 0x23 => some (.vcmpLe (o 0) (tyOf (o 1)) (o 2) (o 3) (o 4))
  | 0x24 => some (.vcmpLtu (o 0) (tyOf (o 1)) (o 2) (o 3) (o 4))
  | 0x25 => some (.vcmpLeu (o 0) (tyOf (o 1)) (o 2) (o 3) (o 4))
  | 0x26 => some (.vfcmpEq (o 0) (o 1) (o 2) (o 3))
  | 0x27 => some (.vfcmpLt (o 0) (o 1) (o 2) (o 3))
  | 0x28 => some (.vfcmpLe (o 0) (o 1) (o 2) (o 3))
  | 0x29 => some (.vfcmpUn (o 0) (o 1) (o 2) (o 3))
  | 0x30 => some (.vfadd (o 0) (rmOf (o 1)) (o 2) (o 3) (o 4))
  | 0x31 => some (.vfsub (o 0) (rmOf (o 1)) (o 2) (o 3) (o 4))
  | 0x32 => some (.vfmul (o 0) (rmOf (o 1)) (o 2) (o 3) (o 4))
  | 0x33 => some (.vfma (o 0) (rmOf (o 1)) (o 2) (o 3) (o 4) (o 5))
  | 0x34 => some (.vfms (o 0) (rmOf (o 1)) (o 2) (o 3) (o 4) (o 5))
  | 0x35 => some (.vfnma (o 0) (rmOf (o 1)) (o 2) (o 3) (o 4) (o 5))
  | 0x36 => some (.vfmin (o 0) (o 1) (o 2) (o 3))
  | 0x37 => some (.vfmax (o 0) (o 1) (o 2) (o 3))
  | 0x38 => some (.vfabs (o 0) (o 1) (o 2))
  | 0x39 => some (.vfneg (o 0) (o 1) (o 2))
  | 0x3a => some (.vfdiv (o 0) (rmOf (o 1)) (o 2) (o 3) (o 4))
  | 0x3b => some (.vfsqrt (o 0) (rmOf (o 1)) (o 2) (o 3))
  | 0x3c => some (.vfrsqrt (o 0) (rmOf (o 1)) (o 2) (o 3))
  | 0x3d => some (.vfexp2 (o 0) (rmOf (o 1)) (o 2) (o 3))
  | 0x3e => some (.vflog2 (o 0) (rmOf (o 1)) (o 2) (o 3))
  | 0x3f => some (.vfclass (o 0) (o 1) (o 2))
  | 0x40 => some (.vrsumF32 (o 0) (rmOf (o 1)) (o 2) (o 3))
  | 0x41 => some (.vrmaxF32 (o 0) (o 1) (o 2))
  | 0x42 => some (.vramax (o 0) (o 1) (o 2))
  | 0x43 => some (.vrsumI (o 0) (tyOf (o 1)) (o 2) (o 3))
  | 0x44 => some (.vrmaxI (o 0) (tyOf (o 1)) (o 2) (o 3))
  | 0x48 => some (.xmov (o 0) (o 1) (o 2))
  | 0x49 => some (.xmovi (o 0) (o 1) (o 2))
  | 0x4a => some (.xadd (o 0) (o 1) (o 2) (o 3))
  | 0x4b => some (.xsub (o 0) (o 1) (o 2) (o 3))
  | 0x4c => some (.xmul (o 0) (o 1) (o 2) (o 3))
  | 0x4d => some (.xand (o 0) (o 1) (o 2) (o 3))
  | 0x4e => some (.cellXor (o 0) (o 1) (o 2) (o 3))
  | 0x4f => some (.xshl (o 0) (o 1) (o 2) (o 3))
  | 0x50 => some (.xshr (o 0) (o 1) (o 2) (o 3))
  | 0x51 => some (.xcmp (o 0) (ccOf (o 1)) (o 2) (o 3) (o 4))
  | 0x52 => some (.xfromv (o 0) (o 1) (o 2) (o 3))
  | 0x53 => some (.xtok (o 0) (o 1) (o 2))
  | _ => none

/-- The instruction of an operation code and operands, R71, R182. -/
noncomputable def convInstr (op : Nat) (o : Nat → Nat) : Option Instr :=
  match op with
  | 0x60 => some (.vcvtF32I32 (o 0) (rmOf (o 1)) (o 2) (o 3))
  | 0x61 => some (.vcvtI32F32 (o 0) (rmOf (o 1)) (o 2) (o 3))
  | 0x62 => some (.vcvtBf16F32 (o 0) (rmOf (o 1)) (o 2) (o 3))
  | 0x63 => some (.vcvtF32Bf16 (o 0) (o 1) (o 2))
  | 0x64 => some (.vsplit3 (o 0) (o 1) (o 2))
  | 0x65 => some (.vamaxb (o 0) (decide (o 1 = 1)) (o 2) (o 3))
  | 0x66 => some (.vscale (o 0) (rmOf (o 1)) (o 2) (o 3) (o 4))
  | 0x67 => some (.qbfp (o 0) (rmOf (o 1)) (decide (o 2 = 1)) (o 3) (o 4) (o 5))
  | 0x68 => some (.dqbfp (o 0) (decide (o 1 = 1)) (o 2) (o 3) (o 4) (o 5))
  | 0x69 => some (.vcvtI8F32 (o 0) (rmOf (o 1)) (o 2) (o 3) (o 4))
  | 0x6a => some (.vrng (o 0) (o 1))
  | 0x6b => some (.vcvtF32I8 (o 0) (o 1) (o 2) (o 3))
  | _ => none

/-- The instruction of an operation code and operands, R73, R74. -/
noncomputable def mxInstr (op : Nat) (o : Nat → Nat) : Option Instr :=
  match op with
  | 0x1 => some (.mma (o 0) (o 1) (o 2) (o 3) (o 4) (o 5) (o 6) (decide (o 7 = 1)) (decide (o 8 = 1)) (decide (o 9 = 1)))
  | 0x2 => some (.mmaNest (o 0) (o 1) (o 2) (o 3) (o 4) (o 5) (o 6) (decide (o 7 = 1)) (decide (o 8 = 1)) (decide (o 9 = 1)))
  | 0x3 => some (.mmaGrp (o 0) (o 1) (o 2) (o 3) (o 4) (o 5) (o 6) (decide (o 7 = 1)) (decide (o 8 = 1)) (decide (o 9 = 1)) (o 10))
  | 0x4 => some (.accz (o 0) (o 1) (o 2) (o 3) (o 4))
  | 0x5 => some (.accrd (o 0) (o 1) (o 2) (o 3))
  | 0x6 => some (.accwr (o 0) (o 1) (o 2) (o 3))
  | 0x7 => some (.accout (o 0) (o 1) (o 2) (o 3) (o 4) (o 5))
  | 0x8 => some .wswap
  | 0x9 => some (.mxprog (o 0) (o 1))
  | _ => none

/-- The instruction of an operation code and operands, R75, R76. -/
noncomputable def lsInstr (op : Nat) (o : Nat → Nat) : Option Instr :=
  match op with
  | 0x1 => some (.ldv (o 0) (decide (o 1 = 1)) (o 2) (o 3) (o 4))
  | 0x2 => some (.stv (o 0) (o 1) (o 2) (o 3))
  | 0x3 => some (.ldvn (o 0) (decide (o 1 = 1)) (o 2) (o 3) (o 4) (o 5))
  | 0x4 => some (.stvn (o 0) (o 1) (o 2) (o 3) (o 4))
  | 0x5 => some (.gather (o 0) (decide (o 1 = 1)) (o 2) (o 3) (o 4) (o 5))
  | 0x6 => some (.scatter (o 0) (o 1) (o 2) (o 3) (o 4))
  | 0x7 => some (.ldx (o 0) (decide (o 1 = 1)) (o 2) (o 3) (o 4) (o 5) (o 6))
  | 0x8 => some (.stx (o 0) (o 1) (o 2) (o 3) (o 4) (o 5))
  | 0x9 => some (.ldxAcq (o 0) (o 1) (o 2) (o 3) (scopeOf (o 4)) (o 5) (o 6))
  | 0xa => some (.stxRel (o 0) (o 1) (o 2) (o 3) (scopeOf (o 4)) (o 5) (o 6))
  | 0xb => some (.lsFence (o 0) (o 1) (scopeOf (o 2)) (ordOf (o 3)))
  | 0x10 => some (.xafadd (o 0) (o 1) (o 2) (o 3) (scopeOf (o 4)) (o 5))
  | 0x11 => some (.xamax (o 0) (o 1) (o 2) (o 3) (scopeOf (o 4)) (o 5))
  | 0x12 => some (.xacas (o 0) (o 1) (o 2) (o 3) (o 4) (scopeOf (o 5)) (o 6))
  | 0x13 => some (.xaswap (o 0) (o 1) (o 2) (o 3) (scopeOf (o 4)) (o 5))
  | 0x14 => some (.vafadd (o 0) (o 1) (o 2) (o 3) (o 4) (scopeOf (o 5)))
  | 0x15 => some (.vamaxf (o 0) (o 1) (o 2) (o 3) (o 4) (scopeOf (o 5)))
  | 0x16 => some (.lsAmaxrr (o 0) (o 1) (o 2) (o 3) (scopeOf (o 4)))
  | 0x20 => some (.stset (o 0) (o 1) (o 2))
  | 0x21 => some (.stget (o 0) (o 1) (o 2))
  | 0x22 => some (.stgo (o 0) (o 1) (o 2))
  | 0x23 => some (.stsave (o 0) (o 1) (o 2) (o 3))
  | 0x24 => some (.stload (o 0) (o 1) (o 2) (o 3))
  | 0x28 => some (.resize (o 0) (o 1) (o 2))
  | 0x29 => some (.sete (o 0) (o 1) (o 2) (o 3))
  | 0x2a => some (.setf (o 0) (o 1) (o 2) (o 3))
  | 0x2b => some (.nsflush (o 0) (o 1))
  | 0x30 => some (.lsLdr (o 0) (decide (o 1 = 1)) (o 2) (o 3) (o 4) (o 5) (o 6))
  | 0x31 => some (.lsStr (o 0) (o 1) (o 2) (o 3) (o 4) (o 5))
  | 0x32 => some (.ldrv (o 0) (decide (o 1 = 1)) (o 2) (o 3) (o 4) (o 5))
  | 0x33 => some (.strv (o 0) (o 1) (o 2) (o 3) (o 4))
  | 0x34 => some (.lsLdref (o 0) (decide (o 1 = 1)) (o 2) (o 3) (o 4) (o 5))
  | 0x35 => some (.lsStref (o 0) (o 1) (o 2) (o 3) (o 4))
  | 0x36 => some (.lsPin (o 0) (o 1) (o 2) (o 3))
  | 0x37 => some (.lsUnpin (o 0) (o 1) (o 2))
  | 0x38 => some (.refmov (o 0) (o 1) (o 2))
  | 0x39 => some (.reftag (o 0) (o 1) (o 2))
  | 0x40 => some (.take (o 0) (o 1) (o 2) (o 3))
  | 0x41 => some (.lsJraise (o 0) (o 1) (o 2) (o 3) (scopeOf (o 4)))
  | 0x42 => some (.lsJdone (o 0) (o 1) (o 2) (scopeOf (o 3)))
  | _ => none

/-- The instruction of an operation code and operands, R77. -/
noncomputable def xfInstr (op : Nat) (o : Nat → Nat) : Option Instr :=
  match op with
  | 0x1 => some (.perm (o 0) (o 1) (o 2) (o 3) (o 4))
  | 0x2 => some (.xmit (o 0) (o 1) (o 2) (o 3) (o 4))
  | 0x3 => some (.recv (o 0) (o 1) (o 2) (o 3))
  | 0x4 => some (.cshuf (o 0) (o 1) (o 2) (o 3) (o 4))
  | 0x5 => some (.xfCpy (o 0) (o 1) (o 2) (scopeOf (o 3)) (decide (o 4 = 1)) (decide (o 5 = 1)) (o 6))
  | 0x6 => some (.binscat (o 0) (o 1) (o 2) (o 3) (o 4) (scopeOf (o 5)) (o 6))
  | 0x7 => some (.xfReloc (o 0) (o 1) (o 2) (scopeOf (o 3)) (decide (o 4 = 1)) (decide (o 5 = 1)) (o 6))
  | 0x8 => some (.xfInstall (o 0) (o 1) (o 2) (scopeOf (o 3)) (decide (o 4 = 1)) (decide (o 5 = 1)) (o 6))
  | 0xa => some (.rbseed (o 0))
  | _ => none

/-- The instruction of an operation code and operands, R78. -/
noncomputable def ctInstr (op : Nat) (o : Nat → Nat) : Option Instr :=
  match op with
  | 0x1 => some (.wait (o 0) (o 1))
  | 0x2 => some (.waitf (o 0) (o 1))
  | 0x3 => some (.dly (o 0))
  | 0x4 => some .mark
  | 0x5 => some (.tokadd (o 0) (o 1) (o 2))
  | 0x6 => some (.tokrd (o 0) (o 1) (o 2))
  | 0x7 => some (.setc (o 0) (o 1) (o 2) (o 3))
  | 0x8 => some (.bar (scopeOf (o 0)))
  | 0x9 => some .phaseX
  | 0xa => some .phaseC
  | 0xb => some .abar
  | 0xc => some (.trapc (o 0) (o 1))
  | 0x10 => some (.kand (o 0) (o 1) (o 2) (o 3))
  | 0x11 => some (.kor (o 0) (o 1) (o 2) (o 3))
  | 0x12 => some (.kxor (o 0) (o 1) (o 2) (o 3))
  | 0x13 => some (.kandn (o 0) (o 1) (o 2) (o 3))
  | 0x14 => some (.knot (o 0) (o 1) (o 2))
  | 0x15 => some (.kmov (o 0) (o 1) (o 2))
  | 0x16 => some (.kset (o 0) (o 1) (o 2) (o 3))
  | 0x17 => some (.kfromx (o 0) (o 1) (o 2))
  | 0x18 => some (.ktox (o 0) (o 1) (o 2))
  | 0x19 => some (.kpopc (o 0) (o 1) (o 2))
  | _ => none

/-- The instruction a slot holds. The constructors of `Instr` with operands are more than compiled code can number,
so this is a definition for the kernel only; the machine itself runs `Raw`. -/
noncomputable def instrOf (r : Raw) : Option Instr :=
  let o := fun i => r.ops.getD i 0
  match r.kind with
  | .scalar => scalarInstr r.op o
  | .na => naInstr r.op o
  | .x => xInstr r.op o
  | .mem => memInstr r.op o
  | .eng => engInstr r.op o
  | .csr => csrInstr r.op o
  | .ctx => ctxInstr r.op o
  | .v => vInstr r.op o
  | .conv => convInstr r.op o
  | .mx => mxInstr r.op o
  | .ls => lsInstr r.op o
  | .xf => xfInstr r.op o
  | .ct => ctInstr r.op o

/-- The NOP of a scalar slot, XNOP, SEQ, and the X slot K28. -/
def Raw.nop : Raw := ⟨.scalar, 0, []⟩
/-- XNOP. -/
def Raw.xnop : Raw := ⟨.x, 0, []⟩
/-- SEQ. -/
def Raw.seq : Raw := ⟨.na, 0, []⟩
/-- K28 with its literal. -/
def Raw.k28 (lit : Nat) : Raw := ⟨.x, 3, [lit]⟩

/-- The literal that a slot reads from the X slot of its word: the last operand of MOVL, MOVLH and MOVLT. -/
def Raw.litNeeded (r : Raw) : Option Nat :=
  match rowOf r.kind r.op with
  | some row => if row.needsLit then r.ops.getLast? else none
  | none => none

/-- The word that holds one slot and nothing else: the other scalar slot NOP, the X slot XNOP (or the K28 literal the
slot reads), the next address SEQ. -/
def wordOf (r : Raw) : SWord :=
  match r.kind with
  | .na => { na := r, s0 := .nop, s1 := .nop, x := .xnop }
  | .scalar =>
    match r.litNeeded with
    | some lit => { na := .seq, s0 := r, s1 := .nop, x := .k28 lit }
    | none => { na := .seq, s0 := r, s1 := .nop, x := .xnop }
  | _ => { na := .seq, s0 := .nop, s1 := .nop, x := r }

/-- The bundle that holds one slot and nothing else. -/
def bundleOf (r : Raw) : Bundle :=
  match r.kind with
  | .v => { v0 := some r }
  | .conv => { v1 := some r }
  | .mx => { mx := some r }
  | .ls => { ls := some r }
  | .xf => { xf := some r }
  | .ct => { ct := some r }
  | _ => {}

/-- The 128 bits of a word. -/
def encodeWord (w : SWord) : Nat :=
  w.na.encode * 2 ^ 96 + w.s0.encode * 2 ^ 64 + w.s1.encode * 2 ^ 32 + w.x.encode

/-- The bits of a slot that may be empty. -/
def encodeOpt : Option Raw → Nat
  | none => 0
  | some r => r.encode

/-- The 384 bits of a bundle. -/
def encodeBundle (b : Bundle) : Nat :=
  encodeOpt b.v0 * 2 ^ 320 + encodeOpt b.v1 * 2 ^ 256 + encodeOpt b.mx * 2 ^ 192 + encodeOpt b.ls * 2 ^ 128
    + encodeOpt b.xf * 2 ^ 64 + encodeOpt b.ct

/-- The container that holds a slot alone: its width and its bits. -/
def Raw.container (r : Raw) : Nat × Nat :=
  if r.kind.bits = 32 then (128, encodeWord (wordOf r)) else (384, encodeBundle (bundleOf r))

/-- The words of a well-formed instruction: 128 bits for a sequencer instruction, 384 for an instruction of a bundle,
none for an event. -/
def encode (i : Instr) : Option (Nat × Nat) := i.raw.map Raw.container

/-- The one slot of a word whose other fields are empty. -/
def SWord.single (w : SWord) : Option Raw :=
  if w.s0 = .nop ∧ w.s1 = .nop ∧ w.x = .xnop then some w.na
  else if w = wordOf w.s0 then some w.s0
  else if w = wordOf w.x then some w.x
  else none

/-- The one slot of a bundle whose other slots are empty. -/
def Bundle.single (b : Bundle) : Option Raw :=
  match b.v0, b.v1, b.mx, b.ls, b.xf, b.ct with
  | some i, none, none, none, none, none => some i
  | none, some i, none, none, none, none => some i
  | none, none, some i, none, none, none => some i
  | none, none, none, some i, none, none => some i
  | none, none, none, none, some i, none => some i
  | none, none, none, none, none, some i => some i
  | _, _, _, _, _, _ => none

/-- The instruction of raw bits: at most 128 bits are a sequencer word, more are a compute bundle. A container with
several instructions is the step WORD_ISSUE of record 0 or BUNDLE_ISSUE of record 0 at die 0, where
`State.withFetchWord` places containers. -/
noncomputable def decodeTableWord (nbits w : Nat) : Option Instr :=
  if nbits ≤ 128 then
    match decodeWord w with
    | .error _ => none
    | .ok s =>
      match s.single with
      | some r => instrOf r
      | none => some (.wordIssue 0)
  else
    match decodeBundle w with
    | .error _ => none
    | .ok b =>
      match b.single with
      | some r => instrOf r
      | none => some (.bundleIssue 0 0)

end Sys2Proof
end

