-- ==== Sys2Proof/Machine/State.lean ====
section
/-! DEFINITION. The state of the machine: everything the spec gives it, as plain data. Collections that are sparse by
nature are maps from a number to a value, strictly rising in the number, with no entry at its reset value
(`Sys2Proof.Map`). A context's cells, dies and sequencer registers stand under its context record; what belongs to a
die, a tenant or the package stands beside the records. -/

namespace Sys2Proof.Machine

/-- Why the machine stops. -/
inductive Fault where
  /-- Raised by an event whose operand names a context, die, cell, mailbox, port or engine that the part does not have
  (R15, R17). Safe: no such unit exists, so nothing can happen to it. -/
  | noUnit (what : String)
  deriving DecidableEq, Repr

/-- Why a step is refused. -/
inductive Refusal where
  /-- Raised by an arm of `exec` that has no meaning yet. Safe: nothing is claimed of it. -/
  | notModelled (mnemonic : String)
  /-- Raised by a step whose condition does not hold in this state: an event that cannot happen now, or an instruction
  issued in a context that cannot issue. Safe: the rules let the step happen only under that condition, and another
  step can be taken instead. -/
  | notEnabled (why : String)
  deriving DecidableEq, Repr

/-! ## Registers and results in flight -/

/-- A register of a sequencer context or of a cell that a result can land in. `acc` is a row of the gated accumulator
writes of R206 (unit = entry); `cst` takes flags only; `gtab` is the group table. -/
inductive RegId where
  | s (n : Nat) | p (n : Nat) | h (n : Nat)
  | v (n : Nat) | k (n : Nat) | x (n : Nat) | st (n : Nat) | acc | cst
  deriving DecidableEq, Repr

/-- A fixed-latency result in flight (R82): the units it will write, the flags it raises at its landing, and the
positions that end before the one it lands at. `ein` is the IN of its bundle. `op` is set for the result of a
control-page load (R140), which is pending like a long-latency result and lands only where that is still live. -/
structure Fly where
  reg : RegId
  vals : List (Nat × Nat)
  flags : Nat
  ein : Nat
  rest : Nat
  op : Option Nat
  deriving DecidableEq, Repr

/-- A pending mark (R395, R396): the units of `reg` marked by operation `op` and, among them, those in which its
result still lands (the others have been cancelled by a later write). -/
structure Pend where
  op : Nat
  reg : RegId
  marked : List Nat
  live : List Nat
  deriving DecidableEq, Repr

/-- One hardware loop (R115). -/
structure Loop where
  count : BitVec 32
  pass : BitVec 32
  head : BitVec 18
  stages : BitVec 3
  deriving DecidableEq, Repr

/-- The reset value of a loop. -/
def Loop.reset : Loop := { count := 0, pass := 0, head := 0, stages := 0 }

/-- A return-stack entry (R114). -/
structure RetEntry where
  rpc : BitVec 18
  rmask : BitVec 48
  deriving DecidableEq, Repr

/-- The part of a sequencer context that a restart mark shadows, SHD (R423). -/
structure SeqCore where
  s : Map Word
  p : Word
  h : Map Word
  ts : Map (BitVec 16)
  pend : List Pend
  fly : List Fly
  l0 : Loop
  l1 : Loop
  l2 : Loop
  l3 : Loop
  stageOwn : BitVec 3
  stack : List RetEntry
  pc : BitVec 18
  inn : BitVec 48
  tokmask : BitVec 48
  diemask : BitVec 32
  cellmask : BitVec 64
  prio : BitVec 3
  sstat : Word
  deriving DecidableEq, Repr

/-- A sequencer context at reset (R108 to R117): registers 0, p0 true, TOKMASK all ones, the masks those of the field and
the group that a FREE record names (R113). -/
def SeqCore.reset : SeqCore :=
  { s := [], p := 1, h := [], ts := [], pend := [], fly := [], l0 := .reset, l1 := .reset, l2 := .reset, l3 := .reset
    stageOwn := 0, stack := [], pc := 0, inn := 0, tokmask := BitVec.allOnes 48, diemask := 1, cellmask := 1, prio := 0
    sstat := 0 }

/-! ## Cells -/

/-- A matrix-queue entry (R207), with the operation that posts its token. -/
structure MxEntry where
  ops : Nat
  op : Nat
  ein : BitVec 48
  row : Nat
  step : Nat
  grp : Nat
  gt : BitVec 128
  req : Nat
  deriving DecidableEq, Repr

/-- The part of a cell that a restart mark shadows (R423), for one context. Keys: `v` register·64 + lane, `st`
stream·8 + doubleword, `accw` accumulator entry of an uncommitted ACCWR. -/
structure CellCore where
  v : Map Lane
  k : Map Word
  x : Map Word
  h : Map Word
  st : Map Word
  tk : Map (BitVec 16)
  cst : Word
  cctl : Word
  pend : List Pend
  fly : List Fly
  rbSeed : Word
  rbMade : Nat
  rbTaken : Nat
  cways : Nat
  gtab : BitVec 128
  mxq : List MxEntry
  accw : List (Nat × Nat × Lane)
  deriving DecidableEq, Repr

/-- A cell at reset: registers 0, the random-bit queue filled with the 16 entries of seed 0 (R169, R181). -/
def CellCore.reset : CellCore :=
  { v := [], k := [], x := [], h := [], st := [], tk := [], cst := 0, cctl := 0, pend := [], fly := [], rbSeed := 0
    rbMade := 16, rbTaken := 0, cways := 0, gtab := 0, mxq := [], accw := [] }

/-- A near-store cache line (R239): the bytes it was filled with, if it was filled, and the bytes written since it was last
written back. -/
structure NsLine where
  fill : List (BitVec 8)
  wr : List Host.Cell
  deriving DecidableEq, Repr

/-- A forwarding entry (R279). Its copies A and B never differ (R383), so one is kept. (Log entry 68: DEDUCED.) -/
structure FwdEntry where
  f0 : Word
  f1 : Word
  f2 : Word
  f3 : Word
  deriving DecidableEq, Repr

/-- A forwarding entry at reset: FREE. -/
def FwdEntry.reset : FwdEntry := { f0 := 0, f1 := 0, f2 := 0, f3 := 0 }

/-- An item a stream has fetched ahead (R198, R199): its number, its values (mantissas and scale of a block, or one
element), the fault it met, and whether a scratch line it read was empty. -/
structure Item where
  st : Nat
  t : Nat
  vals : List Nat
  fault : Option (Nat × Nat × Nat)
  empty : Bool
  deriving DecidableEq, Repr

/-- A cell for one context: what marks shadow, and the rest. `acc` is the committed accumulator store (R205), `lines`
the near-store cache, `empty` the scratch lines whose full bit is 0, `items` what streams have fetched ahead, `run`
the macro-operation at the head of the matrix queue once it has started, `fwdc` the forwarding cache (R290). -/
structure Cell where
  core : CellCore
  acc : Map Lane
  lines : Map NsLine
  empty : List Nat
  items : List Item
  run : Option MxEntry
  fwdc : Map FwdEntry
  deriving DecidableEq, Repr

/-- A cell at reset. -/
def Cell.reset : Cell := { core := .reset, acc := [], lines := [], empty := [], items := [], run := none, fwdc := [] }

/-! ## Long-latency operations -/

/-- Where an access lands: the first byte in the one map of all memories (see `Machine/Ops.lean` for its spaces), the
region class, the virtual address, and the reference and byte offset it was routed through, if any. -/
structure Target where
  key : Nat
  cls : Nat
  va : Nat
  ref : Option (Nat × Nat)
  deriving DecidableEq, Repr

/-- The update of one read-modify-write (R262 to R265, R270, R409). -/
inductive Rmw where
  | add | min | max | and | or | xor | swap | cas (new : Nat) | amaxf | amaxrr | jraise | jdone
  deriving DecidableEq, Repr

/-- What one access does. -/
inductive AccOp where
  | load | store | rmw (f : Rmw)
  deriving DecidableEq, Repr

/-- One access of an operation: the unit (lane) it serves, where, how many bytes, what, with which value. -/
structure Part where
  lane : Nat
  tgt : Target
  n : Nat
  op : AccOp
  val : Nat
  deriving DecidableEq, Repr

/-- The path an access takes: coherent (R259), streamed with the use count and discard mark a store stream supplies
(R248), through the near-store cache (R258), or to the scratch ways (R257). -/
inductive Path where
  | coherent | stream (l2 : Option (Nat × Bool)) | gather | scratch
  deriving DecidableEq, Repr

/-- The engine command of a descriptor: its class (8 is BINSCAT), the eight descriptor words, lanes and bins of a
BINSCAT. -/
structure Cmd where
  cls : Nat
  e : List Word
  items : List (Nat × Nat × Nat)
  acq : Bool
  rel : Bool
  deriving DecidableEq, Repr

/-- The effect of a long-latency operation when it is performed. -/
inductive Body where
  /-- memory accesses; loads and old values land in `dest` -/
  | mem (path : Path) (parts : List Part)
  /-- a vector load whose items are fetched when what holds them back has been performed (R307, R316): stream,
  descriptor, (lane of the first element, item) of the items it moves, the lanes it writes -/
  | ldv (st : Nat) (D : List Word) (want : List (Nat × Nat)) (lanes : List Nat)
  /-- values already read: a vector transfer's items (R200). Unit 64·k + i of a vector destination is lane i of the
  k-th register. With no values, an operation that only posts. -/
  | vals (vs : List (Nat × Nat))
  /-- FENCE (R260, R271), and whether its acquire half, if it has one, has been performed -/
  | fence (acquired : Bool)
  /-- STGO (R203): the stream and its cursor -/
  | stgo (st cur : Nat)
  /-- STLOAD of the descriptor at a target (R203) -/
  | stload (st : Nat) (parts : List Part)
  /-- RESIZE (R241): the way counts before and after -/
  | resize (old new : Nat)
  /-- NSFLUSH (R267) -/
  | nsflush
  /-- SETE and SETF (R266) -/
  | fullEmpty (line : Nat) (full : Bool)
  /-- TAKE (R407) -/
  | take (n : Nat)
  /-- PIN and UNPIN (R293, R294) of a reference -/
  | pin (r : Word)
  | unpin (r : Word)
  /-- a transfer (R341): operation code, pattern, ordinal, the lanes or the near-store address that receive; of an XMIT the
  address it sends from and how many bytes, of a RECV the size of scratch as it was issued -/
  | xfer (op pat ord : Nat) (lanes : List Nat) (addr n : Nat)
  /-- a macro-operation (R214): opcode, operand fields, and the entries of its tile that a later ACCWR has taken over
  (R209): entry, the value it has had for this operation, the IN of that ACCWR; performed when the matrix queue has run it -/
  | macro_ (op ops : Nat) (skip : List (Nat × Nat × Nat))
  /-- an engine command (R343) -/
  | cmd (m : Cmd)
  /-- a reduction (R333): group, operation, type, dc register, IN_R, the dies to sample, the values on their way, the
  values at the sequencer -/
  | red (grp op ty dc : Nat) (inr : BitVec 48) (dies : List Nat) (air got : List (Nat × Word))
  deriving DecidableEq, Repr

/-- How far an operation has come. -/
inductive Stage where
  /-- not yet released (R426) -/
  | held
  /-- issued or released -/
  | out
  /-- performed and landed; only its posting is left -/
  | performed
  deriving DecidableEq, Repr

/-- A long-latency operation of a context. `org` is the cell that issued it, none for the sequencer; `ein` the IN of
its bundle or of its word, `pc` the PC of its word; `slot` its place in the program order of one bundle or word; `dest` the register its values
land in; `flags` the status flags raised where they land; `gated` that it is one of the gated stores of R426; `again` that
its data were read once before, so that reading them lowers no use count (R33). -/
structure Req where
  id : Nat
  org : Option (Nat × Nat)
  ein : BitVec 48
  pc : BitVec 18
  slot : Nat
  tok : Option Nat
  ord : Ord
  sc : Scope
  dest : Option RegId
  body : Body
  stage : Stage
  gated : Bool
  flags : Nat
  again : Bool
  deriving DecidableEq, Repr

/-! ## Dies -/

/-- A bundle reference or literal, in flight or in a decode queue (R26, R327): the repetitions left, the IN of the
next one, the masks of the word that broadcast it (R7), and the number of the broadcast, which rises in the order in
which the merge stage issued them (R28). -/
structure QEntry where
  idx : Nat
  lit : Option Nat
  reps : Nat
  inn : BitVec 48
  diemask : BitVec 32
  cellmask : BitVec 64
  no : Nat
  deriving DecidableEq, Repr

/-- An item on its way down the broadcast tree (R328). -/
inductive Frame where
  | bundle (e : QEntry)
  /-- the request of a reduction (R333) -/
  | red (req : Nat)
  /-- the mark of a sequencer effect word, at the end of the bundle of this IN (R422) -/
  | mark (m : BitVec 48)
  deriving DecidableEq, Repr

/-- Why a die does not issue the head bundle of a context: a wait (R402), or a barrier or phase it has arrived at: the
scope FIELD of a barrier and the cells that take part (R336, R339). -/
inductive Hold where
  | wait | waitf | bar (fld : Bool) (cells : List Nat) | phase
  deriving DecidableEq, Repr

/-- A fault or an event that has been flagged (R421, R428, R432): code, detail, XINFO, the IN reported, the IN at which
it counts for the choice of a mark, whether it is handled by a freeze without rollback (F), and the die index XCAUSE
reports. `xpc` is the PC of the issuing word for an operation of the sequencer. -/
structure Flag where
  code : Nat
  detail : Nat
  info : Nat
  ein : BitVec 48
  at_ : BitVec 48
  noRollback : Bool
  die : Nat
  xpc : BitVec 18
  deriving DecidableEq, Repr

/-- An A-marked load that the access stream has issued ahead (R32 to R34): the IN of its bundle, the cell, its slot, the
registers that are its address operands, whether it has been performed, and then the 128-byte lines it read, what each
unit read, or the fault it met; `read` says that data were read for it, once or more. -/
structure Ahead where
  ein : BitVec 48
  cell : Nat
  raw : Raw
  regs : List RegId
  done : Bool
  read : Bool
  lines : List Nat
  vals : List (Nat × Nat)
  fault : Option (Nat × Nat × Nat)
  deriving DecidableEq, Repr

/-- What a cell has sent in the open superstep (R341), for its receiver: the IN of the bundle, the operation, the
pattern, the ordinal at which it pairs (R340), the sending cell, lanes or bytes. A RECV leaves an item of its own with
nothing sent, which counts it, and so does an XMIT whose bytes have still to be read out, under operation code 5. -/
structure Sent where
  ein : BitVec 48
  op : Nat
  pat : Nat
  ord : Nat
  cell : Nat
  vals : List (Nat × Nat)
  bytes : List (BitVec 8)
  deriving DecidableEq, Repr

/-- The shadow a die takes at a mark (R423): the mark's IN, the dc registers, the cores of its cells. -/
structure Shadow where
  mark : BitVec 48
  dc : Map Word
  cells : Map CellCore
  phaseOpen : Bool
  xfers : Nat
  perms : Nat
  barSeq : Nat
  deriving DecidableEq, Repr

/-- A die for one context. `e` is the IN of the next bundle to execute; `shadows` the older and the newer shadow set
(R425); `sinceMark` and `sinceStores` the counts of R427; `dly` the positions of a DLY still to pass; `barSeq` the FIELD
barriers it has arrived at, `barPend` its reports on their way, `barGot` those the sequencer has, `barSteps` whether it
has sent the second report of the barrier it stands at (R336); `access` is the IN up to which the access stream has
gone. A frame stands with the cycle in which it was sent (R26); `cycAt` is one more than the cycle in which the die last
issued a bundle of the context, `cycSlots` the slots that bundle occupied (R28). -/
structure DieCtx where
  frames : List (Nat × Frame)
  q : List QEntry
  e : BitVec 48
  hold : Option Hold
  dly : Nat
  dlyMark : Bool
  dc : Map Word
  tc : Map Word
  cells : Map Cell
  shadows : List Shadow
  passed : BitVec 48
  markAsk : List (BitVec 48)
  atMark : Option (BitVec 48)
  sinceMark : Nat
  sinceStores : Nat
  redAsk : List Nat
  commits : List (BitVec 48)
  flag : Option Flag
  flagSent : Bool
  fevents : List Flag
  phaseOpen : Bool
  xfers : Nat
  perms : Nat
  sent : List Sent
  discards : Nat
  barSeq : Nat
  barPend : Nat
  barGot : Nat
  barSteps : Bool
  access : BitVec 48
  ahead : List Ahead
  wswap : Option (BitVec 48)
  absel : Bool
  sc : Map Word
  snapAt : List (BitVec 48 × Nat × BitVec 32 × Nat)
  suppress : Option (BitVec 48)
  cycAt : Nat
  cycSlots : Nat
  deriving DecidableEq, Repr

/-- A die for a context at its start vector: the mark at IN -1 (R422) is passed and shadowed. -/
def DieCtx.reset : DieCtx :=
  { frames := [], q := [], e := 0, hold := none, dly := 0, dlyMark := false, dc := [], tc := [], cells := []
    shadows := [{ mark := BitVec.allOnes 48, dc := [], cells := [], phaseOpen := false, xfers := 0, perms := 0, barSeq := 0 }]
    passed := BitVec.allOnes 48, markAsk := [], atMark := none, sinceMark := 0, sinceStores := 0
    redAsk := [], commits := [], flag := none, flagSent := false, fevents := [], phaseOpen := false, xfers := 0, perms := 0
    sent := []
    discards := 0
    barSeq := 0, barPend := 0, barGot := 0, barSteps := false, access := 0, ahead := [], wswap := none, absel := false
    sc := [], snapAt := [], suppress := none, cycAt := 0
    cycSlots := 0 }

/-! ## Context records -/

/-- What a WAITING context waits for (R18, R363): `bar` is the credit of R29 while dies of the context stand at a barrier, for
whose release it then waits. (Log entry 87: DEDUCED.) -/
inductive Wait where
  | waits | idle (m : Nat) | credit | bar | start
  deriving DecidableEq, Repr

/-- Why a context is FROZEN (R18): it waits for its dies to stand at the rollback mark, for a page request, for the
dies of a pre-emption (`cmd` is the operation of its CTXSAVE, `halted` says that they have been rolled back, R434), for
the drain of BREAK or STEP, or it stands until it is saved (R431). -/
inductive Freeze where
  | rollback (f : Flag)
  | page (f : Flag) (seq : Bool)
  | preempt (cmd : Option Nat) (halted : Bool)
  | brk (code detail : Nat) (pass : BitVec 32) (xin : BitVec 48)
  | dead
  deriving DecidableEq, Repr

/-- The state of a context (R18). -/
inductive Life where
  | free | saved | ready | waiting (w : Wait) | frozen (w : Freeze) | halted
  deriving DecidableEq, Repr

/-- A rectangle: a field of dies (x0, y0, w, h) or a cell group (column, stratum, width, height), R6. -/
structure Rect where
  x : Nat
  y : Nat
  w : Nat
  h : Nat
  deriving DecidableEq, Repr

/-- The windows of a context, in the units of R23. -/
structure Windows where
  v : Nat
  k : Nat
  tk : Nat
  st : Nat
  ways : Nat
  acc : Nat
  trk : Nat
  q : Nat
  deriving DecidableEq, Repr

/-- An entry of the restart-mark map (R372), with its sequencer shadow and the id of the first
operation issued after the shadow was taken. -/
structure MarkEntry where
  wpc : BitVec 18
  npc : BitVec 18
  idx : Nat
  count : Nat
  kind : Bool
  shd : SeqCore
  first : BitVec 48
  opsTo : Nat
  deriving DecidableEq, Repr

/-- An annotation of the replay log (R439): a read of a pending register or of an empty line, with its IN and the cell that
read, a page fault, a pre-emption, a corrected error of a die, a coherence trace item (line and kind). R446 gives
annotations no record, so that they are kept beside the log. (Log entry 25: DESIGN CHOICE.) -/
inductive Note where
  | underwait (inn : BitVec 48) (cell : Option (Nat × Nat))
  | page (inn : BitVec 48) (die : Nat)
  | preempted (inn : BitVec 48)
  | corrected (die : Nat)
  | coherence (line kind : Nat)
  deriving DecidableEq, Repr

/-- One of the three record buffers of a context (R444). -/
structure Buf where
  base : Word
  size : BitVec 32
  wr : BitVec 32
  first : BitVec 32
  ctl : BitVec 2
  drops : BitVec 32
  deriving DecidableEq, Repr

/-- A buffer at reset. -/
def Buf.reset : Buf := { base := 0, size := 0, wr := 0, first := 0, ctl := 0, drops := 0 }

/-- A context record (R17) with everything its context owns. While `diesStop` holds, the dies stand for a handler that
was entered without rollback, and `stopId` is the first operation issued in it. `held` says that a context that is being
saved waited at its start vector or its resume point (R363). In `images`, `tag` are bytes of the image in memory. -/
structure Rec where
  life : Life
  slot : Option Nat
  pasid : BitVec 20
  floor : BitVec 3
  priv : Bool
  field : Rect
  group : Rect
  win : Windows
  dictSize : Nat
  dict : List Nat
  dictAddr : Nat
  dictBase : Nat
  routeAddr : Nat
  routes : List (Nat × Nat × Nat)
  routesValid : Word
  cells : List (Nat × Nat × Nat)
  cellsValid : Word
  core : SeqCore
  xvec : BitVec 18
  xpc : BitVec 18
  xin : BitVec 48
  xcause : BitVec 32
  xinfo : Word
  xscratch : Word
  hact : Bool
  diesStop : Bool
  stopId : Nat
  rv : Bool
  ridx : Nat
  rcnt : Nat
  xpcWritten : Bool
  nextF : Option Flag
  heldF : Option Flag
  cycres : Word
  wordcnt : Word
  waitcyc : Word
  creditcyc : Word
  waitCnt : Nat
  occ : Nat
  occFlight : List Nat
  sent : List (Nat × Nat)
  marks : List MarkEntry
  cf : BitVec 48
  reqs : List Req
  dies : Map DieCtx
  redBusy : List Nat
  bps : List Word
  dbgctl : BitVec 3
  bufs : List Buf
  image : Option Nat
  kept : List (Option (Nat × Nat) × Nat)
  resumeLife : Life
  resumeBc : Option (Nat × Nat)
  held : Bool
  tag : List (BitVec 8)
  replay : List (List Word)
  replaying : Bool
  notes : List Note
  seqFlag : Option Flag
  fwdc : Map FwdEntry
  deriving DecidableEq, Repr

/-- The windows of a context over whole cells (R23). -/
def Windows.full : Windows := { v := 8, k := 8, tk := 8, st := 8, ways := 8, acc := 16, trk := 8, q := 4 }

/-- A context record at reset: FREE. The values of a FREE record's placement are a design choice (log entry 4). -/
def Rec.reset : Rec :=
  { life := .free, slot := none, pasid := 0, floor := 0, priv := false, field := ⟨0, 0, 1, 1⟩, group := ⟨0, 0, 1, 1⟩
    win := ⟨0, 0, 0, 0, 0, 0, 0, 0⟩, dictSize := 0, dict := [], dictAddr := 0, dictBase := 0, routeAddr := 0, routes := []
    routesValid := 0, cells := [], cellsValid := 0, core := .reset, xvec := 0, xpc := 0, xin := 0, xcause := 0
    xinfo := 0, xscratch := 0, hact := false, diesStop := false, stopId := 0, rv := false, ridx := 0, rcnt := 0, xpcWritten := false
    nextF := none, heldF := none, cycres := 0, wordcnt := 0, waitcyc := 0, creditcyc := 0, waitCnt := 0, occ := 0, occFlight := []
    sent := [], marks := [], cf := BitVec.allOnes 48, reqs := [], dies := [], redBusy := [], bps := [0, 0, 0, 0]
    dbgctl := 0, bufs := [.reset, .reset, .reset], image := none, kept := [], resumeLife := .ready, resumeBc := none, held := false, tag := []
    replay := [], replaying := false, notes := [], seqFlag := none, fwdc := [] }

/-! ## Package, dies, tenants -/

/-- A command in a queue or running (R342): the context and operation that post its token, the cell or die it came
from, its tenant and the die it belongs to (R311), its scope, its descriptor, how far it has come (bytes, lines or
units, R344) and its code. `page` says that it waits for a page request (R345); `ended` that its work is over and only
its completion record is due, `lost` that no record can be written (R344). `no` is its place among the arrivals at the
die queues (R342). -/
structure QCmd where
  c : Nat
  req : Nat
  org : Option (Nat × Nat)
  pasid : Nat
  home : Nat
  sc : Scope
  cmd : Cmd
  prog : Nat
  code : Nat
  page : Bool
  ended : Bool
  lost : Bool
  no : Nat
  deriving DecidableEq, Repr

/-- A move in progress at a pointing engine, with its move marks (R287): tenant, heap, object, the old and the new base,
the frames of the 64 KiB pages of both ranges as the engine translated them, lines, lines copied (COPIED; the rest are
PENDING, and UNDER_COPY lasts no longer than a step), a poisoned line met, the number of its invalidations and the dies
whose acknowledgement is awaited (none while lines are still copied). -/
structure Move where
  pasid : Nat
  hid : Nat
  obj : Nat
  old : Nat
  new : Nat
  oldPages : List Nat
  newPages : List Nat
  lines : Nat
  done : Nat
  poisoned : Bool
  no : Nat
  acks : Option (List Nat)
  deriving DecidableEq, Repr

/-- An engine: its queue and the command it runs, with the counters of R411. -/
structure Engine where
  queue : List QCmd
  running : Option QCmd
  move : Option Move
  paused : Bool
  busy : Word
  completed : Word
  pageWait : Word
  refused : Word
  deriving DecidableEq, Repr

/-- An engine at reset. -/
def Engine.reset : Engine :=
  { queue := [], running := none, move := none, paused := false, busy := 0, completed := 0, pageWait := 0, refused := 0 }

/-- A tenant record (R378, R416), with its generation and its tenant key (R388). `heap` keys heap id·4 + word; `heapAt` the first entry, within a copy of the forwarding
space of the heap's die, that each valid heap's table holds (R382). (Log entry 50: DEDUCED.) -/
structure Tenant where
  rootDie : Nat
  rootPa : Nat
  heap : Map Word
  heapAt : Map Nat
  gen : BitVec 32
  tk : List (BitVec 8)
  budget : BitVec 32
  resv : BitVec 32
  cacheBase : Nat
  cacheQuota : Nat
  hwb : Nat
  deriving DecidableEq, Repr

/-- Replacement state of an L2 line (R248). -/
inductive L2State where
  | recent | counted (n : Nat) | spent
  deriving DecidableEq, Repr

/-- An L2 line with a use count or a discard mark: its state, the mark, and what the memory beneath holds while the
line is dirty (R249), with its error where it has one (R254). -/
structure L2Line where
  state : L2State
  disc : Bool
  below : List (BitVec 8)
  belowBad : Option (BitVec 128)
  deriving DecidableEq, Repr

/-- Lease coherence state of a line at its home (R324), with the die and the cycle of the last coherent write from
another die, which a grant of ownership looks at (R325), and the context, die and cell to which ownership was granted. -/
structure Lease where
  wts : Word
  rts : Word
  owner : BitVec 6
  last : Option (Nat × Nat)
  grantee : Option (Nat × Nat × Nat)
  deriving DecidableEq, Repr

/-- The reset value of R324. -/
def Lease.reset : Lease := { wts := 0, rts := 0, owner := 0x3F, last := none, grantee := none }

/-- A translation held by a die's TLB (R233): the leaf's entry word and its level. -/
structure TlbEntry where
  word : Word
  level : Nat
  deriving DecidableEq, Repr

/-- The space of a freed object that invalidations still guard (R292): tenant, its virtual address and size, the number of
the invalidations, and the dies that have not acknowledged. -/
structure Freed where
  pasid : Nat
  base : Nat
  size : Nat
  no : Nat
  dies : List Nat
  deriving DecidableEq, Repr

/-- The four watchpoints that a die holds for one residency slot (R442). -/
structure Watches where
  wbase : List Word
  wctl : List Word
  deriving DecidableEq, Repr

/-- Watchpoints at reset. -/
def Watches.reset : Watches := { wbase := [0, 0, 0, 0], wctl := [0, 0, 0, 0] }

/-- A die of the package. `fwdInv` holds the forwarding invalidations on their way to it (tenant, heap, object, number) and
`fwdAck` those it has yet to acknowledge. `tenant` is the PASID that last had a context resident on it (R22); `wear` keys erase blocks (R414), `repair` entries (R385), `badUnits` the flash units that a failed install left
invalid (R350). -/
structure Die where
  retired : Bool
  tenant : Option Nat
  absel : Bool
  copy0 : Engine
  copy1 : Engine
  copy2 : Engine
  copy3 : Engine
  pge : Engine
  kiln : Engine
  tlb : Map TlbEntry
  fwdInv : List (Nat × Nat × Nat × Nat)
  fwdAck : List (Nat × Nat × Nat × Nat)
  tlbInv : List (Nat × Option Nat)
  tlbAck : List (Nat × Option Nat)
  repair : Map Word
  wear : Map (BitVec 16)
  spares : BitVec 13
  wearg : BitVec 10
  badUnits : List Nat
  watch : List Watches
  deriving DecidableEq, Repr

/-- A die at reset. -/
def Die.reset : Die :=
  { retired := false, tenant := none, absel := false, copy0 := .reset, copy1 := .reset, copy2 := .reset, copy3 := .reset, pge := .reset
    kiln := .reset, tlb := [], fwdInv := [], fwdAck := [], tlbInv := [], tlbAck := [], repair := [], wear := []
    spares := 4096, wearg := 0, badUnits := [], watch := [.reset, .reset, .reset, .reset] }

/-- A queue slot of the Atelier (R353). -/
structure QSlot where
  qa : Word
  qb : Word
  qc : Word
  deriving DecidableEq, Repr

/-- A queue slot at reset. -/
def QSlot.reset : QSlot := { qa := 0, qb := 0, qc := 0 }

/-- A pod port (R460, R461): its link, the window it exports, in a tenant's address space, the translations that its peer
has cached (R233), and the invalidations of them, on their way and to be acknowledged (R380). (Log entry 37: DESIGN
CHOICE.) -/
structure Pod where
  up : Bool
  version : BitVec 16
  peer : BitVec 32
  pasid : Nat
  base : Nat
  size : Nat
  tlb : Map TlbEntry
  inv : List (Nat × Option Nat)
  ack : List (Nat × Option Nat)
  deriving DecidableEq, Repr

/-- A pod port at reset: down, no window exported. -/
def Pod.reset : Pod := { up := false, version := 0, peer := 0, pasid := 0, base := 0, size := 0, tlb := [], inv := [], ack := [] }

/-- Whether the Atelier runs (R450, R462): stopped by a fault, waiting for the boot ROM, in recovery, or running. -/
inductive AtelierLife where
  | boot | recovery | running | stopped
  deriving DecidableEq, Repr

/-- The Atelier (R448 to R451). Its registers, its XSCRATCH and its operations stand in record 16 of `recs`, which no
context number reaches. `poll` is the next poll position of the frame (R451), `restarts` are the cycles of its restarts
(R470). -/
structure Atelier where
  life : AtelierLife
  framecnt : Word
  poll : Nat
  restarts : List Nat
  deriving DecidableEq, Repr

/-- The power states of R465. -/
inductive Power where
  | run | hush | nap | rest | vault
  deriving DecidableEq, Repr

/-- The firmware interface block (R459): CMD bytes, BUSY, CMDLOST, status, negotiated versions, response bytes. -/
structure FwIface where
  cmd : List (BitVec 8)
  busy : Bool
  cmdlost : Bool
  status : BitVec 8
  negHost : BitVec 16
  negFw : BitVec 16
  resp : List (BitVec 8)
  deriving DecidableEq, Repr

/-- Health (R469). -/
structure Health where
  hstate : BitVec 2
  spcols : BitVec 16
  minspares : BitVec 13
  wear : BitVec 10
  hatrst : BitVec 16
  deriving DecidableEq, Repr

/-- An entry of the Nueri translation cache (R388): tenant, key, translated object. -/
structure TransEntry where
  pasid : Nat
  key : List (BitVec 8)
  obj : List (BitVec 8)
  deriving DecidableEq, Repr

/-- A mailbox block of a record (R358): FULL bits; the messages are bytes of the mailbox space. -/
abbrev Mbx := BitVec 4

/-- What the device reports to the host: a posting that the Armature keeps for a saved context of a tenant, because its
token page refuses it (R399); a memory error that was corrected, at a die, in a dictionary, a forwarding entry or a repair
table (R371, R384, R387); the end of a context, with its code, XIN and XINFO (R438); a context that a fault in its handler
has left FROZEN, of which the Atelier is notified (R431). -/
inductive Report where
  | posting (pasid : Nat)
  | dictionary (die : Nat)
  | forwarding (die : Nat)
  | repair (die : Nat)
  | memory (die : Nat)
  | ended (pasid code xin info : Nat)
  | handler (c : Nat)
  deriving DecidableEq, Repr

/-- The whole machine. `agenda` says which step is taken next (an interleaving of the agents, as data); `sel` and
`selDie` name the context and die in which an instruction executed alone issues; `freeCtr` numbers the free values; `ckptRun`
is a checkpoint that is being written (true for VAULT), `waking` that a wake has begun, `grant` whether the homes grant
ownership of lines, which R325 leaves to them, `svnTry` the fuse that a running commit programs next (R417), `idleNs`
the cycles for which the device has been idle (R466). `poison` are the lines with an uncorrectable error, each with the
bytes written since (R254); `bcastNo`, `invNo` and `cmdNo` number broadcasts, invalidations of forwarding entries and
commands that enter die queues; `freed` are
spaces not yet to be reused (R292); `ats` the pages the host port has translated (R236); `staging` the 4 KiB lines of the
staging caches, the least recent first (R253); `copies` the lease copies in the lease buffers of dies and sequencers, with
the time up to which each is valid (R304). `bankWait` counts the cycles in a row for which a requester has been refused at a bank
(R243); `trans` is the translation cache, the least recently used first, `secret` and `translator` what its keys hold
(R388), `gens` the last generation of each tenant's record, `loads` the Nueri sections that loads hand to the translator,
`loaded` what they get, `loadTurn` the tenant served last (R389); `leafRes` two copies, sequence number and value, for each
level (R418). -/
structure State where
  agenda : List Instr
  sel : Nat
  selDie : Nat
  clk : Nat
  litBusy : Nat
  nextId : Nat
  freeCtr : Nat
  bcastNo : Nat
  invNo : Nat
  cmdNo : Nat
  reports : List Report
  recs : List Rec
  dies : List Die
  mem : List Host.Cell
  poison : Map (BitVec 128)
  cstore : Map Nat
  aram : Map Nat
  armq : List (List QCmd)
  armRun : List (Option QCmd)
  tenants : Map Tenant
  fwd : Map FwdEntry
  l2 : Map L2Line
  leases : Map Lease
  pts : Map Word
  copies : Map Word
  freed : List Freed
  ats : List (Nat × Nat)
  staging : List Nat
  bankConf : Map (BitVec 16)
  bankWait : Map Nat
  qslots : List QSlot
  kickFifo : List (Nat × Nat)
  kickOver : Bool
  mbx : List Mbx
  pods : List Pod
  ate : Atelier
  fw : FwIface
  health : Health
  power : Power
  ltol : BitVec 32
  idleNs : Nat
  meas : List (List (BitVec 8))
  bootImage : List (BitVec 8)
  bootRecovery : Bool
  imageSvn : Nat
  fuses : List Nat
  svnTry : Option Nat
  leafNext : List Nat
  leafRes : List (List (Nat × Nat))
  stageGib : Nat
  fwdMib : Nat
  ckpt : List Host.Cell
  ckptFwd : Map FwdEntry
  ckptRun : Option Bool
  waking : Bool
  grant : Bool
  trans : List TransEntry
  secret : List (BitVec 8)
  translator : List (BitVec 8)
  gens : Map (BitVec 32)
  loads : List (Nat × List (BitVec 8))
  loaded : List (Nat × Option (List (BitVec 8)))
  loadTurn : Nat
  mapinv : Option (Nat × Option Nat × List Nat)
  hostReads : List (List (BitVec 8))
  images : Map Rec
  deriving DecidableEq, Repr

/-- The machine right after reset: every context record FREE, every queue empty, no memory listed, the Atelier waiting
for the boot ROM. (Log entry 3: DESIGN CHOICE.) -/
def State.reset : State :=
  { agenda := [], sel := 0, selDie := 0, clk := 0, litBusy := 0, nextId := 0, freeCtr := 0
    bcastNo := 0, invNo := 0, cmdNo := 0, reports := []
    recs := List.replicate 17 .reset, dies := List.replicate 32 .reset, mem := [], poison := [], cstore := [], aram := []
    armq := List.replicate 8 [], armRun := List.replicate 8 none, tenants := [], fwd := [], l2 := [], leases := []
    pts := [], copies := [], freed := [], ats := [], staging := [], bankConf := [], bankWait := [], qslots := List.replicate 32 .reset, kickFifo := [], kickOver := false
    mbx := List.replicate 16 0, pods := List.replicate 8 .reset
    ate := { life := .boot, framecnt := 0, poll := 0, restarts := [] }
    fw := { cmd := List.replicate 64 0, busy := false, cmdlost := false, status := 0, negHost := 0, negFw := 0
            resp := List.replicate 128 0 }
    health := { hstate := 0, spcols := 0, minspares := 4096, wear := 0, hatrst := 0 }
    power := .run, ltol := 0, idleNs := 0, meas := List.replicate 8 (List.replicate 32 0), bootImage := []
    bootRecovery := false, imageSvn := 0, fuses := [], svnTry := none, leafNext := [0, 0], leafRes := [[(0, 0), (0, 0)], [(0, 0), (0, 0)]], stageGib := 12, fwdMib := 4
    ckpt := [], ckptFwd := [], ckptRun := none, waking := false, grant := false, trans := [], secret := [], translator := []
    gens := [], loads := [], loaded := [], loadTurn := 0, mapinv := none
    hostReads := [], images := [] }

end Sys2Proof.Machine
end

