-- ==== Sys2Proof/Machine/Mem.lean ====
section
/-! DEFINITION. Sparse maps, the one map of all memories, and the spaces it holds. -/

namespace Sys2Proof.Machine

/-! ## Maps -/

/-- The value at `k`; `d` where nothing is listed. -/
def mapGet {α : Type} (d : α) : Map α → Nat → α
  | [], _ => d
  | (k0, v0) :: m, k => if k = k0 then v0 else if k < k0 then d else mapGet d m k

/-- Writes `v` at `k`, keeping keys rising and listing no `d`. An entry that goes takes along what follows it out of
order, so that reading after writing holds of any list. -/
def mapSet {α : Type} [DecidableEq α] (d : α) : Map α → Nat → α → Map α
  | [], k, v => if v = d then [] else [(k, v)]
  | (k0, v0) :: m, k, v =>
    if k < k0 then (if v = d then (k0, v0) :: m else (k, v) :: (k0, v0) :: m)
    else if k = k0 then (if v = d then m.dropWhile (fun p => decide (p.1 ≤ k)) else (k, v) :: m)
    else (k0, v0) :: mapSet d m k v

/-- Writes `v` at `k`, keeping keys rising; for maps of records, which have no default to leave out. -/
def mapPut {α : Type} : Map α → Nat → α → Map α
  | [], k, v => [(k, v)]
  | (k0, v0) :: m, k, v =>
    if k < k0 then (k, v) :: (k0, v0) :: m
    else if k = k0 then (k, v) :: m
    else (k0, v0) :: mapPut m k v

/-- The entry at `k`, if one is listed. -/
def mapFind {α : Type} : Map α → Nat → Option α
  | [], _ => none
  | (k0, v0) :: m, k => if k = k0 then some v0 else if k < k0 then none else mapFind m k

/-- Keys from `lo` on, strictly rising, no entry equal to `d`: the canonical form. -/
def mapOk {α : Type} [DecidableEq α] (d : α) : Nat → Map α → Bool
  | _, [] => true
  | lo, (k, v) :: m => decide (lo ≤ k) && !decide (v = d) && mapOk d (k + 1) m

/-! ## Memory -/

/-- What a byte reads as that nothing has written: 0 (log entry 1: the spec gives no power-on contents). -/
def unlisted : BitVec 8 := 0

/-- The canonical form of the memory. -/
def Memory.wf (m : List Host.Cell) : Bool := mapOk unlisted 0 m

/-- One byte. -/
def memGet (m : List Host.Cell) (a : Nat) : BitVec 8 := mapGet unlisted m a

/-- Writes one byte. -/
def memSet (m : List Host.Cell) (a : Nat) (b : BitVec 8) : List Host.Cell := mapSet unlisted m a b

/-- `n` bytes from `a` as a little-endian number (R3). -/
def memRead (m : List Host.Cell) (a : Nat) : Nat → Nat
  | 0 => 0
  | n + 1 => (memGet m a).toNat + 256 * memRead m (a + 1) n

/-- Writes the low `n` bytes of `v` from `a`, little-endian (R3). -/
def memWrite (m : List Host.Cell) (a : Nat) : Nat → Nat → List Host.Cell
  | 0, _ => m
  | n + 1, v => memWrite (memSet m a (BitVec.ofNat 8 v)) (a + 1) n (v / 256)

/-- `n` bytes from `a`, in ascending order. -/
def memBytes (m : List Host.Cell) (a n : Nat) : List (BitVec 8) := (List.range n).map (fun i => memGet m (a + i))

/-- Writes bytes from `a`, in ascending order. -/
def memPutBytes (m : List Host.Cell) (a : Nat) : List (BitVec 8) → List Host.Cell
  | [] => m
  | b :: bs => memPutBytes (memSet m a b) (a + 1) bs

/-- Zeroes `n` bytes from `a`. -/
def memClear (m : List Host.Cell) (a n : Nat) : List Host.Cell := m.filter (fun c => decide (c.1 < a ∨ a + n ≤ c.1))

/-- Writes a list of cells. -/
def memPutCells (m : List Host.Cell) : List Host.Cell → List Host.Cell
  | [] => m
  | c :: cs => memPutCells (memSet m c.1 c.2) cs

/-- Copies `n` bytes from `src` to `dst`, all read before any is written. -/
def memCopy (m : List Host.Cell) (src dst n : Nat) : List Host.Cell :=
  memPutCells (memClear m dst n)
    ((m.filter fun c => decide (src ≤ c.1 ∧ c.1 < src + n)).map fun c => (c.1 - src + dst, c.2))

/-! ## Spaces of the one map of memories

Die-physical memory of die `d` (R229) lies at `d·2^48`. The second half of a weight bank, which has no address of its
own, lies 2^28 above the first, in a range R229 leaves unused. Host memory is keyed by PASID and I/O virtual address,
a peer's window by pod port, the near store by context, die and cell, the local data store and the mailboxes by record. -/

/-- Die-physical address `pa` of die `d`. (Log entry 70: DESIGN CHOICE.) -/
def dieKey (d pa : Nat) : Nat := d * 2 ^ 48 + pa
/-- Host memory of a PASID. -/
def hostKey (pasid a : Nat) : Nat := 2 ^ 80 + pasid * 2 ^ 52 + a
/-- The window of the peer of a pod port. -/
def podKey (port off : Nat) : Nat := 2 ^ 81 + port * 2 ^ 52 + off
/-- Near store of cell `l` of die `d` for context `c`; the scratch ways from byte 0 (R238). -/
def nearKey (c d l : Nat) : Nat := 2 ^ 82 + ((c * 32 + d) * 64 + l) * 2 ^ 19
/-- Local data store share of a record (R116). -/
def ldsKey (c : Nat) : Nat := 2 ^ 83 + c * 2 ^ 17
/-- Mailbox messages of a record (R358). -/
def mbxKey (c : Nat) : Nat := 2 ^ 84 + c * 256
/-- The Atelier's data SRAM (R448). -/
def ateKey (a : Nat) : Nat := 2 ^ 85 + a

/-- The near-store key range of a cell of a context. -/
def isNear (k : Nat) : Bool := decide (2 ^ 82 ≤ k ∧ k < 2 ^ 83)
/-- The key lies in die-physical memory. -/
def isDieKey (k : Nat) : Bool := decide (k < 2 ^ 53)

/-- The weight-bank window of R229. -/
def wbankLo : Nat := 0x001001000000
/-- One past the weight-bank window. -/
def wbankHi : Nat := 0x001002800000
/-- The key of the other half of a weight bank. -/
def wbankOther (half : Bool) (pa : Nat) : Nat := if half then pa + 2 ^ 28 else pa

/-! ## Bits -/

/-- Bits `[n−1:0]` of `x` read as two's complement (R11). -/
def sext (x n : Nat) : Int := (BitVec.ofNat n x).toInt

/-- A 64-bit word from an integer, modulo 2^64. -/
def wordOfInt (i : Int) : Word := BitVec.ofInt 64 i

/-- `x + sext(off, n)` modulo 2^64. -/
def addSext (x : Word) (off n : Nat) : Word := x + (BitVec.ofNat n off).signExtend 64

/-- Bit `i` of a word. -/
def tbit (w : Word) (i : Nat) : Bool := w.getLsbD i

/-- Sets bit `i` of a word. -/
def wbit (w : Word) (i : Nat) (b : Bool) : Word :=
  if b then w ||| BitVec.ofNat 64 (2 ^ i) else w &&& ~~~(BitVec.ofNat 64 (2 ^ i))

/-- Bits `hi..lo` of a word as a number. -/
def bitsOf (w : Word) (lo n : Nat) : Nat := w.toNat / 2 ^ lo % 2 ^ n

end Sys2Proof.Machine
end

