-- ==== Sys2Proof/Machine/Regs.lean ====
section
/-! DEFINITION. Register files, results in flight (R80 to R85) and pending marks (R395, R396). A register the spec
hard-wires (p0, k0) is so in the one accessor that reads or writes its file. -/

namespace Sys2Proof.Machine

/-! ## The sequencer's files -/

/-- s(n) -/
def SeqCore.rS (q : SeqCore) (n : Nat) : Word := mapGet 0 q.s n
/-- s(n) ← v -/
def SeqCore.wS (q : SeqCore) (n : Nat) (v : Word) : SeqCore := { q with s := mapSet 0 q.s n v }
/-- p(n); p0 reads true (R108). -/
def SeqCore.rP (q : SeqCore) (n : Nat) : Bool := n == 0 || tbit q.p n
/-- p(n) ← b; a write to p0 is ignored. -/
def SeqCore.wP (q : SeqCore) (n : Nat) (b : Bool) : SeqCore := if n = 0 then q else { q with p := wbit q.p n b }
/-- h(n) -/
def SeqCore.rH (q : SeqCore) (n : Nat) : Word := mapGet 0 q.h n
/-- h(n) ← v -/
def SeqCore.wH (q : SeqCore) (n : Nat) (v : Word) : SeqCore := { q with h := mapSet 0 q.h n v }
/-- count(ts n) -/
def SeqCore.rTs (q : SeqCore) (n : Nat) : BitVec 16 := mapGet 0 q.ts n
/-- count(ts n) ← v -/
def SeqCore.wTs (q : SeqCore) (n : Nat) (v : BitVec 16) : SeqCore := { q with ts := mapSet 0 q.ts n v }

/-- A result lands in a unit of a sequencer register. -/
def SeqCore.put (q : SeqCore) (r : RegId) (v : Nat) : SeqCore :=
  match r with
  | .s n => q.wS n (BitVec.ofNat 64 v)
  | .p n => q.wP n (v % 2 == 1)
  | .h n => q.wH n (BitVec.ofNat 64 v)
  | _ => q

/-- Loop n (R115). -/
def SeqCore.loop (q : SeqCore) : Nat → Loop
  | 0 => q.l0 | 1 => q.l1 | 2 => q.l2 | _ => q.l3

/-- Writes loop n. -/
def SeqCore.setLoop (q : SeqCore) (n : Nat) (l : Loop) : SeqCore :=
  match n with
  | 0 => { q with l0 := l } | 1 => { q with l1 := l } | 2 => { q with l2 := l } | _ => { q with l3 := l }

/-! ## The cell's files -/

/-- v(n)[i] -/
def CellCore.rV (q : CellCore) (n i : Nat) : Lane := mapGet 0 q.v (n * 64 + i)
/-- v(n)[i] ← x -/
def CellCore.wV (q : CellCore) (n i : Nat) (x : Lane) : CellCore := { q with v := mapSet 0 q.v (n * 64 + i) x }
/-- k(n); k0 reads all ones (R136). -/
def CellCore.rK (q : CellCore) (n : Nat) : Word := if n = 0 then BitVec.allOnes 64 else mapGet 0 q.k n
/-- k(n)[i] ← b; a write to k0 is discarded. -/
def CellCore.wK (q : CellCore) (n i : Nat) (b : Bool) : CellCore :=
  if n = 0 then q else { q with k := mapSet 0 q.k n (wbit (mapGet 0 q.k n) i b) }
/-- x(n) -/
def CellCore.rX (q : CellCore) (n : Nat) : Word := mapGet 0 q.x n
/-- x(n) ← v -/
def CellCore.wX (q : CellCore) (n : Nat) (v : Word) : CellCore := { q with x := mapSet 0 q.x n v }
/-- h(n) -/
def CellCore.rH (q : CellCore) (n : Nat) : Word := mapGet 0 q.h n
/-- h(n) ← v -/
def CellCore.wH (q : CellCore) (n : Nat) (v : Word) : CellCore := { q with h := mapSet 0 q.h n v }
/-- doubleword i of stream n (R194) -/
def CellCore.rSt (q : CellCore) (n i : Nat) : Word := mapGet 0 q.st (n * 8 + i)
/-- doubleword i of stream n ← v -/
def CellCore.wSt (q : CellCore) (n i : Nat) (v : Word) : CellCore := { q with st := mapSet 0 q.st (n * 8 + i) v }
/-- count(tk n) -/
def CellCore.rTk (q : CellCore) (n : Nat) : BitVec 16 := mapGet 0 q.tk n
/-- count(tk n) ← v -/
def CellCore.wTk (q : CellCore) (n : Nat) (v : BitVec 16) : CellCore := { q with tk := mapSet 0 q.tk n v }
/-- CST ← CST OR flags (R147, R141) -/
def CellCore.orCst (q : CellCore) (f : Nat) : CellCore := { q with cst := q.cst ||| BitVec.ofNat 64 f }

/-- A result lands in a unit of a cell register. -/
def CellCore.put (q : CellCore) (r : RegId) (u v : Nat) : CellCore :=
  match r with
  | .v n => q.wV n u (BitVec.ofNat 32 v)
  | .k n => q.wK n u (v % 2 == 1)
  | .x n => q.wX n (BitVec.ofNat 64 v)
  | .h n => q.wH n (BitVec.ofNat 64 v)
  | .st n => q.wSt n u (BitVec.ofNat 64 v)
  | _ => q

/-! ## Results in flight and pending marks -/

/-- A fixed-latency result about to be issued: register, units with their values, latency, flags raised at landing. -/
structure Write where
  reg : RegId
  vals : List (Nat × Nat)
  lat : Nat
  flags : Nat := 0
  ein : Nat := 0
  deriving DecidableEq, Repr

/-- The units `us` leave a list of values. -/
def dropUnits (us : List Nat) (vals : List (Nat × Nat)) : List (Nat × Nat) := vals.filter (fun p => !us.contains p.1)

/-- A result of latency `lat` issued for units `us` of `r` discards the results in flight to those units that would
land with it or after it (R84). Their flags are still raised (R147). -/
def flyOver (r : RegId) (us : List Nat) (lat : Nat) (fly : List Fly) : List Fly :=
  fly.map (fun f => if f.reg = r ∧ f.op = none ∧ lat ≤ f.rest + 1 then { f with vals := dropUnits us f.vals } else f)

/-- A later write cancels pending results in the units it covers (R396). The units stay marked until it lands. -/
def pendCancel (r : RegId) (us : List Nat) (ps : List Pend) : List Pend :=
  ps.map (fun p => if p.reg = r then { p with live := p.live.filter (fun u => !us.contains u) } else p)

/-- A write to units `us` of `r` lands: they are pending no longer. -/
def pendClear (r : RegId) (us : List Nat) (ps : List Pend) : List Pend :=
  (ps.map (fun p => if p.reg = r
      then { p with marked := p.marked.filter (fun u => !us.contains u), live := p.live.filter (fun u => !us.contains u) }
      else p)).filter (fun p => !p.marked.isEmpty)

/-- Units of `r` that are pending. -/
def pendUnits (r : RegId) (ps : List Pend) : List Nat := (ps.filter (fun p => p.reg = r)).flatMap Pend.marked

/-- A long-latency operation marks units (R81, R396): it alone is pending there, and results in flight to them are
discarded (R84). -/
def pendMark (op : Nat) (r : RegId) (us : List Nat) (ps : List Pend) : List Pend :=
  if us.isEmpty then ps else pendClear r us ps ++ [{ op := op, reg := r, marked := us, live := us }]

/-- Results in flight to units that a long-latency operation marks are discarded. -/
def flyDrop (r : RegId) (us : List Nat) (fly : List Fly) : List Fly :=
  fly.map (fun f => if f.reg = r then { f with vals := dropUnits us f.vals } else f)

/-- The positions still to pass drop by one. -/
def flyTick (fly : List Fly) : List Fly :=
  (fly.filter (fun f => f.rest ≠ 0)).map (fun f => { f with rest := f.rest - 1 })

/-- The results that land at the end of this position. -/
def flyNow (fly : List Fly) : List Fly := fly.filter (fun f => f.rest = 0)

/-- Issues a fixed-latency result at the sequencer (R82, R84). -/
def SeqCore.issue (q : SeqCore) (w : Write) : SeqCore :=
  let us := w.vals.map Prod.fst
  { q with fly := flyOver w.reg us w.lat q.fly ++ [{ reg := w.reg, vals := w.vals, flags := 0, ein := w.ein, rest := w.lat - 1, op := none }]
           pend := pendCancel w.reg us q.pend }

/-- One result lands. -/
def SeqCore.landOne (q : SeqCore) (f : Fly) : SeqCore :=
  let q' := f.vals.foldl (fun (q : SeqCore) (p : Nat × Nat) => q.put f.reg p.2) q
  { q' with pend := pendClear f.reg (f.vals.map Prod.fst) q'.pend }

/-- The end of a position at the sequencer: what is due lands (R82). -/
def SeqCore.endPos (q : SeqCore) : SeqCore :=
  (flyNow q.fly).foldl SeqCore.landOne { q with fly := flyTick q.fly }

/-- Every result in flight lands, in its order (R85: before a trap and at HALT). -/
def SeqCore.drain : Nat → SeqCore → SeqCore
  | 0, q => q
  | n + 1, q => if q.fly.isEmpty then q else SeqCore.drain n q.endPos

/-- The longest fixed latency is 24 (R83). -/
def SeqCore.drained (q : SeqCore) : SeqCore := SeqCore.drain 24 q

/-- Issues a fixed-latency result in a cell. -/
def CellCore.issue (q : CellCore) (w : Write) : CellCore :=
  let us := w.vals.map Prod.fst
  { q with fly := flyOver w.reg us w.lat q.fly ++ [{ reg := w.reg, vals := w.vals, flags := w.flags, ein := w.ein, rest := w.lat - 1, op := none }]
           pend := pendCancel w.reg us q.pend }

/-- The values of a long-latency operation arrive: each lands in its unit if the operation is still live there, and
the operation's marks go (R396). Units it no longer holds keep what they have. -/
def pendArrive (op : Nat) (ps : List Pend) : List Pend :=
  (ps.map (fun p => if p.op = op then { p with marked := p.marked.filter (fun u => !p.live.contains u), live := [] } else p)).filter
    (fun p => !p.marked.isEmpty)

/-- Units of `r` in which `op` is live. -/
def pendLive (op : Nat) (r : RegId) (ps : List Pend) : List Nat :=
  (ps.filter (fun p => p.op = op ∧ p.reg = r)).flatMap Pend.live

/-- The result of `op` arrives at the sequencer. -/
def SeqCore.arrive (q : SeqCore) (op : Nat) (vals : List (RegId × Nat × Nat)) : SeqCore :=
  let q' := vals.foldl (fun q' v => if (pendLive op v.1 q.pend).contains v.2.1 then q'.put v.1 v.2.2 else q') q
  { q' with pend := pendArrive op q.pend }

/-- The result of `op` arrives in a cell, with flags. -/
def CellCore.arrive (q : CellCore) (op : Nat) (vals : List (RegId × Nat × Nat)) (flags : Nat) : CellCore :=
  let q' := vals.foldl (fun q' v => if (pendLive op v.1 q.pend).contains v.2.1 then q'.put v.1 v.2.1 v.2.2 else q') q
  { q'.orCst flags with pend := pendArrive op q.pend }

/-- One result lands in a cell: registers, accumulator writes into the gated list, and flags (R147). -/
def CellCore.landOne (q : CellCore) (f : Fly) : CellCore :=
  match f.op with
  | some op => q.arrive op (f.vals.map (fun (p : Nat × Nat) => (f.reg, p.1, p.2))) f.flags
  | none =>
    let q' :=
      match f.reg with
      | .acc => { q with accw := q.accw ++ f.vals.map (fun (p : Nat × Nat) => (f.ein, p.1, BitVec.ofNat 32 p.2)) }
      | .cst => q
      | r => f.vals.foldl (fun (q : CellCore) (p : Nat × Nat) => q.put r p.1 p.2) q
    { q'.orCst f.flags with pend := pendClear f.reg (f.vals.map Prod.fst) q'.pend }

/-- The end of a position in a cell. -/
def CellCore.endPos (q : CellCore) : CellCore :=
  (flyNow q.fly).foldl CellCore.landOne { q with fly := flyTick q.fly }

end Sys2Proof.Machine
end

