-- ==== Sys2Proof/Machine/Translate.lean ====
section
/-! DEFINITION. Reaching the parts of the state, page tables, and the checks of an access that need no translation or one
alone (R226 to R235, R255). -/

namespace Sys2Proof.Machine

/-! ## Reaching the parts of the state -/

/-- The context record c. -/
def State.rc (s : State) (c : Nat) : Rec := s.recs.getD c .reset
/-- Replaces the context record c. -/
def State.setRec (s : State) (c : Nat) (r : Rec) : State := { s with recs := s.recs.set c r }
/-- Updates the context record c. -/
def State.updRec (s : State) (c : Nat) (f : Rec → Rec) : State := s.setRec c (f (s.rc c))
/-- Updates the sequencer registers of context c. -/
def State.updSeq (s : State) (c : Nat) (f : SeqCore → SeqCore) : State :=
  s.updRec c (fun r => { r with core := f r.core })
/-- Die d of a context. -/
def Rec.die (r : Rec) (d : Nat) : DieCtx := mapGet .reset r.dies d
/-- Replaces die d of a context. -/
def Rec.setDie (r : Rec) (d : Nat) (x : DieCtx) : Rec := { r with dies := mapPut r.dies d x }
/-- Cell l of a die of a context. -/
def DieCtx.cell (x : DieCtx) (l : Nat) : Cell := mapGet .reset x.cells l
/-- Replaces cell l. -/
def DieCtx.setCell (x : DieCtx) (l : Nat) (y : Cell) : DieCtx := { x with cells := mapPut x.cells l y }
/-- Die d for context c. -/
def State.dctx (s : State) (c d : Nat) : DieCtx := (s.rc c).die d
/-- Updates die d for context c. -/
def State.updDctx (s : State) (c d : Nat) (f : DieCtx → DieCtx) : State :=
  s.updRec c (fun r => r.setDie d (f (r.die d)))
/-- Cell l of die d for context c. -/
def State.cell (s : State) (c d l : Nat) : Cell := (s.dctx c d).cell l
/-- Updates cell l of die d for context c. -/
def State.updCell (s : State) (c d l : Nat) (f : Cell → Cell) : State :=
  s.updDctx c d (fun x => x.setCell l (f (x.cell l)))
/-- Updates the shadowed registers of a cell. -/
def State.updCore (s : State) (c d l : Nat) (f : CellCore → CellCore) : State :=
  s.updCell c d l (fun y => { y with core := f y.core })
/-- Die d of the package. -/
def State.pdie (s : State) (d : Nat) : Die := s.dies.getD d .reset
/-- Updates die d of the package. -/
def State.updPdie (s : State) (d : Nat) (f : Die → Die) : State := { s with dies := s.dies.set d (f (s.pdie d)) }

/-- The watchpoints that a context holds on a die: those of its residency slot, whichever die it is (R442, R443). A context
that is not resident holds none. (Log entry 88: DEDUCED.) -/
def State.watches (s : State) (c d : Nat) : Watches :=
  match (s.rc c).slot with | some k => (s.pdie d).watch.getD k .reset | none => .reset

/-- The clocks of the device stand (R465); they run while a checkpoint is written (R468). -/
def State.asleep (s : State) : Bool := s.power != .run && s.ckptRun.isNone

/-! ## Geometry (R5, R6, R39) -/

/-- The dies of a field, by ascending field-relative index. -/
def Rect.dies (f : Rect) : List Nat :=
  (List.range f.h).flatMap (fun j => (List.range f.w).map (fun i => (f.y + j) * 8 + (f.x + i)))

/-- The cells of a group, by ascending GIDX (R144). -/
def Rect.cells (g : Rect) : List Nat :=
  (List.range g.h).flatMap (fun j => (List.range g.w).map (fun i => (g.y + j) * 16 + (g.x + i)))

/-- The field-relative index of die d (R39). -/
def Rect.fidx (f : Rect) (d : Nat) : Nat := (d % 8 - f.x) + f.w * (d / 8 - f.y)

/-- GIDX of a cell (R144). -/
def Rect.gidx (g : Rect) (l : Nat) : Nat := (l / 16 - g.y) * g.w + (l % 16 - g.x)

/-- The die index of a field's origin. -/
def Rect.origin (f : Rect) : Nat := f.y * 8 + f.x

/-- R6: sizes and alignment of a rectangle of powers of two, widths up to `mw`, heights up to `mh`. -/
def Rect.legal (f : Rect) (mw mh : Nat) : Bool :=
  decide (f.w ∈ [1, 2, 4, 8, 16] ∧ f.w ≤ mw ∧ f.h ∈ [1, 2, 4] ∧ f.h ≤ mh ∧ f.x % f.w = 0 ∧ f.y % f.h = 0)

/-- The rectangle lies inside a grid. -/
def Rect.inside (f : Rect) (gw gh : Nat) : Bool := decide (f.x + f.w ≤ gw ∧ f.y + f.h ≤ gh)

/-! ## Fault codes (R420) -/

/-- PAGE -/
def cPAGE : Nat := 0x10
/-- PROTECT -/
def cPROTECT : Nat := 0x11
/-- WEIGHTWR -/
def cWEIGHTWR : Nat := 0x12

/-- A fault: code, detail, XINFO. -/
abbrev FInfo := Nat × Nat × Nat

/-! ## Page tables (R230 to R233) -/

/-- Region classes (R227). -/
def clsDRAM : Nat := 0
def clsSRAMT : Nat := 1
def clsWBANK : Nat := 2
def clsWEIGHT : Nat := 3
def clsHOST : Nat := 4
def clsPEER : Nat := 5
def clsHEAP : Nat := 6
def clsMMIO : Nat := 7

/-- A leaf's entry word taken apart. -/
def pteClass (w : Word) : Nat := bitsOf w 4 3
/-- HOME -/
def pteHome (w : Word) : Nat := bitsOf w 48 5
/-- FRAME as an address -/
def pteFrame (w : Word) : Nat := bitsOf w 16 32 * 2 ^ 16

/-- One past the mappable DRAM of a die (R229). -/
def State.dramTop (s : State) : Nat := (32 - s.stageGib) * 2 ^ 30
/-- One past the mappable general SRAM tier (R229, R382). -/
def State.sramTop (s : State) : Nat := 0x001001000000 - s.fwdMib * 2 ^ 20

/-- The frame range of a leaf lies where R229 puts its class. -/
def State.frameOk (s : State) (cls lo n : Nat) : Bool :=
  let inR := fun a b => decide (a ≤ lo ∧ lo + n ≤ b)
  match cls with
  | 0 => inR 0 s.dramTop
  | 1 => inR 0x001000000000 s.sramTop
  | 2 => inR wbankLo wbankHi
  | 3 => inR 0x010000000000 0x018000000000
  | 6 => inR 0 s.dramTop || inR 0x001000000000 s.sramTop
  | 7 => inR 0x0F0000000000 0x0F0000070000
  | _ => true

/-- A valid leaf that R231 treats as invalid, given its companion word, of which bits [63:40] must be 0 (R233). -/
def State.leafBad (s : State) (w comp : Word) (level : Nat) : Bool :=
  let cls := pteClass w
  let lw := bitsOf w 56 2
  let lh := bitsOf w 54 2
  let pg := if level = 2 then 2 ^ 28 else 2 ^ 16
  let n := 2 ^ lw * 2 ^ lh
  let wide := cls = clsHOST
  decide (bitsOf comp 40 24 ≠ 0 ∨ bitsOf w 58 6 ≠ 0 ∨ bitsOf w 53 1 ≠ 0 ∨ bitsOf w 8 8 ≠ 0 ∨ bitsOf w 7 1 ≠ 0
    ∨ (if wide then (bitsOf w 16 36 * 2 ^ 16) % pg ≠ 0 else pteFrame w % (pg / n) ≠ 0)
    ∨ ((lw ≠ 0 ∨ lh ≠ 0) ∧ (cls ≠ clsDRAM ∨ level ≠ 2)))
  || (!wide && cls != clsPEER && !s.frameOk cls (pteFrame w) (pg / n))
  || (!wide && !(Rect.legal ⟨pteHome w % 8, pteHome w / 8, 2 ^ lw, 2 ^ lh⟩ 8 4
        && Rect.inside ⟨pteHome w % 8, pteHome w / 8, 2 ^ lw, 2 ^ lh⟩ 8 4))

/-- A valid non-leaf entry that R231 treats as malformed: a field it does not use, or its companion, is not 0. -/
def nonLeafBad (w comp : Word) : Bool :=
  decide (bitsOf w 53 11 ≠ 0 ∨ bitsOf w 2 14 ≠ 0 ∨ comp ≠ 0)

/-- A walk from a table at a level: the leaf's key, its word and its level, or the level at which PAGE is raised. A valid
level-3 entry maps a page whatever its LEAF bit (R230). -/
def State.walkFrom (s : State) (va : Nat) : Nat → Nat → Nat → Except Nat (Nat × Word × Nat)
  | 0, _, _ => .error 3
  | fuel + 1, level, table =>
    let idx := va / 2 ^ (52 - 12 * level) % 2 ^ 12
    let key := table + 16 * idx
    let w := BitVec.ofNat 64 (memRead s.mem key 8)
    let comp := BitVec.ofNat 64 (memRead s.mem (key + 8) 8)
    if !tbit w 0 then .error level
    else if level = 3 ∨ tbit w 1 then
      if level = 1 ∨ s.leafBad w comp level then .error level else .ok (key, w, level)
    else if nonLeafBad w comp then .error level
    else State.walkFrom s va fuel (level + 1) (dieKey (pteHome w) (pteFrame w))

/-- The table walk of a tenant's address (R230, R378). A PASID without a record has no valid level-1 entry. -/
def State.walk (s : State) (pasid va : Nat) : Except Nat (Nat × Word × Nat) :=
  match mapFind s.tenants pasid with
  | none => .error 1
  | some t => s.walkFrom va 3 1 (dieKey t.rootDie t.rootPa)

/-- The keys of the entries that a walk from a table at a level reads. -/
def State.walkKeysFrom (s : State) (va : Nat) : Nat → Nat → Nat → List Nat
  | 0, _, _ => []
  | fuel + 1, level, table =>
    let key := table + 16 * (va / 2 ^ (52 - 12 * level) % 2 ^ 12)
    let w := BitVec.ofNat 64 (memRead s.mem key 8)
    if !tbit w 0 ∨ level = 3 ∨ tbit w 1 then [key]
    else key :: State.walkKeysFrom s va fuel (level + 1) (dieKey (pteHome w) (pteFrame w))

/-- The keys of the entries that the walk of a tenant's address reads. -/
def State.walkKeys (s : State) (pasid va : Nat) : List Nat :=
  match mapFind s.tenants pasid with
  | none => []
  | some t => s.walkKeysFrom va 3 1 (dieKey t.rootDie t.rootPa)

/-- The TLB key of a page: a 256 MiB page (level 2) or a 64 KiB page (level 3). -/
def tlbKey (pasid va level : Nat) : Nat :=
  pasid * 2 ^ 37 + (if level = 2 then 2 ^ 36 + va / 2 ^ 28 else va / 2 ^ 16)

/-- What a die's TLB holds for an address. -/
def State.tlbFind (s : State) (die pasid va : Nat) : Option TlbEntry :=
  match mapFind (s.pdie die).tlb (tlbKey pasid va 3) with
  | some e => some e
  | none => mapFind (s.pdie die).tlb (tlbKey pasid va 2)

/-- Where a byte of a page lies (R231, R232). -/
def pageTarget (pasid va : Nat) (w : Word) (level : Nat) : Target :=
  let cls := pteClass w
  let off := va % (if level = 2 then 2 ^ 28 else 2 ^ 16)
  if cls = clsHOST then { key := hostKey pasid (bitsOf w 16 36 * 2 ^ 16 + off), cls := cls, va := va, ref := none }
  else if cls = clsPEER then { key := podKey (pteHome w % 8) (pteFrame w + off), cls := cls, va := va, ref := none }
  else
    let lw := 2 ^ bitsOf w 56 2
    let n := lw * 2 ^ bitsOf w 54 2
    if n = 1 then { key := dieKey (pteHome w) (pteFrame w + off), cls := cls, va := va, ref := none }
    else
      let j := va / 2 ^ 16 % 2 ^ 12
      let f := j % n
      let die := (pteHome w / 8 + f / lw) * 8 + (pteHome w % 8 + f % lw)
      { key := dieKey die (pteFrame w + j / n * 2 ^ 16 + va % 2 ^ 16), cls := cls, va := va, ref := none }

/-! ## Access checks (R228, R235, R255) -/

/-- The kinds of access R228 tells apart; `atomic hostOk` says whether a HOST page performs it. `ref` is a reference
access, which must reach a page of class HEAP (R283); `item` an access of a stream of a class (R197). -/
inductive AccKind where
  | cohLoad | cohStore | atomic (hostOk : Bool) | strLoad | strStore | engRead | engWrite | kiln | ref (write : Bool)
  | item (write : Bool) (cls : Nat)
  deriving DecidableEq, Repr

/-- The access writes. -/
def AccKind.writes : AccKind → Bool
  | .cohStore | .atomic _ | .strStore | .engWrite | .kiln => true
  | .ref w | .item w _ => w
  | .cohLoad | .strLoad | .engRead => false

/-- The access reads. -/
def AccKind.reads : AccKind → Bool
  | .cohLoad | .atomic _ | .strLoad | .engRead => true
  | .ref w | .item w _ => !w
  | .cohStore | .strStore | .engWrite | .kiln => false

/-- The table of R228: none where the access is allowed, else the fault. -/
def classFault (k : AccKind) (cls n : Nat) : Option Nat :=
  match k with
  | .ref _ => if cls = clsHEAP then none else some cPROTECT
  | .item _ c => if cls = c ∧ cls ≠ clsHEAP ∧ cls ≠ clsMMIO then none else some cPROTECT
  | .kiln => if cls = clsWEIGHT then none else some cPROTECT
  | .cohLoad | .cohStore =>
    if cls = clsWEIGHT ∧ k = .cohStore then some cWEIGHTWR
    else if cls = clsPEER ∨ cls = clsHEAP then some cPROTECT
    else if cls = clsMMIO ∧ n ≠ 4 ∧ n ≠ 8 then some cPROTECT
    else none
  | .atomic hostOk =>
    if cls = clsWEIGHT then some cWEIGHTWR
    else if cls = clsDRAM ∨ cls = clsSRAMT then none
    else if cls = clsHOST ∧ hostOk then none
    else some cPROTECT
  | .strLoad | .engRead => if cls = clsHEAP ∨ cls = clsMMIO then some cPROTECT else none
  | .strStore | .engWrite =>
    if cls = clsWEIGHT then some cWEIGHTWR else if cls = clsHEAP ∨ cls = clsMMIO then some cPROTECT else none

/-- The MMIO page of a die-physical address, by its number (R455). -/
def mmioPage (pa : Nat) : Nat := (pa - 0x0F0000000000) / 2 ^ 16

/-- The offsets of a debug block that a store reaches (R441, R444, R456). -/
def debugWritable (off : Nat) : Bool :=
  decide (off ≤ 0x20) || (decide (0x40 ≤ off ∧ off < 0x100) && [0x00, 0x08, 0x10, 0x20].contains ((off - 0x40) % 0x40))

/-- A store to a read-only or undefined offset of an MMIO page, or of another size than the page allows (R358, R406, R455). -/
def mmioStoreBad (pa n : Nat) : Bool :=
  let off := pa % 2 ^ 16
  match mmioPage pa with
  | 1 => !(decide (off % 0x1000 < 0x40 ∧ n = 8))
  | 3 => !(decide (off < 0x2000 ∧ off % 0x200 = 0x100 ∧ (n = 4 ∨ n = 8)))
  | 4 => false
  | 5 => !(decide (n = 8) && debugWritable (off % 0x1000))
  | 6 => !(decide (off % 0x1000 < 0x40 ∧ n = 8))
  | _ => true

/-- An access of a tenant that R358, R406 or R455 refuses in an MMIO page (R235 step 7): any to a debug page, and such a store. -/
def mmioRefused (write : Bool) (pa n : Nat) : Bool :=
  match mmioPage pa with
  | 5 | 6 => true
  | _ => write && mmioStoreBad pa n

/-- One access to check: unit, address (64 bits), size, kind. -/
structure AccReq where
  lane : Nat
  va : Nat
  n : Nat
  kind : AccKind
  deriving DecidableEq, Repr

/-- The cell control page (R138). -/
def ctlPage : Nat := 0xFFFFFFFFF0000

/-- The address lies in the cell control page. -/
def inCtlPage (va : Nat) : Bool := decide (ctlPage ≤ va ∧ va < ctlPage + 2 ^ 16)

/-- R235 step 1 for one access: bits [63:52], misuse of the control page. (Log entry 61: DEDUCED.) -/
def addrFault (a : AccReq) : Option FInfo :=
  if 2 ^ 52 ≤ a.va then some (cPROTECT, 4, a.va)
  else if inCtlPage a.va then some (cPROTECT, 5, a.va)
  else none

/-- R235 step 2. -/
def alignFault (a : AccReq) : Option FInfo := if a.va % a.n ≠ 0 then some (cPROTECT, 0, a.va) else none

/-- R255: the first address beyond 16 distinct 64 KiB regions. -/
def regionFault : List Nat → List AccReq → Option FInfo
  | _, [] => none
  | seen, a :: as =>
    let r := a.va / 2 ^ 16
    if seen.contains r then regionFault seen as
    else if 16 ≤ seen.length then some (cPROTECT, 2, a.va)
    else regionFault (r :: seen) as

/-- R235 steps 5 to 7 for one translated access. -/
def permFault1 (x : AccReq × Word × Target) : Option FInfo :=
  (classFault x.1.kind x.2.2.cls x.1.n).map (fun c => (c, 3, x.1.va))
/-- R235 step 6. -/
def permFault2 (x : AccReq × Word × Target) : Option FInfo :=
  if (x.1.kind.reads ∧ !tbit x.2.1 2) ∨ (x.1.kind.writes ∧ !tbit x.2.1 3) then some (cPROTECT, 1, x.1.va) else none
/-- R235 step 7. -/
def permFault3 (x : AccReq × Word × Target) : Option FInfo :=
  if x.2.2.cls = clsMMIO ∧ mmioRefused x.1.kind.writes (x.2.2.key % 2 ^ 48) x.1.n then some (cPROTECT, 1, x.1.va) else none

/-- The first fault a check finds. -/
def firstFault {α : Type} (f : α → Option FInfo) (xs : List α) : Option FInfo := xs.findSome? f

end Sys2Proof.Machine
end

