-- ==== Sys2Proof/Machine/Ops.lean ====
section
/-! DEFINITION. The shared operations: record buffers (R444, R445), taking a trap and returning from one (R429 to R431),
long-latency operations (R13, R395), frames to the dies (R328), marks at the sequencer (R373). -/

namespace Sys2Proof.Machine

/-- XCAUSE slot of a scalar slot, of X, of NA, of a bundle (R117). -/
def slS0 : Nat := 0
def slS1 : Nat := 1
def slX : Nat := 2
def slNA : Nat := 3
def slDie : Nat := 4

/-- Fault codes (R420). -/
def cILLWORD : Nat := 0x01
def cILLBUNDLE : Nat := 0x02
def cUNDERWAIT : Nat := 0x03
def cTOKOWN : Nat := 0x04
def cGRPBUSY : Nat := 0x05
def cSWAPBUSY : Nat := 0x06
def cSHAPE : Nat := 0x07
def cGROUPOVR : Nat := 0x08
def cMARKOVF : Nat := 0x09
def cFRAMELESS : Nat := 0x13
def cNULLREF : Nat := 0x18
def cSTALEREF : Nat := 0x19
def cREFBOUNDS : Nat := 0x1A
def cPINUNDER : Nat := 0x1B
def cWATCH : Nat := 0x20
def cBREAK : Nat := 0x21
def cSTEP : Nat := 0x22
def cECC : Nat := 0x30
def cMCHK : Nat := 0x31
def cREPLAYDIV : Nat := 0x38
def cSWTRAP : Nat := 0x3F

/-! ## Writing -/

/-- The bytes of a line that lie in [k, k + n), as a mask. -/
def lineMask (line k n : Nat) : BitVec 128 :=
  let a := max k (line * 128) - line * 128
  let b := min (k + n) (line * 128 + 128) - line * 128
  if a < b then BitVec.ofNat 128 (2 ^ b - 2 ^ a) else 0

/-- Bytes have been written: a bad line of which every byte has been written since is bad no longer (R254).
(Log entry 72: DEDUCED.) -/
def mended (poison : Map (BitVec 128)) (k n : Nat) : Map (BitVec 128) :=
  poison.filterMap (fun p =>
    let m := p.2 ||| lineMask p.1 k n
    if m = BitVec.allOnes 128 then none else some (p.1, m))

/-- Writes n bytes at a key. -/
def State.poke (s : State) (k n v : Nat) : State :=
  { s with mem := memWrite s.mem k n v, poison := mended s.poison k n }

/-- Writes bytes at a key. -/
def State.pokes (s : State) (k : Nat) (bs : List (BitVec 8)) : State :=
  { s with mem := memPutBytes s.mem k bs, poison := mended s.poison k bs.length }

/-- Writes single bytes. -/
def State.pokeCells (s : State) (cs : List Host.Cell) : State :=
  { s with mem := memPutCells s.mem cs, poison := cs.foldl (fun (m : Map (BitVec 128)) c => mended m c.1 1) s.poison }

/-- Bytes at a key arrive, whole or poisoned. -/
def State.pokeBytes (s : State) (k : Nat) (bs : List (BitVec 8)) (bad : Bool) : State :=
  let s := s.pokes k bs
  if bad then { s with poison := mapPut s.poison (k / 128) 0 } else s

/-! ## Record buffers -/

/-- A walk of hardware that acts for no agent: it fails in the control page, for which no table is consulted
(R138), and where an entry that it reads holds an uncorrectable error (R230, R254). (Log entry 31: DESIGN CHOICE.) -/
def State.walkSound (s : State) (pasid va : Nat) : Except Nat (Nat × Word × Nat) :=
  if inCtlPage va || (s.walkKeys pasid va).any (fun k => (mapFind s.poison (k / 128)).isSome) then .error 0 else s.walk pasid va

/-- The key of a doubleword the device writes at a virtual address of a tenant: a page it can write, of class DRAM. -/
def State.devKey (s : State) (pasid va : Nat) : Option Nat :=
  match s.walkSound pasid va with
  | .error _ => none
  | .ok (_, w, level) =>
    let t := pageTarget pasid va w level
    if tbit w 3 ∧ t.cls = clsDRAM then some t.key else none

/-- The key an engine reaches at a virtual address of a tenant: none where the page is not present; none inside where its
class or its permissions refuse the access (R228, R345). -/
def State.engKey (s : State) (pasid va : Nat) (write : Bool) : Option (Option Nat) :=
  match s.walkSound pasid va with
  | .error _ => none
  | .ok (_, w, level) =>
    let t := pageTarget pasid va w level
    let kind : AccKind := if write then .engWrite else .engRead
    if (classFault kind t.cls 1).isSome || !(if write then tbit w 3 else tbit w 2) then some none
    else some (some (if write && t.cls == clsWBANK then wbankOther (!(s.pdie (t.key / 2 ^ 48)).absel) t.key
      else if t.cls == clsWBANK then wbankOther (s.pdie (t.key / 2 ^ 48)).absel t.key else t.key))

/-- As `engKey`, with one answer for every refusal. -/
def State.engKey? (s : State) (pasid va : Nat) (write : Bool) : Option Nat := (s.engKey pasid va write).getD none

/-- Writes doublewords of a buffer, one by one. A doubleword whose page refuses the write is lost. -/
def State.bufWords (s : State) (pasid base : Nat) : Nat → List Nat → State
  | _, [] => s
  | i, w :: ws =>
    let s' :=
      match s.devKey pasid (base + 8 * i) with
      | some k => s.poke k 8 w
      | none => s
    State.bufWords s' pasid base (i + 1) ws

/-- PAD records from word `i` filling `n` words, each up to 255 words (R445). -/
def padWords : Nat → Nat → List Nat
  | 0, _ => []
  | fuel + 1, n =>
    if n = 0 then []
    else
      let len := min n 255
      ((0xA * 2 ^ 60 + len * 2 ^ 52) :: List.replicate (len - 1) 0) ++ padWords fuel (n - len)

/-- LEN of the record at word `i` of a buffer; 1 where its page cannot be read. -/
def State.bufLen (s : State) (pasid base i : Nat) : Nat :=
  match s.devKey pasid (base + 8 * i) with
  | some k => max 1 (bitsOf (BitVec.ofNat 64 (memRead s.mem k 8)) 52 8)
  | none => 1

/-- FIRST moves past the records that a write up to word `hi` overwrites. -/
def State.bufFirst (s : State) (pasid base size hi : Nat) : Nat → Nat → Nat
  | 0, f => f
  | fuel + 1, f =>
    if f < hi then
      let f' := f + s.bufLen pasid base f
      if size ≤ f' then 0 else State.bufFirst s pasid base size hi fuel f'
    else f

/-- Appends a record to buffer n of context c (0 trace, 1 sample, 2 replay): type, die, cell of an agent (none for the
sequencer), header bits [31:0], words (R445). A PAD record is headed by die 0, cell 0, a DROP record by the sequencer of the
field's origin. (Log entry 25: DESIGN CHOICE.) -/
def State.emit (s : State) (c n type die : Nat) (cell : Option Nat) (spec : Nat) (ws : List Nat) : State :=
  let r := s.rc c
  let b := r.bufs.getD n .reset
  let size := b.size.toNat
  let base := b.base.toNat % 2 ^ 52 / 4096 * 4096
  let len := ws.length + 1
  let hd := 0xA * 2 ^ 60 + len * 2 ^ 52 + type * 2 ^ 44 + die * 2 ^ 39
    + (match cell with | some l => l * 2 ^ 32 | none => 2 ^ 38) + spec % 2 ^ 32
  let put := fun (s : State) (b : Buf) => s.updRec c (fun r => { r with bufs := r.bufs.set n b })
  if !b.ctl.getLsbD 0 ∨ size < 512 then s
  else
    let wr := b.wr.toNat
    if wr + len ≤ size then
      let first := if 0 < wr ∧ wr ≤ b.first.toNat then s.bufFirst r.pasid.toNat base size (wr + len) size b.first.toNat else b.first.toNat
      put (s.bufWords r.pasid.toNat base wr (hd :: ws)) { b with wr := BitVec.ofNat 32 (wr + len), first := BitVec.ofNat 32 first }
    else if n ≠ 2 ∧ b.ctl.getLsbD 1 then
      let f0 := if 0 < wr ∧ wr ≤ b.first.toNat then 0 else b.first.toNat
      let s := s.bufWords r.pasid.toNat base wr (padWords size (size - wr))
      let first := s.bufFirst r.pasid.toNat base size len size f0
      put (s.bufWords r.pasid.toNat base 0 (hd :: ws)) { b with wr := BitVec.ofNat 32 len, first := BitVec.ofNat 32 first }
    else
      let drops := b.drops + 1
      if wr + 1 = size then
        put (s.bufWords r.pasid.toNat base wr [0xA * 2 ^ 60 + 2 ^ 52 + 0x01 * 2 ^ 44 + r.field.origin * 2 ^ 39 + 2 ^ 38 + drops.toNat])
          { b with drops := drops, wr := BitVec.ofNat 32 size }
      else put s { b with drops := drops }

/-- The context records its inputs (R439): its replay log is enabled, and it is not in replay. -/
def Rec.recording (r : Rec) : Bool := (r.bufs.getD 2 .reset).ctl.getLsbD 0 && !r.replaying

/-- A recording context annotates its log (R439). -/
def Rec.note (r : Rec) (n : Note) : Rec := { r with notes := if r.recording then r.notes ++ [n] else r.notes }

/-! ## Traps -/

/-- Stands for an XINFO whose raising rule names no value: the register takes a free value (log entry 8). -/
def noInfo : Nat := 2 ^ 64

/-- The next free word, with the counter advanced. -/
def State.freeInfo (s : State) (info : Nat) : State × Word :=
  if info = noInfo then ({ s with freeCtr := s.freeCtr + 1 }, Config.freeWord s.freeCtr) else (s, BitVec.ofNat 64 info)

/-- What the trap registers receive at an entry (R429). -/
structure Trap where
  code : Nat
  detail : Nat
  slot : Nat
  die : Nat
  xin : BitVec 48
  info : Nat
  xpc : BitVec 18
  deriving DecidableEq, Repr

/-- XCAUSE (R117). -/
def Trap.cause (t : Trap) : BitVec 32 :=
  BitVec.ofNat 32 (t.code % 256 + t.detail % 256 * 2 ^ 8 + t.slot % 8 * 2 ^ 16 + t.die % 256 * 2 ^ 24)

/-- Trap entry (R429): for a fault of the sequencer every fixed-latency result of an earlier word lands first (R85); the
trap registers take the cause, HACT ← 1, PC ← XVEC, the context becomes READY, and a trace record is written, for a
watchpoint followed by its own (R446, log entry 25). A trap while HACT = 1 leaves
the context FROZEN until it is saved, and the Atelier is notified (R431). -/
def State.takeTrap (s : State) (c : Nat) (t : Trap) : State :=
  let r := s.rc c
  if r.hact then { s.setRec c { r with life := .frozen .dead } with reports := s.reports ++ [Report.handler c] }
  else
    let q := if t.slot = slDie then r.core else r.core.drained
    let (s, info) := s.freeInfo t.info
    let s := s.setRec c
      { r with core := { q with pc := r.xvec }, life := .ready, hact := true, xpcWritten := false
               xcause := t.cause, xin := t.xin, xinfo := info, xpc := t.xpc }
    let s := s.emit c 0 0x10 (s.rc c).field.origin none 0 [t.xin.toNat, t.cause.toNat, info.toNat]
    if t.code = cWATCH then s.emit c 0 0x12 (s.rc c).field.origin none 0 [t.xin.toNat, t.cause.toNat, info.toNat] else s

/-- A precise fault of the word at PC (R42): no slot has effect, PC and IN stand, XPC records the PC. A PAGE fault first
sends a page request and waits for its answer (R437). -/
def State.wordFault (s : State) (c slot : Nat) (f : FInfo) : State :=
  let q := (s.rc c).core
  if f.1 = cPAGE then
    let g : Flag := { code := f.1, detail := f.2.1, info := f.2.2, ein := q.inn, at_ := q.inn, noRollback := false, die := 0xFF, xpc := q.pc }
    s.updRec c (fun r => { r.note (.page q.inn 0xFF) with life := .frozen (.page g true) })
  else s.takeTrap c { code := f.1, detail := f.2.1, slot := slot, die := 0xFF, xin := q.inn, info := f.2.2, xpc := q.pc }

/-! ## Frames and marks -/

/-- Sends an item down the broadcast tree to every die of the field (R328), with the cycle of its sending. -/
def State.toDies (s : State) (c : Nat) (f : Frame) : State :=
  s.updRec c (fun r => r.field.dies.foldl (fun r d => r.setDie d { r.die d with frames := (r.die d).frames ++ [(s.clk, f)] }) r)

/-- Broadcasts `n` repetitions of a bundle with the masks given (R329, R330): one decode-queue entry at every die, IN
advances by n, the entry counts against the credit of R29. -/
def State.broadcast (s : State) (c idx : Nat) (lit : Option Nat) (n : Nat) : State :=
  let q := (s.rc c).core
  let s := s.toDies c (.bundle { idx := idx, lit := lit, reps := n, inn := q.inn, diemask := q.diemask, cellmask := q.cellmask, no := s.bcastNo })
  { s with bcastNo := s.bcastNo + 1 }.updRec c (fun r => { r with core := { r.core with inn := r.core.inn + BitVec.ofNat 48 n }, sent := r.sent ++ [(s.clk, 1)] })

/-- The signed difference of two instruction numbers (R8). -/
def inDiff (a b : BitVec 48) : Int := (a - b).toInt

/-- A literal's index in the restart-mark map. Its COUNT is 1, so no rollback broadcasts it again (R374). -/
def litIdx : Nat := 0xFFFF

/-- Adds an entry to the restart-mark map (R373); a KIND 1 entry at an IN that has one takes that entry over. -/
def State.addMark (s : State) (c : Nat) (m : MarkEntry) : State :=
  s.updRec c (fun r =>
    let ms := if m.kind then r.marks.filter (fun x => !(x.kind && x.first == m.first)) else r.marks
    { r with marks := ms ++ [m] })

/-! ## Long-latency operations -/

/-- The operation of an id, with its context. -/
def findReq : List Rec → Nat → Nat → Option (Nat × Req)
  | [], _, _ => none
  | r :: rs, c, id =>
    match r.reqs.find? (fun q => q.id == id) with
    | some q => some (c, q)
    | none => findReq rs (c + 1) id

/-- The operation of an id, with its context. -/
def State.req (s : State) (id : Nat) : Option (Nat × Req) := findReq s.recs 0 id

/-- Updates an operation of context c. -/
def State.updReq (s : State) (c id : Nat) (f : Req → Req) : State :=
  s.updRec c (fun r => { r with reqs := r.reqs.map (fun q => if q.id = id then f q else q) })

/-- Removes an operation of context c. -/
def State.dropReq (s : State) (c id : Nat) : State :=
  s.updRec c (fun r => { r with reqs := r.reqs.filter (fun q => q.id ≠ id) })

/-- Enters a new operation of context c; its id is `nextId` of the state it is entered in. -/
def State.newReq (s : State) (c : Nat) (q : Req) : State :=
  { s.updRec c (fun r => { r with reqs := r.reqs ++ [{ q with id := s.nextId }] }) with nextId := s.nextId + 1 }

/-- A new operation with nothing in it but its place in program order and its body. -/
def mkReq (org : Option (Nat × Nat)) (ein : BitVec 48) (slot : Nat) (tok : Option Nat) (dest : Option RegId) (body : Body)
    (held gated : Bool) : Req :=
  { id := 0, org := org, ein := ein, pc := 0, slot := slot, tok := tok, ord := .relaxed, sc := .device, dest := dest, body := body
    stage := if held then .held else .out, gated := gated, flags := 0, again := false }

/-- The words a `Use` column of consecutive registers names. -/
def regSpan (n k : Nat) : List Nat := (List.range k).map (fun i => n + i)

end Sys2Proof.Machine
end

