-- ==== Sys2Proof/Machine/Access.lean ====
section
/-! DEFINITION. Performing accesses at their homes: the L2 replacement state (R248, R249), the weight banks (R251),
poisoned lines (R254), device registers (R358, R406, R411, R455, R456), kicks (R356) and read-modify-writes (R261 to
R265, R270, R409). -/

namespace Sys2Proof.Machine

/-! ## Line state -/

/-- A 128-byte line of the L2: one of DRAM or of the weight flash (R245, R250 to R253). -/
def inL2 (key : Nat) : Bool :=
  isDieKey key && (decide (key % 2 ^ 48 < 2 ^ 35) || decide (0x010000000000 ≤ key % 2 ^ 48 ∧ key % 2 ^ 48 < 0x018000000000))

/-- The next free answer to whether the L2 holds a line: what else the L2 holds decides it (R249, log entry 23). -/
def State.l2Asks (s : State) : State × Bool := ({ s with freeCtr := s.freeCtr + 1 }, Config.l2Holds s.freeCtr)

/-- The state and the mark that an access gives the line it fills; nothing to note where it gives none. -/
def State.l2Fill (s : State) (line uc : Nat) (disc : Bool) (below : List (BitVec 8)) (bad : Option (BitVec 128)) : State :=
  if uc = 0 ∧ !disc then { s with l2 := s.l2.filter (fun p => p.1 ≠ line) }
  else { s with l2 := mapPut s.l2 line { state := if uc = 0 then .recent else .counted uc, disc := disc, below := below, belowBad := bad } }

/-- A line is filled from memory. -/
def State.l2Load (s : State) (line uc : Nat) (disc : Bool) : State :=
  s.l2Fill line uc disc (memBytes s.mem (line * 128) 128) (mapFind s.poison line)

/-- A line with the discard mark is freed: memory keeps what it held beneath, with its error where it had one (R249,
R254). -/
def State.l2Discard (s : State) (line : Nat) (l : L2Line) : State :=
  let s := { s with l2 := s.l2.filter (fun p => p.1 ≠ line), mem := memPutBytes s.mem (line * 128) l.below }
  { s with poison := match l.belowBad with | some m => mapPut s.poison line m | none => s.poison.filter (fun p => p.1 ≠ line) }

/-- Whether the L2 holds a line, as known already or asked now. -/
def State.l2Held (s : State) (known : Option Bool) : State × Bool := match known with | some b => (s, b) | none => s.l2Asks

/-- A read of a line lowers its count; a SPENT line with the discard mark is freed (R248, R249). `uc` and `disc` are what
the access supplies when it fills the line: where the L2 held it without a count they change nothing, and a line that was
evicted in the meantime is filled anew. -/
def State.l2Read (s : State) (key uc : Nat) (disc : Bool) (known : Option Bool) : State :=
  if !inL2 key then s
  else
    let line := key / 128
    match mapFind s.l2 line with
    | none =>
      if uc = 0 ∧ !disc then s
      else
        let (s, held) := s.l2Held known
        if held then s else s.l2Load line uc disc
    | some l =>
      let (s, held) := s.l2Held known
      if !held then s.l2Load line uc disc
      else
        match l.state with
        | .counted n =>
          if n = 1 then (if l.disc then s.l2Discard line l else { s with l2 := mapPut s.l2 line { l with state := .spent } })
          else { s with l2 := mapPut s.l2 line { l with state := .counted (n - 1) } }
        | .recent | .spent => s

/-- A write that is no store stream's changes nothing of a line that is present, and gives one that it fills the state and
mark it supplies (R248). -/
def State.l2Write (s : State) (key uc : Nat) (disc : Bool) : State :=
  if !inL2 key then s
  else
    let line := key / 128
    if (mapFind s.l2 line).isNone ∧ uc = 0 ∧ !disc then s
    else
      let (s, held) := s.l2Asks
      if held then s else s.l2Load line uc disc

/-- A store stream sets the state and the mark of the line it writes (R248). -/
def State.l2Store (s : State) (key uc : Nat) (disc : Bool) : State :=
  if !inL2 key then s
  else
    let line := key / 128
    match mapFind s.l2 line with
    | some l =>
      let (s, held) := s.l2Asks
      if held then s.l2Fill line uc disc l.below l.belowBad else s.l2Load line uc disc
    | none => if uc = 0 ∧ !disc then s else s.l2Load line uc disc

/-- A line of the weight flash. -/
def inFlash (key : Nat) : Bool :=
  isDieKey key && decide (0x010000000000 ≤ key % 2 ^ 48 ∧ key % 2 ^ 48 < 0x018000000000)

/-- A read of weight flash passes through the staging cache of its die: the 4 KiB line that holds it becomes the most
recent there, and a line more than STAGE GiB hold pushes out the least recent (R253). -/
def State.stageRead (s : State) (key : Nat) : State :=
  if !inFlash key then s
  else
    let here := fun (n : Nat) => n / 2 ^ 36 == key / 2 ^ 48
    let rest := s.staging.filter (fun n => n ≠ key / 2 ^ 12)
    let full := decide (s.stageGib * 2 ^ 18 ≤ (rest.filter here).length)
    { s with staging := (if full then (match rest.find? here with | some n => rest.erase n | none => rest) else rest) ++ [key / 2 ^ 12] }

/-- What the L2 and, where it misses, the staging cache note of a read (R253): nothing where it repeats a read whose count
was taken (R33, R316). -/
def State.noteRead (s : State) (key uc : Nat) (disc again : Bool) : State :=
  if again then s
  else if !inFlash key then s.l2Read key uc disc none
  else
    let (s, held) := s.l2Asks
    (if held then s else s.stageRead key).l2Read key uc disc (some held)

/-- The key a read reaches: the active half of a weight bank (R251). -/
def State.readKey (s : State) (t : Target) : Nat :=
  if t.cls = clsWBANK then wbankOther (s.pdie (t.key / 2 ^ 48)).absel t.key else t.key

/-- The key a write reaches: the shadow half of a weight bank (R251). -/
def State.writeKey (s : State) (t : Target) : Nat :=
  if t.cls = clsWBANK then wbankOther (!(s.pdie (t.key / 2 ^ 48)).absel) t.key else t.key

/-- The line holds an uncorrectable error, or lies in a flash unit that a failed install left invalid (R254, R350). -/
def State.bad (s : State) (key : Nat) : Bool :=
  (mapFind s.poison (key / 128)).isSome
  || (isDieKey key && decide (0x010000000000 ≤ key % 2 ^ 48 ∧ key % 2 ^ 48 < 0x018000000000)
      && (s.pdie (key / 2 ^ 48)).badUnits.contains ((key % 2 ^ 48 - 0x010000000000) / 2 ^ 25))

/-! ## Reference routing at the home (R282, R287) -/

/-- The forwarding entry's place in its map. -/
def fwdKey (pasid hid obj : Nat) : Nat := (pasid * 16 + hid) * 2 ^ 40 + obj
/-- Fields of a reference (R273). -/
def refTag (r : Nat) : Nat := r / 2 ^ 60 % 16
def refHid (r : Nat) : Nat := r / 2 ^ 56 % 16
def refObj (r : Nat) : Nat := r / 2 ^ 16 % 2 ^ 40
def refVer (r : Nat) : Nat := r % 2 ^ 16
/-- Fields of a forwarding entry (R279). STATE 3 reads as FREE. -/
def FwdEntry.version (f : FwdEntry) : Nat := bitsOf f.f0 48 16
def FwdEntry.pins (f : FwdEntry) : Nat := bitsOf f.f0 32 16
def FwdEntry.state (f : FwdEntry) : Nat := let x := bitsOf f.f0 30 2; if x = 3 then 0 else x
def FwdEntry.size (f : FwdEntry) : Nat := bitsOf f.f0 0 25
def FwdEntry.base (f : FwdEntry) : Nat := bitsOf f.f1 0 52
def FwdEntry.newBase (f : FwdEntry) : Nat := bitsOf f.f2 0 52
def FwdEntry.cursor (f : FwdEntry) : Nat := bitsOf f.f3 0 18

/-- An entry with its fields set. -/
def mkFwd (version pins state size base newBase cursor : Nat) : FwdEntry :=
  { f0 := BitVec.ofNat 64 (version % 2 ^ 16 * 2 ^ 48 + pins * 2 ^ 32 + state * 2 ^ 30 + size), f1 := BitVec.ofNat 64 base
    f2 := BitVec.ofNat 64 newBase, f3 := BitVec.ofNat 64 cursor }

/-- The forwarding entry of an object. -/
def State.fwdEntry (s : State) (pasid hid obj : Nat) : FwdEntry := (mapFind s.fwd (fwdKey pasid hid obj)).getD .reset

/-- Writes a forwarding entry, both copies as one step (R383). -/
def State.setFwd (s : State) (pasid hid obj : Nat) (f : FwdEntry) : State :=
  { s with fwd := mapSet .reset s.fwd (fwdKey pasid hid obj) f }

/-- The virtual address at which an access at `off` of an entry goes: the new copy for a line that the entry says is
copied, else the present copy (R282). -/
def FwdEntry.route (f : FwdEntry) (off : Nat) : Nat :=
  if f.state = 2 ∧ off / 128 < f.cursor then f.newBase + off else f.base + off

/-- The key of the byte at `off` of a range at `base`, given the frames of its pages. -/
def pageKey (pages : List Nat) (base off : Nat) : Nat :=
  pages.getD ((base % 65536 + off) / 65536) 0 + (base + off) % 65536

/-- Where the move mark of a line sends an access that reaches the old copy: once the line is COPIED, to the new one, by
the translations that the engine holds (R286, R287). -/
def Move.forward (m : Move) (pasid : Nat) (t : Target) : Option Target :=
  match t.ref with
  | none => none
  | some (r, off) =>
    if m.pasid = pasid ∧ m.hid = refHid r ∧ m.obj = refObj r ∧ off / 128 < m.done ∧ t.key = pageKey m.oldPages m.old off
    then some { t with key := pageKey m.newPages m.new off } else none

/-- A target as the homes route it when the access is performed: as it was translated at issue, but for a line that a
move has copied, which the old home forwards while the move's marks stand (R287 to R289). -/
def State.reroute (s : State) (pasid : Nat) (t : Target) : Target :=
  (s.dies.findSome? (fun x => x.pge.move.bind (fun m => m.forward pasid t))).getD t

/-! ## Device registers -/

/-- A kick at queue QID of a tenant (R356): the lowest valid slot that maps it takes KICK, else the kick-pending FIFO
takes the queue, unless it is there already; a full FIFO sets its overflow flag. -/
def State.kick (s : State) (pasid qid : Nat) : State :=
  match s.qslots.findIdx? (fun q => tbit q.qa 63 && bitsOf q.qa 20 20 == pasid && bitsOf q.qa 0 16 == qid) with
  | some i => { s with qslots := s.qslots.modify i (fun q => { q with qa := wbit q.qa 62 true }) }
  | none =>
    if s.kickFifo.contains (pasid, qid) then s
    else if 256 ≤ s.kickFifo.length then { s with kickOver := true }
    else { s with kickFifo := s.kickFifo ++ [(pasid, qid)] }

/-- The engine of index e of R411. -/
def Die.engine (x : Die) : Nat → Engine
  | 0 => x.copy0 | 1 => x.copy1 | 2 => x.copy2 | 3 => x.copy3 | 4 => x.pge | _ => x.kiln

/-- Replaces the engine of index e. -/
def Die.setEngine (x : Die) (e : Nat) (y : Engine) : Die :=
  match e with
  | 0 => { x with copy0 := y } | 1 => { x with copy1 := y } | 2 => { x with copy2 := y } | 3 => { x with copy3 := y }
  | 4 => { x with pge := y } | _ => { x with kiln := y }

/-- The mask of retired dies (R133 word 3, H0). -/
def State.retMask (s : State) : Nat := ((List.range 32).map (fun d => if (s.pdie d).retired then 2 ^ d else 0)).sum
/-- The number of retired dies. -/
def State.nRetired (s : State) : Nat := ((List.range 32).filter (fun d => (s.pdie d).retired)).length

/-- Doubleword i of the health block (R469); from H16 the repair tables (R385), which share the block's doublewords
over the dies (log entry 15). -/
def State.healthWord (s : State) (i : Nat) : Word :=
  match i with
  | 0 => BitVec.ofNat 64 (s.health.hstate.toNat * 2 ^ 62 + s.nRetired * 2 ^ 32 + s.retMask)
  | 1 => BitVec.ofNat 64 (s.health.spcols.toNat * 2 ^ 32 + s.health.minspares.toNat * 2 ^ 16 + s.health.wear.toNat)
  | 2 => s.health.hatrst.setWidth 64
  | n =>
    if 3 ≤ n ∧ n ≤ 10 then
      let p := s.pods.getD (n - 3) .reset
      BitVec.ofNat 64 ((if p.up then 2 ^ 63 else 0) + p.version.toNat * 2 ^ 32 + p.peer.toNat)
    else if 16 ≤ n ∧ n < 16 + 4096 then mapGet 0 (s.pdie 0).repair (n - 16)
    else 0

/-- Word i of the debug block of a context (R456). -/
def Rec.debugWord (r : Rec) (off : Nat) : Word :=
  if off < 0x20 then r.bps.getD (off / 8) 0
  else if off = 0x20 then r.dbgctl.setWidth 64
  else if 0x40 ≤ off ∧ off < 0x100 then
    let b := r.bufs.getD ((off - 0x40) / 0x40) .reset
    match (off - 0x40) % 0x40 with
    | 0x00 => b.base
    | 0x08 => b.size.setWidth 64
    | 0x10 => b.wr.setWidth 64
    | 0x18 => b.first.setWidth 64
    | 0x20 => b.ctl.setWidth 64
    | 0x28 => b.drops.setWidth 64
    | _ => 0
  else 0

/-- The doubleword at an offset of an MMIO page, for an accessor of a PASID; `priv` is the host or the Atelier. -/
def State.mmioWord (s : State) (pasid : Nat) (priv : Bool) (die page off : Nat) : Word :=
  match page with
  | 0 => s.healthWord (off / 8)
  | 1 =>
    let r := s.rc (off / 0x1000)
    let o := off % 0x1000
    if r.slot.isNone ∨ !r.field.dies.contains die ∨ (!priv && r.pasid.toNat != pasid) then 0
    else if o < 0x40 then mapGet 0 (r.die die).tc (o / 8)
    else if 0x100 ≤ o ∧ o < 0x100 + 8 * 12 then mapGet 0 (r.die die).sc ((o - 0x100) / 8)
    else 0
  | 2 =>
    let e := (s.pdie die).engine (off / 0x40)
    if 6 ≤ off / 0x40 then 0
    else match off % 0x40 with
      | 0x00 => e.busy | 0x08 => e.completed | 0x10 => e.pageWait | 0x18 => e.refused | _ => 0
  | 3 =>
    let c := off / 0x200
    let o := off % 0x200
    if 16 ≤ c ∨ (!priv && (s.rc c).pasid.toNat != pasid) then 0
    else if o < 0x100 then BitVec.ofNat 64 (memRead s.mem (mbxKey c + o) 8)
    else if o = 0x100 then ((s.mbx.getD c 0) : BitVec 4).setWidth 64
    else 0
  | 5 => if priv then (s.rc (off / 0x1000)).debugWord (off % 0x1000) else 0
  | 6 =>
    let x := s.watches (off / 0x1000) die
    let o := off % 0x1000
    if !priv ∨ 0x40 ≤ o then 0
    else if o % 0x10 = 0 then x.wbase.getD (o / 0x10) 0
    else if o % 0x10 = 8 then x.wctl.getD (o / 0x10) 0
    else 0
  | _ => 0

/-- A read of 4 or 8 bytes of an MMIO page. -/
def State.mmioRead (s : State) (pasid : Nat) (priv : Bool) (key n : Nat) : Nat :=
  let pa := key % 2 ^ 48
  let w := s.mmioWord pasid priv (key / 2 ^ 48) (mmioPage pa) (pa % 2 ^ 16 / 8 * 8)
  if n = 4 ∧ pa % 8 = 4 then w.toNat / 2 ^ 32 else w.toNat % 2 ^ (8 * n)

/-- A store to a debug block (R441, R444, R456). -/
def Rec.debugStore (r : Rec) (off : Nat) (v : Word) : Rec :=
  let keep := BitVec.ofNat 64 (0xB7 * 2 ^ 56 + 0xFFFFFFFF)
  if off < 0x20 then { r with bps := r.bps.set (off / 8) (v &&& keep) }
  else if off = 0x20 then { r with dbgctl := v.setWidth 3 }
  else if 0x40 ≤ off ∧ off < 0x100 then
    let n := (off - 0x40) / 0x40
    let b := r.bufs.getD n .reset
    let b' := match (off - 0x40) % 0x40 with
      | 0x00 => { b with base := v &&& BitVec.ofNat 64 0xFFFFFFFFFF000 }
      | 0x08 => { b with size := v.setWidth 32 }
      | 0x10 => { b with wr := v.setWidth 32 }
      | 0x20 => { b with ctl := v.setWidth 2 }
      | _ => b
    { r with bufs := r.bufs.set n b' }
  else r

/-- A store to an MMIO page. Stores that the rules refuse or ignore change nothing here; those that trap have been
caught at issue. -/
def State.mmioWrite (s : State) (pasid : Nat) (priv : Bool) (key n v : Nat) : State :=
  let pa := key % 2 ^ 48
  let die := key / 2 ^ 48
  let off := pa % 2 ^ 16
  let w := BitVec.ofNat 64 v
  if mmioStoreBad pa n then s
  else match mmioPage pa with
  | 1 =>
    let c := off / 0x1000
    let r := s.rc c
    if 0x40 ≤ off % 0x1000 ∨ n ≠ 8 ∨ r.slot.isNone ∨ !r.field.dies.contains die ∨ (!priv && r.pasid.toNat != pasid) then s
    else s.updDctx c die (fun x => { x with tc := mapSet 0 x.tc (off % 0x1000 / 8) w })
  | 3 =>
    let c := off / 0x200
    if 16 ≤ c ∨ off % 0x200 ≠ 0x100 ∨ (!priv && (s.rc c).pasid.toNat != pasid) then s
    else { s with mbx := s.mbx.modify c (fun m => m &&& ~~~(w.setWidth 4)) }
  | 4 => s.kick pasid (off / 8)
  | 5 => if priv ∧ off < 0x10000 then s.updRec (off / 0x1000) (fun r => r.debugStore (off % 0x1000) w) else s
  | 6 =>
    let o := off % 0x1000
    if !priv ∨ 0x40 ≤ o ∨ n ≠ 8 then s
    else
      match (s.rc (off / 0x1000)).slot with
      | none => s
      | some k => s.updPdie die (fun y => { y with watch := y.watch.modify k (fun x =>
        if o % 0x10 = 0 then { x with wbase := x.wbase.set (o / 0x10) (w &&& BitVec.ofNat 64 0xFFFFFFFFFFFFF) }
        else { x with wctl := x.wctl.set (o / 0x10) (w &&& BitVec.ofNat 64 (7 * 2 ^ 61 + 0xFF0FFF)) }) })
  | _ => s

/-! ## Accesses -/

/-- A read of n bytes at a target: none where it meets an uncorrectable error (R254). `again` repeats a read whose use
count was taken. -/
def State.readT (s : State) (pasid : Nat) (t : Target) (n uc : Nat) (disc again : Bool) : State × Option Nat :=
  let t := s.reroute pasid t
  if t.cls = clsMMIO then (s, some (s.mmioRead pasid false t.key n))
  else
    let k := s.readKey t
    if s.bad k then (s, none) else (s.noteRead k uc disc again, some (memRead s.mem k n))

/-- A write of n bytes at a target. -/
def State.writeT (s : State) (pasid : Nat) (t : Target) (n v : Nat) : State :=
  let t := s.reroute pasid t
  if t.cls = clsMMIO then s.mmioWrite pasid false t.key n v
  else s.poke (s.writeKey t) n v

/-- amaxf of R264. -/
def amaxfVal (m v : Nat) : Nat :=
  let isNan := fun (x : Nat) => decide (0x7F800000 < x % 2 ^ 31)
  if isNan m ∨ isNan v then 0x7FC00000 else max (m % 2 ^ 31) (v % 2 ^ 31)

/-- A job control block after JRAISE of an amount: J0 in the low doubleword (R408, R409). -/
def jraiseVal (b amount : Nat) : Nat :=
  let j0 := b % 2 ^ 64
  let j1 := b / 2 ^ 64
  let j1 := if j1 % 2 = 1 then j1 ||| 2 else j1
  (j0 / 2 ^ 32 * 2 ^ 32 + (j0 + amount) % 2 ^ 32) + j1 * 2 ^ 64

/-- A job control block after JDONE (R409). -/
def jdoneVal (b : Nat) : Nat :=
  let j0 := b % 2 ^ 64
  let j1 := b / 2 ^ 64
  let expected := j0 % 2 ^ 32
  let done := j0 / 2 ^ 32
  let j1 := if done = expected then j1 ||| 2 else j1
  let done' := (done + 1) % 2 ^ 32
  let j1 := if done' = expected then j1 ||| 1 else j1
  (expected + done' * 2 ^ 32) + j1 * 2 ^ 64

/-- The new value of a location of n bytes (R262 to R265, R270, R409); `v` is the operand. -/
def Rmw.new (f : Rmw) (n old v : Nat) : Nat :=
  let m := 2 ^ (8 * n)
  let o := sext old (8 * n)
  let w := sext v (8 * n)
  match f with
  | .add => (old + v) % m
  | .min => if w < o then v % m else old
  | .max => if o < w then v % m else old
  | .and => old &&& (v % m)
  | .or => old ||| (v % m)
  | .xor => old ^^^ (v % m)
  | .swap => v % m
  | .cas new => if old = v % m then new % m else old
  | .amaxf => amaxfVal old (v % 2 ^ 32)
  | .amaxrr => 0
  | .jraise => jraiseVal old (v % 2 ^ 32)
  | .jdone => jdoneVal old

/-- A read-modify-write: one indivisible step (R261, R308). None where the line has an uncorrectable error. Its read
spends a use count before its write: of a line with the discard mark whose count it spends, the new value is written to
what memory held beneath. (Log entry 73: DESIGN CHOICE.) -/
def State.rmwT (s : State) (pasid : Nat) (t : Target) (n : Nat) (f : Rmw) (v : Nat) : State × Option Nat :=
  let t := s.reroute pasid t
  let k := s.readKey t
  if s.bad k then (s, none)
  else
    let old := memRead s.mem k n
    ((s.noteRead k 0 false false).poke k n (f.new n old v), some old)

/-- One part of an operation. -/
def State.part (s : State) (pasid : Nat) (p : Part) : State × Option Nat :=
  match p.op with
  | .load => s.readT pasid p.tgt p.n 0 false false
  | .store => ((s.l2Write (s.writeKey (s.reroute pasid p.tgt)) 0 false).writeT pasid p.tgt p.n p.val, some 0)
  | .rmw f => s.rmwT pasid p.tgt p.n f p.val

/-- The parts of an operation in order; each load or old value by its unit. None when one meets an uncorrectable
error: what was done before it stands. -/
def State.parts (s : State) (pasid : Nat) : List Part → State × Option (List (Nat × Nat))
  | [] => (s, some [])
  | p :: ps =>
    match s.part pasid p with
    | (s, none) => (s, none)
    | (s, some v) =>
      match State.parts s pasid ps with
      | (s, none) => (s, none)
      | (s, some vs) => (s, some (if p.op = .store then vs else (p.lane, v) :: vs))

end Sys2Proof.Machine
end

