-- ==== Sys2Proof/Machine/Lease.lean ====
section
/-! DEFINITION. Lease coherence at the homes (R304, R324, R325) and its trace (R326). The homes perform coherent accesses
one by one in the order S, so that the logical times bear on no value; programs see them in the trace alone. -/

namespace Sys2Proof.Machine

/-- An agent (R9): a context and the cell that acts for it, none for its sequencer. -/
abbrev Agent := Nat × Option (Nat × Nat)

/-- The number of an agent. -/
def agentKey (c : Nat) (org : Option (Nat × Nat)) : Nat :=
  match org with | none => c * 4096 | some (d, l) => c * 4096 + 1 + d * 64 + l

/-- The lease buffer an agent uses: its die's, or its sequencer's (R304). -/
def bufferKey (c : Nat) (org : Option (Nat × Nat)) : Nat := match org with | none => 32 + c | some (d, _) => d

/-- A coherence record in the trace buffer of context c (R326, R446): kind 0 a lease renewal, 1 an ownership transfer, 2
a remote atomic. A recording context annotates it (R439). -/
def State.coherenceTrace (s : State) (c : Nat) (org : Option (Nat × Nat)) (line kind : Nat) (time : Word) (sc : Scope) : State :=
  let die := match org with | some (d, _) => d | none => (s.rc c).field.origin
  let requester := match org with | some (d, l) => d * 64 + l | none => 0xFFF
  (s.updRec c (fun r => r.note (.coherence line kind))).emit c 0 0x20 die (org.map Prod.snd) 0 [line * 128 % 2 ^ 48, requester, time.toNat, kind + scopeCode sc * 16]

/-- The larger of two times. -/
def wordMax (a b : Word) : Word := if a < b then b else a

/-- The home maximum: the latest time of any line. -/
def State.homeMax (s : State) : Word := s.leases.foldl (fun a p => wordMax a (wordMax p.2.wts p.2.rts)) 0

/-- An agent's time passes to the home maximum: at a restore (R304), and at an acquire that makes no access of its own.
(Log entry 31: DESIGN CHOICE.) -/
def State.timePasses (s : State) (c : Nat) (org : Option (Nat × Nat)) : State :=
  { s with pts := mapSet 0 s.pts (agentKey c org) (wordMax (mapGet 0 s.pts (agentKey c org)) s.homeMax) }

/-- The home takes note of one coherent access to a line. A load from elsewhere, where the lease buffer of its agent holds
no copy that is still valid at the agent's time, takes a lease, which extends RTS by 256; a write is timed above the
lease; a second write of another die within 256 cycles takes ownership where the home grants it. A sequencer lies on no
die. (Log entry 31: DESIGN CHOICE.) -/
def State.noteCoherent (s : State) (c : Nat) (org : Option (Nat × Nat)) (sc : Scope) (key : Nat) (op : AccOp) : State :=
  if !isDieKey key then s
  else
    let line := key / 128
    let x := mapGet .reset s.leases line
    let d : Nat := match org with | some (d, _) => d | none => 64
    let slice := key / 2 ^ 48
    let home : Nat := if x.owner = 0x3F then slice else x.owner.toNat
    let a := agentKey c org
    let p := mapGet 0 s.pts a
    let copy := bufferKey c org * 2 ^ 48 + line
    match op with
    | .load =>
      let p := wordMax p x.wts
      let s := { s with pts := mapSet 0 s.pts a p }
      let near : Bool := home == d || ((mapFind s.copies copy).map (fun r => decide (p ≤ r))).getD false
      if near then s
      else
        { s with leases := mapSet .reset s.leases line { x with rts := x.rts + 256 }
                 copies := mapPut s.copies copy (x.rts + 256) }.coherenceTrace c org line 0 p sc
    | _ =>
      let t := wordMax p (x.rts + 1)
      let second : Bool := match x.last with | some (e, k) => e == d && decide (s.clk ≤ k + 256) | none => false
      let take := s.grant && org.isSome && d != slice && home != d && second
      let s := { s with leases := mapSet .reset s.leases line
                          { wts := t, rts := t, owner := if take then BitVec.ofNat 6 d else x.owner
                            last := if d = slice then x.last else some (d, s.clk)
                            grantee := if take then org.map (fun o => (c, o.1, o.2)) else x.grantee }
                        pts := mapSet 0 s.pts a t }
      let s := if op ≠ .store ∧ home ≠ d then s.coherenceTrace c org line 2 t sc else s
      if take then s.coherenceTrace c org line 1 t sc else s

/-- Ownership of a line returns to its home slice (R325); the record goes to the trace of the context that had been granted
it (R326). -/
def State.returnLine (s : State) (line : Nat) : State :=
  let x := mapGet .reset s.leases line
  let s := { s with leases := mapSet .reset s.leases line { x with owner := 0x3F, grantee := none } }
  match x.grantee with
  | some (c, d, l) => s.coherenceTrace c (some (d, l)) line 1 x.wts .device
  | none => s

/-- OWNERSHIP_RETURN (R325): the home asks for the line, or its owner has left it alone, and ownership returns. -/
def execOwnershipReturn (line : Nat) (s : State) : Host.Outcome State Fault Refusal :=
  if s.asleep then .refused (.notEnabled "the clocks of the dies and the networks stand")
  else if (mapGet .reset s.leases line).owner = 0x3F then .refused (.notEnabled "no die owns the line")
  else .next (s.returnLine line)

/-- Ownership that a die holds returns: at a change of tenant and at its retirement (R325). -/
def State.returnOwned (s : State) (d : Nat) : State :=
  (s.leases.filter (fun p => p.2.owner.toNat == d)).foldl (fun (s : State) p => s.returnLine p.1) s

/-- The lease copies that a buffer holds are gone (R304). -/
def State.dropCopies (s : State) (buffer : Nat) : State :=
  { s with copies := s.copies.filter (fun p => p.1 / 2 ^ 48 ≠ buffer) }

end Sys2Proof.Machine
end

