-- ==== Sys2Proof/Machine/Check.lean ====
section
/-! DEFINITION. Translations and the checks that every access passes (R230, R233, R235, R236, R379). -/

namespace Sys2Proof.Machine

/-- The entries that a walk reads, as coherent relaxed loads of the agent it serves (R230): false where one of them holds
an uncorrectable error. -/
def State.walkReads (s : State) (ag : Agent) : List Nat → State × Bool
  | [] => (s, true)
  | k :: ks =>
    if s.bad k then (s, false)
    else State.walkReads ((s.noteRead k 0 false false).noteCoherent ag.1 ag.2 .device k .load) ag ks

/-- Sets bit `bit` of the companion word of a leaf (R233), by an atomic OR at DEVICE scope. -/
def State.setCompanion (s : State) (ag : Agent) (leaf bit : Nat) : State :=
  let comp := BitVec.ofNat 64 (memRead s.mem (leaf + 8) 8)
  ((s.noteRead leaf 0 false false).poke (leaf + 8) 8 (wbit comp bit true).toNat).noteCoherent ag.1 ag.2 .device leaf (.rmw .or)

/-- A walk that serves an agent: the leaf, its word and its level, or the fault. -/
def State.walkFor (s : State) (ag : Agent) (pasid va : Nat) : Except FInfo (State × Nat × Word × Nat) :=
  match s.walkReads ag (s.walkKeys pasid va) with
  | (_, false) => .error (cECC, 0, noInfo)
  | (s', true) =>
    match s.walk pasid va with
    | .error l => .error (cPAGE, l, va)
    | .ok x => .ok (s', x)

/-- A walk that reaches a leaf sets its DIEACC bit and reads the entry word again, which it finds unchanged because the
walk is one step of this machine; then it fills the TLB (R379). -/
def State.fillTlb (s : State) (ag : Agent) (die pasid va : Nat) : Except FInfo (State × Word × Nat) :=
  match s.walkFor ag pasid va with
  | .error f => .error f
  | .ok (s, leaf, w, level) =>
    let s := (s.setCompanion ag leaf die).noteCoherent ag.1 ag.2 .device leaf .load
    .ok (s.updPdie die (fun x => { x with tlb := mapPut x.tlb (tlbKey pasid va level) { word := w, level := level } }), w, level)

/-- The translation of an address for an agent of a die: from its TLB, else by a walk. -/
def State.xlate (s : State) (ag : Agent) (die pasid va : Nat) : Except FInfo (State × Word × Nat) :=
  match s.tlbFind die pasid va with
  | some e => .ok (s, e.word, e.level)
  | none => s.fillTlb ag die pasid va

/-- The host port's translation of a HOST page (R236): held since an earlier request, or requested now; none where the
request is refused. -/
def State.atsFind (s : State) (pasid va : Nat) : Option State :=
  let p := (pasid, va / 2 ^ 16)
  if s.ats.contains p then some s
  else if Config.atsRefuses s.clk pasid (va / 2 ^ 16) then none
  else some { s with ats := s.ats ++ [p] }

/-- R235 step 4: every walk, in lane order. -/
def State.walkAll (s : State) (ag : Agent) (die pasid : Nat) : List AccReq → Except FInfo (State × List (AccReq × Word × Target))
  | [] => .ok (s, [])
  | a :: as =>
    match s.xlate ag die pasid a.va with
    | .error f => .error f
    | .ok (s, w, level) =>
      let t := pageTarget pasid a.va w level
      match (if t.cls = clsHOST then s.atsFind pasid a.va else some s) with
      | none => .error (cPAGE, 4, a.va)
      | some s =>
        match State.walkAll s ag die pasid as with
        | .error f => .error f
        | .ok (s, ts) => .ok (s, (a, w, t) :: ts)

/-- Every check of R235 on the accesses of one operation of an agent, step by step, within a step by ascending lane; their
targets, with TLB fills and accessed bits, when all pass. (Log entry 60: DEDUCED.) -/
def State.check (s : State) (ag : Agent) (die pasid : Nat) (as : List AccReq) : Except FInfo (State × List Target) :=
  match firstFault addrFault as with
  | some f => .error f
  | none =>
    match firstFault alignFault as with
    | some f => .error f
    | none =>
      match regionFault [] as with
      | some f => .error f
      | none =>
        match s.walkAll ag die pasid as with
        | .error f => .error f
        | .ok (s, ts) =>
          match firstFault permFault1 ts with
          | some f => .error f
          | none =>
            match firstFault permFault2 ts with
            | some f => .error f
            | none =>
              match firstFault permFault3 ts with
              | some f => .error f
              | none => .ok (s, ts.map (fun x => x.2.2))

end Sys2Proof.Machine
end

