-- ==== Sys2Proof/Machine/Operands.lean ====
section
/-! DEFINITION. What the operand fields of a slot name: the guard (R46, R62), the registers it reads, the token it uses
(R112, R369), whether its bundle is a mark (R370) and a gated store (R426), and which of several slots' results stand
(R80, R81). -/

namespace Sys2Proof

open Machine

/-- The operand fields of a slot with what each names. -/
def Raw.uses (r : Raw) : List (Use × Nat) :=
  match rowOf r.kind r.op with
  | none => []
  | some row => (row.fields.map Field.use).zip r.ops

/-- The guard field of a slot: 0, always true, where it has none. -/
def Raw.guard (r : Raw) : Nat :=
  (r.uses.findSome? (fun u => if u.1 = .pg ∨ u.1 = .kg then some u.2 else none)).getD 0

/-- The sequencer registers a slot reads beside its guard (R109). ACAS and STR read the odd register of their pair. -/
def Raw.seqReads (r : Raw) : List RegId :=
  r.uses.flatMap (fun u =>
    match u.1 with
    | .sR | .sRW => RegId.s u.2 :: (if r.kind = .mem ∧ (r.op = 0x8F ∨ r.op = 0x98) ∧ u.2 % 2 = 0 ∧ some u.2 = r.ops[3]?
        then [RegId.s (u.2 + 1)] else [])
    | .sR8 => (regSpan (8 * u.2) 8).map RegId.s
    | .hR => if r.kind = .mem then [RegId.h u.2] else []
    | _ => [])

/-- The sequencer token a slot names (R112). -/
def Raw.ts (r : Raw) : Option Nat := r.uses.findSome? (fun u => if u.1 = .tsU then some u.2 else none)

/-- The cell token a slot names. -/
def Raw.tk (r : Raw) : Option Nat := r.uses.findSome? (fun u => if u.1 = .tkU then some u.2 else none)

end Sys2Proof

namespace Sys2Proof.Machine

/-! ## Vectors formed from the bits of a bundle (R369, R370), before any decode check -/

/-- The bits of the six slots of a bundle, with their kinds; V slots use no token and make no mark. -/
def bundleSlots (w : Nat) : List (SlotKind × Nat) :=
  [(.mx, fld w 192 64), (.ls, fld w 128 64), (.xf, fld w 64 64), (.ct, fld w 0 64)]

/-- The token a slot's bits name, whatever its other fields hold. -/
def slotToken (k : SlotKind) (w : Nat) : Option Nat :=
  match rowOf k (fld w 56 8) with
  | none => none
  | some row => row.fields.findSome? (fun f => if f.use = .tkU then some (fld w f.lo f.w) else none)

/-- The token-use vector of a bundle (R369). -/
def tokenUse (w : Nat) : BitVec 32 :=
  (bundleSlots w).foldl (fun acc s => match slotToken s.1 s.2 with
    | some n => acc ||| BitVec.ofNat 32 (2 ^ n)
    | none => acc) 0

/-- The operation makes its bundle a restart mark (R370). -/
def markOp (k : SlotKind) (op : Nat) : Bool :=
  match k with
  | .ct => op == 4 || op == 8 || op == 9 || op == 10
  | .mx => op == 1 || op == 2 || op == 3 || op == 4 || op == 7
  | .ls => decide (0x10 ≤ op ∧ op ≤ 0x16) || op == 0x36 || op == 0x37 || decide (0x40 ≤ op ∧ op ≤ 0x42)
  | .xf => decide (1 ≤ op ∧ op ≤ 8)
  | _ => false

/-- The mark bit of a bundle (R370). -/
def markBit (w : Nat) : Bool := (bundleSlots w).any (fun s => markOp s.1 (fld s.2 56 8))

/-- The gated stores of R426, an STX to the cell control page apart. -/
def gatedOp (k : SlotKind) (op : Nat) : Bool :=
  match k with
  | .ls => [2, 4, 6, 8, 0xA, 0x23, 0x29, 0x2A, 0x31, 0x33, 0x35].contains op
  | .mx => op == 6
  | _ => false

/-- The slots a bundle occupies, as a mask of V0 to CT (R28): those whose op8 is not 0. -/
def slotsUsed (w : Nat) : Nat :=
  ((List.range 6).map (fun i => if fld w (56 + 64 * i) 8 = 0 then 0 else 2 ^ i)).sum

/-- The all-NOP bundle's index (R66). -/
def nopIdx : Nat := 0xFFFE

/-- The bits a bundle index of a context stands for: a dictionary entry, the NOP bundle, or the literal. -/
def Rec.bundleBits (r : Rec) (idx : Nat) (lit : Option Nat) : Nat :=
  match lit with
  | some w => w
  | none => if idx = nopIdx then 0 else r.dict.getD idx 0

/-! ## Which results stand -/

/-- The results of one slot: fixed-latency writes, and the units a long-latency operation marks. -/
structure SlotOut where
  writes : List Write
  marks : List (RegId × List Nat)

/-- The units a slot writes or marks. -/
def SlotOut.cover (o : SlotOut) : List (RegId × List Nat) :=
  o.writes.map (fun w => (w.reg, w.vals.map Prod.fst)) ++ o.marks

/-- The units of `r` in a cover. -/
def covered (cover : List (RegId × List Nat)) (r : RegId) : List Nat :=
  (cover.filter (fun c => c.1 = r)).flatMap Prod.snd

/-- A slot's results without the units that later slots write (R80, R81). Flags still count (R147). -/
def SlotOut.without (o : SlotOut) (cover : List (RegId × List Nat)) : SlotOut :=
  { writes := o.writes.map (fun w => { w with vals := dropUnits (covered cover w.reg) w.vals })
    marks := o.marks.map (fun m => (m.1, m.2.filter (fun u => !(covered cover m.1).contains u))) }

/-- The results that stand of the slots of one word or bundle, given in slot order. -/
def standing : List SlotOut → List SlotOut
  | [] => []
  | o :: os => o.without (os.flatMap SlotOut.cover) :: standing os

end Sys2Proof.Machine
end

