-- ==== Sys2Proof/Machine/Descriptor.lean ====
section
/-! DEFINITION. Stream descriptors (R194 to R196) and the items they describe (R195, R200). -/

namespace Sys2Proof.Machine

/-! ## The descriptor (R194) -/

/-- A descriptor: eight doublewords. -/
abbrev Desc := List Word

/-- Field of a doubleword of a descriptor. -/
def dfld (D : Desc) (i lo n : Nat) : Nat := bitsOf (D.getD i 0) lo n

def dFmt (D : Desc) : Nat := dfld D 0 60 4
def dBs (D : Desc) : Nat := if dfld D 0 59 1 = 1 then 32 else 16
def dClass (D : Desc) : Nat := dfld D 0 56 3
def dStore (D : Desc) : Bool := dfld D 0 55 1 == 1
def dDisc (D : Desc) : Bool := dfld D 0 54 1 == 1
def dBase (D : Desc) : Nat := dfld D 0 0 52
def dUc (D : Desc) : Nat := dfld D 1 56 8
def dGo (D : Desc) : Bool := dfld D 7 63 1 == 1
def dEnd (D : Desc) : Bool := dfld D 7 62 1 == 1
def dBad (D : Desc) : Bool := dfld D 7 61 1 == 1
def dCur (D : Desc) : Nat := dfld D 7 0 48
/-- LCNT of level l. -/
def dCnt (D : Desc) (l : Nat) : Nat := if l < 4 then dfld D 2 (16 * l) 16 else dfld D 3 (16 * (l - 4)) 16
/-- LSTRD of level l. -/
def dStride (D : Desc) (l : Nat) : Int := sext (dfld D (4 + l / 2) (32 * (l % 2)) 32) 32
/-- The format is a BFP format. -/
def dBfp (D : Desc) : Bool := decide (8 ≤ dFmt D ∧ dFmt D ≤ 14)
/-- Mantissa bits of a BFP format. -/
def dMant (D : Desc) : Nat := dFmt D - 6
/-- Unit bytes. -/
def dUnit (D : Desc) : Nat :=
  match dFmt D with | 0 => 4 | 1 => 2 | 2 => 1 | _ => dBs D * dMant D / 8
/-- LEN (R195). -/
def dLen (D : Desc) : Nat := ((List.range 6).map (fun l => dCnt D l + 1)).foldl (· * ·) 1
/-- Items a vector transfer moves (R200). -/
def dItems (D : Desc) : Nat := if dBfp D then 64 / dBs D else 64

/-- The signed offset of item t: its digits in the mixed radix of the levels (R195). -/
def dOffset (D : Desc) : Nat → Nat → Nat → Int
  | 0, _, _ => 0
  | n + 1, l, t => ((t % (dCnt D l + 1) : Nat) : Int) * dStride D l + dOffset D n (l + 1) (t / (dCnt D l + 1))

/-- An address from an integer, modulo 2^52. -/
def addr52 (i : Int) : Nat := (i % (2 ^ 52 : Int)).toNat

/-- address(t) and scale(t) (R195). -/
def dAddr (D : Desc) (t : Nat) : Nat := addr52 (dBase D + dOffset D 6 0 t)
def dScale (D : Desc) (t : Nat) : Nat :=
  addr52 (dBase D + sext (dfld D 1 0 32) 32 + dOffset D 6 0 t / (dUnit D : Int) * dfld D 1 48 8)

/-- The descriptor breaks a check of R196. -/
def badDesc (D : Desc) : Bool :=
  let fmt := dFmt D
  decide (dfld D 0 52 2 ≠ 0 ∨ dfld D 1 32 16 ≠ 0 ∨ dfld D 3 32 32 ≠ 0 ∨ dfld D 7 56 5 ≠ 0 ∨ dfld D 7 48 8 ≠ 0
    ∨ (3 ≤ fmt ∧ fmt ≤ 7) ∨ fmt = 15 ∨ (dfld D 0 59 1 = 1 ∧ ¬ 8 ≤ fmt) ∨ dClass D = 7 ∨ dUc D = 255
    ∨ 2 ^ 48 < dLen D ∨ dLen D < dCur D ∨ dBase D % dUnit D ≠ 0)
  || (List.range 6).any (fun l => decide (dStride D l % (dUnit D : Int) ≠ 0))

/-- A store stream of class WEIGHT (R196). -/
def weightStore (D : Desc) : Bool := dClass D == 3 && dStore D

/-- D7 put together. -/
def mkD7 (go en bad : Bool) (rowp cur : Nat) : Word :=
  BitVec.ofNat 64 ((if go then 2 ^ 63 else 0) + (if en then 2 ^ 62 else 0) + (if bad then 2 ^ 61 else 0) + rowp % 256 * 2 ^ 48 + cur)

/-- A descriptor with D7 replaced. -/
def setD7 (D : Desc) (w : Word) : Desc := D.set 7 w

/-- The descriptor as STSET writes it (R196). -/
def stsetDesc (D : Desc) : Desc := setD7 D (mkD7 false (dCur D == dLen D) false 0 (dCur D))

/-- The descriptor as STLOAD lands it (R203). -/
def stloadDesc (D : Desc) : Desc :=
  let bad := badDesc D || weightStore D
  setD7 D (mkD7 (dGo D && !bad) (dCur D == dLen D) bad (dfld D 7 48 8) (dCur D))

/-- The descriptor with n items more consumed (R200, R215). The count of a stream of 2^48 items, all consumed, is kept whole.
(Log entry 92: DESIGN CHOICE.) -/
def advance (D : Desc) (n rowp : Nat) : Desc :=
  let cur := min (dCur D + n) (dLen D)
  setD7 D (mkD7 (dGo D) (dEnd D || cur == dLen D) (dBad D) rowp cur)

/-- A stream of a cell. -/
def CellCore.desc (q : CellCore) (n : Nat) : Desc := (List.range 8).map (q.rSt n)

/-- Replaces a stream of a cell. -/
def CellCore.setDesc (q : CellCore) (n : Nat) (D : Desc) : CellCore :=
  D.zipIdx.foldl (fun (q : CellCore) (p : Word × Nat) => q.wSt n p.2 p.1) q

/-- An instruction writes a stream: the whole register is its result, so it cancels what was on its way there (R84,
R204). -/
def descWrite (n : Nat) (D : Desc) (lat ein : Nat) : Write :=
  { reg := .st n, vals := D.zipIdx.map (fun p => (p.2, p.1.toNat)), lat := lat, ein := ein }

/-! ## Items (R195, R197 to R199) -/

/-- The bytes of item t as accesses (address, bytes): one element, or the bytes of a block and its scale. -/
def itemBytes (D : Desc) (t : Nat) : List (Nat × Nat) :=
  if dBfp D then (List.range (dUnit D)).map (fun i => ((dAddr D t + i) % 2 ^ 52, 1)) ++ [(dScale D t, 1)]
  else [(dAddr D t, dUnit D)]

/-- The item's values from the values of its accesses: one element, or the mantissas of a block and its scale. -/
def itemVals (D : Desc) (vs : List Nat) : List Nat :=
  if dBfp D then
    let f := (vs.dropLast.zipIdx.map (fun p => p.1 * 256 ^ p.2)).sum
    (List.range (dBs D)).map (fun j => f / 2 ^ (dMant D * j) % 2 ^ dMant D) ++ [vs.getLastD 0]
  else [vs.headD 0]

/-- The item lanes of a transfer, (lane of its first element, item): those with an active lane. A store takes a BFP
block only where every lane of it is active. -/
def transferItems (D : Desc) (lanes : List Nat) (store : Bool) : List (Nat × Nat) :=
  let w := 64 / dItems D
  ((List.range (min (dItems D) (dLen D - dCur D))).filter (fun i =>
      let ls := (List.range w).map (fun j => w * i + j)
      if store then ls.all lanes.contains else ls.any lanes.contains)).map (fun i => (w * i, dCur D + i))

/-- The path of a stream's stores. -/
def dPath (D : Desc) : Path := if dClass D = 6 then .scratch else .stream (some (dUc D, dDisc D))

end Sys2Proof.Machine
end

