-- ==== Sys2Proof/Machine/Heap.lean ====
section
/-! DEFINITION. The managed heap: descriptors (R277), the barrier (R281, R282), the checks of PIN and UNPIN at issue and
at the entry home (R293, R294, R494). -/

namespace Sys2Proof.Machine

/-- Word i of heap descriptor `hid` of a tenant. -/
def State.heapWord (s : State) (pasid hid i : Nat) : Word :=
  match mapFind s.tenants pasid with
  | none => 0
  | some t => mapGet 0 t.heap (hid * 4 + i)

/-- HV, TDIE, COUNT of H0; ARENA, ASIZE, ALIAS (R277). -/
def State.heapValid (s : State) (pasid hid : Nat) : Bool := tbit (s.heapWord pasid hid 0) 63
def State.heapDie (s : State) (pasid hid : Nat) : Nat := bitsOf (s.heapWord pasid hid 0) 40 5
def State.heapCount (s : State) (pasid hid : Nat) : Nat := bitsOf (s.heapWord pasid hid 0) 0 40
def State.heapArena (s : State) (pasid hid : Nat) : Nat := bitsOf (s.heapWord pasid hid 1) 0 52
def State.heapSize (s : State) (pasid hid : Nat) : Nat := bitsOf (s.heapWord pasid hid 2) 0 52
def State.heapAlias (s : State) (pasid hid : Nat) : Nat := bitsOf (s.heapWord pasid hid 3) 0 52

/-- The checks of R281 that a die decides from the reference and its heap descriptors (R494). -/
def State.refIssueFault (s : State) (pasid r : Nat) : Option FInfo :=
  let hid := refHid r
  if refTag r = 0 then some (cNULLREF, 0, r)
  else if refTag r = 15 then some (cNULLREF, 1, r)
  else if refTag r ≠ 1 ∧ refTag r ≠ 2 then some (cNULLREF, 2, r)
  else if !s.heapValid pasid hid then some (cSTALEREF, 4, r)
  else if s.heapCount pasid hid ≤ refObj r then some (cSTALEREF, 3, r)
  else none

/-- The checks of R281 on the forwarding entry. -/
def refHomeFault (f : FwdEntry) (r : Nat) : Option FInfo :=
  if f.state = 0 then some (cSTALEREF, 2, r)
  else if f.version ≠ refVer r then some (cSTALEREF, 0, r)
  else if refTag r = 2 ∧ f.pins = 0 then some (cSTALEREF, 1, r)
  else none

/-! ## Forwarding caches (R290 to R292) -/

/-- The number of entries in one copy of the forwarding space of a die (R382). -/
def State.fwdSpace (s : State) : Nat := s.fwdMib * 2 ^ 14

/-- The key of an entry of copy A: the lines of the forwarding space that fall in slices 0 to 7, four entries a line (R245,
R382). Of 16 lines in a row, eight do. -/
def State.fwdLineKey (s : State) (die entry : Nat) : Nat :=
  let j := entry / 4
  let group := j / 8
  dieKey die (s.sramTop + (group * 16 + (if 8 ≤ group % 16 then 8 else 0) + j % 8) * 128 + entry % 4 * 32)

/-- The key of an object's entry at its home. -/
def State.entryKey (s : State) (pasid hid obj : Nat) : Option Nat :=
  match mapFind s.tenants pasid with
  | none => none
  | some t => some (s.fwdLineKey (s.heapDie pasid hid) (mapGet 0 t.heapAt hid + obj))

/-- A coherent access of an agent to an object's entry, noted at its home (R290, R305). -/
def State.noteEntry (s : State) (ag : Agent) (pasid hid obj : Nat) (sc : Scope) (op : AccOp) : State :=
  match s.entryKey pasid hid obj with
  | none => s
  | some k => s.noteCoherent ag.1 ag.2 sc k op

/-- The forwarding cache of an agent. -/
def State.fwdCache (s : State) (ag : Agent) : Map FwdEntry :=
  match ag.2 with
  | none => (s.rc ag.1).fwdc
  | some (d, l) => (s.cell ag.1 d l).fwdc

/-- Replaces the forwarding cache of an agent. -/
def State.setFwdCache (s : State) (ag : Agent) (m : Map FwdEntry) : State :=
  match ag.2 with
  | none => s.updRec ag.1 (fun r => { r with fwdc := m })
  | some (d, l) => s.updCell ag.1 d l (fun y => { y with fwdc := m })

/-- A copy of an entry routes as the rules say (R290 to R292): it is the entry as it stands, but for its cursor and its pins;
or the move that it does not show yet, or has shown, still holds its marks; or an invalidation of it is on its way to the
die that acts for the agent. -/
def State.copyRoutes (s : State) (ag : Agent) (pasid hid obj : Nat) (f : FwdEntry) : Bool :=
  let g := s.fwdEntry pasid hid obj
  let die := match ag.2 with | some (d, _) => d | none => (s.rc ag.1).field.origin
  (g.state == f.state && g.version == f.version && g.base == f.base && g.newBase == f.newBase && g.size == f.size)
  || s.dies.any (fun x => (x.pge.move.map (fun m => m.pasid == pasid && m.hid == hid && m.obj == obj && m.old == f.base
      && (f.state == 1 || m.new == f.newBase))).getD false)
  || (s.pdie die).fwdInv.any (fun x => x.1 == pasid && x.2.1 == hid && x.2.2.1 == obj)

/-- The copy of an entry that an agent's access through reference r uses: the one its cache holds, where r passes the
checks on it, else one that it reads from the home now and keeps (R290). A reference with tag 2 looks at the pins, which
change without an invalidation, at the home. So no cached copy raises a fault that the entry does not, or routes an access
to where the entry's object has ceased to be (R288, R291).
(Log entry 67: DEDUCED.) -/
def State.cachedEntry (s : State) (ag : Agent) (pasid r : Nat) : State × FwdEntry :=
  let k := fwdKey pasid (refHid r) (refObj r)
  let fresh :=
    let f := s.fwdEntry pasid (refHid r) (refObj r)
    ((s.noteEntry ag pasid (refHid r) (refObj r) .device .load).setFwdCache ag (mapPut (s.fwdCache ag) k f), f)
  match mapFind (s.fwdCache ag) k with
  | some f => if refTag r ≠ 2 ∧ (refHomeFault f r).isNone ∧ s.copyRoutes ag pasid (refHid r) (refObj r) f then (s, f) else fresh
  | none => fresh

/-- The forwarding caches that act for die d drop an entry: those of its cells, and those of sequencers whose field
begins there (R292). -/
def State.dropEntry (s : State) (d pasid k : Nat) : State :=
  let keep := fun (m : Map FwdEntry) => m.filter (fun p => p.1 ≠ k)
  { s with recs := s.recs.map (fun r =>
      if r.pasid.toNat ≠ pasid then r
      else
        let r := if r.field.origin = d then { r with fwdc := keep r.fwdc } else r
        { r with dies := r.dies.map (fun x =>
            if x.1 = d then (x.1, { x.2 with cells := x.2.cells.map (fun y => (y.1, { y.2 with fwdc := keep y.2.fwdc })) }) else x) }) }

/-- The forwarding caches of a context are empty (R291). -/
def Rec.noFwdCache (r : Rec) : Rec :=
  { r with fwdc := [], dies := r.dies.map (fun x => (x.1, { x.2 with cells := x.2.cells.map (fun y => (y.1, { y.2 with fwdc := [] })) })) }

/-! ## The barrier -/

/-- The barrier of an agent (R281), by its copy of the entry (R290): the routed address, or the fault. -/
def State.barrier (s : State) (ag : Agent) (pasid r off n : Nat) : Except FInfo (State × Nat) :=
  match s.refIssueFault pasid r with
  | some f => .error f
  | none =>
    let (s, f) := s.cachedEntry ag pasid r
    match refHomeFault f r with
    | some x => .error x
    | none =>
      if off % n ≠ 0 then .error (cPROTECT, 0, off)
      else if f.size < off + n then .error (cREFBOUNDS, 0, off)
      else .ok (s, f.route off)

/-- The barrier on every (unit, offset) of an operation, the first failing unit deciding the fault (R299): the accesses at
the routed addresses. -/
def State.routeAll (s : State) (ag : Agent) (pasid r n : Nat) (write : Bool) : List (Nat × Nat) → Except FInfo (State × List AccReq)
  | [] => .ok (s, [])
  | (lane, off) :: os =>
    match s.barrier ag pasid r off n with
    | .error f => .error f
    | .ok (s, va) =>
      match State.routeAll s ag pasid r n write os with
      | .error f => .error f
      | .ok (s, as) => .ok (s, { lane := lane, va := va, n := n, kind := .ref write } :: as)

/-- The barrier on every (unit, offset) of an operation, then the translation of the routed addresses, which must reach
class HEAP (R283). -/
def State.refTargets (s : State) (ag : Agent) (die pasid r n : Nat) (write : Bool) (offs : List (Nat × Nat)) :
    Except FInfo (State × List (Nat × Target)) :=
  match s.routeAll ag pasid r n write offs with
  | .error f => .error f
  | .ok (s, as) =>
    match s.check ag die pasid as with
    | .error f => .error f
    | .ok (s, ts) => .ok (s, (offs.zip ts).map (fun p => (p.1.1, { p.2 with ref := some (r, p.1.2) })))

/-- What PIN does at the entry home (R293, R494): none while the object moves; else the state, the value for its
destination and the fault to report. -/
def State.pinHome (s : State) (pasid r : Nat) : Option (State × Nat × Option FInfo) :=
  let hid := refHid r
  let f := s.fwdEntry pasid hid (refObj r)
  match refHomeFault f r with
  | some x => some (s, 0, some x)
  | none =>
    if f.state = 2 then none
    else if f.pins = 65535 then some (s, 0, some (cPINUNDER, 1, r))
    else
      let s := s.setFwd pasid hid (refObj r) (mkFwd f.version (f.pins + 1) f.state f.size f.base f.newBase f.cursor)
      some (s, (s.heapAlias pasid hid + f.base - s.heapArena pasid hid) % 2 ^ 64, none)

/-- What UNPIN does at the entry home (R294, R494). -/
def State.unpinHome (s : State) (pasid r : Nat) : State × Option FInfo :=
  let hid := refHid r
  let f := s.fwdEntry pasid hid (refObj r)
  match refHomeFault f r with
  | some x => (s, some x)
  | none =>
    if f.pins = 0 then (s, some (cPINUNDER, 0, r))
    else (s.setFwd pasid hid (refObj r) (mkFwd f.version (f.pins - 1) f.state f.size f.base f.newBase f.cursor), none)

end Sys2Proof.Machine
end

