-- ==== Sys2Proof/Machine/Record.lean ====
section
/-! DEFINITION. Record and replay (R439, R440): one record per input that can depend on other agents or on time. -/

namespace Sys2Proof.Machine

/-- The input kinds of R439, in its order; a replay record has TYPE 0x40 + kind (R446). -/
def inRED : Nat := 0
def inATOMIC : Nat := 1
def inMAILBOX : Nat := 2
def inENQ : Nat := 3
def inHOSTPEER : Nat := 4
def inENGINE : Nat := 5
def inPROFILE : Nat := 6
def inTOKRD : Nat := 7
def inMMIO : Nat := 8

/-- A logged input: recorded with its IN, its PC and its values; in replay, the values of the next record, which must
agree in kind, IN and PC (R440). (Log entry 57: UNVERIFIED.) -/
def State.logged (s : State) (c kind die : Nat) (cell : Option Nat) (inn pc : Nat) (vals : List Nat) :
    Except FInfo (State × List Nat) :=
  let r := s.rc c
  if r.replaying then
    match r.replay with
    | (k :: i :: p :: vs) :: rest =>
      if k.toNat = kind ∧ i.toNat = inn ∧ p.toNat = pc ∧ vs.length = vals.length
      then .ok (s.setRec c { r with replay := rest }, vs.map BitVec.toNat)
      else .error (cREPLAYDIV, 0, i.toNat)
    | _ => .error (cREPLAYDIV, 0, noInfo)
  else .ok (s.emit c 2 (0x40 + kind) die cell 0 ([inn, pc] ++ vals), vals)

end Sys2Proof.Machine
end

