-- ==== Sys2Proof/Machine/SeqWord.lean ====
section
/-! DEFINITION. Issuing one sequencer word (R42, R79 to R82, R109, R112, R130): every check before any slot has effect,
then the slots' results, then the next address. A word is given as its four slots, each with the meaning of its
instruction, so that a word of the control store and an instruction executed alone issue in the same way. -/

namespace Sys2Proof.Machine

/-- What a slot's meaning may read: the record as it stood at the start of the word (R79), and whether the word is a
LIT word. -/
structure SeqEnv where
  c : Nat
  rc : Rec
  lit : Bool

/-- The registers at the start of the word. -/
def SeqEnv.q (e : SeqEnv) : SeqCore := e.rc.core

/-- The next word in sequence (R125): past the literal in a LIT word (R50). -/
def SeqEnv.next (e : SeqEnv) : BitVec 18 := e.q.pc + (if e.lit then 4 else 1)

/-- PC + sext(off, n) mod 2^18 (R125). -/
def SeqEnv.target (e : SeqEnv) (off n : Nat) : BitVec 18 := e.q.pc + BitVec.ofInt 18 (sext off n)

/-- What one slot of a word does: register results by latency, stores of the local data store, changes of the other
sequencer registers at the end of the word, the next PC, a long-latency operation, what follows once the word has
taken effect (`post`), and what the next-address kind does last (`fin`). -/
structure SeqFx where
  writes : List Write := []
  mem : State → State := id
  set : Rec → Rec := id
  npc : Option (BitVec 18) := none
  req : Option Req := none
  post : State → State := id
  fin : State → State := id

/-- The meaning of one slot: a precise fault, or the state with the translations the checks made, and the effects. -/
abbrev SeqMeaning := SeqEnv → State → Except FInfo (State × SeqFx)

/-- A slot of a word. -/
structure WSlot where
  raw : Raw
  slot : Nat
  fx : SeqMeaning

/-- A meaning with effects alone. -/
def pureFx (f : SeqEnv → SeqFx) : SeqMeaning := fun e s => .ok (s, f e)

/-- One fixed-latency result. -/
def one (r : RegId) (v lat : Nat) : List Write := [{ reg := r, vals := [(0, v)], lat := lat }]

/-! ## The Atelier as agent (R448 to R450) -/

/-- The record that holds the Atelier's registers. -/
def ateIdx : Nat := 16

/-- The Atelier stops: every queue slot is unmapped, its operations are gone (R450). -/
def State.stopAtelier (s : State) : State :=
  { s.updRec ateIdx (fun r => { r with life := .halted, reqs := [] }) with
    ate := { s.ate with life := .stopped }
    qslots := s.qslots.map (fun q => { q with qa := wbit q.qa 63 false }) }

/-- The Atelier accepts the slots of a word (R48, R448). (Log entry 55: DEDUCED.) -/
def ateSlotOk (r : Raw) : Bool :=
  match r.kind with
  | .scalar => r.op != 0x2E
  | .na => decide (r.op ≤ 4 ∨ r.op = 8)
  | .x => r.op == 0 || r.op == 3 || r.op == 5
  | .mem => decide (r.op ≤ 0x92)
  | .csr => true
  | _ => false

/-- A word of the Atelier whose sequential successor, or whose target, taken or not, lies above 0xFFFF (R448). (Log entry 55:
DEDUCED.) -/
def ateBeyond (pc : BitVec 18) (r : Raw) : Bool :=
  r.kind == .na && (decide (0xFFFF ≤ pc.toNat) || (match r.op, r.ops with
    | 1, [off] | 2, [_, _, off] | 3, [off] => decide (0xFFFF < (pc + BitVec.ofInt 18 (sext off 21)).toNat)
    | _, _ => false))

/-- A precise fault of a word: a trap of the context; the Atelier stops (R450). -/
def State.seqFault (s : State) (c slot : Nat) (f : FInfo) : State :=
  if c = ateIdx then s.stopAtelier else s.wordFault c slot f

/-! ## Credit (R29) -/

/-- Decode-queue entries of a context's share. -/
def Rec.share (r : Rec) : Nat := r.win.q * 256

/-- The context may broadcast at a cycle. -/
def Rec.credit (r : Rec) (clk : Nat) : Bool :=
  decide (r.occ + ((r.sent.filter (fun p => decide (p.1 + 71 ≥ clk ∧ p.1 < clk))).map Prod.snd).sum + 64 < r.share)

/-- The X slot broadcasts (R36). -/
def broadcasts (x : Raw) : Bool := x.kind == .x && (x.op == 1 || x.op == 2)

/-- The token condition of R393. -/
def tokHolds (count : BitVec 16) (thr : Nat) : Bool := decide (0 ≤ (count - BitVec.ofNat 16 thr).toInt)

/-- The WAITS condition of an X slot, true where it has none. -/
def waitsHolds (q : SeqCore) (x : Raw) : Bool :=
  match x.kind, x.op, x.ops with
  | .x, 5, [ts, thr] => tokHolds (q.rTs ts) thr
  | _, _, _ => true

/-! ## Checks before any slot has effect (R42) -/

/-- The guard of a slot holds (R46); SEL always executes. -/
def slotActs (q : SeqCore) (r : Raw) : Bool :=
  r.kind != .scalar || r.op == 0x1F || (q.rP (r.guard % 64) != decide (64 ≤ r.guard))

/-- R67: the index of a BCAST lies in the dictionary or is the NOP bundle. -/
def bcastIdxOk (r : Rec) (x : Raw) : Bool :=
  match x.kind, x.op, x.ops with
  | .x, 1, [_, idx] => decide (idx < r.dictSize) || idx == nopIdx
  | _, _, _ => true

/-- The three control-store words of a literal (R50). -/
def State.literalAt (s : State) (pc : BitVec 18) : Nat :=
  let w := fun (k : Nat) => mapGet 0 s.cstore ((pc + BitVec.ofNat 18 k).toNat)
  w 1 * 2 ^ 256 + w 2 * 2 ^ 128 + w 3

/-- The CSRs that only a privileged context writes (R117). -/
def csrPriv (n : Nat) : Bool := n == 0x020 || n == 0x021 || n == 0x025

/-- A privileged encoding (R43). -/
def privileged (r : Raw) : Bool :=
  match r.kind, r.op, r.ops with
  | .na, 7, _ => true
  | .eng, op, _ => op == 0x3E || op == 0x3F
  | .csr, op, n :: _ => op != 0x20 && csrPriv n
  | _, _, _ => false

/-- The CSR numbers a context may read, and whether it may write them (R117). -/
def csrDefined (n : Nat) : Bool :=
  decide (n ≤ 0x006 ∨ (0x008 ≤ n ∧ n ≤ 0x00A) ∨ (0x010 ≤ n ∧ n ≤ 0x018) ∨ (0x020 ≤ n ∧ n ≤ 0x025)
    ∨ (0x030 ≤ n ∧ n ≤ 0x03F) ∨ (0x040 ≤ n ∧ n ≤ 0x043))
/-- Not read-only. -/
def csrWritable (n : Nat) : Bool := n == 0x006 || csrPriv n
/-- The CSRs of the Atelier: XSCRATCH, FRAMECNT, the queue slots (R353, R448, R451). -/
def ateCsrDefined (n : Nat) : Bool := n == 0x025 || n == 0x300 || decide (0x400 ≤ n ∧ n < 0x480)

/-- A CSR number or access that is illegal (R58). -/
def csrBad (c : Nat) (r : Raw) : Bool :=
  match r.kind, r.ops with
  | .csr, n :: _ =>
    if c = ateIdx then !ateCsrDefined n || (r.op != 0x20 && n == 0x300)
    else !csrDefined n || (r.op != 0x20 && !csrWritable n)
  | _, _ => false

/-- The tokens a word names that its procedure does not own (R112), by the entry as the dictionary now holds it. (Log entry
86: DESIGN CHOICE.) -/
def State.tokenFault (s : State) (r : Rec) (x : Raw) : Bool :=
  let mask := r.core.tokmask
  (match x.ts with | some n => !mask.getLsbD n | none => false)
  || (match x.kind, x.op, x.ops with
      | .x, 1, [_, idx] => tokenUse (r.bundleBits idx none) &&& ~~~(mask.extractLsb' 16 32) != 0
      | .x, 2, _ => tokenUse (s.literalAt r.core.pc) &&& ~~~(mask.extractLsb' 16 32) != 0
      | _, _, _ => false)

/-- A slot reads a pending register (R109). -/
def readsPending (q : SeqCore) (r : Raw) : Bool :=
  slotActs q r && r.seqReads.any (fun x => !(pendUnits x q.pend).isEmpty)

/-- The checks of R42 that need no meaning, in its order: decode checks and privilege, token ownership, under-wait. R42 does
not list the fault of an RFT outside a handler (R127): it is looked for after privilege and before ownership. (Log entry
54: DEDUCED.) -/
def State.wordChecks (s : State) (c : Nat) (r : Rec) (sl : List WSlot) : Option (Nat × FInfo) :=
  let at? := fun (p : WSlot → Bool) => sl.find? p
  let order := (sl.filter (fun w => w.slot = slNA)) ++ sl.filter (fun w => w.slot ≠ slNA)
  match order.find? (fun w => csrBad c w.raw || (c = ateIdx && (!ateSlotOk w.raw || ateBeyond r.core.pc w.raw))) with
  | some w => some (w.slot, cILLWORD, 0, noInfo)
  | none =>
    match at? (fun w => !bcastIdxOk r w.raw) with
    | some w => some (w.slot, cILLBUNDLE, 0, noInfo)
    | none =>
      match order.find? (fun w => c ≠ ateIdx && !r.priv && privileged w.raw) with
      | some w => some (w.slot, cILLWORD, 3, noInfo)
      | none =>
        match at? (fun w => w.raw.kind == .na && w.raw.op == 7 && !r.hact) with
        | some w => some (w.slot, cILLWORD, 0, noInfo)
        | none =>
          match at? (fun w => w.slot = slX && s.tokenFault r w.raw) with
          | some w => some (w.slot, cTOKOWN, 0, noInfo)
          | none =>
            if tbit r.core.sstat 8 then
              match at? (fun w => readsPending r.core w.raw) with
              | some w => some (w.slot, cUNDERWAIT, 0, noInfo)
              | none => none
            else none

/-- Runs the meanings of slots, in order, up to the first fault. Slots whose guard is false do nothing (R46). -/
def runSlots (e : SeqEnv) : List WSlot → State → Except (Nat × FInfo) (State × List SeqFx)
  | [], s => .ok (s, [])
  | w :: ws, s =>
    if slotActs e.q w.raw then
      match w.fx e s with
      | .error f => .error (w.slot, f)
      | .ok (s, fx) =>
        match runSlots e ws s with
        | .error f => .error f
        | .ok (s, fxs) => .ok (s, fx :: fxs)
    else
      match runSlots e ws s with
      | .error f => .error f
      | .ok (s, fxs) => .ok (s, {} :: fxs)

/-! ## Effects -/

/-- The units a slot's operation marks pending: its one destination register (R395). -/
def SeqFx.marks (f : SeqFx) : List (RegId × List Nat) :=
  match f.req with
  | some q => match q.dest with | some r => [(r, [0])] | none => []
  | none => []

/-- The registers after a word: results issue in slot order, the operation marks its destination, the position ends
and what is due lands (R80 to R84). -/
def SeqCore.afterWord (q : SeqCore) (fxs : List SeqFx) (op : Nat) : SeqCore :=
  let outs := standing (fxs.map (fun f => { writes := f.writes, marks := f.marks }))
  let q := outs.foldl (fun (q : SeqCore) o => o.writes.foldl SeqCore.issue q) q
  let marks := outs.flatMap SlotOut.marks
  let q := marks.foldl (fun (q : SeqCore) m =>
    { q with pend := pendMark op m.1 m.2 q.pend, fly := flyDrop m.1 m.2 q.fly }) q
  q.endPos

/-- A word takes effect: stores, registers, the other sequencer registers in the order S0, S1, X, NA (R130), the PC,
the under-wait flag, ORed in after any write of SSTAT (R109; log entry 91: DESIGN CHOICE) and annotated (R439), the
operation, then what follows. -/
def State.finishWord (s : State) (c : Nat) (fxs : List SeqFx) (npc : BitVec 18) (uw : Bool) : State :=
  let at_ := (s.rc c).core.pc
  let inn := (s.rc c).core.inn
  let s := fxs.foldl (fun (s : State) f => f.mem s) s
  let op := s.nextId
  let s := s.updSeq c (fun q => q.afterWord fxs op)
  let s := fxs.foldl (fun (s : State) f => s.updRec c f.set) s
  let s := s.updRec c (fun r => { r with core := { r.core with pc := npc }, wordcnt := r.wordcnt + 1 })
  let s := if uw then s.updRec c (fun r => { r.note (.underwait inn none) with core := { r.core with sstat := wbit r.core.sstat 0 true } }) else s
  let s := fxs.foldl (fun (s : State) f => match f.req with | some q => s.newReq c { q with pc := at_ } | none => s) s
  let s := fxs.foldl (fun (s : State) f => f.post s) s
  fxs.foldl (fun (s : State) f => f.fin s) s

/-- The effects in slot order. (Log entry 54: DEDUCED.) -/
def slotOrder : List SeqFx → List SeqFx
  | [na, s0, s1, x] => [s0, s1, x, na]
  | fs => fs

/-- Why a context cannot issue a word now, if it cannot. The Atelier goes on while the dies and the networks stand, up to VAULT
(R465). -/
def State.cannotIssue (s : State) (c : Nat) : Option String :=
  let r := s.rc c
  if ateIdx < c ∨ (c ≠ ateIdx ∧ r.slot.isNone) then some "the context is not resident"
  else if r.life ≠ .ready ∨ (s.asleep = true ∧ (c ≠ ateIdx ∨ s.power = .vault)) then some "the context cannot issue a word"
  else none

/-- A die of the context stands at a barrier. -/
def Rec.atBar (r : Rec) : Bool := r.field.dies.any (fun d => match (r.die d).hold with | some (.bar ..) => true | _ => false)

/-- What a context without credit waits for: while dies of it stand at a barrier, the release of that barrier (R18).
(Log entry 87: DEDUCED.) -/
def Rec.creditWait (r : Rec) : Wait := if r.atBar then .bar else .credit

/-- What the merge stage does with a context whose word it cannot take (R18, R36): a WAITS that does not hold, or a
broadcast without credit, leaves it WAITING; a literal in the frame holds a broadcast back. A fault that an operation
of an earlier word has met is taken first (R254). -/
def State.mergeHold (s : State) (c : Nat) (x : Raw) : Option (Host.Outcome State Fault Refusal) :=
  let r := s.rc c
  match r.seqFlag with
  | some f =>
    some (.next ((s.setRec c { r with seqFlag := none }).takeTrap c
      { code := f.code, detail := f.detail, slot := slX, die := 0xFF, xin := f.ein, info := f.info, xpc := f.xpc }))
  | none =>
    if !waitsHolds r.core x then some (.next (s.setRec c { r with life := .waiting .waits }))
    else if broadcasts x && !r.credit s.clk then some (.next (s.setRec c { r with life := .waiting r.creditWait }))
    else if broadcasts x && s.litBusy > 0 then some (.refused (.notEnabled "a literal occupies the frame"))
    else none

/-- A word with an illegal field (R42), and its X slot where that one decodes. -/
def State.illegalWord (s : State) (c slot : Nat) (x : Raw) : Host.Outcome State Fault Refusal :=
  match s.cannotIssue c with
  | some why => .refused (.notEnabled why)
  | none =>
    match s.mergeHold c x with
    | some o => o
    | none => .next (s.seqFault c slot (cILLWORD, 0, noInfo))

/-- Issues a word given as its slots S0, S1, X, NA. A context that cannot issue refuses. -/
def State.issueWord (s : State) (c : Nat) (s0 s1 x na : WSlot) : Host.Outcome State Fault Refusal :=
  let r := s.rc c
  match s.cannotIssue c with
  | some why => .refused (.notEnabled why)
  | none =>
    match s.mergeHold c x.raw with
    | some o => o
    | none =>
      match s.wordChecks c r [s0, s1, x, na] with
      | some (slot, f) => .next (s.seqFault c slot f)
      | none =>
        let e : SeqEnv := { c := c, rc := r, lit := x.raw.kind == .x && x.raw.op == 2 }
        match runSlots e [na, s0, s1, x] s with
        | .error (slot, f) => .next (s.seqFault c slot f)
        | .ok (s', fxs) =>
          let npc := (fxs.findSome? SeqFx.npc).getD e.next
          if c = ateIdx ∧ 0xFFFF < npc.toNat then .next (s.seqFault c slNA (cILLWORD, 0, noInfo))
          else .next (s'.finishWord c (slotOrder fxs) npc ([s0, s1, x, na].any (fun w => readsPending r.core w.raw)))

/-! ## An instruction executed alone -/

/-- The meaning of an empty slot. -/
def fxNone : SeqMeaning := pureFx (fun _ => {})

/-- An instruction of the sequencer executed alone: the word that holds it and nothing else, issued by the selected
context at its PC. -/
def State.issueSlot (s : State) (r : Raw) (fx : SeqMeaning) : Host.Outcome State Fault Refusal :=
  let w := wordOf r
  let slot := if r.kind = .scalar then slS0 else if r.kind = .na then slNA else slX
  if !r.legal then s.illegalWord s.sel slot (if slot = slX then .xnop else w.x)
  else
    s.issueWord s.sel ⟨w.s0, slS0, if slot = slS0 then fx else fxNone⟩ ⟨w.s1, slS1, fxNone⟩
      ⟨w.x, slX, if slot = slX then fx else fxNone⟩ ⟨w.na, slNA, if slot = slNA then fx else fxNone⟩

end Sys2Proof.Machine
end

