-- ==== Sys2Proof/Machine/Special.lean ====
section
/-! DEFINITION. The X kinds of the sequencer's own state: XNOP, K28, CSR, CTX, FEAT, WAITS, BCAST, LIT and RED (R48 to
R51, R54, R55, R58 to R60, R117, R131 to R134, R329, R330, R333). -/

namespace Sys2Proof.Machine

/-! ## CSRs (R117) -/

/-- Byte fields of a CSR image, from bit 0. -/
def bytesWord (bs : List Nat) : Word := BitVec.ofNat 64 (bs.foldr (fun b acc => b % 256 + 256 * acc) 0)

/-- A CSR as it stands at the start of the word. -/
def State.csrRead (s : State) (c n : Nat) : Word :=
  let r := s.rc c
  let q := r.core
  if c = ateIdx then
    if n = 0x025 then r.xscratch
    else if n = 0x300 then s.ate.framecnt
    else if 0x400 ≤ n then
      let x := s.qslots.getD ((n - 0x400) / 4) .reset
      match n % 4 with | 0 => x.qa | 1 => x.qb | 2 => x.qc | _ => 0
    else 0
  else
    match n with
    | 0x000 => BitVec.ofNat 64 (c + r.slot.getD 0 * 2 ^ 4 + (if r.priv then 2 ^ 6 else 0) + r.pasid.toNat * 2 ^ 12)
    | 0x001 => BitVec.ofNat 64 (q.prio.toNat + r.floor.toNat * 2 ^ 4)
    | 0x002 => bytesWord [r.field.x, r.field.y, r.field.w, r.field.h]
    | 0x003 => bytesWord [r.group.x, r.group.y, r.group.w, r.group.h]
    | 0x004 => bytesWord [r.win.v, r.win.k, r.win.tk, r.win.st, r.win.ways, r.win.acc, r.win.trk, r.win.q]
    | 0x005 => BitVec.ofNat 64 r.dictSize
    | 0x006 => q.sstat
    | 0x008 => q.inn.setWidth 64
    | 0x009 => q.pc.setWidth 64
    | 0x00A => BitVec.ofNat 64 q.stack.length
    | 0x010 => q.stageOwn.setWidth 64
    | 0x020 => r.xvec.setWidth 64
    | 0x021 => r.xpc.setWidth 64
    | 0x022 => r.xin.setWidth 64
    | 0x023 => r.xcause.setWidth 64
    | 0x024 => r.xinfo
    | 0x025 => r.xscratch
    | 0x040 => r.cycres
    | 0x041 => r.wordcnt
    | 0x042 => r.waitcyc
    | 0x043 => r.creditcyc
    | n =>
      if 0x011 ≤ n ∧ n ≤ 0x014 then
        let l := q.loop (n - 0x011)
        BitVec.ofNat 64 (l.pass.toNat * 2 ^ 32 + l.count.toNat)
      else if 0x015 ≤ n ∧ n ≤ 0x018 then
        let l := q.loop (n - 0x015)
        BitVec.ofNat 64 (l.stages.toNat * 2 ^ 20 + l.head.toNat)
      else if 0x030 ≤ n ∧ n ≤ 0x03F then (q.rTs (n - 0x030)).setWidth 64
      else 0

/-- A queue slot's register written by the Atelier (R353, R354): reserved bits read 0; KICK is only cleared, and WAITC with
it, but where the write maps the slot, which gives it both as a queue left them (R357, R490, R491); RNEXT of a slot that maps a queue belongs to the reservation and to ENQ. -/
def QSlot.write (x : QSlot) (i : Nat) (v : Word) : QSlot :=
  match i with
  | 0 =>
    let v := v &&& BitVec.ofNat 64 (2 ^ 63 + 2 ^ 62 + 7 * 2 ^ 58 + 0xFFF * 2 ^ 45 + 0xF * 2 ^ 41 + 0xFFFFF * 2 ^ 20 + 0xFFFF)
    { x with qa := if tbit v 62 && (tbit x.qa 62 || (tbit v 63 && !tbit x.qa 63)) then v else v &&& ~~~(BitVec.ofNat 64 (2 ^ 62 + 0xFFF * 2 ^ 45)) }
  | 1 => { x with qb := v &&& BitVec.ofNat 64 (0xFFFFFFFFFFFC0 + 0x1F) }
  | 2 => { x with qc := if tbit x.qa 63 then BitVec.ofNat 64 (bitsOf v 32 32 * 2 ^ 32 + bitsOf x.qc 0 32) else v }
  | _ => x

/-- The target of RIDX in the header of a slot's queue; none where its page is absent or refuses a store of the
hardware. -/
def State.ridxTarget (s : State) (x : QSlot) : Option (State × Target) :=
  let pasid := bitsOf x.qa 20 20
  let va := bitsOf x.qb 6 46 * 64 + 24
  match s.walkFor (ateIdx, none) pasid va with
  | .error _ => none
  | .ok (s, _, w, level) =>
    let t := pageTarget pasid va w level
    if (t.cls ≠ clsDRAM ∧ t.cls ≠ clsSRAMT ∧ t.cls ≠ clsHOST) ∨ !tbit w 3 then none
    else (if t.cls = clsHOST then s.atsFind pasid va else some s).map (fun s => (s, t))

/-- The Atelier's write of RIDX of a slot that maps a queue is stored to the queue header by a release at SYSTEM scope, an
access of the Atelier that its earlier ones precede (R354). Where the header's page is absent or refuses it, the store is
left out. (Log entry 83: DESIGN CHOICE.) -/
def State.storeRidx (s : State) (x : QSlot) : State :=
  match (if tbit x.qa 63 then s.ridxTarget x else none) with
  | none => s
  | some (s, t) =>
    s.newReq ateIdx { mkReq none 0 slX none none (.mem .coherent [{ lane := 0, tgt := t, n := 4, op := .store, val := bitsOf x.qc 32 32 }]) false false
                      with ord := .release, sc := .system }

/-- A write of a queue slot's register by the Atelier. -/
def State.slotWrite (s : State) (n : Nat) (v : Word) : State :=
  let i := (n - 0x400) / 4
  let x := (s.qslots.getD i .reset).write (n % 4) v
  let s := { s with qslots := s.qslots.set i x }
  if n % 4 = 2 then s.storeRidx x else s

/-- A write of a context CSR at the end of the word. -/
def Rec.csrWrite (r : Rec) (n : Nat) (v : Word) : Rec :=
  match n with
  | 0x006 => { r with core := { r.core with sstat := v &&& 0x101 } }
  | 0x020 => { r with xvec := v.setWidth 18 }
  | 0x021 => { r with xpc := v.setWidth 18, xpcWritten := true }
  | 0x025 => { r with xscratch := v }
  | _ => r

/-- The CSRs whose reads a recording context logs (R439). -/
def csrLogged (n : Nat) : Bool := decide ((0x030 ≤ n ∧ n ≤ 0x03F) ∨ (0x040 ≤ n ∧ n ≤ 0x043))

/-- A CSR read into s(d), and a write of `f old`, if any (R131). -/
def csrOp (num : Nat) (d : Option Nat) (f : Option (SeqCore → Word → Word)) : SeqMeaning := fun e s =>
  let old := s.csrRead e.c num
  let out := fun (s : State) (v : Nat) =>
    (s, ({ writes := match d with | some d => one (.s d) v 1 | none => []
           set := match f with | some f => fun r => r.csrWrite num (f e.q old) | none => id
           post := match f with
             | some f => if e.c = ateIdx ∧ 0x400 ≤ num then fun s => s.slotWrite num (f e.q old) else id
             | none => id } : SeqFx))
  if csrLogged num ∧ e.c ≠ ateIdx then
    match s.logged e.c inPROFILE e.rc.field.origin none e.q.inn.toNat e.q.pc.toNat [old.toNat] with
    | .error f => .error f
    | .ok (s, vs) => .ok (out s (vs.headD 0))
  else .ok (out s old.toNat)

def fxCsrr (num d : Nat) : SeqMeaning := csrOp num (some d) none
def fxCsrw (num a : Nat) : SeqMeaning := csrOp num none (some (fun q _ => q.rS a))
def fxCsrs (num d a : Nat) : SeqMeaning := csrOp num (some d) (some (fun q v => v ||| q.rS a))
def fxCsrc (num d a : Nat) : SeqMeaning := csrOp num (some d) (some (fun q v => v &&& ~~~(q.rS a)))

/-! ## CTX (R113, R132) -/

/-- The bits of the dies of a field. -/
def Rect.dieBits (f : Rect) : BitVec 32 := f.dies.foldl (fun m d => m ||| BitVec.ofNat 32 (2 ^ d)) 0
/-- The bits of the cells of a group. -/
def Rect.cellBits (g : Rect) : Word := g.cells.foldl (fun m l => wbit m l true) 0

def fxDmset (a : Nat) : SeqMeaning :=
  pureFx (fun e => { set := fun r => { r with core := { r.core with diemask := (e.q.rS a).setWidth 32 &&& r.field.dieBits } } })
def fxDmget (d : Nat) : SeqMeaning := pureFx (fun e => { writes := one (.s d) e.q.diemask.toNat 1 })
def fxCmset (a : Nat) : SeqMeaning :=
  pureFx (fun e => { set := fun r => { r with core := { r.core with cellmask := e.q.rS a &&& r.group.cellBits } } })
def fxCmget (d : Nat) : SeqMeaning := pureFx (fun e => { writes := one (.s d) e.q.cellmask.toNat 1 })
def fxTmand (a : Nat) : SeqMeaning :=
  pureFx (fun e => { set := fun r => { r with core := { r.core with tokmask := r.core.tokmask &&& (e.q.rS a).setWidth 48 } } })
def fxTmget (d : Nat) : SeqMeaning := pureFx (fun e => { writes := one (.s d) e.q.tokmask.toNat 1 })
def fxPrio (a : Nat) : SeqMeaning :=
  pureFx (fun e => { set := fun r =>
    { r with core := { r.core with prio := if (e.q.rS a).toNat % 8 < r.floor.toNat then r.floor else (e.q.rS a).setWidth 3 } } })

/-! ## FEAT (R133, R134) -/

/-- A feature word of this part; every other number gives 0 (R60). -/
def State.featWord (s : State) (n : Nat) : Word :=
  match n with
  | 0 => 0x0100073201074D48
  | 1 => 0x0000000000007FFF
  | 2 => 0x0410401004040820
  | 3 => BitVec.ofNat 64 (s.nRetired * 2 ^ 32 + s.retMask)
  | 4 => 0x02000020004000C0
  | 5 => 0x1010102010204040
  | 6 => 0x0400020000800200
  | 7 => 0x0024002403E805DC
  | 8 => 0x0100010001000100
  | _ => 0

def fxFeat (d n : Nat) : SeqMeaning := fun _ s => .ok (s, { writes := one (.s d) (s.featWord n).toNat 1 })

/-! ## XNOP, K28, WAITS -/

def fxXnop : SeqMeaning := fxNone
/-- K28 holds a literal for the scalar slots and has no effect of its own (R51). -/
def fxK28 (_val : Nat) : SeqMeaning := fxNone
/-- WAITS issues once its condition holds; the count drops by the threshold (R393). -/
def fxWaits (ts thr : Nat) : SeqMeaning :=
  pureFx (fun _ => { set := fun r => { r with core := r.core.wTs ts (r.core.rTs ts - BitVec.ofNat 16 thr) } })

/-! ## Broadcasts (R329, R330, R373) -/

/-- A broadcast of n bundles, and the restart-mark entry of a mark bundle, whose shadow is taken after the word. -/
def State.bcastWord (s : State) (c idx : Nat) (lit : Option Nat) (n : Nat) (wpc : BitVec 18) (isMark : Bool) : State :=
  let first := (s.rc c).core.inn
  let s := s.broadcast c idx lit n
  if isMark then
    let q := (s.rc c).core
    s.addMark c { wpc := wpc, npc := q.pc, idx := idx, count := n, kind := false, shd := q, first := first, opsTo := s.nextId }
  else s

/-- BCAST: `rep` is the repeat count minus one. -/
def fxBcast (rep idx : Nat) : SeqMeaning :=
  pureFx (fun e => { post := fun s => s.bcastWord e.c idx none (rep + 1) e.q.pc (markBit (e.rc.bundleBits idx none)) })

/-- LIT: the three words after it are the literal; its frames keep every other broadcast from the tree (R330). -/
def fxLit : SeqMeaning := fun e s =>
  let w := s.literalAt e.q.pc
  .ok (s, { post := fun s => { s.bcastWord e.c litIdx (some w) 1 e.q.pc (markBit w) with litBusy := 4 } })

/-! ## Effect words (R422, R373, R426) -/

/-- The id of the operation the word just entered. -/
def State.lastId (s : State) : Nat := s.nextId - 1

/-- The operations of the sequencer whose mark has committed are released (R426). -/
def Rec.releaseSeq (r : Rec) : Rec :=
  { r with reqs := r.reqs.map (fun q =>
      if q.org.isNone ∧ q.stage = .held ∧ 0 ≤ inDiff r.cf (q.ein - 1) then { q with stage := .out } else q) }

/-- An effect word's mark at the end of bundle IN − 1: its entry in the restart-mark map and its notice to the dies.
The operation is released at once when that mark has already committed. -/
def State.effectMark (s : State) (e : SeqEnv) : State :=
  if e.c = ateIdx then s
  else
    let m := e.q.inn - 1
    let q := (s.rc e.c).core
    let s := s.addMark e.c { wpc := e.q.pc, npc := q.pc, idx := 0, count := 1, kind := true, shd := q, first := m, opsTo := s.nextId }
    let s := s.toDies e.c (.mark m)
    s.updRec e.c Rec.releaseSeq

/-- A held operation of the sequencer: the effect of a word that exposes something to other agents. -/
def effectFx (e : SeqEnv) (q : Req) (writes : List Write) : SeqFx :=
  { writes := writes, req := some { q with stage := if e.c = ateIdx then .out else .held, gated := true }
    post := fun s => s.effectMark e }

/-! ## RED (R333 to R335) -/

/-- RED: a busy group traps; the request goes down the tree at issue, its mark counts as an effect word's. -/
def fxRed (grp op ty dc ts d : Nat) : SeqMeaning := fun e s =>
  if e.rc.redBusy.contains grp then .error (cGRPBUSY, grp, noInfo)
  else
    let dies := e.rc.field.dies.filter (fun x => e.q.diemask.getLsbD x)
    let q := mkReq none e.q.inn slX (some ts) (some (.s d)) (.red grp op ty dc e.q.inn dies [] []) false false
    .ok (s, { req := some q
              post := fun s =>
                let s := s.effectMark e
                let s := s.updRec e.c (fun r => { r with redBusy := r.redBusy ++ [grp] })
                s.toDies e.c (.red s.lastId) })

end Sys2Proof.Machine
end

