-- ==== Sys2Proof/Machine/BundleWord.lean ====
section
/-! DEFINITION. Issuing one bundle at a die (R7, R24, R63 to R65, R79 to R84, R143, R339, R402, R421, R427): every check
before any slot has effect, then the slots of each cell, then what the bundle does for the die as a whole. -/

namespace Sys2Proof.Machine

/-- What a slot's meaning may read in one cell: the record, the die and the cell as they stood at the start of the
bundle, the lanes active under the slot's guard, ascending (R7), and every slot of the bundle. -/
structure CellEnv where
  c : Nat
  d : Nat
  l : Nat
  rc : Rec
  dx : DieCtx
  y : Cell
  lanes : List Nat
  ein : BitVec 48
  slot : Nat
  raws : List Raw
  watches : Watches

/-- The cell's registers at the start of the bundle. -/
def CellEnv.q (e : CellEnv) : CellCore := e.y.core

/-- The cell as an agent. -/
def CellEnv.agent (e : CellEnv) : Agent := (e.c, some (e.d, e.l))

/-- What one slot does in one cell: fixed-latency results, the units its operation marks pending, a control-page write
(which lands first, R140), changes at the end of the bundle (given the id of its operation), the result of a
control-page load, a long-latency operation. -/
structure CellFx where
  writes : List Write := []
  marks : List (RegId × List Nat) := []
  ctl : CellCore → CellCore := id
  set : Nat → Cell → Cell := fun _ y => y
  late : List Write := []
  req : Option Req := none

/-- What a slot's meaning may read for the die: whether its DIEMASK bit is set, the active cells of the bundle with the
lanes its guard leaves active. -/
structure GroupEnv where
  c : Nat
  d : Nat
  on : Bool
  rc : Rec
  dx : DieCtx
  cells : List (Nat × List Nat)
  ein : BitVec 48

/-- The meaning of a bundle slot: in each cell where it acts; whether it reads an empty scratch line there (R242); whether it
holds issue; a fault and an effect it has once for the die; what the die waits for after it; the positions it takes. -/
structure SlotMeaning where
  cell : CellEnv → State → Except FInfo (State × CellFx) := fun _ s => .ok (s, {})
  empty : CellEnv → State → Bool := fun _ _ => false
  hold : GroupEnv → State → Option Hold := fun _ _ => none
  pre : GroupEnv → State → Option FInfo := fun _ _ => none
  group : GroupEnv → State → State := fun _ s => s
  after : GroupEnv → Option Hold := fun _ => none
  positions : Nat := 1

/-- A slot of a bundle. -/
structure BSlot where
  raw : Raw
  no : Nat
  fx : SlotMeaning

/-! ## Active cells and lanes (R7) -/

/-- The cells of a group that a bundle reaches on a die, ascending. -/
def activeCells (r : Rec) (d : Nat) (diemask : BitVec 32) (cellmask : Word) : List Nat :=
  if diemask.getLsbD d then (List.range 64).filter (fun l => tbit cellmask l && r.group.cells.contains l) else []

/-- The lanes a guard leaves active: the mask of the guard field, negated by its bit 6. -/
def guardLanes (q : CellCore) (g : Nat) : List Nat :=
  let m := q.rK (g % 64)
  (List.range 64).filter (fun i => tbit m i != decide (64 ≤ g))

/-! ## Decode checks (R63) -/

/-- An operand lies in the windows of a context (R24). -/
def inWindow (w : Windows) (u : Use × Nat) : Bool :=
  match u.1 with
  | .kg => decide (u.2 % 64 < 8 * w.k)
  | .vR | .vW | .vRW | .vX => decide (u.2 < 8 * w.v)
  | .vW2 => decide (u.2 + 1 < 8 * w.v)
  | .vW3 => decide (u.2 + 2 < 8 * w.v)
  | .kR | .kW => decide (u.2 < 8 * w.k)
  | .tkU => decide (u.2 < 4 * w.tk)
  | .stU => decide (u.2 < 2 * w.st)
  | _ => true

/-- PERM, XMIT, RECV or CSHUF. -/
def isTransfer (r : Raw) : Bool := r.kind == .xf && decide (1 ≤ r.op ∧ r.op ≤ 4)

/-- The superstep and pattern checks (R339, R340, R376) and the bound of RESIZE (R241). -/
def slotIllegal (r : Rec) (dx : DieCtx) (opens : Bool) (x : Raw) : Bool :=
  !(x.uses.all (inWindow r.win))
  || (x.kind == .ct && x.op == 9 && dx.phaseOpen)
  || (x.kind == .ct && x.op == 10 && !dx.phaseOpen)
  || (isTransfer x && ((!dx.phaseOpen && !opens) || decide (256 ≤ (if opens then 0 else dx.xfers))
        || !tbit (if x.op = 4 then r.cellsValid else r.routesValid) (if x.op = 1 ∨ x.op = 4 then x.ops.getD 3 0
            else if x.op = 2 then x.ops.getD 3 0 else x.ops.getD 2 0)))
  || (x.kind == .ls && x.op == 0x28 && decide (r.win.ways < x.ops.getD 2 0))

/-- The decode checks of a bundle that need the context. -/
def bundleIllegal (r : Rec) (dx : DieCtx) (rs : List Raw) : Bool :=
  rs.any (slotIllegal r dx (rs.any (fun x => x.kind == .ct && x.op == 9)))

/-! ## Pending registers (R143) -/

/-- The scale lanes that DQBFP reads: lane B·b for the block b of every active lane, whether active or not (R191). -/
def scaleLanes (r : Raw) (lanes : List Nat) : List Nat :=
  let B := if r.ops.getD 1 0 = 1 then 32 else 16
  (lanes.map (fun i => B * (i / B))).eraseDups

/-- What STV reads of the register beside its own: the scale lanes of the blocks it writes (R200). -/
def stvScales (q : CellCore) (r : Raw) (lanes : List Nat) : List (RegId × List Nat) :=
  let D := q.desc (r.ops.getD 2 0)
  if r.kind == .ls && r.op == 2 && dBfp D then [(RegId.v (r.ops.getD 1 0 + 1), (transferItems D lanes true).map Prod.fst)] else []

/-- The units of cell registers a slot reads with some lanes active. A slot that does not act reads nothing; VSHF,
VROT and XFROMV read across lanes; PERM and CSHUF send every lane; a stream is read by whatever names it (R204). -/
def cellReads (q : CellCore) (r : Raw) (lanes : List Nat) : List (RegId × List Nat) :=
  if lanes.isEmpty then []
  else
    stvScales q r lanes ++ r.uses.flatMap (fun u =>
      match u.1 with
      | .xR | .xRW => [(RegId.x u.2, [0])]
      | .xR2 => (regSpan u.2 2).map (fun n => (RegId.x n, [0]))
      | .xR8 => (regSpan u.2 8).map (fun n => (RegId.x n, [0]))
      | .xd8 => (regSpan (8 * u.2) 8).map (fun n => (RegId.x n, [0]))
      | .vR | .vRW => [(RegId.v u.2, if r.kind == .xf && (r.op == 1 || r.op == 4) then List.range 64 else lanes)]
      | .vX =>
        let n := r.ops.getD 3 0
        if r.kind == .v && r.op == 0x1D then [(RegId.v u.2, lanes.map (fun i => (q.rV n i).toNat % 64))]
        else if r.kind == .v && r.op == 0x1E then [(RegId.v u.2, lanes.map (fun i => (i + n) % 64))]
        else if r.kind == .v && r.op == 0x52 then [(RegId.v u.2, [n])]
        else if r.kind == .conv && r.op == 0x68 then [(RegId.v u.2, scaleLanes r lanes)]
        else [(RegId.v u.2, lanes)]
      | .hR => [(RegId.h u.2, [0])]
      | .stU => [(RegId.st u.2, regSpan 0 8)]
      | _ => [])

/-- Rows and columns of a tile (R73). -/
def tileRows (ops : Nat) : Nat := 32 * 2 ^ (fld ops 39 2)
def tileCols (ops : Nat) : Nat := 16 * fld ops 33 6
def tileBase (ops : Nat) : Nat := 1024 * fld ops 41 7
/-- The entry lies in the tile. -/
def inTile (ops e : Nat) : Bool := decide (tileBase ops ≤ e ∧ e < tileBase ops + tileRows ops * tileCols ops)

/-- The accumulator entry is pending (R209): a macro-operation whose tile holds it has not posted, and no ACCWR issued
after it has written the entry. -/
def Rec.accPending (r : Rec) (d l : Nat) (q : CellCore) (e : Nat) : Bool :=
  r.reqs.any (fun x => x.org == some (d, l) && (match x.body with
    | .macro_ _ ops skip => inTile ops e && !(skip.any (fun p => p.1 == e))
        && !(q.accw.any (fun w => w.2.1 == e && decide (0 < inDiff (BitVec.ofNat 48 w.1) x.ein)))
    | _ => false))

/-- A slot reads a pending unit in a cell. -/
def cellReadsPending (c : Rec) (d l : Nat) (q : CellCore) (r : Raw) (lanes : List Nat) : Bool :=
  (cellReads q r lanes).any (fun x => x.2.any (fun u => (pendUnits x.1 q.pend).contains u))
  || (r.kind == .mx && r.op == 5 && lanes.any (fun i => c.accPending d l q (1024 * r.ops.getD 1 0 + 64 * r.ops.getD 3 0 + i)))

/-- A slot of V1 that takes an entry of the random-bit queue (R177): VRNG, or a conversion that rounds under SR. -/
def popsEntry (r : Raw) : Bool :=
  r.kind == .conv && (r.op == 0x6A || ([0x60, 0x61, 0x62, 0x67, 0x69].contains r.op && r.ops.getD 1 0 == 4))

/-! ## Running the slots -/

/-- A long-latency operation of an LS, XF or MX slot posts its token even where no lane is active (R64). -/
def postsAnyway (r : Raw) : Option Nat := if r.kind == .ct then none else r.tk

/-- What a slot with no active lane does in a cell. -/
def idleFx (d l : Nat) (ein : BitVec 48) (no : Nat) (r : Raw) : CellFx :=
  match postsAnyway r with
  | some tk => { req := some (mkReq (some (d, l)) ein no (some tk) none (.vals []) false false) }
  | none => {}

/-- LDV and STV move the cursor in every active cell, whatever their guard leaves active (R200). (Log entry 74: DEDUCED.) -/
def movesCursor (r : Raw) : Bool := r.kind == .ls && (r.op == 1 || r.op == 2)

/-- The environment of a slot in a cell. -/
def cellEnv (s : State) (c d : Nat) (r : Rec) (dx : DieCtx) (ein : BitVec 48) (l : Nat) (b : BSlot) (raws : List Raw) : CellEnv :=
  let y := (s.dctx c d).cell l
  { c := c, d := d, l := l, rc := r, dx := dx, y := y, lanes := guardLanes y.core b.raw.guard, ein := ein, slot := b.no, raws := raws
    watches := s.watches c d }

/-- One slot in the active cells, ascending. -/
def runCells (c d : Nat) (r : Rec) (dx : DieCtx) (ein : BitVec 48) (raws : List Raw) (b : BSlot) :
    List Nat → State → Except FInfo (State × List (Nat × CellFx))
  | [], s => .ok (s, [])
  | l :: ls, s =>
    let e := cellEnv s c d r dx ein l b raws
    match (if e.lanes.isEmpty && !movesCursor b.raw then .ok (s, idleFx d l ein b.no b.raw) else b.fx.cell e s) with
    | .error f => .error f
    | .ok (s, fx) =>
      match runCells c d r dx ein raws b ls s with
      | .error f => .error f
      | .ok (s, fxs) => .ok (s, (l, fx) :: fxs)

/-- The slots in the order V0 to CT, up to the first fault (R421). -/
def runBundle (c d : Nat) (r : Rec) (dx : DieCtx) (ein : BitVec 48) (raws : List Raw) (cells : List Nat) :
    List BSlot → State → Except FInfo (State × List (List (Nat × CellFx)))
  | [], s => .ok (s, [])
  | b :: bs, s =>
    match runCells c d r dx ein raws b cells s with
    | .error f => .error f
    | .ok (s, fx) =>
      match runBundle c d r dx ein raws cells bs s with
      | .error f => .error f
      | .ok (s, fxs) => .ok (s, fx :: fxs)

/-! ## Effects -/

/-- Stands for the operation of an XF command until the bundle's operations have their ids. -/
def cmdUnclaimed : Nat := 2 ^ 64

/-- The ids of the operations of one cell's slots, from `id` on. -/
def giveIds : Nat → List CellFx → List (Option Nat)
  | _, [] => []
  | id, f :: fs => match f.req with | some _ => some id :: giveIds (id + 1) fs | none => none :: giveIds id fs

/-- The result of a control-page load, while its mark stands (R140). -/
def CellCore.later (q : CellCore) (id : Nat) (ws : List Write) : CellCore :=
  { q with fly := q.fly ++ (ws.filter (fun w => !(pendLive id w.reg q.pend).isEmpty)).map (fun w =>
      { reg := w.reg, vals := w.vals, flags := w.flags, ein := w.ein, rest := w.lat - 1, op := some id }) }

/-- A cell after a bundle: results issue in slot order, operations mark what no later slot writes, a control-page
write lands, the position ends, under-wait is flagged, an entry of random bits is popped, the other changes follow. -/
def Cell.afterBundle (y : Cell) (fxs : List CellFx) (id : Nat) (uw pop : Bool) : Cell :=
  let ids := giveIds id fxs
  let outs := standing (fxs.map (fun f => { writes := f.writes, marks := f.marks }))
  let q := outs.foldl (fun (q : CellCore) o => o.writes.foldl CellCore.issue q) y.core
  let ops := (outs.zip ids).flatMap (fun (p : SlotOut × Option Nat) =>
    match p.2 with | some i => p.1.marks.map (fun m => (i, m)) | none => [])
  let q := ops.foldl (fun (q : CellCore) p =>
    { q with pend := pendMark p.1 p.2.1 p.2.2 q.pend, fly := flyDrop p.2.1 p.2.2 q.fly }) q
  let q := (fxs.zip ids).foldl (fun (q : CellCore) p => match p.2 with | some i => q.later i p.1.late | none => q) q
  let q := fxs.foldl (fun (q : CellCore) f => f.ctl q) q
  let q := q.endPos
  let q := if uw then q.orCst 0x100 else q
  let q := if pop then { q with rbTaken := q.rbTaken + 1 } else q
  (fxs.zip ids).foldl (fun (y : Cell) p => p.1.set (p.2.getD 0) y) { y with core := q }

/-- The operation of an XF command takes over the entry its command has been given in an engine's queue (R426). -/
def State.claimCmd (s : State) (c : Nat) (q : Req) : State :=
  match q.org, q.body with
  | some (d, _), .cmd _ =>
    let f := fun (y : Engine) => { y with queue := y.queue.map (fun m =>
      if m.c = c ∧ m.org = q.org ∧ m.req = cmdUnclaimed then { m with req := s.nextId } else m) }
    s.updPdie d (fun x => { x with copy0 := f x.copy0, copy1 := f x.copy1, copy2 := f x.copy2, copy3 := f x.copy3
                                   pge := f x.pge, kiln := f x.kiln })
  | _, _ => s

/-- The A-marked loads that `hit` picks lose the data read for them and are issued again, and that is counted (R33, R410). -/
def DieCtx.reissue (x : DieCtx) (hit : Ahead → Bool) : DieCtx :=
  if x.ahead.any hit then
    { x with ahead := x.ahead.map (fun a => if hit a then { a with done := false } else a)
             sc := mapSet 0 x.sc 9 (mapGet 0 x.sc 9 + BitVec.ofNat 64 (x.ahead.filter hit).length) }
  else x

/-- Registers of cell l are written in bundle `ein`: loads of later bundles that used one as an address operand (R33). -/
def DieCtx.overtaken (x : DieCtx) (ein : BitVec 48) (l : Nat) (regs : List RegId) : DieCtx :=
  x.reissue (fun a => a.cell == l && a.ein != ein && a.regs.any regs.contains)

/-- The registers that land in a cell at the end of its position. -/
def Cell.landing (y : Cell) : List RegId := ((flyNow y.core.fly).filter (fun f => !f.vals.isEmpty)).map Fly.reg

/-- The registers that a bundle's own results land in at its end. -/
def landingNow (fxs : List CellFx) : List RegId :=
  fxs.flatMap (fun f => (f.writes.filter (fun w => decide (w.lat ≤ 1) && !w.vals.isEmpty)).map Write.reg)

/-- A bundle that read a pending unit or an empty line in a cell is annotated (R439). -/
def State.noteUnderwait (s : State) (c d l : Nat) (ein : BitVec 48) (uw : Bool) : State :=
  if uw then s.updRec c (fun r => r.note (.underwait ein (some (d, l)))) else s

/-- What a bundle does in one cell: its registers after it, and the operations it enters. -/
def State.cellActs (s : State) (c d l : Nat) (fxs : List CellFx) (uw pop : Bool) : State :=
  let id := s.nextId
  let s := s.updCell c d l (fun y => y.afterBundle fxs id uw pop)
  fxs.foldl (fun (s : State) f => match f.req with | some q => (s.claimCmd c q).newReq c q | none => s) s

/-- The effects of a bundle in one cell, among them those on the loads read ahead of it, and an annotation. -/
def State.cellEffects (s : State) (c d l : Nat) (ein : BitVec 48) (fxs : List CellFx) (uw em pop : Bool) : State :=
  ((s.updDctx c d (fun x => x.overtaken ein l ((x.cell l).landing ++ landingNow fxs))).noteUnderwait c d l ein (uw || em)).cellActs c d l fxs uw pop

/-- A position passes in the cells that `idle` names. -/
def DieCtx.passCells (x : DieCtx) (ein : BitVec 48) (idle : Nat → Bool) : DieCtx :=
  let x := x.cells.foldl (fun (x : DieCtx) p => if idle p.1 then x.overtaken ein p.1 p.2.landing else x) x
  { x with cells := x.cells.map (fun p => if idle p.1 then (p.1, { p.2 with core := p.2.core.endPos }) else p) }

/-- Cells of the group that the bundle does not reach only pass the position. -/
def State.idleCells (s : State) (c d : Nat) (ein : BitVec 48) (active : List Nat) : State :=
  s.updDctx c d (fun x => x.passCells ein (fun l => !active.contains l))

/-- What the slots of a bundle do to one cell: the effects listed for it. -/
def effectsOf (fxs : List (List (Nat × CellFx))) (l : Nat) : List CellFx :=
  fxs.flatMap (fun fs => (fs.filter (fun p => p.1 = l)).map Prod.snd)

/-! ## The die -/

/-- A die flags a fault of the bundle it was about to execute, and stops (R421, R428). -/
def State.dieFault (s : State) (c d : Nat) (ein : BitVec 48) (f : FInfo) : State :=
  s.updDctx c d (fun x => 
    { x with flag := some { code := f.1, detail := f.2.1, info := f.2.2, ein := ein, at_ := ein, noRollback := false, die := d, xpc := 0 } })

/-- An STX slot reaches the control page in every cell where it acts (R139, R427). -/
def State.stxControl (s : State) (c d : Nat) (cells : List Nat) (x : Raw) : Bool :=
  let acting := cells.filter (fun l => !(guardLanes (s.cell c d l).core x.guard).isEmpty)
  !acting.isEmpty && acting.all (fun l =>
    inCtlPage (addSext ((s.cell c d l).core.rX (x.ops.getD 2 0)) (x.ops.getD 5 0) 12).toNat)

/-- The gated stores of a bundle for the count of R427. An STX that reaches the control page in every cell where it
acts is none. -/
def gatedCount (s : State) (c d : Nat) (cells : List Nat) (rs : List Raw) : Nat :=
  (rs.filter (fun x => gatedOp x.kind x.op && !(x.kind == .ls && x.op == 8 && s.stxControl c d cells x))).length

/-- The environment of a slot for the die. -/
def groupEnv (s : State) (c d : Nat) (r : Rec) (dx : DieCtx) (ein : BitVec 48) (on : Bool) (cells : List Nat) (b : BSlot) : GroupEnv :=
  { c := c, d := d, on := on, rc := r, dx := dx, ein := ein
    cells := cells.map (fun l => (l, guardLanes (s.cell c d l).core b.raw.guard)) }

/-- An engine command: its traffic lies outside the request tracker (R342), and it runs on while its context is saved
(R434). -/
def Req.isCmd (q : Req) : Bool := match q.body with | .cmd _ => true | _ => false
/-- The slot issues an engine command. -/
def issuesCmd (r : Raw) : Bool := r.kind == .xf && decide (5 ≤ r.op)

/-- Entries that the ACCWRs of a cell hold, and those of its request tracker and of its gated store buffer in use (R426). -/
def Rec.accwHeld (r : Rec) (d l : Nat) : Nat :=
  let q := ((r.die d).cell l).core
  ((q.accw.map (fun w => w.1)) ++ ((q.fly.filter (fun f => f.reg == .acc)).map (fun f => f.ein))).eraseDups.length
def Rec.tracked (r : Rec) (d l : Nat) : Nat := (r.reqs.filter (fun q => q.org == some (d, l) && !q.isCmd)).length + r.accwHeld d l
def Rec.gatedHeld (r : Rec) (d l : Nat) : Nat :=
  (r.reqs.filter (fun q => q.org == some (d, l) && q.gated && q.stage == .held)).length + r.accwHeld d l

/-- Entries of the request tracker that A-marked loads of other bundles hold (R32). -/
def DieCtx.aheadHeld (x : DieCtx) (l : Nat) (ein : BitVec 48) : Nat := (x.ahead.filter (fun a => a.cell == l && a.ein != ein)).length

/-- The slot is a gated store in cell l; an STX that acts on the control page there is none (R140, R426). -/
def gatedIn (y : Cell) (x : Raw) : Bool :=
  gatedOp x.kind x.op && !(x.kind == .ls && x.op == 8
    && inCtlPage (addSext (y.core.rX (x.ops.getD 2 0)) (x.ops.getD 5 0) 12).toNat)

/-- The tracker and the store buffer of every active cell have room for the bundle (R25, R426). -/
def roomFor (r : Rec) (d : Nat) (ein : BitVec 48) (cells : List Nat) (rs : List Raw) : Bool :=
  let n := (rs.filter (fun x => ((postsAnyway x).isSome || gatedOp x.kind x.op) && !issuesCmd x)).length
  cells.all (fun l =>
    let g := (rs.filter (gatedIn ((r.die d).cell l))).length
    decide (r.tracked d l + (r.die d).aheadHeld l ein + n ≤ 64 * r.win.trk ∨ n = 0) && decide (r.gatedHeld d l + g ≤ 128 ∨ g = 0))

/-- A macro-operation (R207). -/
def isMacro (r : Raw) : Bool := r.kind == .mx && (r.op == 1 || r.op == 2 || r.op == 3 || r.op == 4 || r.op == 7)

/-- The matrix queue of every cell that would issue a macro-operation has a free entry (R207). -/
def State.mxRoom (s : State) (c d : Nat) (cells : List Nat) (rs : List Raw) : Bool :=
  rs.all (fun x => !isMacro x || cells.all (fun l =>
    let y := s.cell c d l
    (guardLanes y.core x.guard).isEmpty || decide (y.core.mxq.length + (if y.run.isSome then 1 else 0) < 8)))

/-- The bundle's marks and counts once it has issued, and the positions it still takes (R404, R422, R427). What the access
stream had not issued of its loads, it has issued in this step, at the execute point (R32, R35). -/
def DieCtx.issued (x : DieCtx) (ein : BitVec 48) (isMark : Bool) (stores positions : Nat) (after : Option Hold) : DieCtx :=
  let marked := isMark || x.markAsk.contains ein
  { x with e := ein + 1, dly := positions - 1, dlyMark := marked && decide (1 < positions)
           atMark := if marked && positions == 1 then some ein else x.atMark
           markAsk := x.markAsk.filter (fun m => m != ein)
           sinceMark := if marked then 0 else x.sinceMark + 1, sinceStores := if marked then 0 else x.sinceStores + stores
           hold := after, suppress := if x.suppress == some ein then none else x.suppress
           ahead := x.ahead.filter (fun a => a.ein != ein)
           access := if inDiff x.access ein ≤ 0 then ein + 1 else x.access }

/-- The slot is an A-marked load (R31). -/
def isMarkedLoad (r : Raw) : Bool :=
  r.kind == .ls && [0x01, 0x03, 0x05, 0x07, 0x30, 0x32, 0x34].contains r.op && r.ops.getD 1 0 == 1

/-- A coherent access (R305). -/
def Body.coherent : Body → Bool
  | .mem .coherent _ | .take _ | .pin _ | .unpin _ => true
  | _ => false

end Sys2Proof.Machine
end

