-- ==== Sys2Proof/Machine/Near.lean ====
section
/-! DEFINITION. The near store as a cell sees it (R237 to R242): the scratch ways with their full/empty bits, the cache
of GATHER and SCATTER, and the cell's own stores that are not performed yet, which it sees in program order (R240,
R426). -/

namespace Sys2Proof.Machine

/-- The class a scratch access carries in its target; it is no page class. -/
def clsNEAR : Nat := 8

/-- The scratch size of a cell at the start of a bundle (R238). -/
def CellEnv.scratch (e : CellEnv) : Nat := (e.rc.win.ways - e.q.cways) * 65536

/-- A scratch target. -/
def nearTarget (c d l a : Nat) : Target := { key := nearKey c d l + a, cls := clsNEAR, va := a, ref := none }

/-! ## The cell's own stores -/

/-- The operations of a cell that come before operation `before` in program order and are not performed. -/
def Rec.ownBefore (r : Rec) (d l before : Nat) : List Req :=
  r.reqs.filter (fun q => q.org == some (d, l) && decide (q.id < before) && q.stage != .performed)

/-- The bytes an operation will write at its homes. -/
def State.storeBytes (s : State) (pasid : Nat) (q : Req) : List Host.Cell :=
  match q.body with
  | .mem _ ps => ps.flatMap (fun p =>
      if p.op = .store then
        let k := s.writeKey (s.reroute pasid p.tgt)
        (List.range p.n).map (fun i => (k + i, BitVec.ofNat 8 (p.val / 256 ^ i)))
      else [])
  | _ => []

/-- The last write of a byte in a list of cells. -/
def lastWrite (k : Nat) (cs : List Host.Cell) : Option (BitVec 8) := (cs.reverse.find? (fun c => c.1 = k)).map Prod.snd

/-- A value of n bytes from a key with later bytes laid over it. -/
def overlay (v k n : Nat) (cs : List Host.Cell) : Nat :=
  ((List.range n).map (fun i =>
    (match lastWrite (k + i) cs with | some b => b.toNat | none => v / 256 ^ i % 256) * 256 ^ i)).sum

/-! ## The cache of GATHER and SCATTER (R239) -/

/-- Classes the cache holds. -/
def cacheable (cls : Nat) : Bool := cls == clsDRAM || cls == clsSRAMT || cls == clsHOST

/-- Writes a line's own bytes back and drops it from the cell. -/
def State.dropLine (s : State) (c d l line : Nat) : State :=
  match mapFind (s.cell c d l).lines line with
  | none => s
  | some x => (s.pokeCells x.wr).updCell c d l (fun y => { y with lines := y.lines.filter (fun p => p.1 ≠ line) })

/-- Another access of the cell reaches a line of the cache: it is written back if it is dirty, and leaves the cache clean or
dirty, so that a later GATHER finds what that access leaves (R240). (Log entry 24: DESIGN CHOICE.) -/
def State.writeBack (s : State) (c d l line : Nat) : State := s.dropLine c d l line

/-- A line whose bytes have been written back: what was filled stays, with those bytes; a line that SCATTER allocated holds
nothing else. (Log entry 24: DESIGN CHOICE.) -/
def NsLine.cleaned (line : Nat) (x : NsLine) : Option NsLine :=
  if x.fill.isEmpty then none
  else some { fill := x.fill.zipIdx.map (fun p => (lastWrite (line * 128 + p.2) x.wr).getD p.1), wr := [] }

/-- The bytes that a cell's cache has yet to write back. -/
def Cell.dirty (y : Cell) : List Host.Cell := y.lines.flatMap (fun p => p.2.wr)

/-- A release writes back every dirty line (R239). -/
def State.cleanNear (s : State) (c d l : Nat) : State :=
  (s.pokeCells (s.cell c d l).dirty).updCell c d l (fun y =>
    { y with lines := y.lines.filterMap (fun p => (p.2.cleaned p.1).map (fun x => (p.1, x))) })

/-- Writes back every dirty line and invalidates the cache. -/
def State.flushNear (s : State) (c d l : Nat) : State :=
  (s.pokeCells (s.cell c d l).dirty).updCell c d l (fun y => { y with lines := [] })

/-- Any other access of the cell first writes back a dirty line of its address (R240). -/
def State.writeBackAt (s : State) (c d l k n : Nat) : State :=
  (List.range ((k + n - 1) / 128 + 1 - k / 128)).foldl (fun (s : State) i => s.writeBack c d l (k / 128 + i)) s

/-- An engine writes a line for the cell: what the cell's cache was filled with of it is stale for every access that comes
after the command's posting has been seen (R318). Bytes the cell has written since are its own, and stay. -/
def State.staleNear (s : State) (c d l line : Nat) : State :=
  s.updCell c d l (fun y => { y with lines := y.lines.filterMap (fun p =>
    if p.1 = line then (if p.2.wr.isEmpty then none else some (p.1, { p.2 with fill := [] })) else some p) })

/-- A line that is to be allocated in a full set, of CWAYS lines, evicts another, which is written back. Which set a line
belongs to and which line of a full set goes are free (R239, log entry 24). -/
def State.makeRoom (s : State) (c d l line : Nat) : State :=
  let y := s.cell c d l
  let same := y.lines.filter (fun p => Config.nearSet p.1 % 512 == Config.nearSet line % 512)
  if (mapFind y.lines line).isSome ∨ same.length < y.core.cways then s
  else
    let i := s.freeCtr
    let s := { s with freeCtr := i + 1 }
    match same[Config.nearVictim i % same.length]? with
    | some p => s.dropLine c d l p.1
    | none => s

/-- A read of 4 bytes through the cache: a miss fills the line from the L2. None at an uncorrectable error. -/
def State.gatherRead (s : State) (c d l k : Nat) (again : Bool) : State × Option Nat :=
  let line := k / 128
  let x := (mapFind (s.cell c d l).lines line).getD { fill := [], wr := [] }
  let filled := !x.fill.isEmpty
  if !filled && s.bad k then (s, none)
  else
    let s := if filled then s else s.makeRoom c d l line
    let fill := if filled then x.fill else memBytes s.mem (line * 128) 128
    let s := if filled then s else s.noteRead k 0 false again
    let s := s.updCell c d l (fun y => { y with lines := mapPut y.lines line { x with fill := fill } })
    let v := ((List.range 4).map (fun i => (fill.getD (k % 128 + i) 0).toNat * 256 ^ i)).sum
    (s, some (overlay v k 4 x.wr))

/-- A write of 4 bytes through the cache: a miss allocates the line without reading it. -/
def State.gatherWrite (s : State) (c d l k v : Nat) : State :=
  let line := k / 128
  (s.makeRoom c d l line).updCell c d l (fun y =>
    let x := (mapFind y.lines line).getD { fill := [], wr := [] }
    { y with lines := mapPut y.lines line { x with wr := x.wr ++ (List.range 4).map (fun i => (k + i, BitVec.ofNat 8 (v / 256 ^ i))) } })

/-! ## Full and empty lines (R242) -/

/-- A line's bit set. -/
def setLine (full : Bool) (line : Nat) (empty : List Nat) : List Nat :=
  if full then empty.filter (fun x => x ≠ line) else if empty.contains line then empty else empty ++ [line]

/-! ## Order (R307, R312, R316) -/

/-- The operation acquires, or releases. -/
def Req.acquires (q : Req) : Bool := q.ord == .acquire || q.ord == .acqRel
def Req.releases (q : Req) : Bool := q.ord == .release || q.ord == .acqRel

/-- The operation is a fence. -/
def Req.isFence (q : Req) : Bool := match q.body with | .fence _ => true | _ => false

/-- The operation is an acquire whose steps are not performed yet: an acquiring access, or a fence whose acquire half is
not performed (R260). -/
def Req.acquiring (q : Req) : Bool := q.acquires && (match q.body with | .fence done => !done | _ => true)

/-- The operation reads memory. -/
def Req.reads (q : Req) : Bool :=
  match q.body with
  | .mem _ ps => ps.any (fun p => p.op != .store)
  | .stload .. | .ldv .. | .take _ | .pin _ => true
  | _ => false

/-- An acquire of the cell that comes before operation `before` and is not performed (R307, R316). -/
def Rec.acquireWaits (r : Rec) (d l before : Nat) : Bool := (r.ownBefore d l before).any Req.acquiring

/-- The acquire steps of a cell at a scope (R316): fetched items are dropped, to be fetched again; at scope DIE or wider
the near-store cache is written back and invalidated. -/
def State.acquireSteps (s : State) (c d l : Nat) (sc : Scope) : State :=
  let s := s.updCell c d l (fun y => { y with items := y.items.map (fun i => { i with vals := [], fault := none, empty := false }) })
  if sc = .cell then s else s.flushNear c d l

/-! ## Reads and writes of a cell -/

/-- A read of n bytes by a cell, laid over with its own earlier stores that are not performed. None at an
uncorrectable error. -/
def State.cellRead (s : State) (c d l before : Nat) (path : Path) (t : Target) (n uc : Nat) (disc again : Bool) : State × Option Nat :=
  let pasid := (s.rc c).pasid.toNat
  let own := ((s.rc c).ownBefore d l before).flatMap (fun q => s.storeBytes pasid q)
  let t := s.reroute pasid t
  if path = .gather ∧ cacheable t.cls then
    match s.gatherRead c d l t.key again with
    | (s, none) => (s, none)
    | (s, some v) => (s, some (overlay v t.key n own))
  else
    let k := s.readKey t
    let s := s.writeBackAt c d l k n
    match s.readT pasid t n uc disc again with
    | (s, none) => (s, none)
    | (s, some v) => (s, some (overlay v k n own))

/-- A write of n bytes by a cell. -/
def State.cellWrite (s : State) (c d l : Nat) (path : Path) (t : Target) (n v : Nat) : State :=
  let pasid := (s.rc c).pasid.toNat
  let t := s.reroute pasid t
  match path with
  | .gather => if cacheable t.cls then s.gatherWrite c d l t.key v else s.writeT pasid t n v
  | .scratch => (s.writeT pasid t n v).updCell c d l (fun y => { y with empty := setLine true (t.va / 128) y.empty })
  | .stream (some (uc, disc)) => ((s.writeBackAt c d l t.key n).l2Store (s.writeKey t) uc disc).writeT pasid t n v
  | _ => ((s.writeBackAt c d l t.key n).l2Write (s.writeKey t) 0 false).writeT pasid t n v

/-! ## Watchpoints (R442, R443) -/

/-- The lowest byte of [va, va + n) that a watchpoint of a die matches. `sel` picks watchpoints by their control word. -/
def Watches.hit (x : Watches) (sel : Word → Bool) (va n : Nat) : Option Nat :=
  (List.range n).findSome? (fun i =>
    let b := va + i
    if (List.range 4).any (fun j =>
        let base := bitsOf (x.wbase.getD j 0) 0 52
        let ctl := x.wctl.getD j 0
        tbit ctl 63 && sel ctl && decide (base ≤ b ∧ b < base + bitsOf ctl 0 12 + 1) && tbit ctl (16 + b % 8))
    then some b else none)

/-- The WATCH fault of a cell's stores, given as (address, bytes): the lowest matching address (R443).
(Log entry 64: DEDUCED.) -/
def CellEnv.watch (e : CellEnv) (as : List (Nat × Nat)) : Option FInfo :=
  if e.dx.suppress = some e.ein then none
  else
    match as.filterMap (fun a => e.watches.hit (fun _ => true) a.1 a.2) with
    | [] => none
    | b :: bs => some (cWATCH, 0, bs.foldl min b)

/-- An event handled by a freeze without rollback, at the die that reports it (R432, R443, R494). -/
def State.event (s : State) (c d : Nat) (code detail info : Nat) (ein : BitVec 48) (die : Nat) : State :=
  s.updDctx c d (fun x => { x with fevents := x.fevents ++
    [{ code := code, detail := detail, info := info, ein := ein, at_ := ein, noRollback := true, die := die, xpc := 0 }] })

/-- An atomic of a requester on die `own`, 32 for the sequencer, on n bytes is performed at a home of another die: where a
watchpoint there matches, the home reports it, with the die `die` (R443). -/
def State.remoteMatch (s : State) (c own die : Nat) (ein : BitVec 48) (key va n : Nat) : State :=
  let home := key / 2 ^ 48
  if !isDieKey key ∨ home = own then s
  else
    match (s.watches c home).hit (fun w => tbit w 61) va n with
    | some _ => s.event c home cWATCH 2 va ein die
    | none => s

end Sys2Proof.Machine
end

