-- ==== Sys2Proof/Machine/Order.lean ====
section
/-! DEFINITION. What operations touch, and which of an agent's operations wait for which (R198, R241, R260, R268, R271,
R306, R307, R315, R316, R493). -/

namespace Sys2Proof.Machine

/-! ## Operand shapes (R210) -/

/-- Slot bits [47:0] of a macro-operation (R73, R207). -/
def tileOps (base m n a b o tk : Nat) (zero neg bt : Bool) (gc : Nat) : Nat :=
  base * 2 ^ 41 + m * 2 ^ 39 + n * 2 ^ 33 + a * 2 ^ 29 + b * 2 ^ 25 + o * 2 ^ 21 + tk * 2 ^ 16 + bit zero * 2 ^ 15
    + bit neg * 2 ^ 14 + bit bt * 2 ^ 13 + gc * 2 ^ 8

def opsA (ops : Nat) : Nat := fld ops 29 4
def opsB (ops : Nat) : Nat := fld ops 25 4
def opsO (ops : Nat) : Nat := fld ops 21 4
def opsZero (ops : Nat) : Bool := fld ops 15 1 == 1
def opsNeg (ops : Nat) : Bool := fld ops 14 1 == 1
def opsBt (ops : Nat) : Bool := fld ops 13 1 == 1
def opsGroups (ops : Nat) : Nat := fld ops 8 4 + 1

/-- Items of one row of A, or of one column of B: blocks of K = 128, or K elements. -/
def rowItems (D : Desc) : Nat := if dBfp D then 128 / dBs D else if dFmt D = 1 then 64 else 32

/-- A format the array takes. -/
def matrixFmt (D : Desc) : Bool := dBfp D || dFmt D == 0 || dFmt D == 1

/-- GT[g] (R217). -/
def gtRow (gt : BitVec 128) (g : Nat) : Nat := gt.toNat / 2 ^ (8 * g) % 256
/-- r(g), the first tile row of group g. -/
def gtStart (gt : BitVec 128) (g : Nat) : Nat := ((List.range g).map (gtRow gt)).sum
/-- Rows of group g below M. -/
def gtRows (gt : BitVec 128) (M g : Nat) : Nat := min (gtRow gt g) (M - gtStart gt g)

/-! ## Cursors that later operations will find (R210) -/

/-- The cursors of a cell's streams, by number. -/
abbrev Cursors := List Nat

/-- The cursors after an entry of the queue has run, from those that stand before it. -/
def afterEntry (q : CellCore) (x : MxEntry) (cur : Cursors) : Cursors :=
  let M := tileRows x.ops
  let N := tileCols x.ops
  let a := opsA x.ops
  let b := opsB x.ops
  let A := q.desc a
  let ra := rowItems A
  let step := N * rowItems (q.desc b)
  let add := fun (cur : Cursors) (st n : Nat) => cur.set st (cur.getD st 0 + n)
  match x.op with
  | 1 => add (add cur a ((M - x.row) * ra)) b step
  | 2 =>
    let left := dLen A - cur.getD a 0
    add (add cur a left) b ((left + M * ra - 1) / (M * ra) * step)
  | 3 =>
    let done := min (gtStart x.gt x.grp) M + x.row
    add (add cur a ((min (gtStart x.gt (opsGroups x.ops)) M - done) * ra)) b ((opsGroups x.ops - x.grp) * step)
  | 7 => add cur (opsO x.ops) ((M - x.row) * N)
  | _ => cur

/-- The cursors a new macro-operation will find. -/
def Cell.cursors (y : Cell) : Cursors :=
  ((y.run.toList ++ y.core.mxq).foldl (fun cur x => afterEntry y.core x cur) ((List.range 16).map (fun st => dCur (y.core.desc st))))

/-! ## What an operation touches -/

/-- The key at which an access of a die reaches an address, by the translation that its TLB holds or else by the page
tables as they stand. -/
def State.vaKey (s : State) (d pasid va : Nat) : Option Nat :=
  match s.tlbFind d pasid va with
  | some e => some (pageTarget pasid va e.word e.level).key
  | none =>
    match s.walk pasid va with
    | .ok (_, w, level) => some (pageTarget pasid va w level).key
    | .error _ => none

/-- Where the bytes of item t lie: (key, bytes). -/
def State.itemKeys (s : State) (c d l : Nat) (D : Desc) (t : Nat) : List (Nat × Nat) :=
  (itemBytes D t).filterMap (fun a =>
    if dClass D = 6 then some (nearKey c d l + a.1, a.2) else (s.vaKey d (s.rc c).pasid.toNat a.1).map (fun k => (k, a.2)))

/-- The items, from the first to one before the last, that each stream still gives or takes for the macro-operation `id`
of a cell: (stream, first, last). None where the operation has ended. -/
def Cell.macroItems (y : Cell) (id : Nat) : List (Nat × Nat × Nat) :=
  let es := y.run.toList ++ y.core.mxq
  match es.find? (fun x => x.req == id) with
  | none => []
  | some x =>
    let before := (es.takeWhile (fun x => x.req != id)).foldl (fun cur x => afterEntry y.core x cur)
      ((List.range 16).map (fun st => dCur (y.core.desc st)))
    let after := afterEntry y.core x before
    (List.range 16).filterMap (fun st => let a := before.getD st 0; let b := after.getD st 0; if a < b then some (st, a, b) else none)

/-- The accesses of an operation: key, bytes, whether it writes, whether its effect is one that a later read of the cell
cannot find by looking at what the operation will write (a read-modify-write, a tile that ACCOUT has yet to write, a
delivery of RECV). -/
def State.touch (s : State) (c : Nat) (q : Req) : List (Nat × Nat × Bool × Bool) :=
  let one := fun (p : Part) => (p.tgt.key, p.n, p.op != .load, p.op != .load && p.op != .store)
  match q.body, q.org with
  | .mem _ ps, _ => ps.map one
  | .stload _ ps, _ => ps.map one
  | .fullEmpty line _, some (d, l) => [(nearKey c d l + 128 * line, 128, true, false)]
  | .xfer 2 _ _ _ a n, some (d, l) => [(nearKey c d l + a, n, false, false)]
  | .xfer 3 _ _ _ a _, some (d, l) => [(nearKey c d l + a, 65536, true, true)]
  | .ldv _ D want _, some (d, l) => (want.flatMap (fun p => s.itemKeys c d l D p.2)).map (fun k => (k.1, k.2, false, false))
  | .macro_ op _ _, some (d, l) =>
    let y := s.cell c d l
    let out := op == 7
    (y.macroItems q.id).flatMap (fun x =>
      (List.range (x.2.2 - x.2.1)).flatMap (fun i =>
        (s.itemKeys c d l (y.core.desc x.1) (x.2.1 + i)).map (fun k => (k.1, k.2, out, out))))
  | _, _ => []

/-- An earlier operation p and a later q touch a common byte, and q cannot see p's effect by looking through it (R307
rule 4). -/
def State.conflict (s : State) (c : Nat) (p q : Req) : Bool :=
  (s.touch c p).any (fun a => (s.touch c q).any (fun b =>
    decide (a.1 < b.1 + b.2.1 ∧ b.1 < a.1 + a.2.1) && (b.2.2.1 || a.2.2.2)))

/-- Bytes lie in the scratch ways of a cell, beyond the first `ways`. -/
def beyondWays (base ways : Nat) (a : Nat × Nat) : Bool :=
  decide (base ≤ a.1 ∧ a.1 < base + 2 ^ 19 ∧ base + ways * 65536 < a.1 + a.2)

/-- A fetch of an item's bytes, in the place of operation `before`, must wait for an operation of the cell that comes
earlier: one whose effect it could not see, or a RESIZE that has yet to bring a way it reaches (R198, R240, R241). -/
def State.itemHeld (s : State) (c d l before : Nat) (ks : List (Nat × Nat)) : Bool :=
  ((s.rc c).ownBefore d l before).any (fun p =>
    (s.touch c p).any (fun a => a.2.2.2 && ks.any (fun b => decide (a.1 < b.1 + b.2 ∧ b.1 < a.1 + a.2.1)))
    || (match p.body with
        | .resize a b => ks.any (beyondWays (nearKey c d l) ((s.rc c).win.ways - max a b))
        | _ => false))

/-- The empty lines of a cell as an access of its own sees them: the bank's bits with the cell's earlier SETE, SETF, stores
to scratch and RESIZE, in program order (R240 to R242). (Log entry 43: DEDUCED.) -/
def State.emptySeen (s : State) (c d l before : Nat) : List Nat :=
  let ways := (s.rc c).win.ways
  ((s.rc c).ownBefore d l before).foldl (fun (em : List Nat) q =>
    match q.body with
    | .fullEmpty line full => setLine full line em
    | .mem .scratch ps => ps.foldl (fun em p => if p.op = .store then setLine true (p.tgt.va / 128) em else em) em
    | .macro_ .. => (s.touch c q).foldl (fun em a => if a.2.2.1 && isNear a.1 then setLine true ((a.1 - nearKey c d l) / 128) em else em) em
    | .resize a b => em.filter (fun ln => decide (128 * ln < (ways - max a b) * 65536 ∨ (ways - min a b) * 65536 ≤ 128 * ln))
    | _ => em) (s.cell c d l).empty

/-- An item of a NEAR stream lies on a line that is empty now, in the place of operation `before`. -/
def State.itemEmpty (s : State) (c d l : Nat) (D : Desc) (before t : Nat) : Bool :=
  dClass D == 6 && (let em := s.emptySeen c d l before; (itemBytes D t).any (fun a => em.contains (a.1 / 128)))

/-! ## Order -/

/-- A coherent access (R305). -/
def Req.coherent (q : Req) : Bool := q.body.coherent

/-- The command of an operation waits in an engine's queue. -/
def State.cmdQueued (s : State) (id : Nat) : Bool :=
  s.armq.any (fun q => q.any (fun m => m.req == id))
  || s.dies.any (fun x => [0, 1, 2, 3, 4, 5].any (fun e => (x.engine e).queue.any (fun m => m.req == id)))

/-- An access that a release waits for (R315): every earlier access, and the acquire point of a command. -/
def State.beforeRelease (s : State) (p : Req) : Bool :=
  match p.body with
  | .mem .. | .stload .. | .ldv .. | .take _ | .pin _ | .unpin _ | .macro_ .. => true
  | .fence _ => p.releases
  | .cmd m => m.acq && s.cmdQueued p.id
  | _ => false

/-- A CPY that reads or writes the near store of its cell (R347). -/
def Cmd.near (m : Cmd) : Bool := m.cls == 0 && (tbit (m.e.getD 0 0) 63 || tbit (m.e.getD 1 0) 63)

/-- Layout changes of the near store keep their order with the accesses they move (R241, R267, R493). -/
def State.layoutOrder (s : State) (c : Nat) (p q : Req) : Bool :=
  let base := match q.org with | some (d, l) => nearKey c d l | none => 0
  let ways := (s.rc c).win.ways
  let cached := fun (x : Req) => match x.body with | .mem .gather _ => true | _ => false
  let beyond := fun (n : Nat) (x : Req) =>
    cached x || (match x.body with | .resize .. => true | _ => false)
    || (s.touch c x).any (fun a => beyondWays base (ways - n) (a.1, a.2.1))
  match p.body, q.body with
  | .resize a b, _ => beyond (max a b) q
  | .cmd m, .resize .. => m.near
  | _, .resize .. => cached p || (s.touch c p).any (fun a => isNear a.1)
  | .mem .gather _, .nsflush => true
  | _, _ => false

/-- The operation accesses memory, or is a fence. -/
def Req.accesses (q : Req) : Bool :=
  match q.body with
  | .vals _ | .stgo .. | .red .. | .cmd _ | .xfer .. => false
  | _ => true

/-- The operation writes memory. -/
def Req.writes (q : Req) : Bool :=
  match q.body with
  | .mem _ ps => ps.any (fun p => p.op != .load)
  | .fullEmpty .. | .take _ | .pin _ | .unpin _ => true
  | .macro_ op .. => op == 7
  | _ => false

/-- A release that is not performed holds everything after it in its cell that accesses memory (R315); an acquire and
release fence holds reads by its acquire half alone (R260). (Log entry 75: DEDUCED.) -/
def releaseHolds (p q : Req) : Bool := p.releases && (q.writes || (q.accesses && !(p.isFence && p.acquires)))

/-- A release of the cell before operation `before` that holds its later reads (R315). -/
def Rec.releaseWaits (r : Rec) (d l before : Nat) : Bool :=
  (r.ownBefore d l before).any (fun p => p.releases && !(p.isFence && p.acquires))

/-- Operation q of a cell waits for the earlier operation p of that cell. -/
def State.cellWaits (s : State) (c : Nat) (p q : Req) : Bool :=
  (p.coherent && q.coherent) || (p.acquiring && q.accesses) || (q.releases && s.beforeRelease p) || releaseHolds p q
  || s.conflict c p q || s.layoutOrder c p q

/-- Operation q of a sequencer waits for the earlier operation p: MEM operations are performed in order, a fence among them,
but that reads wait only for the acquire half of an acquire and release fence (R260, R271); a release also waits for the
points of commands (R315). -/
def State.seqWaits (s : State) (p q : Req) : Bool :=
  match p.body with
  | .cmd m => q.releases && (m.rel || (m.acq && s.cmdQueued p.id))
  | .red .. => false
  | .fence _ => !p.acquires || p.acquiring || p.stage == .out || q.releases || q.gated
  | _ => true

/-- A load that a handler entered without rollback issues does not wait for an effect held since before the entry, which
only the return from the handler lets go (R485, R487, R488; log entry 22). -/
def Rec.passesHeld (r : Rec) (p q : Req) : Bool :=
  r.diesStop && p.stage == .held && decide (p.id < r.stopId ∧ r.stopId ≤ q.id)

/-- Something earlier in the agent's program order holds operation q back. -/
def State.blocked (s : State) (c : Nat) (q : Req) : Bool :=
  (s.rc c).reqs.any (fun p => p.org == q.org && decide (p.id < q.id) && p.stage != .performed
    && (match q.org with | some _ => s.cellWaits c p q | none => s.seqWaits p q && !(s.rc c).passesHeld p q))

/-- The acquire half of a fence can be performed: it is not held, and follows the reads before it (R260, R314). -/
def State.fenceAcquires (s : State) (c : Nat) (q : Req) : Bool :=
  q.isFence && q.acquiring && q.stage != .performed
  && !(s.rc c).reqs.any (fun p => p.org == q.org && decide (p.id < q.id) && p.stage != .performed && (p.reads || p.acquiring)
      && !(q.org.isNone && (s.rc c).passesHeld p q))

/-- An acquire of the sequencer before operation `before` that is not performed: later commands do not start (R268). -/
def Rec.seqAcquireWaits (r : Rec) (before : Nat) : Bool :=
  r.reqs.any (fun p => p.org.isNone && decide (p.id < before) && p.stage != .performed && p.acquiring
    && (match p.body with | .cmd _ => false | _ => true))

/-! ## What an access is noted for -/

/-- The homes take note of the parts of a coherent access of an agent (R304, R324). -/
def State.noteParts (s : State) (ag : Agent) (sc : Scope) (ps : List Part) : State :=
  ps.foldl (fun (s : State) p =>
    let t := s.reroute (s.rc ag.1).pasid.toNat p.tgt
    s.noteCoherent ag.1 ag.2 sc (if p.op = .load then s.readKey t else s.writeKey t) p.op) s

/-- An uncorrectable error drops the lease copies of the lines it strikes (R304). -/
def State.dropBad (s : State) (c : Nat) (q : Req) : State :=
  match q.body with
  | .mem .coherent ps =>
    let ks := ps.map (fun p => s.readKey (s.reroute (s.rc c).pasid.toNat p.tgt))
    let gone := (ks.filter s.bad).map (fun k => bufferKey c q.org * 2 ^ 48 + k / 128)
    { s with copies := s.copies.filter (fun x => !gone.contains x.1) }
  | _ => s

/-- Where an operation's agent reports: its die, or the field's origin for the sequencer; and XCAUSE's die index. -/
def Rec.reporter (r : Rec) (q : Req) : Nat × Nat :=
  match q.org with | some (d, _) => (d, d) | none => (r.field.origin, 0xFF)

/-- The kind of input an access is for the replay log (R439), if it is one. -/
def Req.inputKind (q : Req) : Option Nat :=
  match q.body with
  | .mem path ps =>
    if q.dest.isNone then none
    else if ps.any (fun p => p.op != .load && p.op != .store) then some inATOMIC
    else if ps.any (fun p => p.tgt.cls == clsMMIO) then some inMMIO
    else if path == .coherent && ps.any (fun p => p.tgt.cls == clsHOST || p.tgt.cls == clsPEER) then some inHOSTPEER
    else none
  | .take _ => some inATOMIC
  | _ => none

/-- Values as the context receives them: logged, or taken from the log (R439, R440). The Atelier logs nothing. -/
def State.received (s : State) (c : Nat) (q : Req) (vs : List (Nat × Nat)) : Except FInfo (State × List (Nat × Nat)) :=
  match q.inputKind with
  | none => .ok (s, vs)
  | some k =>
    if c = ateIdx then .ok (s, vs)
    else
      match s.logged c k ((s.rc c).reporter q).1 (q.org.map Prod.snd) q.ein.toNat q.pc.toNat (vs.map Prod.snd) with
      | .error f => .error f
      | .ok (s, ws) => .ok (s, (vs.map Prod.fst).zip ws)

/-- The loads of a cell's operation, in order, each by its unit; none at an uncorrectable error. -/
def State.loadParts (s : State) (c d l : Nat) (q : Req) (path : Path) : List Part → State × Option (List (Nat × Nat))
  | [] => (s, some [])
  | p :: ps =>
    match s.cellRead c d l q.id path p.tgt p.n 0 false q.again with
    | (s, none) => (s, none)
    | (s, some v) =>
      match State.loadParts s c d l q path ps with
      | (s, none) => (s, none)
      | (s, some vs) => (s, some ((p.lane, v) :: vs))

/-- A load of a cell is performed by its access stream (R35): what it reads, noted at the homes. -/
def State.readNow (s : State) (c d l : Nat) (q : Req) : State × Option (List (Nat × Nat)) :=
  match q.body with
  | .mem path ps =>
    match s.loadParts c d l q path ps with
    | (s, none) => (s, none)
    | (s, some vs) => (if path == .coherent then s.noteParts (c, q.org) q.sc ps else s, some vs)
  | _ => (s, some [])

end Sys2Proof.Machine
end

