-- ==== Sys2Proof/Machine/BundleIssue.lean ====
section
/-! DEFINITION. A bundle issues (R63, R421): its checks in their order, the slots, what it does to the loads read ahead of it
(R33), and when a die can take its next bundle. -/

namespace Sys2Proof.Machine

/-- The coherent loads that can be marked (R31). -/
def cohOps : List Nat := [0x07, 0x30, 0x32, 0x34]

/-- A coherent load of those that can be marked. -/
def Ahead.coherent (a : Ahead) : Bool := cohOps.contains a.raw.op

/-- An operation of a cell writes, or moves, bytes of a line (R33): a store, an ACCOUT, a delivery of RECV, ways that RESIZE
moves. -/
def State.overwrites (s : State) (c : Nat) (q : Req) (line : Nat) : Bool :=
  match q.body with
  | .resize .. => isNear (line * 128)
  | _ => (s.touch c q).any (fun a => a.2.2.1 && decide (a.1 < line * 128 + 128 ∧ line * 128 < a.1 + a.2.1))

/-- The bundle holds a coherent A-marked load of a cell for which the access stream holds no data: it is read again at its
execute point (R33, R35). -/
def DieCtx.rereads (x : DieCtx) (raws : List Raw) (ein : BitVec 48) (l : Nat) : Bool :=
  raws.any (fun r => isMarkedLoad r && cohOps.contains r.op) && !x.ahead.any (fun a => a.ein == ein && a.cell == l && a.done)

/-- A store of a cell discards the data that its A-marked loads of later bundles have read from the same lines ahead of
it (R33). A coherent operation, a coherent A-marked load read again among them, does so to every coherent load read ahead
of it, which comes after it in the order S (R307 rule 1, R308); only the former are reissues that R33 counts. (Log entry 78: DEDUCED.) -/
def State.discardAhead (s : State) (c d l id : Nat) (ein : BitVec 48) (reread : Bool) : State :=
  let qs := (s.rc c).reqs.filter (fun q => q.org == some (d, l) && decide (id ≤ q.id))
  let later := fun (a : Ahead) => a.cell == l && a.ein != ein
  s.updDctx c d (fun x =>
    let x := x.reissue (fun a => later a && a.lines.any (fun ln => qs.any (fun q => s.overwrites c q ln)))
    if reread || qs.any (fun q => q.body.coherent) then
      { x with ahead := x.ahead.map (fun a => if later a && a.coherent then { a with done := false } else a) }
    else x)

/-- Issues a bundle at a die, given its slots in the order V0 to CT, its masks and its IN. `forced` says that a wait of
the bundle has been found to hold no longer. Every fault found is flagged with the bundle's IN, and no slot acts. -/
def State.issueBundle (s : State) (c d : Nat) (ein : BitVec 48) (diemask : BitVec 32) (cellmask : Word) (bs : List BSlot) :
    Host.Outcome State Fault Refusal :=
  let r := s.rc c
  let dx := r.die d
  let cells := activeCells r d diemask cellmask
  let genv := groupEnv s c d r dx ein (diemask.getLsbD d) cells
  let isMark := bs.any (fun b => markOp b.raw.kind b.raw.op) || dx.markAsk.contains ein
  let raws := bs.map BSlot.raw
  let stores := gatedCount s c d cells raws
  if bundleIllegal r dx raws then .next (s.dieFault c d ein (cILLBUNDLE, 0, noInfo))
  else if (!isMark && decide (1024 ≤ dx.sinceMark)) || decide (128 < dx.sinceStores + stores) then
    .next (s.dieFault c d ein (cMARKOVF, 0, noInfo))
  else
    match bs.findSome? (fun b => b.fx.hold (genv b) s) with
    | some h => .next (s.updDctx c d (fun x => { x with hold := some h }))
    | none =>
      if !roomFor r d ein cells raws then .refused (.notEnabled "the request tracker is full")
      else if !s.mxRoom c d cells raws then .refused (.notEnabled "the matrix queue is full")
      else
        let uwOf := fun (l : Nat) => bs.any (fun b => cellReadsPending r d l (s.cell c d l).core b.raw (guardLanes (s.cell c d l).core b.raw.guard))
        let emOf := fun (l : Nat) => bs.any (fun b =>
          let e := cellEnv s c d r dx ein l b raws
          !e.lanes.isEmpty && b.fx.empty e s)
        if cells.any (fun l => tbit (s.cell c d l).core.cctl 8 && (uwOf l || emOf l)) then .next (s.dieFault c d ein (cUNDERWAIT, 0, noInfo))
        else
          match bs.findSome? (fun b => b.fx.pre (genv b) s) with
          | some f => .next (s.dieFault c d ein f)
          | none =>
            match runBundle c d r dx ein raws cells bs s with
            | .error f => .next (s.dieFault c d ein f)
            | .ok (s', fxs) =>
              let s' := cells.foldl (fun (s' : State) l => s'.cellEffects c d l ein (effectsOf fxs l) (uwOf l) (emOf l) (bs.any (fun b => popsEntry b.raw))) s'
              let s' := cells.foldl (fun (s' : State) l => s'.discardAhead c d l s.nextId ein (dx.rereads raws ein l)) (s'.idleCells c d ein cells)
              let s' := s'.updDctx c d (fun x => x.issued ein isMark stores
                (bs.foldl (fun n b => max n b.fx.positions) 1) (bs.findSome? (fun b => b.fx.after (genv b))))
              .next (bs.foldl (fun (s' : State) b => b.fx.group (genv b) s') s')

/-! ## An instruction executed alone -/

/-- The mark of an entry of the restart-mark map below an IN, if it has one (R372). -/
def MarkEntry.below (m : MarkEntry) (k : BitVec 48) : Option (BitVec 48) :=
  if inDiff k m.first ≤ 0 then none
  else
    let last := m.first + BitVec.ofNat 48 (m.count - 1)
    some (if inDiff last k < 0 then last else k - 1)

/-- The rollback mark of a fault that counts at IN k: the newest mark below it (R428). -/
def Rec.rollbackMark (r : Rec) (k : BitVec 48) : BitVec 48 :=
  (r.marks.filterMap (fun m => m.below k)).foldl (fun a b => if inDiff a b < 0 then b else a) r.cf

/-- Why a die cannot issue the next bundle of a context now, if it cannot: the context is frozen (unless its dies
drain or run on to a mark, with the positions of its last bundle), its dies stand still, or the die waits, has flagged a
fault, or an event and need not run on to a mark or to the end of a drain (R421, R428, R441), stands at a mark, passes a delay, or
owes a snapshot (R413) or a sample. -/
def State.cannotBundle (s : State) (c d : Nat) : Option String :=
  let r := s.rc c
  let x := r.die d
  let stopped : Bool := match r.life with
    | .frozen (.brk ..) => false
    | .frozen (.rollback f) => decide (0 < inDiff (if x.dly = 0 then x.e else x.e - 1) (r.rollbackMark f.at_))
    | .frozen _ | .free | .saved => true
    | _ => r.diesStop
  let runsOn : Bool := match r.life with | .frozen (.rollback _) | .frozen (.brk ..) => true | _ => false
  if 16 ≤ c ∨ r.slot.isNone ∨ !r.field.dies.contains d then some "the context does not reach the die"
  else if stopped = true ∨ s.asleep = true then some "the dies of the context stand still"
  else if x.hold.isSome then some "the die waits"
  else if x.flag.isSome ∨ (!x.fevents.isEmpty && !runsOn) then some "the die has flagged an event"
  else if x.atMark.isSome then some "the die stands at a mark"
  else if x.dly ≠ 0 then some "a delay is passing"
  else if x.snapAt.any (fun p => decide (0 ≤ inDiff x.e p.1)) then some "a snapshot is due"
  else if x.cells.any (fun p => p.2.core.rbMade ≠ p.2.core.rbTaken + 16) then some "the random-bit queue is refilled"
  else if x.redAsk.any (fun id => match r.reqs.find? (fun q => q.id == id) with
      | some q => match q.body with | .red _ _ _ _ inr _ _ _ => decide (inDiff inr x.e ≤ 0) | _ => false
      | none => false) then some "a sample is due"
  else none

/-- The slot of a bundle in which an instruction of a kind stands, in the order V0 to CT. -/
def slotNo : SlotKind → Nat
  | .v => 0 | .conv => 1 | .mx => 2 | .ls => 3 | .xf => 4 | _ => 5

/-- An instruction of a bundle executed alone: the bundle that holds it and nothing else, with the masks of the
context, issued by the selected die for the selected context as its next bundle. A bundle that must wait stands at the
head of the decode queue. -/
def State.issueLane (s : State) (r : Raw) (fx : SlotMeaning) : Host.Outcome State Fault Refusal :=
  let c := s.sel
  let d := s.selDie
  match s.cannotBundle c d with
  | some why => .refused (.notEnabled why)
  | none =>
    let q := (s.rc c).core
    let e := (s.dctx c d).e
    if !r.legal then .next (s.dieFault c d e (cILLBUNDLE, 0, noInfo))
    else
      match s.issueBundle c d e q.diemask q.cellmask [⟨r, slotNo r.kind, fx⟩] with
      | .next s' =>
        if (s'.dctx c d).hold = some .wait ∨ (s'.dctx c d).hold = some .waitf then
          .next (s'.updDctx c d (fun x => { x with q :=
            { idx := litIdx, lit := some (encodeBundle (bundleOf r)), reps := 1, inn := e, diemask := q.diemask, cellmask := q.cellmask
              no := s.bcastNo } :: x.q }))
        else .next s'
      | o => o

end Sys2Proof.Machine
end

