-- ==== Sys2Proof/Machine/SeqMem.lean ====
section
/-! DEFINITION. The sequencer's MEM operations (R52, R53, R268 to R271, R302, R409) and the Atelier's (R448, R449). -/

namespace Sys2Proof.Machine

/-- What an Atelier MEM address reaches (R449). -/
def ateTarget (a n : Nat) : Except FInfo Target :=
  if a % n ≠ 0 then .error (cPROTECT, 0, a)
  else if a + n ≤ 0x200000 then .ok { key := ateKey a, cls := clsDRAM, va := a, ref := none }
  else if tbit (BitVec.ofNat 64 a) 63 ∧ bitsOf (BitVec.ofNat 64 a) 53 10 = 0 then
    let pa := a % 2 ^ 48
    .ok { key := dieKey (a / 2 ^ 48 % 32) pa
          cls := if 0x0F0000000000 ≤ pa ∧ pa < 0x0F0000070000 then clsMMIO else if wbankLo ≤ pa ∧ pa < wbankHi then clsWBANK else clsDRAM
          va := a, ref := none }
  else .error (cPROTECT, 4, a)

/-- The checks of an Atelier access: where it reaches, and what a register page refuses (R228, R449, R455). -/
def ateCheck (a n : Nat) (kind : AccKind) : Except FInfo Target :=
  match ateTarget a n with
  | .error f => .error f
  | .ok t =>
    if t.cls = clsMMIO ∧ (classFault kind clsMMIO n).isSome then .error (cPROTECT, 3, a)
    else if t.cls = clsMMIO ∧ kind.writes ∧ mmioStoreBad (t.key % 2 ^ 48) n then .error (cPROTECT, 1, a)
    else .ok t

/-- The checks of a sequencer access (R235), made with the translations of the field's origin die. -/
def State.seqTarget (s : State) (e : SeqEnv) (a n : Nat) (kind : AccKind) : Except FInfo (State × Target) :=
  if e.c = ateIdx then
    match ateCheck a n kind with
    | .error f => .error f
    | .ok t => .ok (s, t)
  else
    match s.check (e.c, none) e.rc.field.origin e.rc.pasid.toNat [{ lane := 0, va := a, n := n, kind := kind }] with
    | .error f => .error f
    | .ok (s, ts) => .ok (s, ts.headD { key := 0, cls := 0, va := a, ref := none })

/-- An operation of a MEM word. -/
def seqReq (e : SeqEnv) (ord : Ord) (sc : Scope) (ts : Nat) (dest : Option RegId) (body : Body) : Req :=
  { mkReq none e.q.inn slX (some ts) dest body false false with ord := ord, sc := sc }

/-- One coherent access. -/
def onePart (t : Target) (n : Nat) (op : AccOp) (val : Nat) : Body := .mem .coherent [{ lane := 0, tgt := t, n := n, op := op, val := val }]

/-- LDG (R269). -/
def ldg (n : Nat) (ord : Ord) (sc : Scope) (ts d a : Nat) : SeqMeaning := fun e s =>
  match s.seqTarget e (e.q.rS a).toNat n .cohLoad with
  | .error f => .error f
  | .ok (s, t) => .ok (s, { req := some (seqReq e ord sc ts (some (.s d)) (onePart t n .load 0)) })

/-- STG (R269). -/
def stg (n : Nat) (ord : Ord) (sc : Scope) (ts d a : Nat) : SeqMeaning := fun e s =>
  match s.seqTarget e (e.q.rS a).toNat n .cohStore with
  | .error f => .error f
  | .ok (s, t) => .ok (s, effectFx e (seqReq e ord sc ts none (onePart t n .store (e.q.rS d).toNat)) [])

/-- A sequencer atomic of n bytes with operand v (R270). The host performs the atomics of its page (R228) except AMAXF
and AMAXRR, whose class rule is the one the access table gives. -/
def seqAtomic (n : Nat) (hostOk : Bool) (f : Rmw) (ord : Ord) (sc : Scope) (ts : Nat) (dest : Option Nat) (a : Nat)
    (v : SeqCore → Nat) : SeqMeaning := fun e s =>
  match s.seqTarget e (e.q.rS a).toNat n (.atomic hostOk) with
  | .error f => .error f
  | .ok (s, t) => .ok (s, effectFx e (seqReq e ord sc ts (dest.map RegId.s) (onePart t n (.rmw f) (v e.q))) [])

def fxLdgB (ord : Ord) (sc : Scope) (ts d a : Nat) : SeqMeaning := ldg 1 ord sc ts d a
def fxLdgH (ord : Ord) (sc : Scope) (ts d a : Nat) : SeqMeaning := ldg 2 ord sc ts d a
def fxLdgW (ord : Ord) (sc : Scope) (ts d a : Nat) : SeqMeaning := ldg 4 ord sc ts d a
def fxLdgD (ord : Ord) (sc : Scope) (ts d a : Nat) : SeqMeaning := ldg 8 ord sc ts d a
def fxStgB (ord : Ord) (sc : Scope) (ts d a : Nat) : SeqMeaning := stg 1 ord sc ts d a
def fxStgH (ord : Ord) (sc : Scope) (ts d a : Nat) : SeqMeaning := stg 2 ord sc ts d a
def fxStgW (ord : Ord) (sc : Scope) (ts d a : Nat) : SeqMeaning := stg 4 ord sc ts d a
def fxStgD (ord : Ord) (sc : Scope) (ts d a : Nat) : SeqMeaning := stg 8 ord sc ts d a

/-- An atomic with operand s(d), size code e2. -/
def seqAtomic2 (hostOk : Bool) (f : Rmw) (ord : Ord) (sc : Scope) (ts d e2 a : Nat) : SeqMeaning :=
  seqAtomic (2 ^ e2) hostOk f ord sc ts (some d) a (fun q => (q.rS d).toNat)

def fxAfadd (ord : Ord) (sc : Scope) (ts d e2 a : Nat) : SeqMeaning := seqAtomic2 true .add ord sc ts d e2 a
def fxAmin (ord : Ord) (sc : Scope) (ts d e2 a : Nat) : SeqMeaning := seqAtomic2 false .min ord sc ts d e2 a
def fxAmax (ord : Ord) (sc : Scope) (ts d e2 a : Nat) : SeqMeaning := seqAtomic2 false .max ord sc ts d e2 a
def fxAand (ord : Ord) (sc : Scope) (ts d e2 a : Nat) : SeqMeaning := seqAtomic2 false .and ord sc ts d e2 a
def fxAor (ord : Ord) (sc : Scope) (ts d e2 a : Nat) : SeqMeaning := seqAtomic2 false .or ord sc ts d e2 a
def fxAxor (ord : Ord) (sc : Scope) (ts d e2 a : Nat) : SeqMeaning := seqAtomic2 false .xor ord sc ts d e2 a
def fxAswap (ord : Ord) (sc : Scope) (ts d e2 a : Nat) : SeqMeaning := seqAtomic2 true .swap ord sc ts d e2 a
/-- ACAS: the new value is s(d+1). -/
def fxAcas (ord : Ord) (sc : Scope) (ts d e2 a : Nat) : SeqMeaning := fun e s =>
  seqAtomic (2 ^ e2) true (.cas (e.q.rS (d + 1)).toNat) ord sc ts (some d) a (fun q => (q.rS d).toNat) e s
def fxAmaxf (ord : Ord) (sc : Scope) (ts d a : Nat) : SeqMeaning :=
  seqAtomic 4 false .amaxf ord sc ts (some d) a (fun q => (q.rS d).toNat)
def fxMemAmaxrr (ord : Ord) (sc : Scope) (ts d a : Nat) : SeqMeaning :=
  seqAtomic 4 false .amaxrr ord sc ts (some d) a (fun _ => 0)

/-- FENCE (R271): FENCE.ACQ exposes nothing and is not held. -/
def fxMemFence (ord : Ord) (sc : Scope) (ts : Nat) : SeqMeaning :=
  pureFx (fun e =>
    let q := seqReq e ord sc ts none (.fence false)
    if ord = .acquire then { req := some q } else effectFx e q [])

/-! ## References (R302) -/

/-- The target of a reference access of the sequencer. -/
def State.seqRef (s : State) (e : SeqEnv) (h off n : Nat) (write : Bool) : Except FInfo (State × Target) :=
  match s.refTargets (e.c, none) e.rc.field.origin e.rc.pasid.toNat (e.q.rH h).toNat n write [(0, off)] with
  | .error f => .error f
  | .ok (s, ts) => .ok (s, (ts.map Prod.snd).headD { key := 0, cls := 0, va := 0, ref := none })

/-- A load through a reference. -/
def seqRefLoad (n : Nat) (ord : Ord) (sc : Scope) (ts h d : Nat) (dest : RegId) : SeqMeaning := fun e s =>
  match s.seqRef e h (e.q.rS d).toNat n false with
  | .error f => .error f
  | .ok (s, t) => .ok (s, { req := some (seqReq e ord sc ts (some dest) (onePart t n .load 0)) })

/-- A store through a reference. -/
def seqRefStore (n : Nat) (ord : Ord) (sc : Scope) (ts h d : Nat) (v : SeqCore → Word) : SeqMeaning := fun e s =>
  match s.seqRef e h (e.q.rS d).toNat n true with
  | .error f => .error f
  | .ok (s, t) => .ok (s, effectFx e (seqReq e ord sc ts none (onePart t n .store (v e.q).toNat)) [])

def fxMemLdref (ord : Ord) (sc : Scope) (ts d h h2 : Nat) : SeqMeaning := seqRefLoad 8 ord sc ts h d (.h h2)
def fxMemStref (ord : Ord) (sc : Scope) (ts d h h2 : Nat) : SeqMeaning := seqRefStore 8 ord sc ts h d (fun q => q.rH h2)
def fxMemLdr (ord : Ord) (sc : Scope) (ts d e2 h : Nat) : SeqMeaning := seqRefLoad (2 ^ e2) ord sc ts h d (.s d)
def fxMemStr (ord : Ord) (sc : Scope) (ts d e2 h : Nat) : SeqMeaning := seqRefStore (2 ^ e2) ord sc ts h d (fun q => q.rS (d + 1))

/-- PIN: checked at issue as far as R494 says, performed at the entry home when released. -/
def fxMemPin (ord : Ord) (sc : Scope) (ts d h : Nat) : SeqMeaning := fun e s =>
  match s.refIssueFault e.rc.pasid.toNat (e.q.rH h).toNat with
  | some f => .error f
  | none => .ok (s, effectFx e (seqReq e ord sc ts (some (.s d)) (.pin (e.q.rH h))) [])

/-- UNPIN. -/
def fxMemUnpin (ord : Ord) (sc : Scope) (ts h : Nat) : SeqMeaning := fun e s =>
  match s.refIssueFault e.rc.pasid.toNat (e.q.rH h).toNat with
  | some f => .error f
  | none => .ok (s, effectFx e (seqReq e ord sc ts none (.unpin (e.q.rH h))) [])

/-! ## Job control blocks (R409) -/

def fxMemJraise (ord : Ord) (sc : Scope) (ts d a : Nat) : SeqMeaning :=
  seqAtomic 16 false .jraise ord sc ts none a (fun q => (q.rS d).toNat)
def fxMemJdone (ord : Ord) (sc : Scope) (ts a : Nat) : SeqMeaning :=
  seqAtomic 16 false .jdone ord sc ts none a (fun _ => 0)

end Sys2Proof.Machine
end

