-- ==== Sys2Proof/Machine/Stream.lean ====
section
/-! DEFINITION. Stream registers (R194 to R204): fetching an item, STSET, STGET, STGO, STSAVE, STLOAD, and the vector
transfers LDV and STV. -/

namespace Sys2Proof.Machine

/-! ## Items (R197 to R199) -/

/-- Cuts a list into n pieces of a length. -/
def pieces {α : Type} (len : Nat) : Nat → List α → List (List α)
  | 0, _ => []
  | n + 1, xs => xs.take len :: pieces len n (xs.drop len)

/-- The checks of several items at once, step by step in the order of R235, on all their accesses (R197, R199, R255): the
targets of each item's accesses. -/
def State.transferTargets (s : State) (c d l : Nat) (D : Desc) (ts : List Nat) : Except FInfo (State × List (List Target)) :=
  let as := ts.flatMap (itemBytes D)
  let cut := fun (xs : List Target) => pieces (if dBfp D then dUnit D + 1 else 1) ts.length xs
  if dClass D = 6 then
    let size := ((s.rc c).win.ways - (s.cell c d l).core.cways) * 65536
    match as.find? (fun a => decide (size < a.1 + a.2)) with
    | some a => .error (cPROTECT, 4, a.1)
    | none => .ok (s, cut (as.map (fun a => nearTarget c d l a.1)))
  else
    match s.check (c, some (d, l)) d (s.rc c).pasid.toNat (as.map (fun a => { lane := 0, va := a.1, n := a.2, kind := .item (dStore D) (dClass D) })) with
    | .error f => .error f
    | .ok (s, xs) => .ok (s, cut xs)

/-- The distinct lines of keys. -/
def linesOf (ks : List Nat) : List Nat := (ks.map (fun k => k / 128)).eraseDups

/-- Fetches item t of a stream (R198) in the place of operation `before`, so that it sees the cell's stores before that one
alone (R306): its values, the fault it met, and whether a scratch line it read was empty. `again` is a fetch that an
acquire repeats, which does not count toward the L2 use count (R316). -/
def State.fetchItem (s : State) (c d l : Nat) (D : Desc) (st t before : Nat) (again : Bool) : State × Item :=
  match s.transferTargets c d l D [t] with
  | .error f => (s, { st := st, t := t, vals := [], fault := some f, empty := false })
  | .ok (s, tss) =>
    let ts := tss.flatten
    let pasid := (s.rc c).pasid.toNat
    let own := ((s.rc c).ownBefore d l before).flatMap (fun q => s.storeBytes pasid q)
    let ks := ts.map s.readKey
    let s := ks.foldl (fun (s : State) k => s.writeBackAt c d l k 1) s
    match ks.find? s.bad with
    | some _ => (s, { st := st, t := t, vals := [], fault := some (cECC, 0, noInfo), empty := false })
    | none =>
      let vs := (ks.zip (itemBytes D t)).map (fun p => overlay (memRead s.mem p.1 p.2.2) p.1 p.2.2 own)
      let em := s.itemEmpty c d l D before t
      let s := (linesOf ks).foldl (fun (s : State) ln => s.noteRead (ln * 128) (dUc D) (dDisc D) again) s
      if dClass D = clsHOST ∨ dClass D = clsPEER then
        match s.logged c inHOSTPEER d (some l) (s.dctx c d).e.toNat 0 vs with
        | .error f => (s, { st := st, t := t, vals := [], fault := some f, empty := em })
        | .ok (s, vs) => (s, { st := st, t := t, vals := itemVals D vs, fault := none, empty := em })
      else (s, { st := st, t := t, vals := itemVals D vs, fault := none, empty := em })

/-- An item fetched and not discarded. An item that an acquire has discarded (R316) stands without values. -/
def Item.live (i : Item) : Bool := !i.vals.isEmpty || i.fault.isSome

/-- The item that a cell has fetched ahead, if it has. -/
def Cell.itemAhead (y : Cell) (st t : Nat) : Option Item := y.items.find? (fun i => i.st == st && i.t == t)

/-- Item t of a stream: as fetched ahead, or fetched now. -/
def State.getItem (s : State) (c d l : Nat) (D : Desc) (st t before : Nat) : State × Item :=
  match (s.cell c d l).itemAhead st t with
  | some i => if i.live then (s, i) else s.fetchItem c d l D st t before true
  | none => s.fetchItem c d l D st t before false

/-- Items of a stream by number, in order. -/
def State.getItems (s : State) (c d l : Nat) (D : Desc) (st before : Nat) : List Nat → State × List Item
  | [] => (s, [])
  | t :: ts =>
    let (s, i) := s.getItem c d l D st t before
    let (s, is) := State.getItems s c d l D st before ts
    (s, i :: is)

/-- One of the items has not been fetched, and an earlier operation of the cell keeps it from being fetched now. -/
def State.itemsHeld (s : State) (c d l : Nat) (D : Desc) (st before : Nat) (ts : List Nat) : Bool :=
  ts.any (fun t => !(((s.cell c d l).itemAhead st t).map Item.live).getD false && s.itemHeld c d l before (s.itemKeys c d l D t))

/-- Keeps an item that has been fetched. -/
def State.keepItem (s : State) (c d l : Nat) (i : Item) : State :=
  s.updCell c d l (fun y => { y with items := y.items.filter (fun x => !(x.st == i.st && x.t == i.t)) ++ [i] })

/-- Drops the items of a stream below a cursor. -/
def Cell.dropItems (y : Cell) (st cur : Nat) : Cell := { y with items := y.items.filter (fun i => !(i.st == st && decide (i.t < cur))) }

/-- Drops every item of a stream. -/
def Cell.dropStream (y : Cell) (st : Nat) : Cell := { y with items := y.items.filter (fun i => i.st != st) }

/-! ## Streams held by macro-operations (R208) -/

/-- The streams a macro-operation names: A and B, or O; ACCZ names none. -/
def macroStreams (op ops : Nat) : List Nat :=
  if op = 7 then [fld ops 21 4] else if op = 4 then [] else [fld ops 29 4, fld ops 25 4]

/-- A macro-operation of the cell holds the stream. -/
def Rec.stHeld (r : Rec) (d l st : Nat) : Bool :=
  r.reqs.any (fun q => q.org == some (d, l) && (match q.body with
    | .macro_ op ops _ => (macroStreams op ops).contains st
    | _ => false))

/-- SHAPE with a detail (R212). -/
def shape (detail : Nat) : FInfo := (cSHAPE, detail, noInfo)

/-! ## Stream instructions (R202, R203) -/

/-- STSET (R196): a stream that is held is found before a descriptor that is refused. (Log entry 62: DEDUCED, and 93: DESIGN
CHOICE.) -/
def fxStset (_g a st : Nat) : SlotMeaning :=
  { cell := fun e s =>
      let D := (List.range 8).map (fun i => e.q.rX (a + i))
      if e.rc.stHeld e.d e.l st then .error (shape 5)
      else if weightStore D then .error (cWEIGHTWR, 0, noInfo)
      else if badDesc D then .error (shape 7)
      else .ok (s, { writes := [descWrite st (stsetDesc D) 2 e.ein.toNat], set := fun _ y => y.dropStream st }) }

/-- STGET. -/
def fxStget (_g d st : Nat) : SlotMeaning :=
  { cell := fun e s =>
      if e.rc.stHeld e.d e.l st then .error (shape 5)
      else .ok (s, { writes := (List.range 8).map (fun i =>
        { reg := .x (d + i), vals := [(0, (e.q.rSt st i).toNat)], lat := 2, ein := e.ein.toNat }) }) }

/-- An operation of a cell's slot. -/
def cellReq (e : CellEnv) (tk : Nat) (dest : Option RegId) (body : Body) (held gated : Bool) : Req :=
  mkReq (some (e.d, e.l)) e.ein e.slot (some tk) dest body held gated

/-- STGO: the stream starts at the end of the bundle, with fresh fetches: what it had fetched before goes (R198, R307,
R318). (Log entry 76: DEDUCED.) -/
def fxStgo (_g st tk : Nat) : SlotMeaning :=
  { cell := fun e s =>
      let D := e.q.desc st
      if e.rc.stHeld e.d e.l st then .error (shape 5)
      else if dBad D then .error (shape 7)
      else
        let D' := setD7 D (mkD7 true (dEnd D) false (dfld D 7 48 8) (dCur D))
        .ok (s, { writes := [descWrite st D' 1 e.ein.toNat], set := fun _ y => y.dropStream st
                  req := some (cellReq e tk none (.stgo st (dCur D)) false false) }) }

/-- The eight doublewords of STSAVE and STLOAD at x(a): targets, or the fault. -/
def descTargets (e : CellEnv) (s : State) (a : Nat) (kind : AccKind) : Except FInfo (State × List Target) :=
  let ea := (e.q.rX a).toNat
  if ea < 2 ^ 52 ∧ !inCtlPage ea ∧ ea % 64 ≠ 0 then .error (cPROTECT, 0, ea)
  else s.check e.agent e.d e.rc.pasid.toNat ((List.range 8).map (fun i => { lane := i, va := ea + 8 * i, n := 8, kind := kind }))

/-- STSAVE: the stream as it stood at the start of the bundle. -/
def fxStsave (_g a st tk : Nat) : SlotMeaning :=
  { cell := fun e s =>
      if e.rc.stHeld e.d e.l st then .error (shape 5)
      else
        match descTargets e s a .strStore with
        | .error f => .error f
        | .ok (s, ts) =>
          match e.watch [((e.q.rX a).toNat, 64)] with
          | some f => .error f
          | none =>
            let ps := ts.zipIdx.map (fun t => ({ lane := t.2, tgt := t.1, n := 8, op := .store, val := (e.q.rSt st t.2).toNat } : Part))
            .ok (s, { req := some (cellReq e tk none (.mem (.stream none) ps) true true) }) }

/-- STLOAD: the stream is pending until its image lands. -/
def fxStload (_g a st tk : Nat) : SlotMeaning :=
  { cell := fun e s =>
      if e.rc.stHeld e.d e.l st then .error (shape 5)
      else
        match descTargets e s a .strLoad with
        | .error f => .error f
        | .ok (s, ts) =>
          let ps := ts.zipIdx.map (fun t => ({ lane := t.2, tgt := t.1, n := 8, op := .load, val := 0 } : Part))
          .ok (s, { marks := [(.st st, List.range 8)], req := some (cellReq e tk (some (.st st)) (.stload st ps) false false) }) }

/-! ## Vector transfers (R200, R256) -/

/-- The checks of a transfer on its stream, by ascending detail (log entry 18). `second` is the BFP register beside. -/
def transferFault (e : CellEnv) (D : Desc) (st v : Nat) (store : Bool) : Option FInfo :=
  if dStore D ≠ store ∨ (dBfp D ∧ 8 * e.rc.win.v ≤ v + 1) then some (shape 3)
  else if dEnd D ∨ !dGo D then some (shape 4)
  else if e.rc.stHeld e.d e.l st then some (shape 5)
  else none

/-- The step of R235 at which an item's fault is found. -/
def faultStep (f : FInfo) : Nat :=
  if f.1 = cPROTECT then (match f.2.1 with | 4 | 5 => 1 | 0 => 2 | 2 => 3 | 3 => 5 | _ => 6)
  else if f.1 = cPAGE then 4 else if f.1 = cWEIGHTWR then 5 else 7

/-- The fault of the items of a transfer: by the steps of R235, the count of the regions they touch among them (R255), within
a step that of the first item. -/
def itemsFault (D : Desc) (is : List Item) : Option FInfo :=
  let many := if dClass D = 6 then none
    else regionFault [] (is.flatMap (fun i => (itemBytes D i.t).map (fun a => { lane := 0, va := a.1, n := a.2, kind := .item false (dClass D) })))
  match is.filterMap Item.fault ++ many.toList with
  | [] => none
  | f :: fs => some (fs.foldl (fun a b => if faultStep b < faultStep a then b else a) f)

/-- What LDV writes of an item: (unit, value), unit 64 + i for the scale register (R200). -/
def itemLanes (D : Desc) (lanes : List Nat) (first : Nat) (i : Item) : List (Nat × Nat) :=
  if dBfp D then
    (List.range (dBs D)).flatMap (fun j =>
      if lanes.contains (first + j) then
        [(first + j, wrap32 (sext (i.vals.getD j 0) (dMant D))), (64 + first + j, i.vals.getLastD 0)]
      else [])
  else
    [(first, match dFmt D with
      | 0 => i.vals.headD 0
      | 1 => i.vals.headD 0 * 2 ^ 16
      | _ => wrap32 (sext (i.vals.headD 0) 8))]
where
  /-- An integer as 32 bits. -/
  wrap32 (x : Int) : Nat := (x % (2 ^ 32 : Int)).toNat

/-- The lanes a transfer marks pending in its destination registers. -/
def transferMarks (D : Desc) (v : Nat) (vs : List (Nat × Nat)) : List (RegId × List Nat) :=
  let us := vs.map Prod.fst
  (.v v, us.filter (fun u => u < 64)) ::
    (if dBfp D then [(.v (v + 1), (us.filter (fun u => 64 ≤ u)).map (fun u => u - 64))] else [])

/-- The units LDV writes, whatever the items hold. -/
def ldvUnits (D : Desc) (lanes : List Nat) (want : List (Nat × Nat)) : List (Nat × Nat) :=
  want.flatMap (fun p => itemLanes D lanes p.1 { st := 0, t := p.2, vals := [], fault := none, empty := false })

/-- An item that LDV consumes was fetched from an empty scratch line, or, not fetched yet, lies on one now (R242). -/
def State.wantEmpty (s : State) (e : CellEnv) (st t : Nat) : Bool :=
  match e.y.itemAhead st t with
  | some i => if i.live then i.empty else s.itemEmpty e.c e.d e.l (e.q.desc st) s.nextId t
  | none => s.itemEmpty e.c e.d e.l (e.q.desc st) s.nextId t

/-- LDV: the items are read when the bundle executes, or were fetched ahead. An item read from an empty scratch line
sets UW where the result lands, or raises UNDERWAIT (R242, R421). While something before it keeps its items back (an
acquire, R316; a release, R315; an operation of the cell whose effect they must show, R198, R241), they are checked now,
their full/empty bits among it, and fetched after it. The A bit changes nothing here: the stream fetches ahead by itself (R198). (Log entry 77: DEDUCED.) -/
def fxLdv (_g : Nat) (_acc : Bool) (d st tk : Nat) : SlotMeaning :=
  { empty := fun e s => (transferFault e (e.q.desc st) st d false).isNone
      && (transferItems (e.q.desc st) e.lanes false).any (fun w => s.wantEmpty e st w.2)
    cell := fun e s =>
      let D := e.q.desc st
      match transferFault e D st d false with
      | some f => .error f
      | none =>
       let want := transferItems D e.lanes false
       let ts := want.map Prod.snd
       let cur := min (dCur D + dItems D) (dLen D)
       let flags := if ts.any (fun t => s.wantEmpty e st t) then 0x100 else 0
       let acq := e.rc.acquireWaits e.d e.l s.nextId
       if acq || e.rc.releaseWaits e.d e.l s.nextId || s.itemsHeld e.c e.d e.l D st s.nextId ts then
        match s.transferTargets e.c e.d e.l D ts, (if acq then none else (ts.filterMap (e.y.itemAhead st)).findSome? Item.fault) with
        | .error f, _ => .error f
        | .ok _, some f => .error f
        | .ok (s, _), none =>
          .ok (s, { marks := transferMarks D d (ldvUnits D e.lanes want)
                    writes := [descWrite st (advance D (dItems D) (dfld D 7 48 8)) 1 e.ein.toNat]
                    req := some { cellReq e tk (some (.v d)) (.ldv st D want e.lanes) false false with flags := flags } })
       else
        let (s, is) := s.getItems e.c e.d e.l D st s.nextId ts
        match itemsFault D is with
        | some f => .error f
        | none =>
          let vs := (want.zip is).flatMap (fun p => itemLanes D e.lanes p.1.1 p.2)
          let q : Req := { cellReq e tk (some (.v d)) (.vals vs) false false with flags := flags }
          .ok (s, { marks := transferMarks D d vs, writes := [descWrite st (advance D (dItems D) (dfld D 7 48 8)) 1 e.ein.toNat]
                    set := fun _ y => y.dropItems st cur, req := some q }) }

/-- The values STV writes of an item: one number for each access of the item. -/
def stvVals (D : Desc) (q : CellCore) (v first : Nat) : List Nat :=
  if dBfp D then
    let f := ((List.range (dBs D)).map (fun j => (q.rV v (first + j)).toNat % 2 ^ dMant D * 2 ^ (dMant D * j))).sum
    (List.range (dUnit D)).map (fun i => f / 256 ^ i % 256) ++ [(q.rV (v + 1) first).toNat % 256]
  else
    match dFmt D with
    | 0 => [(q.rV v first).toNat]
    | 1 => [(q.rV v first).toNat / 2 ^ 16]
    | _ => [(q.rV v first).toNat % 256]

/-- The accesses of an item as parts of a store. -/
def itemParts (D : Desc) (t : Nat) (ts : List Target) (vs : List Nat) : List Part :=
  (((itemBytes D t).zip ts).zip vs).map (fun p => { lane := 0, tgt := p.1.2, n := p.1.1.2, op := .store, val := p.2 })

/-- STV. -/
def fxStv (_g a st tk : Nat) : SlotMeaning :=
  { cell := fun e s =>
      let D := e.q.desc st
      match transferFault e D st a true with
      | some f => .error f
      | none =>
        let want := transferItems D e.lanes true
        match s.transferTargets e.c e.d e.l D (want.map Prod.snd) with
        | .error f => .error f
        | .ok (s, tss) =>
          match (if dClass D = 6 then none else e.watch (want.flatMap (fun p => itemBytes D p.2))) with
          | some f => .error f
          | none =>
            let ps := (want.zip tss).flatMap (fun p => itemParts D p.1.2 p.2 (stvVals D e.q a p.1.1))
            .ok (s, { writes := [descWrite st (advance D (dItems D) (dfld D 7 48 8)) 1 e.ein.toNat]
                      req := some (cellReq e tk none (.mem (dPath D) ps) true true) }) }

end Sys2Proof.Machine
end

