-- ==== Sys2Proof/Machine/Flags.lean ====
section
/-! DEFINITION. Rounding (R12), the binary floating-point formats (R170, R171) and the IEEE flags. Values are exact
dyadic numbers; a value that is no dyadic number is given to enough bits with an odd last bit, which rounds as it
does. -/

namespace Sys2Proof.Machine

/-! ## Flags (R141) -/

def fNV : Nat := 1
def fDZ : Nat := 2
def fOF : Nat := 4
def fUF : Nat := 8
def fNX : Nat := 16
def fUW : Nat := 0x100
def fSFLR : Nat := 0x200
def fGOVR : Nat := 0x400

/-- The canonical quiet NaN of F32 (R148). -/
def qNaN : Nat := 0x7FC00000

/-! ## Values -/

/-- A floating-point datum: NaN (signalling or not), infinity, or (−1)^neg · m · 2^e. -/
inductive FVal where
  | nan (sig : Bool) | inf (neg : Bool) | fin (neg : Bool) (m : Nat) (e : Int)
  deriving DecidableEq, Repr

/-- The value of an F32 (R170). -/
def f32Val (w : Nat) : FVal :=
  let neg := decide (w / 2 ^ 31 % 2 = 1)
  let E : Nat := w / 2 ^ 23 % 256
  let T : Nat := w % 2 ^ 23
  if E = 255 then (if T = 0 then .inf neg else .nan (decide (T < 2 ^ 22)))
  else if E = 0 then .fin neg T (-149)
  else .fin neg (2 ^ 23 + T) (((E : Nat) : Int) - 150)

/-- The datum is a signalling NaN. -/
def FVal.isSnan : FVal → Bool | .nan s => s | _ => false
/-- The datum is a NaN. -/
def FVal.isNan : FVal → Bool | .nan _ => true | _ => false
/-- The datum with its sign inverted. -/
def FVal.negate : FVal → FVal | .nan s => .nan s | .inf n => .inf (!n) | .fin n m e => .fin (!n) m e
/-- The number of bits of a number. -/
def bitLen (m : Nat) : Nat := if m = 0 then 0 else Nat.log2 m + 1

/-! ## Rounding a magnitude (R12) -/

/-- m · 2^e in units of 2^q, rounded; whether it was inexact. Under SR the discarded part is cut to 32 bits for the
decision. -/
def roundAt (mode : Rm) (rb : Nat) (neg : Bool) (m : Nat) (e q : Int) : Nat × Bool :=
  if q ≤ e then (m * 2 ^ (e - q).toNat, false)
  else
    let u := 2 ^ (q - e).toNat
    let k := m / u
    let r := m % u
    let up := match mode with
      | .rne | .dyn => decide (u < 2 * r ∨ (u = 2 * r ∧ k % 2 = 1))
      | .rtz => false
      | .rup => !neg && decide (0 < r)
      | .rdn => neg && decide (0 < r)
      | .sr => decide (2 ^ 32 ≤ r * 2 ^ 32 / u + rb)
    (if up then k + 1 else k, decide (0 < r))

/-- An overflow gives infinity under the mode, else the largest finite number. -/
def overInf (mode : Rm) (neg : Bool) : Bool :=
  match mode with
  | .rtz => false
  | .rup => !neg
  | .rdn => neg
  | .rne | .dyn | .sr => true

/-- The sign bit of a format of `w` bits. -/
def signBit (w : Nat) (neg : Bool) : Nat := if neg then 2 ^ (w - 1) else 0

/-- round(x, f, mode) for the floating formats with an 8-bit exponent of bias 127 and precision p: 24 for F32, 8 for
BF16. The result's bits and the flags. -/
def roundFloat (p : Nat) (mode : Rm) (rb : Nat) (x : FVal) : Nat × Nat :=
  let w := p + 8
  let infBits := 255 * 2 ^ (p - 1)
  match x with
  | .nan s => (infBits + 2 ^ (p - 2), if s then fNV else 0)
  | .inf neg => (signBit w neg + infBits, 0)
  | .fin neg m e =>
    if m = 0 then (signBit w neg, 0)
    else
      let qmin : Int := -125 - (p : Int)
      let free : Int := e + (bitLen m : Int) - (p : Int)
      let q := max free qmin
      let (k, nx) := roundAt mode rb neg m e q
      let bits := (q - qmin).toNat * 2 ^ (p - 1) + k
      if infBits ≤ bits then
        (signBit w neg + (if overInf mode neg then infBits else infBits - 1), fOF + fNX)
      else
        let (k', _) := roundAt mode rb neg m e free
        let tiny := decide (free < qmin) && decide (bitLen k' + (free - qmin) < (p : Int))
        (signBit w neg + bits, (if nx then fNX else 0) + (if nx && tiny then fUF else 0))

/-- round to F32. -/
def roundF32 (mode : Rm) (x : FVal) : Nat × Nat := roundFloat 24 mode 0 x

/-- round(x, integer, mode): the integer and whether it was inexact; for finite x. -/
def roundInteger (mode : Rm) (rb : Nat) (neg : Bool) (m : Nat) (e : Int) : Int × Bool :=
  let (k, nx) := roundAt mode rb neg m e 0
  (if neg then -(k : Int) else k, nx)

/-- round(x, f, mode) for the two's-complement format of w bits: value and flags. -/
def roundSigned (w : Nat) (mode : Rm) (rb : Nat) (x : FVal) : Int × Nat :=
  let hi : Int := 2 ^ (w - 1) - 1
  let lo : Int := -2 ^ (w - 1)
  match x with
  | .nan _ => (0, fNV)
  | .inf neg => (if neg then lo else hi, fNV)
  | .fin neg m e =>
    let (i, nx) := roundInteger mode rb neg m e
    if hi < i then (hi, fNV) else if i < lo then (lo, fNV) else (i, if nx then fNX else 0)

/-! ## Exact operations (R148) -/

/-- The flag of a signalling NaN among operands. -/
def snanFlag (xs : List FVal) : Nat := if xs.any FVal.isSnan then fNV else 0

/-- An exact integer multiple of 2^e as a datum; `z` is the sign of a zero. -/
def finOf (i : Int) (e : Int) (z : Bool) : FVal := .fin (if i = 0 then z else decide (i < 0)) i.natAbs e

/-- The signed integer of a finite datum in units of 2^e0. -/
def unitsOf (neg : Bool) (m : Nat) (e e0 : Int) : Int :=
  let x : Int := (m * 2 ^ (e - e0).toNat : Nat)
  if neg then -x else x

/-- a + b: the exact sum, or its NaN with NV where invalid. -/
def addExact (mode : Rm) (a b : FVal) : FVal × Nat :=
  match a, b with
  | .nan _, _ | _, .nan _ => (.nan false, snanFlag [a, b])
  | .inf x, .inf y => if x = y then (.inf x, 0) else (.nan false, fNV)
  | .inf x, _ | _, .inf x => (.inf x, 0)
  | .fin n1 m1 e1, .fin n2 m2 e2 =>
    let e0 := min e1 e2
    (finOf (unitsOf n1 m1 e1 e0 + unitsOf n2 m2 e2 e0) e0 (if n1 = n2 then n1 else mode == .rdn), 0)

/-- a × b. -/
def mulExact (a b : FVal) : FVal × Nat :=
  match a, b with
  | .nan _, _ | _, .nan _ => (.nan false, snanFlag [a, b])
  | .inf x, .inf y => (.inf (x != y), 0)
  | .inf x, .fin y m _ | .fin y m _, .inf x => if m = 0 then (.nan false, fNV) else (.inf (x != y), 0)
  | .fin n1 m1 e1, .fin n2 m2 e2 => (.fin (n1 != n2) (m1 * m2) (e1 + e2), 0)

/-- a × b + c, unrounded in between (R155). A product 0 × ∞ is invalid whatever c is. -/
def fmaExact (mode : Rm) (flip : Bool) (a b c : FVal) : FVal × Nat :=
  let (p, fl) := mulExact a b
  if a.isNan || b.isNan then (.nan false, snanFlag [a, b, c])
  else if p.isNan then (.nan false, fl)
  else addExact mode (if flip then p.negate else p) c

/-- A quotient to at least 40 bits, its last bit odd where it is not exact. -/
def quotient (n d : Nat) (e : Int) (neg : Bool) : FVal :=
  let k := n * 2 ^ 64 / d
  let r := n * 2 ^ 64 % d
  .fin neg (2 * k + (if r = 0 then 0 else 1)) (e - 65)

/-- a / b (R155). -/
def divExact (a b : FVal) : FVal × Nat :=
  match a, b with
  | .nan _, _ | _, .nan _ => (.nan false, snanFlag [a, b])
  | .inf _, .inf _ => (.nan false, fNV)
  | .inf x, .fin y _ _ => (.inf (x != y), 0)
  | .fin x _ _, .inf y => (.fin (x != y) 0 0, 0)
  | .fin x m1 e1, .fin y m2 e2 =>
    if m2 = 0 then (if m1 = 0 then (.nan false, fNV) else (.inf (x != y), fDZ))
    else if m1 = 0 then (.fin (x != y) 0 0, 0)
    else (quotient m1 m2 (e1 - e2) (x != y), 0)

/-- The integer square root of n, for n below 4^b: the largest r with r² ≤ n. -/
def isqrt (n : Nat) : Nat → Nat → Nat
  | 0, r => r
  | b + 1, r => if (r + 2 ^ b) * (r + 2 ^ b) ≤ n then isqrt n b (r + 2 ^ b) else isqrt n b r

/-- √a (R156). -/
def sqrtExact (a : FVal) : FVal × Nat :=
  match a with
  | .nan s => (.nan false, if s then fNV else 0)
  | .inf neg => if neg then (.nan false, fNV) else (.inf false, 0)
  | .fin neg m e =>
    if m = 0 then (a, 0)
    else if neg then (.nan false, fNV)
    else
      let (m, e) := if e % 2 = 0 then (m, e) else (2 * m, e - 1)
      let n := m * 2 ^ 64
      let r := isqrt n 48 0
      (.fin false (2 * r + (if r * r = n then 0 else 1)) (e / 2 - 33), 0)

/-- 1/√a (R156). -/
def rsqrtExact (a : FVal) : FVal × Nat :=
  match a with
  | .nan s => (.nan false, if s then fNV else 0)
  | .inf neg => if neg then (.nan false, fNV) else (.fin false 0 0, 0)
  | .fin neg m e =>
    if m = 0 then (.inf neg, fDZ)
    else if neg then (.nan false, fNV)
    else
      let (m, e) := if e % 2 = 0 then (m, e) else (2 * m, e - 1)
      let n := 2 ^ 128 / m
      let r := isqrt n 66 0
      (.fin false (2 * r + (if r * r * m = 2 ^ 128 then 0 else 1)) (-(e / 2) - 65), 0)

/-! ## Exponential and logarithm: fixed point with 256 fraction bits

A result that is not exact is irrational, so its odd last bit never lies at a rounding boundary (log entry 16). -/

/-- Fraction bits. -/
def fxBits : Nat := 256

/-- Σ z^(2k+1)/(2k+1), in fixed point. -/
def atanhSum (z2 : Nat) : Nat → Nat → Nat → Nat
  | 0, _, _ => 0
  | n + 1, pow, d => pow / d + atanhSum z2 n (pow * z2 / 2 ^ fxBits) (d + 2)

/-- ln(num/den) in fixed point, for 1 ≤ num/den ≤ 2. -/
def lnRatio (num den : Nat) : Nat :=
  let z := (num - den) * 2 ^ fxBits / (num + den)
  2 * atanhSum (z * z / 2 ^ fxBits) 90 z 1

/-- ln 2 in fixed point. -/
def ln2 : Nat := lnRatio 2 1

/-- Σ y^k/k!, in fixed point. -/
def expSum (y : Nat) : Nat → Nat → Nat → Nat
  | 0, _, _ => 0
  | n + 1, t, k => t + expSum y n (t * y / 2 ^ fxBits / k) (k + 1)

/-- 2^a (R156). Beyond ±512 every result overflows or is below every format. -/
def exp2Exact (a : FVal) : FVal × Nat :=
  match a with
  | .nan s => (.nan false, if s then fNV else 0)
  | .inf neg => if neg then (.fin false 0 0, 0) else (.inf false, 0)
  | .fin neg m e =>
    if m = 0 then (.fin false 1 0, 0)
    else if 9 < e + (bitLen m : Int) then (.fin false 1 (if neg then -512 else 512), 0)
    else
      let fx := unitsOf neg m (e + fxBits) 0
      let n := fx / 2 ^ fxBits
      let f := (fx % 2 ^ fxBits).toNat
      if f = 0 then (.fin false 1 n, 0)
      else (.fin false (2 * expSum (f * ln2 / 2 ^ fxBits) 80 (2 ^ fxBits) 1 + 1) (n - fxBits - 1), 0)

/-- log2 a (R156). -/
def log2Exact (a : FVal) : FVal × Nat :=
  match a with
  | .nan s => (.nan false, if s then fNV else 0)
  | .inf neg => if neg then (.nan false, fNV) else (.inf false, 0)
  | .fin neg m e =>
    if m = 0 then (.inf true, fDZ)
    else if neg then (.nan false, fNV)
    else
      let l := bitLen m - 1
      let n : Int := e + l
      if m = 2 ^ l then (finOf n 0 false, 0)
      else
        let r : Int := n * 2 ^ fxBits + ((lnRatio m (2 ^ l) * 2 ^ fxBits / ln2 : Nat) : Int)
        (.fin (decide (r < 0)) (2 * r.natAbs + 1) (-(fxBits : Int) - 1), 0)

/-! ## Operations of a lane: bits and flags -/

/-- Rounds an exact result to F32, joining the flags. -/
def rnd (mode : Rm) (x : FVal × Nat) : Nat × Nat :=
  let (y, fl) := roundF32 mode x.1
  (y, fl ||| x.2)

/-- F32 operations of R155 and R156 on lane images. -/
def f32Add (mode : Rm) (a b : Nat) : Nat × Nat := rnd mode (addExact mode (f32Val a) (f32Val b))
def f32Sub (mode : Rm) (a b : Nat) : Nat × Nat := rnd mode (addExact mode (f32Val a) (f32Val b).negate)
def f32Mul (mode : Rm) (a b : Nat) : Nat × Nat := rnd mode (mulExact (f32Val a) (f32Val b))
def f32Div (mode : Rm) (a b : Nat) : Nat × Nat := rnd mode (divExact (f32Val a) (f32Val b))
def f32Fma (mode : Rm) (a b c : Nat) : Nat × Nat := rnd mode (fmaExact mode false (f32Val a) (f32Val b) (f32Val c))
def f32Fms (mode : Rm) (a b c : Nat) : Nat × Nat := rnd mode (fmaExact mode false (f32Val a) (f32Val b) (f32Val c).negate)
def f32Fnma (mode : Rm) (a b c : Nat) : Nat × Nat := rnd mode (fmaExact mode true (f32Val a) (f32Val b) (f32Val c))
def f32Sqrt (mode : Rm) (a : Nat) : Nat × Nat := rnd mode (sqrtExact (f32Val a))
def f32Rsqrt (mode : Rm) (a : Nat) : Nat × Nat := rnd mode (rsqrtExact (f32Val a))
def f32Exp2 (mode : Rm) (a : Nat) : Nat × Nat := rnd mode (exp2Exact (f32Val a))
def f32Log2 (mode : Rm) (a : Nat) : Nat × Nat := rnd mode (log2Exact (f32Val a))

/-- A key that orders the F32 data that are not NaN, −0 below +0. -/
def f32Key (w : Nat) : Int := if w / 2 ^ 31 % 2 = 1 then -((w % 2 ^ 31 : Nat) : Int) - 1 else ((w % 2 ^ 31 : Nat) : Int)

/-- a < b of IEEE 754: false against a NaN, +0 equal to −0. -/
def f32Lt (a b : Nat) : Bool :=
  let z := fun w => if w % 2 ^ 31 = 0 then 0 else f32Key w
  !(f32Val a).isNan && !(f32Val b).isNan && decide (z a < z b)

/-- a = b of IEEE 754. -/
def f32Eq (a b : Nat) : Bool :=
  !(f32Val a).isNan && !(f32Val b).isNan && (a == b || (a % 2 ^ 31 == 0 && b % 2 ^ 31 == 0))

/-- VFMIN and VFMAX (R157). -/
def f32MinMax (isMax : Bool) (a b : Nat) : Nat × Nat :=
  let x := f32Val a
  let y := f32Val b
  let fl := snanFlag [x, y]
  if x.isNan && y.isNan then (qNaN, fl)
  else if x.isNan then (b, fl)
  else if y.isNan then (a, fl)
  else (if (decide (f32Key a < f32Key b)) != isMax then a else b, fl)

/-- The class code of R159. -/
def f32Class (w : Nat) : Nat :=
  match f32Val w with
  | .nan s => if s then 2 ^ 8 else 2 ^ 9
  | .inf neg => if neg then 2 ^ 0 else 2 ^ 7
  | .fin neg m _ =>
    let k := if m = 0 then 3 else if m < 2 ^ 23 then 2 else 1
    if neg then 2 ^ k else 2 ^ (7 - k)

end Sys2Proof.Machine
end

