-- ==== Sys2Proof/Machine/Vec.lean ====
section
/-! DEFINITION. The V slot instructions (R149 to R163): moves, integer and logical operations, compares, F32
arithmetic, reductions, cell scalars. The first operand of each meaning is the guard, which has chosen the lanes. -/

namespace Sys2Proof.Machine

/-! ## Shapes -/

/-- A meaning with effects in one cell alone. -/
def cellFx (f : CellEnv → CellFx) : SlotMeaning := { cell := fun e s => .ok (s, f e) }

/-- A vector result: a value and flags for each active lane. -/
def vOp (d lat : Nat) (f : CellCore → Nat → Nat × Nat) : SlotMeaning :=
  cellFx (fun e =>
    let rs := e.lanes.map (fun i => (i, f e.q i))
    { writes := [{ reg := .v d, vals := rs.map (fun r => (r.1, r.2.1)), lat := lat
                   flags := rs.foldl (fun (fl : Nat) r => fl ||| r.2.2) 0, ein := e.ein.toNat }] })

/-- A vector result that raises no flag. -/
def vOp0 (d lat : Nat) (f : CellCore → Nat → Nat) : SlotMeaning := vOp d lat (fun q i => (f q i, 0))

/-- A lane-mask result: a bit and flags for each active lane. -/
def kOp (d lat : Nat) (f : CellCore → Nat → Bool × Nat) : SlotMeaning :=
  cellFx (fun e =>
    let rs := e.lanes.map (fun i => (i, f e.q i))
    { writes := [{ reg := .k d, vals := rs.map (fun r => (r.1, if r.2.1 then 1 else 0)), lat := lat
                   flags := rs.foldl (fun (fl : Nat) r => fl ||| r.2.2) 0, ein := e.ein.toNat }] })

/-- A cell scalar result with flags, of the active lanes. -/
def xOp (d lat : Nat) (f : CellCore → List Nat → Nat × Nat) : SlotMeaning :=
  cellFx (fun e => let r := f e.q e.lanes
    { writes := [{ reg := .x d, vals := [(0, r.1)], lat := lat, flags := r.2, ein := e.ein.toNat }] })

/-- A cell scalar result without flags. -/
def xOp0 (d lat : Nat) (f : CellCore → Word) : SlotMeaning := xOp d lat (fun q _ => ((f q).toNat, 0))

/-- The rounding mode of an operation: DYN reads DRM as it stood at the start of the bundle (R142). -/
def CellCore.mode (q : CellCore) (rm : Rm) : Rm :=
  match rm with
  | .dyn => (match bitsOf q.cctl 0 2 with | 0 => .rne | 1 => .rtz | 2 => .rup | _ => .rdn)
  | m => m

/-! ## Elements (R145) -/

/-- Elements of the type are read signed. -/
def tySigned : Ty → Bool
  | .i32 | .i16x2 | .i8x4 | .f32 => true
  | .n32 | .n16x2 | .n8x4 => false

/-- Element j of a lane, as its bits. -/
def elem (w j : Nat) (x : Lane) : Nat := x.toNat / 2 ^ (w * j) % 2 ^ w

/-- An element read by its signedness. -/
def elemVal (signed : Bool) (w : Nat) (e : Nat) : Int := if signed then sext e w else (e : Int)

/-- A lane put together from its elements. -/
def laneOf (w n : Nat) (f : Nat → Nat) : Nat := ((List.range n).map (fun j => f j % 2 ^ w * 2 ^ (w * j))).sum

/-- An element of width w from an integer, modulo 2^w. -/
def wrapElem (w : Nat) (i : Int) : Nat := (i % (2 ^ w : Int)).toNat

/-- An element-wise operation. -/
def vElem (ty : Ty) (d lat : Nat) (f : CellCore → Nat → Nat → Int) : SlotMeaning :=
  vOp0 d lat (fun q i => laneOf ty.width (32 / ty.width) (fun j => wrapElem ty.width (f q i j)))

/-- An element-wise operation of two sources, read by the signedness of the type (R150). -/
def vInt (ty : Ty) (d a b lat : Nat) (f : Int → Int → Int) : SlotMeaning :=
  vElem ty d lat (fun q i j =>
    f (elemVal (tySigned ty) ty.width (elem ty.width j (q.rV a i))) (elemVal (tySigned ty) ty.width (elem ty.width j (q.rV b i))))

/-- The smallest and the largest value of a type. -/
def tyMin (ty : Ty) : Int := if tySigned ty then -2 ^ (ty.width - 1) else 0
def tyMax (ty : Ty) : Int := if tySigned ty then 2 ^ (ty.width - 1) - 1 else 2 ^ ty.width - 1

/-! ## Moves (R149) -/

def fxVmov (_g d a : Nat) : SlotMeaning := vOp0 d 2 (fun q i => (q.rV a i).toNat)
def fxVmovi (_g : Nat) (ty : Ty) (d imm20 : Nat) : SlotMeaning :=
  vOp0 d 2 (fun _ _ => match ty with
    | .n32 => imm20 % 2 ^ 20
    | .f32 => imm20 % 2 ^ 20 * 2 ^ 12
    | _ => wrapElem 32 (sext imm20 20))
def fxVbcst (_g d a : Nat) : SlotMeaning := vOp0 d 2 (fun q _ => (q.rX a).toNat % 2 ^ 32)
def fxVlane (_g d : Nat) : SlotMeaning := vOp0 d 2 (fun _ i => i)
/-- VCOORD: DX, DY, COL, ST of the cell, or the lane. -/
def fxVcoord (_g d which : Nat) : SlotMeaning :=
  cellFx (fun e =>
    { writes := [{ reg := .v d, lat := 2, ein := e.ein.toNat
                   vals := e.lanes.map (fun i => (i, match which with
                     | 0 => e.d % 8 | 1 => e.d / 8 | 2 => e.l % 16 | 3 => e.l / 16 | _ => i)) }] })

/-! ## Integer and logical operations (R150 to R152) -/

def fxVadd (_g : Nat) (ty : Ty) (d a b : Nat) : SlotMeaning := vInt ty d a b 2 (fun x y => x + y)
def fxVsub (_g : Nat) (ty : Ty) (d a b : Nat) : SlotMeaning := vInt ty d a b 2 (fun x y => x - y)
def fxVmullo (_g : Nat) (ty : Ty) (d a b : Nat) : SlotMeaning := vInt ty d a b 3 (fun x y => x * y)
def fxVmulhi (_g : Nat) (ty : Ty) (d a b : Nat) : SlotMeaning := vInt ty d a b 3 (fun x y => x * y / 2 ^ ty.width)
def fxVmin (_g : Nat) (ty : Ty) (d a b : Nat) : SlotMeaning := vInt ty d a b 2 min
def fxVmax (_g : Nat) (ty : Ty) (d a b : Nat) : SlotMeaning := vInt ty d a b 2 max
def fxVabsd (_g : Nat) (ty : Ty) (d a b : Nat) : SlotMeaning := vInt ty d a b 2 (fun x y => ((x - y).natAbs : Int))
def fxVaddsat (_g : Nat) (ty : Ty) (d a b : Nat) : SlotMeaning :=
  vInt ty d a b 2 (fun x y => min (max (x + y) (tyMin ty)) (tyMax ty))

/-- A bitwise operation on whole lanes. -/
def vBit (d a b : Nat) (f : Lane → Lane → Lane) : SlotMeaning := vOp0 d 2 (fun q i => (f (q.rV a i) (q.rV b i)).toNat)

def fxVand (_g d a b : Nat) : SlotMeaning := vBit d a b (fun x y => x &&& y)
def fxVor (_g d a b : Nat) : SlotMeaning := vBit d a b (fun x y => x ||| y)
def fxVxor (_g d a b : Nat) : SlotMeaning := vBit d a b (fun x y => x ^^^ y)
def fxVandn (_g d a b : Nat) : SlotMeaning := vBit d a b (fun x y => x &&& ~~~y)

/-- A shift by the element of v(b), read unsigned; `f` gets the element's bits and the count. -/
def vShift (ty : Ty) (d a b : Nat) (f : Nat → Nat → Int) : SlotMeaning :=
  vElem ty d 2 (fun q i j => f (elem ty.width j (q.rV a i)) (elem ty.width j (q.rV b i)))

def fxVshl (_g : Nat) (ty : Ty) (d a b : Nat) : SlotMeaning :=
  vShift ty d a b (fun x c => if c < ty.width then ((x * 2 ^ c : Nat) : Int) else 0)
def fxVshr (_g : Nat) (ty : Ty) (d a b : Nat) : SlotMeaning :=
  vShift ty d a b (fun x c => if c < ty.width then ((x / 2 ^ c : Nat) : Int) else 0)
def fxVsar (_g : Nat) (ty : Ty) (d a b : Nat) : SlotMeaning :=
  vShift ty d a b (fun x c =>
    if c < ty.width then sext x ty.width / 2 ^ c else if sext x ty.width < 0 then -1 else 0)
def fxVshli (_g : Nat) (ty : Ty) (d a n : Nat) : SlotMeaning :=
  vElem ty d 2 (fun q i j => ((elem ty.width j (q.rV a i) * 2 ^ n : Nat) : Int))
def fxVpopc (_g : Nat) (ty : Ty) (d a : Nat) : SlotMeaning :=
  vElem ty d 2 (fun q i j => ((List.range ty.width).countP (fun b => (elem ty.width j (q.rV a i)).testBit b) : Int))
def fxVclz (_g : Nat) (ty : Ty) (d a : Nat) : SlotMeaning :=
  vElem ty d 2 (fun q i j => ((ty.width - bitLen (elem ty.width j (q.rV a i)) : Nat) : Int))

/-! ## Selection and permutation (R153) -/

def fxVsel (_g d a b s : Nat) : SlotMeaning :=
  vOp0 d 2 (fun q i => (if tbit (q.rK s) i then q.rV a i else q.rV b i).toNat)
def fxVshf (_g d a b : Nat) : SlotMeaning := vOp0 d 3 (fun q i => (q.rV a ((q.rV b i).toNat % 64)).toNat)
def fxVrot (_g d a n : Nat) : SlotMeaning := vOp0 d 2 (fun q i => (q.rV a ((i + n) % 64)).toNat)

/-! ## Compares (R154) -/

/-- A compare of every element pair of a lane, signed or unsigned by the mnemonic. -/
def vCmp (ty : Ty) (a b m : Nat) (signed : Bool) (f : Int → Int → Bool) : SlotMeaning :=
  kOp m 2 (fun q i =>
    ((List.range (32 / ty.width)).all (fun j =>
      f (elemVal signed ty.width (elem ty.width j (q.rV a i))) (elemVal signed ty.width (elem ty.width j (q.rV b i)))), 0))

def fxVcmpEq (_g : Nat) (ty : Ty) (a b m : Nat) : SlotMeaning := vCmp ty a b m false (fun x y => x == y)
def fxVcmpNe (_g : Nat) (ty : Ty) (a b m : Nat) : SlotMeaning := vCmp ty a b m false (fun x y => x != y)
def fxVcmpLt (_g : Nat) (ty : Ty) (a b m : Nat) : SlotMeaning := vCmp ty a b m true (fun x y => decide (x < y))
def fxVcmpLe (_g : Nat) (ty : Ty) (a b m : Nat) : SlotMeaning := vCmp ty a b m true (fun x y => decide (x ≤ y))
def fxVcmpLtu (_g : Nat) (ty : Ty) (a b m : Nat) : SlotMeaning := vCmp ty a b m false (fun x y => decide (x < y))
def fxVcmpLeu (_g : Nat) (ty : Ty) (a b m : Nat) : SlotMeaning := vCmp ty a b m false (fun x y => decide (x ≤ y))

/-- An F32 compare; `quiet` raises NV for a signalling NaN only. -/
def vFcmp (a b m : Nat) (quiet : Bool) (f : Nat → Nat → Bool) : SlotMeaning :=
  kOp m 2 (fun q i =>
    let x := (q.rV a i).toNat
    let y := (q.rV b i).toNat
    (f x y, if (if quiet then (f32Val x).isSnan || (f32Val y).isSnan else (f32Val x).isNan || (f32Val y).isNan) then fNV else 0))

def fxVfcmpEq (_g a b m : Nat) : SlotMeaning := vFcmp a b m true f32Eq
def fxVfcmpLt (_g a b m : Nat) : SlotMeaning := vFcmp a b m false f32Lt
def fxVfcmpLe (_g a b m : Nat) : SlotMeaning := vFcmp a b m false (fun x y => f32Lt x y || f32Eq x y)
def fxVfcmpUn (_g a b m : Nat) : SlotMeaning := vFcmp a b m true (fun x y => (f32Val x).isNan || (f32Val y).isNan)

/-! ## F32 arithmetic (R155 to R159) -/

/-- A two-operand F32 operation in a mode. -/
def vF2 (rm : Rm) (d a b lat : Nat) (f : Rm → Nat → Nat → Nat × Nat) : SlotMeaning :=
  vOp d lat (fun q i => f (q.mode rm) (q.rV a i).toNat (q.rV b i).toNat)

/-- A three-operand F32 operation in a mode. -/
def vF3 (rm : Rm) (d a b c : Nat) (f : Rm → Nat → Nat → Nat → Nat × Nat) : SlotMeaning :=
  vOp d 4 (fun q i => f (q.mode rm) (q.rV a i).toNat (q.rV b i).toNat (q.rV c i).toNat)

/-- A one-operand F32 function in a mode. -/
def vF1 (rm : Rm) (d a lat : Nat) (f : Rm → Nat → Nat × Nat) : SlotMeaning :=
  vOp d lat (fun q i => f (q.mode rm) (q.rV a i).toNat)

def fxVfadd (_g : Nat) (rm : Rm) (d a b : Nat) : SlotMeaning := vF2 rm d a b 4 f32Add
def fxVfsub (_g : Nat) (rm : Rm) (d a b : Nat) : SlotMeaning := vF2 rm d a b 4 f32Sub
def fxVfmul (_g : Nat) (rm : Rm) (d a b : Nat) : SlotMeaning := vF2 rm d a b 4 f32Mul
def fxVfma (_g : Nat) (rm : Rm) (d a b c : Nat) : SlotMeaning := vF3 rm d a b c f32Fma
def fxVfms (_g : Nat) (rm : Rm) (d a b c : Nat) : SlotMeaning := vF3 rm d a b c f32Fms
def fxVfnma (_g : Nat) (rm : Rm) (d a b c : Nat) : SlotMeaning := vF3 rm d a b c f32Fnma
def fxVfmin (_g d a b : Nat) : SlotMeaning := vOp d 4 (fun q i => f32MinMax false (q.rV a i).toNat (q.rV b i).toNat)
def fxVfmax (_g d a b : Nat) : SlotMeaning := vOp d 4 (fun q i => f32MinMax true (q.rV a i).toNat (q.rV b i).toNat)
def fxVfabs (_g d a : Nat) : SlotMeaning := vOp0 d 2 (fun q i => (q.rV a i).toNat % 2 ^ 31)
def fxVfneg (_g d a : Nat) : SlotMeaning := vOp0 d 2 (fun q i => (q.rV a i ^^^ 0x80000000).toNat)
def fxVfdiv (_g : Nat) (rm : Rm) (d a b : Nat) : SlotMeaning := vF2 rm d a b 14 f32Div
def fxVfsqrt (_g : Nat) (rm : Rm) (d a : Nat) : SlotMeaning := vF1 rm d a 14 f32Sqrt
def fxVfrsqrt (_g : Nat) (rm : Rm) (d a : Nat) : SlotMeaning := vF1 rm d a 10 f32Rsqrt
def fxVfexp2 (_g : Nat) (rm : Rm) (d a : Nat) : SlotMeaning := vF1 rm d a 10 f32Exp2
def fxVflog2 (_g : Nat) (rm : Rm) (d a : Nat) : SlotMeaning := vF1 rm d a 10 f32Log2
def fxVfclass (_g d a : Nat) : SlotMeaning := vOp0 d 2 (fun q i => f32Class (q.rV a i).toNat)

/-! ## Reductions (R160, R161) -/

/-- One level of the tree: neighbours are added. -/
def pairSums (mode : Rm) : List Nat → List Nat × Nat
  | a :: b :: xs =>
    let (y, f) := f32Add mode a b
    let (ys, g) := pairSums mode xs
    (y :: ys, f ||| g)
  | _ => ([], 0)

/-- n levels of the tree, with the flags of every node. -/
def treeSum (mode : Rm) : Nat → List Nat → Nat × Nat
  | 0, xs => (xs.headD 0, 0)
  | n + 1, xs =>
    let (ys, f) := pairSums mode xs
    let (y, g) := treeSum mode n ys
    (y, f ||| g)

def fxVrsumF32 (_g : Nat) (rm : Rm) (d a : Nat) : SlotMeaning :=
  xOp d 10 (fun q lanes => treeSum (q.mode rm) 6
    ((List.range 64).map (fun i => if lanes.contains i then (q.rV a i).toNat else 0x80000000)))

/-- The largest of F32 data: a NaN among them gives the canonical one. -/
def f32Largest (xs : List Nat) : Nat × Nat :=
  let fl := snanFlag (xs.map f32Val)
  if xs.any (fun x => (f32Val x).isNan) then (qNaN, fl)
  else (xs.foldl (fun m x => if f32Key m < f32Key x then x else m) (xs.headD 0), fl)

def fxVrmaxF32 (_g d a : Nat) : SlotMeaning := xOp d 6 (fun q lanes => f32Largest (lanes.map (fun i => (q.rV a i).toNat)))
def fxVramax (_g d a : Nat) : SlotMeaning :=
  xOp d 6 (fun q lanes => f32Largest (lanes.map (fun i => (q.rV a i).toNat % 2 ^ 31)))

/-- The active elements of a 32-bit integer type. -/
def laneInts (ty : Ty) (q : CellCore) (a : Nat) (lanes : List Nat) : List Int :=
  lanes.map (fun i => elemVal (tySigned ty) 32 (q.rV a i).toNat)

def fxVrsumI (_g : Nat) (ty : Ty) (d a : Nat) : SlotMeaning :=
  xOp d 6 (fun q lanes => ((wordOfInt ((laneInts ty q a lanes).foldl (fun s x => s + x) 0)).toNat, 0))
def fxVrmaxI (_g : Nat) (ty : Ty) (d a : Nat) : SlotMeaning :=
  xOp d 6 (fun q lanes => let xs := laneInts ty q a lanes
    ((wordOfInt (xs.foldl max (xs.headD 0))).toNat, 0))

/-! ## Cell scalars (R162, R163) -/

def fxXmov (_g d a : Nat) : SlotMeaning := xOp0 d 1 (fun q => q.rX a)
def fxXmovi (_g d imm20 : Nat) : SlotMeaning := xOp0 d 1 (fun _ => wordOfInt (sext imm20 20))
def fxXadd (_g d a b : Nat) : SlotMeaning := xOp0 d 1 (fun q => q.rX a + q.rX b)
def fxXsub (_g d a b : Nat) : SlotMeaning := xOp0 d 1 (fun q => q.rX a - q.rX b)
def fxXmul (_g d a b : Nat) : SlotMeaning := xOp0 d 3 (fun q => q.rX a * q.rX b)
def fxXand (_g d a b : Nat) : SlotMeaning := xOp0 d 1 (fun q => q.rX a &&& q.rX b)
def fxCellXor (_g d a b : Nat) : SlotMeaning := xOp0 d 1 (fun q => q.rX a ^^^ q.rX b)
def fxXshl (_g d a b : Nat) : SlotMeaning := xOp0 d 1 (fun q => q.rX a <<< ((q.rX b).toNat % 64))
def fxXshr (_g d a b : Nat) : SlotMeaning := xOp0 d 1 (fun q => q.rX a >>> ((q.rX b).toNat % 64))

/-- XCMP writes its one result to the bit of every active lane (latency: log entry 17). -/
def fxXcmp (_g : Nat) (cc : Cc) (a b m : Nat) : SlotMeaning :=
  kOp m 1 (fun q _ =>
    let x := q.rX a
    let y := q.rX b
    (match cc with
      | .eq => x == y
      | .ne => x != y
      | .lt => decide (x.toInt < y.toInt)
      | .le => decide (x.toInt ≤ y.toInt)
      | .ltu => decide (x < y)
      | .leu => decide (x ≤ y), 0))
def fxXfromv (_g d a lane : Nat) : SlotMeaning := xOp0 d 2 (fun q => (q.rV a lane).setWidth 64)
def fxXtok (_g d a : Nat) : SlotMeaning := xOp0 d 1 (fun q => q.rK a)

end Sys2Proof.Machine
end

