-- ==== Sys2Proof/Machine/CellMem.lean ====
section
/-! DEFINITION. The memory operations of a cell (R31 to R34, R138 to R140, R255 to R267, R407, R409). -/

namespace Sys2Proof.Machine

/-! ## A-marked loads (R31 to R34) -/

/-- A load: its token, its destination, the units it writes, and what it reads, with status flags. -/
structure CellLoad where
  tk : Nat
  dest : RegId
  units : CellEnv → List Nat
  body : CellEnv → State → Except FInfo (State × Body × Nat)

/-- The operation of a load, with its place in the program order of the state it enters. -/
def CellLoad.req (L : CellLoad) (e : CellEnv) (s : State) (b : Body) (flags : Nat) (again : Bool) : Req :=
  { cellReq e L.tk (some L.dest) b false false with id := s.nextId, flags := flags, again := again }

/-- What a load does in its cell. -/
def CellLoad.fx (L : CellLoad) (e : CellEnv) (q : Req) : CellFx := { marks := [(L.dest, L.units e)], req := some q }

/-- A load whose data have been read: they are logged where they are an input (R439), and land with the operation. -/
def CellLoad.take (L : CellLoad) (e : CellEnv) (s : State) (b : Body) (flags : Nat) (vs : List (Nat × Nat)) :
    Except FInfo (State × CellFx) :=
  match s.received e.c (L.req e s b flags false) vs with
  | .error f => .error f
  | .ok (s, vs) => .ok (s, L.fx e (L.req e s (.vals vs) flags false))

/-- A macro-operation of the matrix slot of this bundle writes bytes of the parts of an operation: an ACCOUT, which comes
before it in the program order (R306). -/
def CellEnv.outAhead (e : CellEnv) (s : State) (b : Body) : Bool :=
  match b with
  | .mem _ ps =>
    e.raws.any (fun r => r.kind == .mx && r.op == 7 && !(guardLanes e.q r.guard).isEmpty &&
      (let o := fun (i : Nat) => r.ops.getD i 0
       let ops := tileOps (o 1) (o 2) (o 3) 0 0 (o 4) (o 5) false false false 0
       let st := opsO ops
       let cur := e.y.cursors.getD st 0
       (List.range (tileRows ops * tileCols ops)).any (fun i =>
         (s.itemKeys e.c e.d e.l (e.q.desc st) (cur + i)).any (fun k =>
           ps.any (fun p => decide (p.tgt.key < k.1 + k.2 ∧ k.1 < p.tgt.key + p.n))))))
  | _ => false

/-- A load executes. One with the A bit that the access stream has issued ahead gives what it read, or its fault. One that
it has not issued, or whose data a write of the cell has discarded, it issues and performs now, at the execute point
(R33, R35), unless an earlier access of the cell holds it back (R493): then it is performed after that one. (Log entry 78: DEDUCED.) -/
def loadFx (acc : Bool) (L : CellLoad) : SlotMeaning :=
  { cell := fun e s =>
      let ahead := if acc then e.dx.ahead.find? (fun a => a.ein = e.ein ∧ a.cell = e.l) else none
      match ahead.filter (fun a => a.done), L.body e s with
      | some a, .error _ => (match a.fault with | some g => .error g | none => .ok (s, L.fx e (L.req e s (.vals a.vals) 0 false)))
      | some a, .ok (s', b, flags) =>
        if e.outAhead s' b then .ok (s', L.fx e (L.req e s' b flags a.read))
        else match a.fault with | some g => .error g | none => L.take e s b flags a.vals
      | none, .error f => .error f
      | none, .ok (s, b, flags) =>
        let q := L.req e s b flags ((ahead.map Ahead.read).getD false)
        if !acc || s.blocked e.c q || e.outAhead s b then .ok (s, L.fx e q)
        else
          match s.readNow e.c e.d e.l q with
          | (_, none) => .error (cECC, 0, noInfo)
          | (s, some vs) => L.take e s b flags vs }

/-! ## The cell control page (R138 to R144) -/

/-- The registers of the control page, by offset. -/
def CellEnv.ctlRead (e : CellEnv) (off : Nat) : Option Word :=
  match off with
  | 0x000 => some e.q.cst
  | 0x008 => some e.q.cctl
  | 0x010 => some (BitVec.ofNat 64 (e.l * 2 ^ 40 + e.d * 2 ^ 32 + e.l / 16 * 2 ^ 24 + e.l % 16 * 2 ^ 16 + e.d / 8 * 2 ^ 8 + e.d % 8))
  | 0x018 => some (BitVec.ofNat 64 (e.rc.group.gidx e.l * 2 ^ 40 + (e.l / 16 - e.rc.group.y) * 2 ^ 24
      + (e.l % 16 - e.rc.group.x) * 2 ^ 16 + e.rc.field.fidx e.d))
  | 0x020 => some (BitVec.ofNat 64 (e.rc.slot.getD 0 * 2 ^ 4 + e.c))
  | _ => none

/-- A write of a control-page register; reserved bits stay 0. -/
def CellCore.ctlWrite (q : CellCore) (off : Nat) (v : Word) : CellCore :=
  if off = 0 then { q with cst := v &&& 0x71F } else { q with cctl := v &&& 0x303 }

/-- The effective address of a coherent scalar access (R259). -/
def CellEnv.ea (e : CellEnv) (a imm : Nat) : Nat := (addSext (e.q.rX a) imm 12).toNat

/-! ## Coherent accesses (R259) -/

/-- The target of one coherent access of a cell. -/
def cellTarget (e : CellEnv) (s : State) (ea n : Nat) (kind : AccKind) : Except FInfo (State × Target) :=
  match s.check e.agent e.d e.rc.pasid.toNat [{ lane := 0, va := ea, n := n, kind := kind }] with
  | .error f => .error f
  | .ok (s, ts) => .ok (s, ts.headD { key := 0, cls := 0, va := ea, ref := none })

/-- A coherent load. -/
def cohLoad (tk d a sz imm : Nat) : CellLoad :=
  { tk := tk, dest := .x d, units := fun _ => [0]
    body := fun e s =>
      match cellTarget e s (e.ea a imm) (2 ^ sz) .cohLoad with
      | .error f => .error f
      | .ok (s, t) => .ok (s, onePart t (2 ^ sz) .load 0, 0) }

/-- LDX. A control-page read is made at the execute point and lands at the end of the next position (R140). -/
def fxLdx (_g : Nat) (acc : Bool) (d a tk sz imm : Nat) : SlotMeaning :=
  { cell := fun e s =>
      let ea := e.ea a imm
      if inCtlPage ea then
        match (if sz = 3 then e.ctlRead (ea - ctlPage) else none) with
        | none => .error (cPROTECT, 5, ea)
        | some v =>
          .ok (s, { marks := [(.x d, [0])]
                    late := [{ reg := .x d, vals := [(0, v.toNat)], lat := 2, ein := e.ein.toNat }]
                    req := some (cellReq e tk none (.vals []) false false) })
      else (loadFx acc (cohLoad tk d a sz imm)).cell e s }

/-- A coherent store of the low bytes of x(d), held (R426). -/
def cohStore (ord : Ord) (sc : Scope) (d a tk sz imm : Nat) : SlotMeaning :=
  { cell := fun e s =>
      match cellTarget e s (e.ea a imm) (2 ^ sz) .cohStore with
      | .error f => .error f
      | .ok (s, t) =>
        match e.watch [(e.ea a imm, 2 ^ sz)] with
        | some f => .error f
        | none =>
          let q := cellReq e tk none (onePart t (2 ^ sz) .store (e.q.rX d).toNat) true true
          .ok (s, { req := some { q with ord := ord, sc := sc } }) }

/-- STX. A control-page write lands at the end of its bundle and is no gated store (R140). -/
def fxStx (_g d a tk sz imm : Nat) : SlotMeaning :=
  { cell := fun e s =>
      let ea := e.ea a imm
      if inCtlPage ea then
        let off := ea - ctlPage
        if sz = 3 ∧ (off = 0 ∨ off = 8) then
          .ok (s, { ctl := fun q => q.ctlWrite off (e.q.rX d), req := some (cellReq e tk none (.vals []) false false) })
        else .error (cPROTECT, 5, ea)
      else (cohStore .relaxed .device d a tk sz imm).cell e s }

/-- LDX.ACQ. -/
def fxLdxAcq (_g d a tk : Nat) (sc : Scope) (sz imm : Nat) : SlotMeaning :=
  { cell := fun e s =>
      match (cohLoad tk d a sz imm).body e s with
      | .error f => .error f
      | .ok (s, b, _) =>
        let q := cellReq e tk (some (.x d)) b false false
        .ok (s, { marks := [(.x d, [0])], req := some { q with ord := .acquire, sc := sc } }) }

/-- STX.REL. -/
def fxStxRel (_g d a tk : Nat) (sc : Scope) (sz imm : Nat) : SlotMeaning := cohStore .release sc d a tk sz imm

/-- FENCE (R260): its acquire half is performed once the reads before it are, its release half is held. -/
def fxLsFence (_g tk : Nat) (sc : Scope) (ord : Ord) : SlotMeaning :=
  cellFx (fun e => { req := some { cellReq e tk none (.fence false) (ord != .acquire) false with ord := ord, sc := sc } })

/-! ## Scratch (R257, R266) -/

/-- The address checks of a scratch access of n bytes (R235, R238). -/
def CellEnv.scratchFault (e : CellEnv) (ea n align : Nat) : Option FInfo :=
  if e.scratch < ea + n then some (cPROTECT, 4, ea)
  else if ea % align ≠ 0 then some (cPROTECT, 0, ea)
  else none

/-- x(a) plus an unsigned multiple, in 64 bits (R226). (Log entry 89: DEDUCED.) -/
def CellEnv.near (e : CellEnv) (a k imm : Nat) : Nat := (e.q.rX a + BitVec.ofNat 64 (k * imm)).toNat

/-- The parts of LDVN and STVN. -/
def rowParts (e : CellEnv) (ea : Nat) (op : AccOp) (v : Nat → Nat) : List Part :=
  e.lanes.map (fun i => { lane := i, tgt := nearTarget e.c e.d e.l (ea + 4 * i), n := 4, op := op, val := v i })

/-- The row of an LDVN in a cell holds an empty line, for an access before operation `nextId`. -/
def State.rowEmpty (s : State) (e : CellEnv) (a imm : Nat) : Bool :=
  let em := s.emptySeen e.c e.d e.l s.nextId
  e.lanes.any (fun i => em.contains ((e.near a 256 imm + 4 * i) / 128))

/-- LDVN. The full/empty bits are looked at once, at the execute point (R242, R421). (Log entry 43: DEDUCED.) -/
def fxLdvn (_g : Nat) (acc : Bool) (d a tk imm : Nat) : SlotMeaning :=
  { loadFx acc
      { tk := tk, dest := .v d, units := fun e => e.lanes
        body := fun e s =>
          let ea := e.near a 256 imm
          match e.scratchFault ea 256 256 with
          | some f => .error f
          | none => .ok (s, .mem .scratch (rowParts e ea .load (fun _ => 0)), if s.rowEmpty e a imm then 0x100 else 0) } with
    empty := fun e s => s.rowEmpty e a imm }

/-- STVN. -/
def fxStvn (_g d a tk imm : Nat) : SlotMeaning :=
  { cell := fun e s =>
      let ea := e.near a 256 imm
      match e.scratchFault ea 256 256 with
      | some f => .error f
      | none =>
        .ok (s, { req := some (cellReq e tk none (.mem .scratch (rowParts e ea .store (fun i => (e.q.rV d i).toNat))) true true) }) }

/-- SETE and SETF: ea lies in scratch, wherever its line ends (R266). -/
def setFull (full : Bool) (a tk imm : Nat) : SlotMeaning :=
  { cell := fun e s =>
      let ea := e.near a 128 imm
      match e.scratchFault ea 1 128 with
      | some f => .error f
      | none => .ok (s, { req := some (cellReq e tk none (.fullEmpty (ea / 128) full) true true) }) }

def fxSete (_g a tk imm : Nat) : SlotMeaning := setFull false a tk imm
def fxSetf (_g a tk imm : Nat) : SlotMeaning := setFull true a tk imm

/-- RESIZE: the cell's own accesses take the new layout at the end of the bundle, the ways follow at the release (R241). -/
def fxResize (_g tk imm : Nat) : SlotMeaning :=
  cellFx (fun e =>
    { set := fun _ y => { y with core := { y.core with cways := imm } }
      req := some (cellReq e tk none (.resize e.q.cways imm) true false) })

/-- NSFLUSH (R267). -/
def fxNsflush (_g tk : Nat) : SlotMeaning := cellFx (fun e => { req := some (cellReq e tk none .nsflush true false) })

/-! ## GATHER, SCATTER and the per-lane atomics (R258, R263) -/

/-- The lane addresses of GATHER. -/
def CellEnv.laneEa (e : CellEnv) (a b i : Nat) : Nat := (e.q.rX b + (e.q.rV a i).setWidth 64).toNat

/-- The checks and parts of one access per active lane. -/
def laneParts (e : CellEnv) (s : State) (a b : Nat) (kind : AccKind) (op : AccOp) (v : Nat → Nat) :
    Except FInfo (State × List Part) :=
  match s.check e.agent e.d e.rc.pasid.toNat (e.lanes.map (fun i => { lane := i, va := e.laneEa a b i, n := 4, kind := kind })) with
  | .error f => .error f
  | .ok (s, ts) => .ok (s, (e.lanes.zip ts).map (fun p => { lane := p.1, tgt := p.2, n := 4, op := op, val := v p.1 }))

/-- GATHER and SCATTER go through the near-store cache where the cell has cache ways (R239). -/
def CellEnv.gatherPath (e : CellEnv) : Path := if e.q.cways = 0 then .stream none else .gather

def fxGather (_g : Nat) (acc : Bool) (d a b tk : Nat) : SlotMeaning :=
  loadFx acc
    { tk := tk, dest := .v d, units := fun e => e.lanes
      body := fun e s =>
        match laneParts e s a b .strLoad .load (fun _ => 0) with
        | .error f => .error f
        | .ok (s, ps) => .ok (s, .mem e.gatherPath ps, 0) }

/-- A per-lane write or atomic, held. -/
def laneWrite (d a b tk : Nat) (sc : Scope) (kind : AccKind) (op : AccOp) (path : CellEnv → Path) (gated : Bool) : SlotMeaning :=
  { cell := fun e s =>
      match laneParts e s a b kind op (fun i => (e.q.rV d i).toNat) with
      | .error f => .error f
      | .ok (s, ps) =>
        match e.watch (e.lanes.map (fun i => (e.laneEa a b i, 4))) with
        | some f => .error f
        | none =>
          let q := cellReq e tk none (.mem (path e) ps) true gated
          .ok (s, { req := some { q with sc := sc } }) }

def fxScatter (_g d a b tk : Nat) : SlotMeaning := laneWrite d a b tk .cell .strStore .store CellEnv.gatherPath true
def fxVafadd (_g d a b tk : Nat) (sc : Scope) : SlotMeaning :=
  laneWrite d a b tk sc (.atomic false) (.rmw .add) (fun _ => .coherent) false
def fxVamaxf (_g d a b tk : Nat) (sc : Scope) : SlotMeaning :=
  laneWrite d a b tk sc (.atomic false) (.rmw .amaxf) (fun _ => .coherent) false

/-! ## Scalar atomics (R261, R262, R265, R409) -/

/-- An atomic of n bytes at x(a) with operand v; its old value goes to `dest`. -/
def cellAtomic (n : Nat) (hostOk : Bool) (f : CellCore → Rmw) (sc : Scope) (tk : Nat) (dest : Option Nat) (a : Nat)
    (v : CellCore → Nat) : SlotMeaning :=
  { cell := fun e s =>
      let ea := (e.q.rX a).toNat
      match cellTarget e s ea n (.atomic hostOk) with
      | .error f => .error f
      | .ok (s, t) =>
        match e.watch [(ea, n)] with
        | some f => .error f
        | none =>
          let q := cellReq e tk (dest.map RegId.x) (onePart t n (.rmw (f e.q)) (v e.q)) true false
          .ok (s, { marks := match dest with | some d => [(.x d, [0])] | none => [], req := some { q with sc := sc } }) }

def fxXafadd (_g d a tk : Nat) (sc : Scope) (sz : Nat) : SlotMeaning :=
  cellAtomic (2 ^ sz) true (fun _ => .add) sc tk (some d) a (fun q => (q.rX d).toNat)
def fxXamax (_g d a tk : Nat) (sc : Scope) (sz : Nat) : SlotMeaning :=
  cellAtomic (2 ^ sz) false (fun _ => .max) sc tk (some d) a (fun q => (q.rX d).toNat)
def fxXacas (_g d a b tk : Nat) (sc : Scope) (sz : Nat) : SlotMeaning :=
  cellAtomic (2 ^ sz) true (fun q => .cas (q.rX b).toNat) sc tk (some d) a (fun q => (q.rX d).toNat)
def fxXaswap (_g d a tk : Nat) (sc : Scope) (sz : Nat) : SlotMeaning :=
  cellAtomic (2 ^ sz) true (fun _ => .swap) sc tk (some d) a (fun q => (q.rX d).toNat)
def fxLsAmaxrr (_g d a tk : Nat) (sc : Scope) : SlotMeaning :=
  cellAtomic 4 false (fun _ => .amaxrr) sc tk (some d) a (fun _ => 0)
def fxLsJraise (_g a b tk : Nat) (sc : Scope) : SlotMeaning :=
  cellAtomic 16 false (fun _ => .jraise) sc tk none a (fun q => (q.rX b).toNat)
def fxLsJdone (_g a tk : Nat) (sc : Scope) : SlotMeaning :=
  cellAtomic 16 false (fun _ => .jdone) sc tk none a (fun _ => 0)

/-- TAKE (R407): the ticket is drawn when the operation is performed. -/
def fxTake (_g d tk imm : Nat) : SlotMeaning :=
  cellFx (fun e => { marks := [(.x d, [0])], req := some (cellReq e tk (some (.x d)) (.take imm) true false) })

/-! ## References (R297 to R301) -/

/-- The targets of a reference access at (lane, offset) pairs. -/
def CellEnv.refs (e : CellEnv) (s : State) (h n : Nat) (write : Bool) (offs : List (Nat × Nat)) :
    Except FInfo (State × List (Nat × Target)) :=
  s.refTargets e.agent e.d e.rc.pasid.toNat (e.q.rH h).toNat n write offs

/-- A load of n bytes through h(a) at offset x(b). -/
def refLoad (tk : Nat) (dest : RegId) (n a b : Nat) : CellLoad :=
  { tk := tk, dest := dest, units := fun _ => [0]
    body := fun e s =>
      match e.refs s a n false [(0, (e.q.rX b).toNat)] with
      | .error f => .error f
      | .ok (s, ts) => .ok (s, .mem .coherent (ts.map (fun t => { lane := 0, tgt := t.2, n := n, op := .load, val := 0 })), 0) }

/-- A store of n bytes through h(a) at offset x(b), held. -/
def refStore (tk n a b : Nat) (v : CellCore → Word) : SlotMeaning :=
  { cell := fun e s =>
      match e.refs s a n true [(0, (e.q.rX b).toNat)] with
      | .error f => .error f
      | .ok (s, ts) =>
        match e.watch (ts.map (fun t => (t.2.va, n))) with
        | some f => .error f
        | none =>
          .ok (s, { req := some (cellReq e tk none
            (.mem .coherent (ts.map (fun t => { lane := 0, tgt := t.2, n := n, op := .store, val := (v e.q).toNat }))) true true) }) }

def fxLsLdr (_g : Nat) (acc : Bool) (d a b tk sz : Nat) : SlotMeaning := loadFx acc (refLoad tk (.x d) (2 ^ sz) a b)
def fxLsStr (_g d a b tk sz : Nat) : SlotMeaning := refStore tk (2 ^ sz) a b (fun q => q.rX d)
def fxLsLdref (_g : Nat) (acc : Bool) (d a b tk : Nat) : SlotMeaning := loadFx acc (refLoad tk (.h d) 8 a b)
def fxLsStref (_g d a b tk : Nat) : SlotMeaning := refStore tk 8 a b (fun q => q.rH d)

/-- The (lane, offset) pairs of LDRV and STRV: the sums are exact (R10, R281). -/
def rowOffs (e : CellEnv) (b : Nat) : List (Nat × Nat) := e.lanes.map (fun i => (i, (e.q.rX b).toNat + 4 * i))

/-- The parts of LDRV and STRV (R299). -/
def refRow (e : CellEnv) (s : State) (a b : Nat) (op : AccOp) (v : Nat → Nat) : Except FInfo (State × List Part) :=
  if (e.q.rX b).toNat % 4 ≠ 0 then .error (cPROTECT, 0, (e.q.rX b).toNat)
  else
    match e.refs s a 4 (op == .store) (rowOffs e b) with
    | .error f => .error f
    | .ok (s, ts) => .ok (s, ts.map (fun t => { lane := t.1, tgt := t.2, n := 4, op := op, val := v t.1 }))

def fxLdrv (_g : Nat) (acc : Bool) (d a b tk : Nat) : SlotMeaning :=
  loadFx acc
    { tk := tk, dest := .v d, units := fun e => e.lanes
      body := fun e s =>
        match refRow e s a b .load (fun _ => 0) with
        | .error f => .error f
        | .ok (s, ps) => .ok (s, .mem .coherent ps, 0) }

def fxStrv (_g d a b tk : Nat) : SlotMeaning :=
  { cell := fun e s =>
      match refRow e s a b .store (fun i => (e.q.rV d i).toNat) with
      | .error f => .error f
      | .ok (s, ps) =>
        match e.watch (ps.map (fun p => (p.tgt.va, 4))) with
        | some f => .error f
        | none => .ok (s, { req := some (cellReq e tk none (.mem .coherent ps) true true) }) }

/-- PIN: checked here as far as the die can decide (R494), performed at the entry home when released. -/
def fxLsPin (_g d a tk : Nat) : SlotMeaning :=
  { cell := fun e s =>
      match s.refIssueFault e.rc.pasid.toNat (e.q.rH a).toNat with
      | some f => .error f
      | none => .ok (s, { marks := [(.x d, [0])], req := some (cellReq e tk (some (.x d)) (.pin (e.q.rH a)) true false) }) }

/-- UNPIN. -/
def fxLsUnpin (_g a tk : Nat) : SlotMeaning :=
  { cell := fun e s =>
      match s.refIssueFault e.rc.pasid.toNat (e.q.rH a).toNat with
      | some f => .error f
      | none => .ok (s, { req := some (cellReq e tk none (.unpin (e.q.rH a)) true false) }) }

def fxRefmov (_g d a : Nat) : SlotMeaning :=
  cellFx (fun e => { writes := [{ reg := .h d, vals := [(0, (e.q.rH a).toNat)], lat := 2, ein := e.ein.toNat }] })
def fxReftag (_g d a : Nat) : SlotMeaning :=
  cellFx (fun e => { writes := [{ reg := .x d, vals := [(0, (e.q.rH a).toNat)], lat := 2, ein := e.ein.toNat }] })

end Sys2Proof.Machine
end

