-- ==== Sys2Proof/Machine/Control.lean ====
section
/-! DEFINITION. The CT slot: waits and tokens (R401 to R404), marks (R422), barriers and phases (R336 to R339), SETC
(R433), TRAPC (R432) and the lane-mask operations (R164). -/

namespace Sys2Proof.Machine

/-! ## Waits and tokens -/

/-- WAIT: the die holds until every active cell's count has reached the threshold, then each reduces (R393, R402). -/
def fxWait (tk thr : Nat) : SlotMeaning :=
  { hold := fun g _ => if g.cells.all (fun p => tokHolds ((g.dx.cell p.1).core.rTk tk) thr) then none else some .wait
    cell := fun _ s => .ok (s, { set := fun _ y => { y with core := y.core.wTk tk (y.core.rTk tk - BitVec.ofNat 16 thr) } }) }

/-- The scratch size of a cell (R238). -/
def State.scratchSize (s : State) (c d l : Nat) : Nat := ((s.rc c).win.ways - (s.cell c d l).core.cways) * 65536

/-- The line WAITF names in a cell is full, with the cell's earlier SETE, SETF and scratch stores to it performed. -/
def State.lineFull (s : State) (c d l line : Nat) : Bool :=
  !((s.cell c d l).empty.contains line)
  && !(((s.rc c).ownBefore d l s.nextId).any (fun q => match q.body with
      | .fullEmpty x _ => x == line
      | .mem .scratch ps => ps.any (fun p => p.op == .store && p.tgt.va / 128 == line)
      | _ => false))

/-- The line address of WAITF. -/
def waitfEa (q : CellCore) (a imm : Nat) : Nat := (q.rX a + BitVec.ofNat 64 (128 * imm)).toNat

/-- The address fault of WAITF (R403). -/
def waitfFault (size ea : Nat) : Option FInfo :=
  if size ≤ ea then some (cPROTECT, 4, ea) else if ea % 128 ≠ 0 then some (cPROTECT, 0, ea) else none

/-- WAITF: the die holds until the line is full in every active cell; a bad address is a fault of the bundle. -/
def fxWaitf (a imm : Nat) : SlotMeaning :=
  { hold := fun g s =>
      let ok := fun (l : Nat) =>
        let ea := waitfEa (g.dx.cell l).core a imm
        (waitfFault (s.scratchSize g.c g.d l) ea).isSome || s.lineFull g.c g.d l (ea / 128)
      if g.cells.any (fun p => (waitfFault (s.scratchSize g.c g.d p.1) (waitfEa (g.dx.cell p.1).core a imm)).isSome)
        || g.cells.all (fun p => ok p.1) then none else some .waitf
    cell := fun e s =>
      match waitfFault e.scratch (waitfEa e.q a imm) with
      | some f => .error f
      | none => .ok (s, {}) }

/-- DLY: n + 1 positions (R404). -/
def fxDly (n : Nat) : SlotMeaning := { positions := n + 1 }
/-- MARK: its bundle is a mark. -/
def fxMark : SlotMeaning := {}
def fxTokadd (_g tk amt : Nat) : SlotMeaning :=
  cellFx (fun _ => { set := fun _ y => { y with core := y.core.wTk tk (y.core.rTk tk + BitVec.ofNat 16 amt) } })
/-- TOKRD: the count as it stood at the start of the bundle; a recording context logs it (R439). -/
def fxTokrd (_g tk d : Nat) : SlotMeaning :=
  { cell := fun e s =>
      match s.logged e.c inTOKRD e.d (some e.l) e.ein.toNat 0 [(e.q.rTk tk).toNat] with
      | .error f => .error f
      | .ok (s, vs) => .ok (s, { writes := [{ reg := .x d, vals := [(0, vs.headD 0)], lat := 1, ein := e.ein.toNat }] }) }

/-! ## SETC (R433) -/

/-- comb of R433. -/
def setcComb (op : Nat) (x y : Word) : Word :=
  match op with | 0 => x ||| y | 1 => x &&& y | 2 => x + y | _ => if x < y then y else x

/-- The values of the acting cells combined, ascending. -/
def setcValue (op : Nat) : List Word → Option Word
  | [] => none
  | x :: xs => some (xs.foldl (setcComb op) x)

def fxSetc (_g dc op a : Nat) : SlotMeaning :=
  { group := fun g s =>
      match setcValue op ((g.cells.filter (fun p => !p.2.isEmpty)).map (fun p => (g.dx.cell p.1).core.rX a)) with
      | some v => s.updDctx g.c g.d (fun x => { x with dc := mapSet 0 x.dc dc v })
      | none => s }

/-! ## Barriers and phases -/

/-- BAR: a die whose DIEMASK bit is set arrives, and waits after the bundle; for a FIELD barrier it sends its arrival. A
die whose bit is clear sends both reports of a FIELD barrier and goes on. -/
def fxBar (sc : Scope) : SlotMeaning :=
  let fld := sc == .field
  { group := fun g s =>
      if fld then s.updDctx g.c g.d (fun x => { x with barSeq := x.barSeq + 1, barPend := x.barPend + (if g.on then 1 else 2), barSteps := false })
      else s
    after := fun g => if g.on then some (.bar fld (g.cells.map Prod.fst)) else none }

/-- PHASE.X opens a superstep; transfers of its own bundle count in it. -/
def fxPhaseX : SlotMeaning :=
  { group := fun g s => s.updDctx g.c g.d (fun x =>
      { x with phaseOpen := true, xfers := x.xfers - g.dx.xfers, perms := x.perms - g.dx.perms
               sent := x.sent.filter (fun y => y.ein == g.ein) })
    after := fun _ => some .phase }

/-- PHASE.C closes the superstep. -/
def fxPhaseC : SlotMeaning :=
  { group := fun g s => s.updDctx g.c g.d (fun x => { x with phaseOpen := false }), after := fun _ => some .phase }

/-- ABAR holds no execute issue; the access stream stops before it (R338). -/
def fxAbar : SlotMeaning := {}

/-- TRAPC: a die in which it acts flags the event and stops at its next boundary (R432). -/
def fxTrapc (_g code : Nat) : SlotMeaning :=
  { group := fun g s =>
      if g.cells.any (fun p => !p.2.isEmpty) then
        s.updDctx g.c g.d (fun x => { x with fevents := x.fevents ++
          [{ code := cSWTRAP, detail := 1, info := code, ein := g.ein, at_ := g.ein, noRollback := true, die := g.d, xpc := 0 }] })
      else s }

/-! ## Lane masks (R164) -/

/-- A mask operation of two sources. -/
def kBit (d a b : Nat) (f : Bool → Bool → Bool) : SlotMeaning := kOp d 1 (fun q i => (f (tbit (q.rK a) i) (tbit (q.rK b) i), 0))

def fxKand (_g d a b : Nat) : SlotMeaning := kBit d a b (fun x y => x && y)
def fxKor (_g d a b : Nat) : SlotMeaning := kBit d a b (fun x y => x || y)
def fxKxor (_g d a b : Nat) : SlotMeaning := kBit d a b (fun x y => x != y)
def fxKandn (_g d a b : Nat) : SlotMeaning := kBit d a b (fun x y => x && !y)
def fxKnot (_g d a : Nat) : SlotMeaning := kOp d 1 (fun q i => (!tbit (q.rK a) i, 0))
def fxKmov (_g d a : Nat) : SlotMeaning := kOp d 1 (fun q i => (tbit (q.rK a) i, 0))
def fxKset (_g d hi lo : Nat) : SlotMeaning := kOp d 1 (fun _ i => (decide (lo ≤ i ∧ i ≤ hi), 0))
def fxKfromx (_g d a : Nat) : SlotMeaning := kOp d 1 (fun q i => (tbit (q.rX a) i, 0))
def fxKtox (_g d a : Nat) : SlotMeaning := xOp0 d 1 (fun q => q.rK a)
def fxKpopc (_g d a : Nat) : SlotMeaning := xOp0 d 1 (fun q => BitVec.ofNat 64 ((List.range 64).countP (fun i => tbit (q.rK a) i)))

end Sys2Proof.Machine
end

