-- ==== Sys2Proof/Machine/Convert.lean ====
section
/-! DEFINITION. The random-bit queue (R177 to R181), the V1 conversions (R182 to R192) and RBSEED (R180). -/

namespace Sys2Proof.Machine

/-! ## Random bits

The queue is held by its seed: RBGEN as RBSEED left it, the number of entries made since and the number popped. RBGEN
is then the seed plus 32 additions per entry made, and the queue holds the entries popped to made − 1. -/

/-- Output n ≥ 1 of the generator from a state (R178). -/
def splitMix (seed : Word) (n : Nat) : Word :=
  let z := seed + BitVec.ofNat 64 (n * 0x9E3779B97F4A7C15)
  let z := (z ^^^ (z >>> 30)) * 0xBF58476D1CE4E5B9
  let z := (z ^^^ (z >>> 27)) * 0x94D049BB133111EB
  z ^^^ (z >>> 31)

/-- Element i of entry n (R178). -/
def rbElem (seed : Word) (n i : Nat) : Nat :=
  (splitMix seed (32 * n + i / 2 + 1)).toNat / 2 ^ (32 * (i % 2)) % 2 ^ 32

/-- RBGEN (R169). -/
def CellCore.rbgen (q : CellCore) : Word := q.rbSeed + BitVec.ofNat 64 (32 * q.rbMade * 0x9E3779B97F4A7C15)

/-- Element i of the entry this bundle pops (R177). -/
def CellCore.rb (q : CellCore) (i : Nat) : Nat := rbElem q.rbSeed q.rbTaken i

/-- RBSEED at the end of its bundle (R180). -/
def CellCore.reseed (q : CellCore) (x : Word) (u : Nat) : CellCore :=
  { q with rbSeed := x + BitVec.ofNat 64 (u * 2 ^ 40), rbMade := 16, rbTaken := 0 }

def fxRbseed (a : Nat) : SlotMeaning :=
  cellFx (fun e =>
    let u := 64 * e.rc.field.fidx e.d + e.rc.group.gidx e.l
    { set := fun _ y => { y with core := y.core.reseed (e.q.rX a) u } })

/-! ## Conversions between lanes -/

def fxVcvtF32I32 (_g : Nat) (rm : Rm) (d a : Nat) : SlotMeaning :=
  vOp d 3 (fun q i => roundFloat 24 (q.mode rm) (q.rb i) (finOf (q.rV a i).toInt 0 false))

def fxVcvtI32F32 (_g : Nat) (rm : Rm) (d a : Nat) : SlotMeaning :=
  vOp d 3 (fun q i => let (y, fl) := roundSigned 32 (q.mode rm) (q.rb i) (f32Val (q.rV a i).toNat)
    (wrapElem 32 y, fl))

def fxVcvtBf16F32 (_g : Nat) (rm : Rm) (d a : Nat) : SlotMeaning :=
  vOp d 3 (fun q i => let (y, fl) := roundFloat 8 (q.mode rm) (q.rb i) (f32Val (q.rV a i).toNat)
    (y * 2 ^ 16, fl))

def fxVcvtF32Bf16 (_g d a : Nat) : SlotMeaning :=
  vOp d 3 (fun q i =>
    let w := (q.rV a i).toNat / 2 ^ 16 * 2 ^ 16
    if (f32Val w).isSnan then (qNaN, fNV) else (w, 0))

def fxVcvtI8F32 (_g : Nat) (rm : Rm) (j d a : Nat) : SlotMeaning :=
  vOp d 3 (fun q i =>
    let (y, fl) := roundSigned 8 (q.mode rm) (q.rb i) (f32Val (q.rV a i).toNat)
    let old := (q.rV d i).toNat
    (laneOf 8 4 (fun k => if k = j then wrapElem 8 y else old / 2 ^ (8 * k)), fl))

def fxVcvtF32I8 (_g j d a : Nat) : SlotMeaning :=
  vOp d 3 (fun q i => roundF32 .rne (finOf (sext ((q.rV a i).toNat / 2 ^ (8 * j)) 8) 0 false))

/-- VSCALE: beyond ±600 every product overflows or is below every format. -/
def fxVscale (_g : Nat) (rm : Rm) (d a b : Nat) : SlotMeaning :=
  vOp d 3 (fun q i =>
    let n := max (-600) (min 600 (q.rV b i).toInt)
    roundF32 (q.mode rm) (match f32Val (q.rV a i).toNat with
      | .fin s m e => .fin s m (e + n)
      | x => x))

/-- The three terms of VSPLIT3 and the flags of the last rounding (R187). -/
def split3 (x : Nat) : (Nat × Nat × Nat) × Nat :=
  match f32Val x with
  | .nan s => ((qNaN, 0, 0), if s then fNV else 0)
  | .inf _ => ((x, 0, 0), 0)
  | .fin neg m e =>
    if m = 0 then ((x, 0, 0), 0)
    else
      let r1 : FVal := .fin (neg && decide (m % 2 ^ 16 ≠ 0)) (m % 2 ^ 16) e
      let mid := (roundFloat 8 .rtz 0 r1).1 * 2 ^ 16
      let (l, fl) := roundFloat 8 .rne 0 (addExact .rne r1 (f32Val mid).negate).1
      ((x / 2 ^ 16 * 2 ^ 16, mid, l * 2 ^ 16), fl)

def fxVsplit3 (_g d a : Nat) : SlotMeaning :=
  cellFx (fun e =>
    let rs := e.lanes.map (fun i => (i, split3 (e.q.rV a i).toNat))
    let w := fun (k : Nat) (f : Nat × Nat × Nat → Nat) (fl : Nat) =>
      ({ reg := .v (d + k), vals := rs.map (fun r => (r.1, f r.2.1)), lat := 4, flags := fl, ein := e.ein.toNat } : Write)
    { writes := [w 0 (fun t => t.1) (rs.foldl (fun (fl : Nat) r => fl ||| r.2.2) 0), w 1 (fun t => t.2.1) 0, w 2 (fun t => t.2.2) 0] })

/-! ## Blocks -/

/-- The active lanes of the block of lane i, in blocks of B. -/
def blockOf (lanes : List Nat) (B i : Nat) : List Nat := lanes.filter (fun j => j / B == i / B)

/-- Lanes of a block. -/
def blockSize (bs : Bool) : Nat := if bs then 32 else 16

/-- The largest magnitude of a block, and flags (R188). 0x03000000 is 2^−121. -/
def blockAmax (q : CellCore) (a : Nat) (blk : List Nat) : Nat × Nat :=
  let (y, fl) := f32Largest (blk.map (fun j => (q.rV a j).toNat % 2 ^ 31))
  (y, fl ||| (if y ≠ 0 ∧ y < 0x03000000 then fSFLR else 0))

def fxVamaxb (_g : Nat) (bs : Bool) (d a : Nat) : SlotMeaning :=
  cellFx (fun e =>
    let rs := e.lanes.map (fun i => (i, blockAmax e.q a (blockOf e.lanes (blockSize bs) i)))
    { writes := [{ reg := .v d, vals := rs.map (fun r => (r.1, r.2.1)), lat := 6
                   flags := rs.foldl (fun (fl : Nat) r => fl ||| r.2.2) 0, ein := e.ein.toNat }] })

/-- The scale code of a block and whether it was clamped at its floor (R189). -/
def qScale (q : CellCore) (a m : Nat) (blk : List Nat) : Nat × Bool :=
  let xs := blk.map (fun j => f32Val ((q.rV a j).toNat % 2 ^ 31))
  if xs.any FVal.isNan then (0xFF, false)
  else if xs.any (fun x => match x with | .inf _ => true | _ => false) then (0xFE, false)
  else
    let amax := (blk.map (fun j => (q.rV a j).toNat % 2 ^ 31)).foldl max 0
    if amax = 0 then (0, false)
    else
      let lg : Int := match f32Val amax with | .fin _ k e => e + (bitLen k : Int) - 1 | _ => 0
      let e := lg - ((m : Int) - 2) + 127
      ((min (max e 0) 0xFE).toNat, decide (e < 0))

/-- The mantissa of a lane under a scale code, and flags (R190). -/
def qMant (mode : Rm) (rb m E w : Nat) : Nat × Nat :=
  let lo : Int := -2 ^ (m - 1)
  let hi : Int := 2 ^ (m - 1) - 1
  match f32Val w with
  | .nan s => (0, if s then fNV else 0)
  | .inf neg => (if E = 0xFF then 0 else wrapElem 32 (if neg then lo else hi), fNV)
  | .fin neg k e =>
    if E = 0xFF then (0, 0)
    else
      let (i, nx) := roundInteger mode rb neg k (e - ((E : Int) - 127))
      (wrapElem 32 (min (max i lo) hi), if nx then fNX else 0)

/-- QBFP (R189, R190). (Log entry 63: DEDUCED.) -/
def fxQbfp (_g : Nat) (rm : Rm) (bs : Bool) (mb d a : Nat) : SlotMeaning :=
  cellFx (fun e =>
    let B := blockSize bs
    let sc := fun i => qScale e.q a mb (blockOf e.lanes B i)
    let ms := e.lanes.map (fun i => (i, qMant rm (e.q.rb i) mb (sc i).1 (e.q.rV a i).toNat))
    let all := (List.range 64).filter (fun i => !(blockOf e.lanes B i).isEmpty)
    let fl := ms.foldl (fun (fl : Nat) r => fl ||| r.2.2) 0 ||| (if all.any (fun i => (sc i).2) then fSFLR else 0)
    { writes := [{ reg := .v d, vals := ms.map (fun r => (r.1, r.2.1)), lat := 6, flags := fl, ein := e.ein.toNat },
                 { reg := .v (d + 1), vals := all.map (fun i => (i, (sc i).1)), lat := 6, ein := e.ein.toNat }] })

def fxDqbfp (_g : Nat) (bs : Bool) (mb d a b : Nat) : SlotMeaning :=
  vOp d 4 (fun q i =>
    let B := blockSize bs
    let E := (q.rV b (i / B * B)).toNat % 256
    if E = 0xFF then (qNaN, 0)
    else roundF32 .rne (finOf (sext (q.rV a i).toNat mb) ((E : Int) - 127) false))

def fxVrng (_g d : Nat) : SlotMeaning := vOp0 d 2 (fun q i => q.rb i)

end Sys2Proof.Machine
end

