-- ==== Sys2Proof/Machine/Matrix.lean ====
section
/-! DEFINITION. The MX slot (R205 to R224): macro-operations, their checks at issue, the products of one tile row, the
accumulator rows, MXPROG and WSWAP. -/

namespace Sys2Proof.Machine

/-! ## Checks at issue (R210, R212), by ascending detail -/

/-- The checks of the operands of MMA, MMA.NEST and MMA.GRP. -/
def mmaFault (y : Cell) (op ops : Nat) (gt : BitVec 128) : Option FInfo :=
  let q := y.core
  let cur := y.cursors
  let M := tileRows ops
  let A := q.desc (opsA ops)
  let B := q.desc (opsB ops)
  let ra := rowItems A
  let step := tileCols ops * rowItems B
  let leftA := dLen A - cur.getD (opsA ops) 0
  let leftB := dLen B - cur.getD (opsB ops) 0
  let T := leftA / (M * ra)
  let few := match op with
    | 1 => decide (leftA < M * ra ∨ leftB < step)
    | 2 => decide (leftA % (M * ra) = 0 ∧ leftB < T * step)
    | _ => decide (leftA < min (gtStart gt (opsGroups ops)) M * ra ∨ leftB < opsGroups ops * step)
  if dStore A || dStore B || !matrixFmt A || !matrixFmt B then some (shape 3)
  else if !dGo A || !dGo B || few then some (shape 4)
  else if (dBfp A && !(dBfp B && dBs A == dBs B && opsBt ops)) || (!dBfp A && dFmt A != dFmt B) then some (shape 6)
  else if op = 2 ∧ (leftA % (M * ra) ≠ 0 ∨ T = 0) then some (shape 8)
  else if opsA ops = opsB ops then some (shape 9)
  else none

/-- The check of the store stream of ACCOUT. -/
def accoutFault (y : Cell) (ops : Nat) : Option FInfo :=
  let O := y.core.desc (opsO ops)
  if !dStore O || !(dFmt O == 0 || dFmt O == 1) then some (shape 3)
  else if !dGo O || decide (dLen O - y.cursors.getD (opsO ops) 0 < tileRows ops * tileCols ops) then some (shape 4)
  else none

/-- Every check of a macro-operation. -/
def macroFault (e : CellEnv) (op ops : Nat) : Option FInfo :=
  if fld ops 39 2 = 3 ∨ fld ops 33 6 = 0 then some (shape 1)
  else if 8192 * e.rc.win.acc < tileBase ops + tileRows ops * tileCols ops then some (shape 2)
  else
    match op with
    | 4 => none
    | 7 => accoutFault e.y ops
    | _ => mmaFault e.y op ops e.q.gtab

/-! ## Issue (R207, R209, R214) -/

/-- ACCWR results in flight to entries of a tile are discarded when a macro-operation issues (R209). -/
def CellCore.dropAcc (q : CellCore) (ops : Nat) : CellCore :=
  { q with fly := q.fly.map (fun f => if f.reg = .acc then { f with vals := f.vals.filter (fun p => !inTile ops p.1) } else f) }

/-- A macro-operation enters the queue; `flags` are CST bits set at the end of the bundle. The streams it names are
written unchanged, which cancels an STLOAD on its way to them (R204). -/
def macroFx (e : CellEnv) (op ops tk flags : Nat) : CellFx :=
  { writes := (macroStreams op ops).eraseDups.map (fun st => descWrite st (e.q.desc st) 1 e.ein.toNat)
    ctl := fun q => q.dropAcc ops
    set := fun id y => { y with core := { y.core.orCst flags with mxq := y.core.mxq ++
      [{ ops := ops, op := op, ein := e.ein, row := 0, step := 0, grp := 0, gt := e.q.gtab, req := id }] } }
    req := some (cellReq e tk none (.macro_ op ops []) true false) }

/-- A macro-operation without groups. -/
def macroOp (op ops tk : Nat) : SlotMeaning :=
  { cell := fun e s =>
      match macroFault e op ops with
      | some f => .error f
      | none => .ok (s, macroFx e op ops tk 0) }

def fxMma (_g base m n a b tk : Nat) (zero neg bt : Bool) : SlotMeaning := macroOp 1 (tileOps base m n a b 0 tk zero neg bt 0) tk
def fxMmaNest (_g base m n a b tk : Nat) (zero neg bt : Bool) : SlotMeaning := macroOp 2 (tileOps base m n a b 0 tk zero neg bt 0) tk

/-- MMA.GRP: a group table that overruns the tile sets GOVR, or raises GROUPOVR (R217). -/
def fxMmaGrp (_g base m n a b tk : Nat) (zero neg bt : Bool) (gc : Nat) : SlotMeaning :=
  { cell := fun e s =>
      let ops := tileOps base m n a b 0 tk zero neg bt gc
      match macroFault e 3 ops with
      | some f => .error f
      | none =>
        let ovr := decide (tileRows ops < gtStart e.q.gtab (gc + 1))
        if ovr ∧ tbit e.q.cctl 9 then .error (cGROUPOVR, 0, noInfo)
        else .ok (s, macroFx e 3 ops tk (if ovr then fGOVR else 0)) }

def fxAccz (_g base m n tk : Nat) : SlotMeaning := macroOp 4 (tileOps base m n 0 0 0 tk false false false 0) tk
def fxAccout (_g base m n o tk : Nat) : SlotMeaning := macroOp 7 (tileOps base m n 0 0 o tk false false false 0) tk

/-! ## Accumulator rows (R221) -/

/-- An entry as the cell sees it: its own uncommitted ACCWR, else the store (R206). -/
def Cell.accSeen (y : Cell) (e : Nat) : Lane :=
  match y.core.accw.reverse.find? (fun w => w.2.1 = e) with
  | some w => w.2.2
  | none => mapGet 0 y.acc e

/-- A row beyond the window (R205). -/
def accRowBad (e : CellEnv) (base row : Nat) : Bool := decide (8192 * e.rc.win.acc < 1024 * base + 64 * row + 64)

def fxAccrd (_g base v row : Nat) : SlotMeaning :=
  { cell := fun e s =>
      if accRowBad e base row then .error (shape 2)
      else .ok (s, { writes := [{ reg := .v v, lat := 4, ein := e.ein.toNat
                                  vals := e.lanes.map (fun i => (i, (e.y.accSeen (1024 * base + 64 * row + i)).toNat)) }] }) }

def fxAccwr (_g base v row : Nat) : SlotMeaning :=
  { cell := fun e s =>
      if accRowBad e base row then .error (shape 2)
      else .ok (s, { writes := [{ reg := .acc, lat := 2, ein := e.ein.toNat
                                  vals := e.lanes.map (fun i => (1024 * base + 64 * row + i, (e.q.rV v i).toNat)) }] }) }

/-- MXPROG (R218). -/
def fxMxprog (_g x : Nat) : SlotMeaning :=
  cellFx (fun e => { set := fun _ y =>
    { y with core := { y.core with gtab := BitVec.ofNat 128 ((e.q.rX (x + 1)).toNat * 2 ^ 64 + (e.q.rX x).toNat) } } })

/-! ## WSWAP (R224) -/

/-- A running CPY reads a weight bank on one of its source pages. -/
def State.copiesBank (s : State) (m : QCmd) : Bool :=
  let w := fun (i : Nat) => m.cmd.e.getD i 0
  m.cmd.cls == 0 && !tbit (w 0) 63
    && (List.range (bitsOf (w 2) 32 32)).any (fun r =>
      let a := (bitsOf (w 0) 0 52 : Int) + (w 3).toInt * r
      let n := bitsOf (w 2) 0 32
      (List.range (n / 65536 + 2)).any (fun i =>
        let at_ := min (a + 65536 * i) (a + n - 1)
        match s.walk m.pasid (at_ % 2 ^ 52).toNat with
        | .ok (_, w, _) => pteClass w == clsWBANK
        | .error _ => false))

/-- A line of the window of the weight banks (R229). -/
def bankLine (line : Nat) : Bool :=
  isDieKey (line * 128) && decide (0x001001000000 ≤ line * 128 % 2 ^ 48 ∧ line * 128 % 2 ^ 48 < 0x001002800000)

/-- A read of the active bank issued on the die has not returned its data: a load, an A-marked one that waits ahead of its
bundle among them, or a running copy. -/
def State.bankBusy (s : State) (d : Nat) : Bool :=
  let reads := fun (ps : List Part) => ps.any (fun p => p.op == .load && p.tgt.cls == clsWBANK)
  s.recs.any (fun r => r.reqs.any (fun q =>
    (match q.org with | some o => o.1 == d | none => false) && q.stage != .performed
    && (match q.body with | .mem _ ps => reads ps | .stload _ ps => reads ps | .ldv _ D .. => dClass D == clsWBANK | _ => false)))
  || s.recs.any (fun r => (r.die d).ahead.any (fun a => !a.done && a.lines.any bankLine))
  || [0, 1, 2, 3].any (fun i => match ((s.pdie d).engine i).running with | some m => s.copiesBank m | none => false)

/-- WSWAP: once per die; a WSWAP executed again after a rollback does not swap again. It raises SWAPBUSY like the first
where a read is open: the rule ties the fault to the bundle, not to the swap. (Log entry 79: DESIGN CHOICE.) -/
def fxWswap : SlotMeaning :=
  { pre := fun g s => if g.on && s.bankBusy g.d then some (cSWAPBUSY, 0, noInfo) else none
    group := fun g s =>
      let again := match (s.dctx g.c g.d).wswap with | some w => decide (inDiff g.ein w ≤ 0) | none => false
      if !g.on || again then s
      else (s.updPdie g.d (fun x => { x with absel := !x.absel })).updDctx g.c g.d (fun x => { x with wswap := some g.ein }) }

/-! ## The array (R213) -/

/-- One block of a BFP dot product. -/
def bfpBlock (neg : Bool) (ma mb : Nat) (a b : List Nat) (acc : Nat) : Nat × Nat :=
  let ea := a.getLastD 0
  let eb := b.getLastD 0
  if ea = 0xFF ∨ eb = 0xFF then (qNaN, 0)
  else
    let S : Int := ((a.dropLast.zip b.dropLast).map (fun p => sext p.1 ma * sext p.2 mb)).foldl (· + ·) 0
    rnd .rne (addExact .rne (f32Val acc) (finOf (if neg then -S else S) ((ea : Int) + eb - 254) false))

/-- One chunk of a BF16 dot product: the exact sum of the products, then one rounding. Infinities of opposite sign raise NV
where they meet before a NaN has. (Log entry 94: DESIGN CHOICE.) -/
def bf16Chunk (neg : Bool) (ps : List (Nat × Nat)) (acc : Nat) : Nat × Nat :=
  let prods := ps.map (fun p => mulExact (f32Val (p.1 * 2 ^ 16)) (f32Val (p.2 * 2 ^ 16)))
  let sum := prods.tail.foldl (fun (t : FVal × Nat) p =>
      let r := addExact .rne t.1 p.1
      (r.1, t.2 ||| p.2 ||| r.2)) (prods.headD (.fin false 0 0, 0))
  let (y, fl) := rnd .rne (addExact .rne (f32Val acc) (if neg then sum.1.negate else sum.1))
  (y, fl ||| sum.2)

/-- Cuts a list into pieces of 8. -/
def chunks8 {α : Type} : Nat → List α → List (List α)
  | 0, _ => []
  | n + 1, xs => if xs.isEmpty then [] else xs.take 8 :: chunks8 n (xs.drop 8)

/-- A fold of steps that each round and raise flags. -/
def foldRnd {α : Type} (f : α → Nat → Nat × Nat) (xs : List α) (acc : Nat) : Nat × Nat :=
  xs.foldl (fun (t : Nat × Nat) x => let r := f x t.1; (r.1, t.2 ||| r.2)) (acc, 0)

/-- One entry of a step: row items of A against the items of column j of B. -/
def dotEntry (A B : Desc) (neg bt : Bool) (N j : Nat) (as bs : List (List Nat)) (acc : Nat) : Nat × Nat :=
  let K := rowItems A
  let col := (List.range K).map (fun k => bs.getD (if bt then j * K + k else k * N + j) [])
  if dBfp A then foldRnd (fun (p : List Nat × List Nat) t => bfpBlock neg (dMant A) (dMant B) p.1 p.2 t) (as.zip col) acc
  else
    let ps := (as.zip col).map (fun p => (p.1.headD 0, p.2.headD 0))
    if dFmt A = 1 then foldRnd (fun c t => bf16Chunk neg c t) (chunks8 8 ps) acc
    else foldRnd (fun (p : Nat × Nat) t => rnd .rne (fmaExact .rne neg (f32Val p.1) (f32Val p.2) (f32Val t))) ps acc

/-! ## Running the head entry (R215 to R220, R222, R223) -/

/-- Changes a stream of a cell, in its shadows too: a rollback does not undo a macro-operation (R222). -/
def State.moveStream (s : State) (c d l st : Nat) (f : Desc → Desc) : State :=
  let g := fun (q : CellCore) => q.setDesc st (f (q.desc st))
  s.updDctx c d (fun x =>
    { x with cells := x.cells.map (fun p => if p.1 = l then (l, ({ p.2 with core := g p.2.core } : Cell).dropItems st (dCur (f (p.2.core.desc st)))) else p)
             shadows := x.shadows.map (fun sh => { sh with cells := sh.cells.map (fun p => if p.1 = l then (l, g p.2) else p) }) })

/-- The entries a later ACCWR has taken over: entry, the value the operation has for it, the IN of the ACCWR. -/
def State.skips (s : State) (c id : Nat) : List (Nat × Nat × Nat) :=
  match (s.rc c).reqs.find? (fun q => q.id == id) with
  | some q => (match q.body with | .macro_ _ _ skip => skip | _ => [])
  | none => []

/-- An entry as the running operation reads it. -/
def State.accOf (s : State) (c d l id e : Nat) : Nat :=
  match (s.skips c id).find? (fun p => p.1 == e) with
  | some p => p.2.1
  | none => (mapGet 0 (s.cell c d l).acc e).toNat

/-- The running operation writes entries (R209), with the flags of their roundings. An entry that a later ACCWR has taken
over takes the value for this operation and for those between it and that ACCWR. -/
def State.accPut (s : State) (c d l id : Nat) (vs : List (Nat × Nat)) (flags : Nat) : State :=
  let skip := s.skips c id
  let patch := fun (p : Nat × Nat × Nat) =>
    if skip.any (fun m => m.1 == p.1 && m.2.2 == p.2.2) then ((vs.find? (fun v => v.1 == p.1)).map (fun v => (p.1, v.2, p.2.2))).getD p else p
  let s := s.updCell c d l (fun y => { y with acc := vs.foldl (fun (m : Map Lane) (v : Nat × Nat) =>
    if skip.any (fun p => p.1 == v.1) then m else mapSet 0 m v.1 (BitVec.ofNat 32 v.2)) y.acc })
  let s := s.updRec c (fun r => { r with reqs := r.reqs.map (fun q =>
    match q.body with
    | .macro_ op ops sk => if q.org = some (d, l) ∧ id ≤ q.id then { q with body := .macro_ op ops (sk.map patch) } else q
    | _ => q) })
  s.updReq c id (fun q => { q with flags := q.flags ||| flags })

/-- The fault an item holds, with the tile row (R223). -/
def rowFault (D : Desc) (row : Nat) (i : Item) : Option FInfo :=
  i.fault.map (fun f => (f.1, f.2.1, row * 2 ^ 48 + (if f.1 = cECC then dAddr D i.t else f.2.2) % 2 ^ 48))

/-- One tile row of a product step: row `i` of the tile; `zero` starts it from +0.0. Items fetched stay with the cell
until their cursor passes them; the row fetches every item that it consumes, however far beyond the cursor. (Log entry 93:
DESIGN CHOICE.) -/
def State.productRow (s : State) (c d l : Nat) (x : MxEntry) (i : Nat) (zero : Bool) : State × Option FInfo :=
  let q := (s.cell c d l).core
  let a := opsA x.ops
  let b := opsB x.ops
  let A := q.desc a
  let B := q.desc b
  let N := tileCols x.ops
  let (s, as) := s.getItems c d l A a x.req ((List.range (rowItems A)).map (fun k => dCur A + k))
  let (s, bs) := s.getItems c d l B b x.req ((List.range (N * rowItems B)).map (fun k => dCur B + k))
  let s := (as ++ bs).foldl (fun (s : State) it => s.keepItem c d l it) s
  match (as.findSome? (rowFault A i)).or (bs.findSome? (rowFault B i)) with
  | some f => (s, some f)
  | none =>
    let at_ := ((as.find? Item.empty).map (fun i => dAddr A i.t)).or ((bs.find? Item.empty).map (fun i => dAddr B i.t))
    let low := at_.isSome
    if low ∧ tbit q.cctl 8 then (s, some (cUNDERWAIT, 0, i * 2 ^ 48 + (at_.getD 0) % 2 ^ 48))
    else
    let e0 := tileBase x.ops + N * i
    let rs := (List.range N).map (fun j =>
      (e0 + j, dotEntry A B (opsNeg x.ops) (opsBt x.ops) N j (as.map Item.vals) (bs.map Item.vals)
        (if zero then 0 else s.accOf c d l x.req (e0 + j))))
    let s := s.accPut c d l x.req (rs.map (fun r => (r.1, r.2.1))) (rs.foldl (fun (fl : Nat) r => fl ||| r.2.2) (if low then 0x100 else 0))
    (s.moveStream c d l a (fun D => advance D (rowItems D) (x.row + 1)), none)

/-- The end of a step or group: B moves past its operand, ROWP returns to 0. -/
def State.endStep (s : State) (c d l : Nat) (x : MxEntry) : State :=
  let n := tileCols x.ops
  (s.moveStream c d l (opsB x.ops) (fun D => advance D (n * rowItems D) (dfld D 7 48 8))).moveStream c d l (opsA x.ops) (fun D => advance D 0 0)

/-- The targets of the elements of a row that ACCOUT writes, one by one. -/
def State.outTargets (s : State) (c d l : Nat) (D : Desc) : List Nat → Except FInfo (State × List (List Target))
  | [] => .ok (s, [])
  | t :: ts =>
    match s.transferTargets c d l D [t] with
    | .error f => .error f
    | .ok (s, x) =>
      match State.outTargets s c d l D ts with
      | .error f => .error f
      | .ok (s, xs) => .ok (s, x.flatten :: xs)

/-- One row of ACCOUT (R220). -/
def State.outRow (s : State) (c d l : Nat) (x : MxEntry) : State × Option FInfo :=
  let st := opsO x.ops
  let O := (s.cell c d l).core.desc st
  let N := tileCols x.ops
  let e0 := tileBase x.ops + N * x.row
  let ts := (List.range N).map (fun j => dCur O + j)
  let at_ := fun (f : FInfo) => (f.1, f.2.1, x.row * 2 ^ 48 + f.2.2 % 2 ^ 48)
  match s.outTargets c d l O ts with
  | .error f => (s, some (at_ f))
  | .ok (s, tss) =>
    let dx := s.dctx c d
    let hits := if dClass O = 6 ∨ dx.suppress = some x.ein then []
      else ts.filterMap (fun t => (s.watches c d).hit (fun _ => true) (dAddr O t) (dUnit O))
    match hits with
    | h :: hs => (s, some (at_ (cWATCH, 0, hs.foldl min h)))
    | [] =>
      let vs := (List.range N).map (fun j =>
        let w := s.accOf c d l x.req (e0 + j)
        if dFmt O = 1 then roundFloat 8 .rne 0 (f32Val w) else (w, 0))
      let s := ((ts.zip tss).zip vs).foldl (fun (s : State) p =>
        (itemParts O p.1.1 p.1.2 [p.2.1]).foldl (fun (s : State) a => s.cellWrite c d l (dPath O) a.tgt a.n a.val) s) s
      let s := s.accPut c d l x.req [] (vs.foldl (fun (fl : Nat) v => fl ||| v.2) 0)
      (s.moveStream c d l st (fun D => advance D N (if x.row + 1 = tileRows x.ops then 0 else x.row + 1)), none)

/-- Groups of no rows are passed over; B moves past the operand of each (R217). -/
def State.skipGroups (s : State) (c d l : Nat) : Nat → MxEntry → State × MxEntry
  | 0, x => (s, x)
  | n + 1, x =>
    if x.grp < opsGroups x.ops ∧ gtRows x.gt (tileRows x.ops) x.grp = 0 then
      State.skipGroups (s.moveStream c d l (opsB x.ops) (fun D => advance D (tileCols x.ops * rowItems D) (dfld D 7 48 8))) c d l n
        { x with grp := x.grp + 1 }
    else (s, x)

/-- The next tile row of the running entry: the entry as it then stands, none when the operation has ended, or the fault
it meets; the entry then stands before the row that met it, past the groups of no rows before that (R217, R222).
(Log entry 52: DEDUCED.) -/
def State.macroRow (s : State) (c d l : Nat) (x : MxEntry) : State × Except FInfo (Option MxEntry) :=
  let M := tileRows x.ops
  let N := tileCols x.ops
  match x.op with
  | 4 =>
    let s := s.accPut c d l x.req ((List.range N).map (fun j => (tileBase x.ops + N * x.row + j, 0))) 0
    (s, .ok (if x.row + 1 = M then none else some { x with row := x.row + 1 }))
  | 7 =>
    match s.outRow c d l x with
    | (s, some f) => (s, .error f)
    | (s, none) => (s, .ok (if x.row + 1 = M then none else some { x with row := x.row + 1 }))
  | 3 =>
    let (s, x) := s.skipGroups c d l 16 x
    if opsGroups x.ops ≤ x.grp then (s, .ok none)
    else
      match s.productRow c d l x (gtStart x.gt x.grp + x.row) false with
      | (s, some f) => (s.updCell c d l (fun y => { y with run := some x }), .error f)
      | (s, none) =>
        if x.row + 1 = gtRows x.gt M x.grp then
          let s := s.endStep c d l x
          (s, .ok (if x.grp + 1 = opsGroups x.ops then none else some { x with row := 0, grp := x.grp + 1 }))
        else (s, .ok (some { x with row := x.row + 1 }))
  | op =>
    match s.productRow c d l x x.row (opsZero x.ops && x.step == 0) with
    | (s, some f) => (s, .error f)
    | (s, none) =>
      if x.row + 1 = M then
        let s := s.endStep c d l x
        let A := (s.cell c d l).core.desc (opsA x.ops)
        (s, .ok (if op = 2 ∧ dCur A < dLen A then some { x with row := 0, step := x.step + 1 } else none))
      else (s, .ok (some { x with row := x.row + 1 }))

end Sys2Proof.Machine
end

