-- ==== Sys2Proof/Machine/SeqEng.lean ====
section
/-! DEFINITION. The ENG words (R56, R57, R342, R343, R355): a command enters its Armature queue at issue, or is refused
there; it is carried on once the word's mark has committed (R426). -/

namespace Sys2Proof.Machine

/-- Depth of an Armature queue and of a die queue (R342). -/
def armDepth : Nat := 16
def dieDepth : Nat := 32

/-- The descriptor s(8·desc) to s(8·desc + 7). -/
def SeqCore.desc (q : SeqCore) (desc : Nat) : List Word := (regSpan (8 * desc) 8).map q.rS

/-- The lowest valid queue slot that maps a queue (R353). -/
def State.slotOf (s : State) (pasid qid : Nat) : Option Nat :=
  s.qslots.findIdx? (fun q => tbit q.qa 63 && bitsOf q.qa 20 20 == pasid && bitsOf q.qa 0 16 == qid)

/-- The refusals of an Armature queue are charged to the engine that would run the command (R411). -/
def State.armEngine (s : State) (c : Rec) (cls : Nat) (e : List Word) : Option (Nat × Nat) :=
  match cls with
  | 0 => some (c.field.origin, 0)
  | 2 => some (s.heapDie c.pasid.toNat (refHid (e.headD 0).toNat), 4)
  | 1 =>
    match s.walk c.pasid.toNat ((e.getD 1 0).toNat % 2 ^ 52) with
    | .ok (_, w, level) => some ((pageTarget c.pasid.toNat ((e.getD 1 0).toNat % 2 ^ 52) w level).key / 2 ^ 48, 5)
    | .error _ => none
  | _ => none

/-- A refusal (R57): nothing enters, the token does not post, bp ← true. -/
def engRefused (e : SeqEnv) (bp : Nat) (note : State → State) : SeqFx :=
  { writes := one (.p bp) 1 1, post := fun s => note (s.effectMark e) : SeqFx }

/-- An accepted command (R57): it takes an entry of the queue at issue, its operation is held. -/
def engAccepted (e : SeqEnv) (cls ts bp : Nat) (sc : Scope) (m : Cmd) (note : State → State) : SeqFx :=
  let q : Req := { mkReq none e.q.inn slX (some ts) none (.cmd m) false false with sc := sc }
  let fx := effectFx e q (one (.p bp) 0 1)
  let put := fun (s : State) =>
    let s := fx.post s
    let qc : QCmd := { c := e.c, req := s.lastId, org := none, pasid := e.rc.pasid.toNat, home := e.rc.field.origin, sc := sc,
                        cmd := m, prog := 0, code := 0, page := false, ended := false, lost := false, no := 0 }
    note { s with armq := s.armq.modify cls (fun q => q ++ [qc]) }
  { fx with post := put }

/-- An ENG word of a class other than ENQ. -/
def eng (cls desc ts : Nat) (acq rel : Bool) (sc : Scope) (bp : Nat) : SeqMeaning := fun e s =>
  let d := e.q.desc desc
  let m : Cmd := { cls := cls, e := d, items := [], acq := acq, rel := rel }
  if armDepth ≤ (s.armq.getD cls []).length then
    .ok (s, engRefused e bp (fun s =>
      match s.armEngine e.rc cls d with
      | some (die, x) => s.updPdie die (fun y => y.setEngine x { y.engine x with refused := (y.engine x).refused + 1 })
      | none => s))
  else .ok (s, engAccepted e cls ts bp sc m id)

def fxEngCpy (desc ts : Nat) (acq rel : Bool) (sc : Scope) (bp : Nat) : SeqMeaning := eng 0 desc ts acq rel sc bp
def fxEngInstall (desc ts : Nat) (acq rel : Bool) (sc : Scope) (bp : Nat) : SeqMeaning := eng 1 desc ts acq rel sc bp
def fxEngReloc (desc ts : Nat) (acq rel : Bool) (sc : Scope) (bp : Nat) : SeqMeaning := eng 2 desc ts acq rel sc bp
def fxMbxsend (desc ts : Nat) (acq rel : Bool) (sc : Scope) (bp : Nat) : SeqMeaning := eng 3 desc ts acq rel sc bp
def fxPodsend (desc ts : Nat) (acq rel : Bool) (sc : Scope) (bp : Nat) : SeqMeaning := eng 5 desc ts acq rel sc bp

/-- CTXSTART, told apart by its descriptor: RESTORE is E0[4], GO is E0[7] (R363). The three rows of the table are one
encoding; executed alone, each is that word. -/
def fxCtxstart (desc ts : Nat) (acq rel : Bool) (sc : Scope) (bp : Nat) : SeqMeaning := eng 6 desc ts acq rel sc bp
def fxCtxstartRestore (desc ts : Nat) (acq rel : Bool) (sc : Scope) (bp : Nat) : SeqMeaning := eng 6 desc ts acq rel sc bp
def fxCtxstartGo (desc ts : Nat) (acq rel : Bool) (sc : Scope) (bp : Nat) : SeqMeaning := eng 6 desc ts acq rel sc bp
def fxCtxsave (desc ts : Nat) (acq rel : Bool) (sc : Scope) (bp : Nat) : SeqMeaning := eng 7 desc ts acq rel sc bp

/-- ENQ (R355): refused when its queue is full, unmapped (which records a kick) or without a reserved index; accepted,
it takes RNEXT at issue. Acceptance and refusal are logged (R439). acq is ignored. (Log entry 58: DEDUCED.) -/
def fxEnq (desc ts : Nat) (_acq rel : Bool) (sc : Scope) (bp : Nat) : SeqMeaning := fun e s =>
  let d := e.q.desc desc
  let pasid := e.rc.pasid.toNat
  let qid := (d.headD 0).toNat % 2 ^ 16
  let slot := s.slotOf pasid qid
  let full := decide (armDepth ≤ (s.armq.getD 4 []).length)
  let rsv := match slot with | some i => bitsOf (s.qslots.getD i .reset).qa 41 4 | none => 0
  let ok := !full && slot.isSome && decide (rsv ≠ 0)
  match s.logged e.c inENQ e.rc.field.origin none e.q.inn.toNat e.q.pc.toNat [if ok then 1 else 0] with
  | .error f => .error f
  | .ok (s, vs) =>
    if vs.headD 0 = 0 then
      .ok (s, engRefused e bp (fun s => if slot.isNone then s.kick pasid qid else s))
    else
      let i := slot.getD 0
      let q := s.qslots.getD i .reset
      let m : Cmd := { cls := 4, e := d, items := [(bitsOf q.qb 6 46 * 64, bitsOf q.qc 0 32, bitsOf q.qb 0 5)], acq := false, rel := rel }
      .ok (s, engAccepted e 4 ts bp sc m (fun s =>
        { s with qslots := s.qslots.modify i (fun q =>
            { q with qc := BitVec.ofNat 64 (bitsOf q.qc 32 32 * 2 ^ 32 + (bitsOf q.qc 0 32 + 1) % 2 ^ 32)
                     qa := q.qa - BitVec.ofNat 64 (2 ^ 41) }) }))

end Sys2Proof.Machine
end

