-- ==== Sys2Proof/Machine/Transfer.lean ====
section
/-! DEFINITION. The XF slot: transfers of a superstep (R339 to R341) and engine commands of cells (R77, R342, R343,
R347 to R350). -/

namespace Sys2Proof.Machine

/-! ## Transfers -/

/-- Records what a cell sends in the open superstep. -/
def State.send (s : State) (c d : Nat) (x : Sent) : State := s.updDctx c d (fun y => { y with sent := y.sent ++ [x] })

/-- The ordinal of a transfer of a cell on a pattern: those of its kind that the cell has issued in this superstep. -/
def DieCtx.cellOrd (x : DieCtx) (op pat l : Nat) : Nat := (x.sent.filter (fun y => (if y.op = 5 then 2 else y.op) == op && y.pat == pat && y.cell == l)).length

/-- The die counts a transfer instruction (R339); PERM also counts for its ordinal (R340). -/
def countXfer (perm : Bool) (g : GroupEnv) (s : State) : State :=
  s.updDctx g.c g.d (fun x => { x with xfers := x.xfers + 1, perms := if perm then x.perms + 1 else x.perms })

/-- PERM and CSHUF: every lane of v(a) is sent as it stood at the start of the bundle. -/
def lanesXfer (op d a pat tk : Nat) : SlotMeaning :=
  { cell := fun e s =>
      let ord := if e.dx.phaseOpen then e.dx.perms else 0
      let x : Sent := { ein := e.ein, op := op, pat := pat, ord := ord, cell := e.l, bytes := []
                        vals := (List.range 64).map (fun i => (i, (e.q.rV a i).toNat)) }
      .ok (s.send e.c e.d x, { marks := [(.v d, e.lanes)]
                               req := some (cellReq e tk (some (.v d)) (.xfer op pat ord e.lanes 0 0) false false) })
    group := countXfer (op == 1) }

def fxPerm (_g d a pat tk : Nat) : SlotMeaning := lanesXfer 1 d a pat tk
def fxCshuf (_g d a pat tk : Nat) : SlotMeaning := lanesXfer 4 d a pat tk

/-- The address check of a transfer's scratch range (R226, R235, R341). (Log entry 61: DEDUCED.) -/
def xferFault (e : CellEnv) (ea n : Nat) : Option FInfo :=
  if 2 ^ 52 ≤ ea ∨ e.scratch < ea + n then some (cPROTECT, 4, ea)
  else if ea % 128 ≠ 0 ∨ n % 128 ≠ 0 ∨ 65536 < n then some (cPROTECT, 0, ea)
  else none

/-- XMIT: its bytes are read out in its place in the program order, after what comes before it there (R306, R307 rule 4). -/
def fxXmit (_g a b pat tk : Nat) : SlotMeaning :=
  { cell := fun e s =>
      let ea := (e.q.rX a).toNat
      let n := (e.q.rX b).toNat
      match xferFault e ea n with
      | some f => .error f
      | none =>
        let ord := e.dx.cellOrd 2 pat e.l
        let x : Sent := { ein := e.ein, op := 5, pat := pat, ord := ord, cell := e.l, vals := [], bytes := [] }
        .ok (s.send e.c e.d x, { req := some (cellReq e tk none (.xfer 2 pat ord [] ea n) false false) })
    group := countXfer false }

/-- RECV: its delivery is held (R426). No bound is its own, for bytes beyond scratch are discarded (R341). -/
def fxRecv (_g a pat tk : Nat) : SlotMeaning :=
  { cell := fun e s =>
      let ea := (e.q.rX a).toNat
      if 2 ^ 52 ≤ ea then .error (cPROTECT, 4, ea)
      else if ea % 128 ≠ 0 then .error (cPROTECT, 0, ea)
      else
        let ord := e.dx.cellOrd 3 pat e.l
        let x : Sent := { ein := e.ein, op := 3, pat := pat, ord := ord, cell := e.l, vals := [], bytes := [] }
        .ok (s.send e.c e.d x, { req := some (cellReq e tk none (.xfer 3 pat ord [] ea e.scratch) true false) })
    group := countXfer false }

/-! ## Engine commands of cells -/

/-- The engine whose queue a cell's command enters (R342): a copy engine by column, the pointing engine, the Kiln. -/
def xfEngine (cls l : Nat) : Nat := if cls = 1 then 5 else if cls = 2 then 4 else l % 4

/-- The back-pressure bit, in the lanes active under the guard (R77). -/
def bkWrite (e : CellEnv) (bk v : Nat) : List Write := [{ reg := .k bk, vals := e.lanes.map (fun i => (i, v)), lat := 1, ein := e.ein.toNat }]

/-- A command of a cell: refused when the queue is full, else it takes an entry at once and is held. -/
def xfCmd (cls xd tk : Nat) (sc : Scope) (acq rel : Bool) (bk : Nat) (items : CellEnv → List (Nat × Nat × Nat)) : SlotMeaning :=
  { cell := fun e s =>
      let m : Cmd := { cls := cls, e := (regSpan (8 * xd) 8).map e.q.rX, items := items e, acq := acq, rel := rel }
      let x := xfEngine cls e.l
      if dieDepth ≤ ((s.pdie e.d).engine x).queue.length then
        let s := s.updPdie e.d (fun y => y.setEngine x { y.engine x with refused := (y.engine x).refused + 1 })
        .ok (s, { writes := bkWrite e bk 1 })
      else
        let qc : QCmd := { c := e.c, req := cmdUnclaimed, org := some (e.d, e.l), pasid := e.rc.pasid.toNat, home := e.d, sc := sc,
                           cmd := m, prog := 0, code := 0, page := false, ended := false, lost := false, no := s.cmdNo }
        let s := { s with cmdNo := s.cmdNo + 1 }.updPdie e.d (fun y => y.setEngine x { y.engine x with queue := (y.engine x).queue ++ [qc] })
        let q := cellReq e tk none (.cmd m) true false
        .ok (s, { writes := bkWrite e bk 0, req := some { q with sc := sc } }) }

def fxXfCpy (_g xd tk : Nat) (sc : Scope) (acq rel : Bool) (bk : Nat) : SlotMeaning := xfCmd 0 xd tk sc acq rel bk (fun _ => [])
def fxXfReloc (_g xd tk : Nat) (sc : Scope) (acq rel : Bool) (bk : Nat) : SlotMeaning := xfCmd 2 xd tk sc acq rel bk (fun _ => [])
def fxXfInstall (_g xd tk : Nat) (sc : Scope) (acq rel : Bool) (bk : Nat) : SlotMeaning := xfCmd 1 xd tk sc acq rel bk (fun _ => [])
/-- BINSCAT: (lane, bin, item) of the active lanes. -/
def fxBinscat (_g d a xd tk : Nat) (sc : Scope) (bk : Nat) : SlotMeaning :=
  xfCmd 8 xd tk sc false false bk (fun e => e.lanes.map (fun i => (i, (e.q.rV a i).toNat, (e.q.rV d i).toNat)))

end Sys2Proof.Machine
end

