-- ==== Sys2Proof/Machine/ExecBundle.lean ====
section
/-! DEFINITION. Every instruction of the cells executed alone: the bundle that holds it and nothing else (R62), and the meaning of any
decoded slot of a bundle. -/

namespace Sys2Proof.Machine

/-! ## V slots -/

/-- VMOV (R149). -/
def execVmov (g d a : Nat) (s : State) : Host.Outcome State Fault Refusal :=
  s.issueLane ⟨.v, 0x1, [g, d, a]⟩ (fxVmov g d a)

/-- VMOVI (R149). -/
def execVmovi (g : Nat) (ty : Ty) (d imm20 : Nat) (s : State) : Host.Outcome State Fault Refusal :=
  s.issueLane ⟨.v, 0x2, [g, (tyCode ty), d, imm20]⟩ (fxVmovi g ty d imm20)

/-- VBCST (R149). -/
def execVbcst (g d a : Nat) (s : State) : Host.Outcome State Fault Refusal :=
  s.issueLane ⟨.v, 0x3, [g, d, a]⟩ (fxVbcst g d a)

/-- VLANE (R149). -/
def execVlane (g d : Nat) (s : State) : Host.Outcome State Fault Refusal :=
  s.issueLane ⟨.v, 0x4, [g, d]⟩ (fxVlane g d)

/-- VCOORD (R149). -/
def execVcoord (g d which : Nat) (s : State) : Host.Outcome State Fault Refusal :=
  s.issueLane ⟨.v, 0x5, [g, d, which]⟩ (fxVcoord g d which)

/-- VADD (R150). -/
def execVadd (g : Nat) (ty : Ty) (d a b : Nat) (s : State) : Host.Outcome State Fault Refusal :=
  s.issueLane ⟨.v, 0x8, [g, (tyCode ty), d, a, b]⟩ (fxVadd g ty d a b)

/-- VSUB (R150). -/
def execVsub (g : Nat) (ty : Ty) (d a b : Nat) (s : State) : Host.Outcome State Fault Refusal :=
  s.issueLane ⟨.v, 0x9, [g, (tyCode ty), d, a, b]⟩ (fxVsub g ty d a b)

/-- VMULLO (R150). -/
def execVmullo (g : Nat) (ty : Ty) (d a b : Nat) (s : State) : Host.Outcome State Fault Refusal :=
  s.issueLane ⟨.v, 0xa, [g, (tyCode ty), d, a, b]⟩ (fxVmullo g ty d a b)

/-- VMULHI (R150). -/
def execVmulhi (g : Nat) (ty : Ty) (d a b : Nat) (s : State) : Host.Outcome State Fault Refusal :=
  s.issueLane ⟨.v, 0xb, [g, (tyCode ty), d, a, b]⟩ (fxVmulhi g ty d a b)

/-- VMIN (R150). -/
def execVmin (g : Nat) (ty : Ty) (d a b : Nat) (s : State) : Host.Outcome State Fault Refusal :=
  s.issueLane ⟨.v, 0xc, [g, (tyCode ty), d, a, b]⟩ (fxVmin g ty d a b)

/-- VMAX (R150). -/
def execVmax (g : Nat) (ty : Ty) (d a b : Nat) (s : State) : Host.Outcome State Fault Refusal :=
  s.issueLane ⟨.v, 0xd, [g, (tyCode ty), d, a, b]⟩ (fxVmax g ty d a b)

/-- VABSD (R150). -/
def execVabsd (g : Nat) (ty : Ty) (d a b : Nat) (s : State) : Host.Outcome State Fault Refusal :=
  s.issueLane ⟨.v, 0xe, [g, (tyCode ty), d, a, b]⟩ (fxVabsd g ty d a b)

/-- VADDSAT (R150). -/
def execVaddsat (g : Nat) (ty : Ty) (d a b : Nat) (s : State) : Host.Outcome State Fault Refusal :=
  s.issueLane ⟨.v, 0xf, [g, (tyCode ty), d, a, b]⟩ (fxVaddsat g ty d a b)

/-- VAND (R152). -/
def execVand (g d a b : Nat) (s : State) : Host.Outcome State Fault Refusal :=
  s.issueLane ⟨.v, 0x10, [g, d, a, b]⟩ (fxVand g d a b)

/-- VOR (R152). -/
def execVor (g d a b : Nat) (s : State) : Host.Outcome State Fault Refusal :=
  s.issueLane ⟨.v, 0x11, [g, d, a, b]⟩ (fxVor g d a b)

/-- VXOR (R152). -/
def execVxor (g d a b : Nat) (s : State) : Host.Outcome State Fault Refusal :=
  s.issueLane ⟨.v, 0x12, [g, d, a, b]⟩ (fxVxor g d a b)

/-- VANDN (R152). -/
def execVandn (g d a b : Nat) (s : State) : Host.Outcome State Fault Refusal :=
  s.issueLane ⟨.v, 0x13, [g, d, a, b]⟩ (fxVandn g d a b)

/-- VSHL (R151). -/
def execVshl (g : Nat) (ty : Ty) (d a b : Nat) (s : State) : Host.Outcome State Fault Refusal :=
  s.issueLane ⟨.v, 0x14, [g, (tyCode ty), d, a, b]⟩ (fxVshl g ty d a b)

/-- VSHR (R151). -/
def execVshr (g : Nat) (ty : Ty) (d a b : Nat) (s : State) : Host.Outcome State Fault Refusal :=
  s.issueLane ⟨.v, 0x15, [g, (tyCode ty), d, a, b]⟩ (fxVshr g ty d a b)

/-- VSAR (R151). -/
def execVsar (g : Nat) (ty : Ty) (d a b : Nat) (s : State) : Host.Outcome State Fault Refusal :=
  s.issueLane ⟨.v, 0x16, [g, (tyCode ty), d, a, b]⟩ (fxVsar g ty d a b)

/-- VSHLI (R151). -/
def execVshli (g : Nat) (ty : Ty) (d a n : Nat) (s : State) : Host.Outcome State Fault Refusal :=
  s.issueLane ⟨.v, 0x17, [g, (tyCode ty), d, a, n]⟩ (fxVshli g ty d a n)

/-- VPOPC (R151). -/
def execVpopc (g : Nat) (ty : Ty) (d a : Nat) (s : State) : Host.Outcome State Fault Refusal :=
  s.issueLane ⟨.v, 0x18, [g, (tyCode ty), d, a]⟩ (fxVpopc g ty d a)

/-- VCLZ (R151). -/
def execVclz (g : Nat) (ty : Ty) (d a : Nat) (s : State) : Host.Outcome State Fault Refusal :=
  s.issueLane ⟨.v, 0x19, [g, (tyCode ty), d, a]⟩ (fxVclz g ty d a)

/-- VSEL (R153). -/
def execVsel (g d a b m : Nat) (s : State) : Host.Outcome State Fault Refusal :=
  s.issueLane ⟨.v, 0x1c, [g, d, a, b, m]⟩ (fxVsel g d a b m)

/-- VSHF (R153). -/
def execVshf (g d a b : Nat) (s : State) : Host.Outcome State Fault Refusal :=
  s.issueLane ⟨.v, 0x1d, [g, d, a, b]⟩ (fxVshf g d a b)

/-- VROT (R153). -/
def execVrot (g d a n : Nat) (s : State) : Host.Outcome State Fault Refusal :=
  s.issueLane ⟨.v, 0x1e, [g, d, a, n]⟩ (fxVrot g d a n)

/-- VCMP_EQ (R154). -/
def execVcmpEq (g : Nat) (ty : Ty) (a b m : Nat) (s : State) : Host.Outcome State Fault Refusal :=
  s.issueLane ⟨.v, 0x20, [g, (tyCode ty), a, b, m]⟩ (fxVcmpEq g ty a b m)

/-- VCMP_NE (R154). -/
def execVcmpNe (g : Nat) (ty : Ty) (a b m : Nat) (s : State) : Host.Outcome State Fault Refusal :=
  s.issueLane ⟨.v, 0x21, [g, (tyCode ty), a, b, m]⟩ (fxVcmpNe g ty a b m)

/-- VCMP_LT (R154). -/
def execVcmpLt (g : Nat) (ty : Ty) (a b m : Nat) (s : State) : Host.Outcome State Fault Refusal :=
  s.issueLane ⟨.v, 0x22, [g, (tyCode ty), a, b, m]⟩ (fxVcmpLt g ty a b m)

/-- VCMP_LE (R154). -/
def execVcmpLe (g : Nat) (ty : Ty) (a b m : Nat) (s : State) : Host.Outcome State Fault Refusal :=
  s.issueLane ⟨.v, 0x23, [g, (tyCode ty), a, b, m]⟩ (fxVcmpLe g ty a b m)

/-- VCMP_LTU (R154). -/
def execVcmpLtu (g : Nat) (ty : Ty) (a b m : Nat) (s : State) : Host.Outcome State Fault Refusal :=
  s.issueLane ⟨.v, 0x24, [g, (tyCode ty), a, b, m]⟩ (fxVcmpLtu g ty a b m)

/-- VCMP_LEU (R154). -/
def execVcmpLeu (g : Nat) (ty : Ty) (a b m : Nat) (s : State) : Host.Outcome State Fault Refusal :=
  s.issueLane ⟨.v, 0x25, [g, (tyCode ty), a, b, m]⟩ (fxVcmpLeu g ty a b m)

/-- VFCMP_EQ (R154). -/
def execVfcmpEq (g a b m : Nat) (s : State) : Host.Outcome State Fault Refusal :=
  s.issueLane ⟨.v, 0x26, [g, a, b, m]⟩ (fxVfcmpEq g a b m)

/-- VFCMP_LT (R154). -/
def execVfcmpLt (g a b m : Nat) (s : State) : Host.Outcome State Fault Refusal :=
  s.issueLane ⟨.v, 0x27, [g, a, b, m]⟩ (fxVfcmpLt g a b m)

/-- VFCMP_LE (R154). -/
def execVfcmpLe (g a b m : Nat) (s : State) : Host.Outcome State Fault Refusal :=
  s.issueLane ⟨.v, 0x28, [g, a, b, m]⟩ (fxVfcmpLe g a b m)

/-- VFCMP_UN (R154). -/
def execVfcmpUn (g a b m : Nat) (s : State) : Host.Outcome State Fault Refusal :=
  s.issueLane ⟨.v, 0x29, [g, a, b, m]⟩ (fxVfcmpUn g a b m)

/-- VFADD (R155). -/
def execVfadd (g : Nat) (rm : Rm) (d a b : Nat) (s : State) : Host.Outcome State Fault Refusal :=
  s.issueLane ⟨.v, 0x30, [g, (rmCode rm), d, a, b]⟩ (fxVfadd g rm d a b)

/-- VFSUB (R155). -/
def execVfsub (g : Nat) (rm : Rm) (d a b : Nat) (s : State) : Host.Outcome State Fault Refusal :=
  s.issueLane ⟨.v, 0x31, [g, (rmCode rm), d, a, b]⟩ (fxVfsub g rm d a b)

/-- VFMUL (R155). -/
def execVfmul (g : Nat) (rm : Rm) (d a b : Nat) (s : State) : Host.Outcome State Fault Refusal :=
  s.issueLane ⟨.v, 0x32, [g, (rmCode rm), d, a, b]⟩ (fxVfmul g rm d a b)

/-- VFMA (R155). -/
def execVfma (g : Nat) (rm : Rm) (d a b c : Nat) (s : State) : Host.Outcome State Fault Refusal :=
  s.issueLane ⟨.v, 0x33, [g, (rmCode rm), d, a, b, c]⟩ (fxVfma g rm d a b c)

/-- VFMS (R155). -/
def execVfms (g : Nat) (rm : Rm) (d a b c : Nat) (s : State) : Host.Outcome State Fault Refusal :=
  s.issueLane ⟨.v, 0x34, [g, (rmCode rm), d, a, b, c]⟩ (fxVfms g rm d a b c)

/-- VFNMA (R155). -/
def execVfnma (g : Nat) (rm : Rm) (d a b c : Nat) (s : State) : Host.Outcome State Fault Refusal :=
  s.issueLane ⟨.v, 0x35, [g, (rmCode rm), d, a, b, c]⟩ (fxVfnma g rm d a b c)

/-- VFMIN (R157). -/
def execVfmin (g d a b : Nat) (s : State) : Host.Outcome State Fault Refusal :=
  s.issueLane ⟨.v, 0x36, [g, d, a, b]⟩ (fxVfmin g d a b)

/-- VFMAX (R157). -/
def execVfmax (g d a b : Nat) (s : State) : Host.Outcome State Fault Refusal :=
  s.issueLane ⟨.v, 0x37, [g, d, a, b]⟩ (fxVfmax g d a b)

/-- VFABS (R158). -/
def execVfabs (g d a : Nat) (s : State) : Host.Outcome State Fault Refusal :=
  s.issueLane ⟨.v, 0x38, [g, d, a]⟩ (fxVfabs g d a)

/-- VFNEG (R158). -/
def execVfneg (g d a : Nat) (s : State) : Host.Outcome State Fault Refusal :=
  s.issueLane ⟨.v, 0x39, [g, d, a]⟩ (fxVfneg g d a)

/-- VFDIV (R155). -/
def execVfdiv (g : Nat) (rm : Rm) (d a b : Nat) (s : State) : Host.Outcome State Fault Refusal :=
  s.issueLane ⟨.v, 0x3a, [g, (rmCode rm), d, a, b]⟩ (fxVfdiv g rm d a b)

/-- VFSQRT (R156). -/
def execVfsqrt (g : Nat) (rm : Rm) (d a : Nat) (s : State) : Host.Outcome State Fault Refusal :=
  s.issueLane ⟨.v, 0x3b, [g, (rmCode rm), d, a]⟩ (fxVfsqrt g rm d a)

/-- VFRSQRT (R156). -/
def execVfrsqrt (g : Nat) (rm : Rm) (d a : Nat) (s : State) : Host.Outcome State Fault Refusal :=
  s.issueLane ⟨.v, 0x3c, [g, (rmCode rm), d, a]⟩ (fxVfrsqrt g rm d a)

/-- VFEXP2 (R156). -/
def execVfexp2 (g : Nat) (rm : Rm) (d a : Nat) (s : State) : Host.Outcome State Fault Refusal :=
  s.issueLane ⟨.v, 0x3d, [g, (rmCode rm), d, a]⟩ (fxVfexp2 g rm d a)

/-- VFLOG2 (R156). -/
def execVflog2 (g : Nat) (rm : Rm) (d a : Nat) (s : State) : Host.Outcome State Fault Refusal :=
  s.issueLane ⟨.v, 0x3e, [g, (rmCode rm), d, a]⟩ (fxVflog2 g rm d a)

/-- VFCLASS (R159). -/
def execVfclass (g d a : Nat) (s : State) : Host.Outcome State Fault Refusal :=
  s.issueLane ⟨.v, 0x3f, [g, d, a]⟩ (fxVfclass g d a)

/-- VRSUM_F32 (R161). -/
def execVrsumF32 (g : Nat) (rm : Rm) (d a : Nat) (s : State) : Host.Outcome State Fault Refusal :=
  s.issueLane ⟨.v, 0x40, [g, (rmCode rm), d, a]⟩ (fxVrsumF32 g rm d a)

/-- VRMAX_F32 (R160). -/
def execVrmaxF32 (g d a : Nat) (s : State) : Host.Outcome State Fault Refusal :=
  s.issueLane ⟨.v, 0x41, [g, d, a]⟩ (fxVrmaxF32 g d a)

/-- VRAMAX (R160). -/
def execVramax (g d a : Nat) (s : State) : Host.Outcome State Fault Refusal :=
  s.issueLane ⟨.v, 0x42, [g, d, a]⟩ (fxVramax g d a)

/-- VRSUM_I (R160). -/
def execVrsumI (g : Nat) (ty : Ty) (d a : Nat) (s : State) : Host.Outcome State Fault Refusal :=
  s.issueLane ⟨.v, 0x43, [g, (tyCode ty), d, a]⟩ (fxVrsumI g ty d a)

/-- VRMAX_I (R160). -/
def execVrmaxI (g : Nat) (ty : Ty) (d a : Nat) (s : State) : Host.Outcome State Fault Refusal :=
  s.issueLane ⟨.v, 0x44, [g, (tyCode ty), d, a]⟩ (fxVrmaxI g ty d a)

/-- XMOV (R162). -/
def execXmov (g d a : Nat) (s : State) : Host.Outcome State Fault Refusal :=
  s.issueLane ⟨.v, 0x48, [g, d, a]⟩ (fxXmov g d a)

/-- XMOVI (R162). -/
def execXmovi (g d imm20 : Nat) (s : State) : Host.Outcome State Fault Refusal :=
  s.issueLane ⟨.v, 0x49, [g, d, imm20]⟩ (fxXmovi g d imm20)

/-- XADD (R162). -/
def execXadd (g d a b : Nat) (s : State) : Host.Outcome State Fault Refusal :=
  s.issueLane ⟨.v, 0x4a, [g, d, a, b]⟩ (fxXadd g d a b)

/-- XSUB (R162). -/
def execXsub (g d a b : Nat) (s : State) : Host.Outcome State Fault Refusal :=
  s.issueLane ⟨.v, 0x4b, [g, d, a, b]⟩ (fxXsub g d a b)

/-- XMUL (R162). -/
def execXmul (g d a b : Nat) (s : State) : Host.Outcome State Fault Refusal :=
  s.issueLane ⟨.v, 0x4c, [g, d, a, b]⟩ (fxXmul g d a b)

/-- XAND (R162). -/
def execXand (g d a b : Nat) (s : State) : Host.Outcome State Fault Refusal :=
  s.issueLane ⟨.v, 0x4d, [g, d, a, b]⟩ (fxXand g d a b)

/-- CELL_XOR (R162). -/
def execCellXor (g d a b : Nat) (s : State) : Host.Outcome State Fault Refusal :=
  s.issueLane ⟨.v, 0x4e, [g, d, a, b]⟩ (fxCellXor g d a b)

/-- XSHL (R162). -/
def execXshl (g d a b : Nat) (s : State) : Host.Outcome State Fault Refusal :=
  s.issueLane ⟨.v, 0x4f, [g, d, a, b]⟩ (fxXshl g d a b)

/-- XSHR (R162). -/
def execXshr (g d a b : Nat) (s : State) : Host.Outcome State Fault Refusal :=
  s.issueLane ⟨.v, 0x50, [g, d, a, b]⟩ (fxXshr g d a b)

/-- XCMP (R163). -/
def execXcmp (g : Nat) (cc : Cc) (a b m : Nat) (s : State) : Host.Outcome State Fault Refusal :=
  s.issueLane ⟨.v, 0x51, [g, (ccCode cc), a, b, m]⟩ (fxXcmp g cc a b m)

/-- XFROMV (R162). -/
def execXfromv (g d a lane : Nat) (s : State) : Host.Outcome State Fault Refusal :=
  s.issueLane ⟨.v, 0x52, [g, d, a, lane]⟩ (fxXfromv g d a lane)

/-- XTOK (R162). -/
def execXtok (g d a : Nat) (s : State) : Host.Outcome State Fault Refusal :=
  s.issueLane ⟨.v, 0x53, [g, d, a]⟩ (fxXtok g d a)

/-! ## Conversions -/

/-- VCVT_F32_I32 (R183). -/
def execVcvtF32I32 (g : Nat) (rm : Rm) (d a : Nat) (s : State) : Host.Outcome State Fault Refusal :=
  s.issueLane ⟨.conv, 0x60, [g, (rmCode rm), d, a]⟩ (fxVcvtF32I32 g rm d a)

/-- VCVT_I32_F32 (R183). -/
def execVcvtI32F32 (g : Nat) (rm : Rm) (d a : Nat) (s : State) : Host.Outcome State Fault Refusal :=
  s.issueLane ⟨.conv, 0x61, [g, (rmCode rm), d, a]⟩ (fxVcvtI32F32 g rm d a)

/-- VCVT_BF16_F32 (R184). -/
def execVcvtBf16F32 (g : Nat) (rm : Rm) (d a : Nat) (s : State) : Host.Outcome State Fault Refusal :=
  s.issueLane ⟨.conv, 0x62, [g, (rmCode rm), d, a]⟩ (fxVcvtBf16F32 g rm d a)

/-- VCVT_F32_BF16 (R184). -/
def execVcvtF32Bf16 (g d a : Nat) (s : State) : Host.Outcome State Fault Refusal :=
  s.issueLane ⟨.conv, 0x63, [g, d, a]⟩ (fxVcvtF32Bf16 g d a)

/-- VSPLIT3 (R187). -/
def execVsplit3 (g d a : Nat) (s : State) : Host.Outcome State Fault Refusal :=
  s.issueLane ⟨.conv, 0x64, [g, d, a]⟩ (fxVsplit3 g d a)

/-- VAMAXB (R188). -/
def execVamaxb (g : Nat) (bs : Bool) (d a : Nat) (s : State) : Host.Outcome State Fault Refusal :=
  s.issueLane ⟨.conv, 0x65, [g, (bit bs), d, a]⟩ (fxVamaxb g bs d a)

/-- VSCALE (R186). -/
def execVscale (g : Nat) (rm : Rm) (d a b : Nat) (s : State) : Host.Outcome State Fault Refusal :=
  s.issueLane ⟨.conv, 0x66, [g, (rmCode rm), d, a, b]⟩ (fxVscale g rm d a b)

/-- QBFP (R189, R190). -/
def execQbfp (g : Nat) (rm : Rm) (bs : Bool) (mb d a : Nat) (s : State) : Host.Outcome State Fault Refusal :=
  s.issueLane ⟨.conv, 0x67, [g, (rmCode rm), (bit bs), mb, d, a]⟩ (fxQbfp g rm bs mb d a)

/-- DQBFP (R191). -/
def execDqbfp (g : Nat) (bs : Bool) (mb d a b : Nat) (s : State) : Host.Outcome State Fault Refusal :=
  s.issueLane ⟨.conv, 0x68, [g, (bit bs), mb, d, a, b]⟩ (fxDqbfp g bs mb d a b)

/-- VCVT_I8_F32 (R185). -/
def execVcvtI8F32 (g : Nat) (rm : Rm) (j d a : Nat) (s : State) : Host.Outcome State Fault Refusal :=
  s.issueLane ⟨.conv, 0x69, [g, (rmCode rm), j, d, a]⟩ (fxVcvtI8F32 g rm j d a)

/-- VRNG (R192). -/
def execVrng (g d : Nat) (s : State) : Host.Outcome State Fault Refusal :=
  s.issueLane ⟨.conv, 0x6a, [g, d]⟩ (fxVrng g d)

/-- VCVT_F32_I8 (R185). -/
def execVcvtF32I8 (g j d a : Nat) (s : State) : Host.Outcome State Fault Refusal :=
  s.issueLane ⟨.conv, 0x6b, [g, j, d, a]⟩ (fxVcvtF32I8 g j d a)

/-! ## MX slots -/

/-- MMA (R215). -/
def execMma (g base m n a b tk : Nat) (zero neg bt : Bool) (s : State) : Host.Outcome State Fault Refusal :=
  s.issueLane ⟨.mx, 0x1, [g, base, m, n, a, b, tk, (bit zero), (bit neg), (bit bt)]⟩ (fxMma g base m n a b tk zero neg bt)

/-- MMA_NEST (R216). -/
def execMmaNest (g base m n a b tk : Nat) (zero neg bt : Bool) (s : State) : Host.Outcome State Fault Refusal :=
  s.issueLane ⟨.mx, 0x2, [g, base, m, n, a, b, tk, (bit zero), (bit neg), (bit bt)]⟩ (fxMmaNest g base m n a b tk zero neg bt)

/-- MMA_GRP (R217; gc is the group count minus 1). -/
def execMmaGrp (g base m n a b tk : Nat) (zero neg bt : Bool) (gc : Nat) (s : State) : Host.Outcome State Fault Refusal :=
  s.issueLane ⟨.mx, 0x3, [g, base, m, n, a, b, tk, (bit zero), (bit neg), (bit bt), gc]⟩ (fxMmaGrp g base m n a b tk zero neg bt gc)

/-- ACCZ (R219). -/
def execAccz (g base m n tk : Nat) (s : State) : Host.Outcome State Fault Refusal :=
  s.issueLane ⟨.mx, 0x4, [g, base, m, n, tk]⟩ (fxAccz g base m n tk)

/-- ACCRD (R221). -/
def execAccrd (g base v row : Nat) (s : State) : Host.Outcome State Fault Refusal :=
  s.issueLane ⟨.mx, 0x5, [g, base, v, row]⟩ (fxAccrd g base v row)

/-- ACCWR (R221). -/
def execAccwr (g base v row : Nat) (s : State) : Host.Outcome State Fault Refusal :=
  s.issueLane ⟨.mx, 0x6, [g, base, v, row]⟩ (fxAccwr g base v row)

/-- ACCOUT (R220). -/
def execAccout (g base m n o tk : Nat) (s : State) : Host.Outcome State Fault Refusal :=
  s.issueLane ⟨.mx, 0x7, [g, base, m, n, o, tk]⟩ (fxAccout g base m n o tk)

/-- WSWAP (R224). -/
def execWswap (s : State) : Host.Outcome State Fault Refusal :=
  s.issueLane ⟨.mx, 0x8, []⟩ fxWswap

/-- MXPROG (R218). -/
def execMxprog (g x : Nat) (s : State) : Host.Outcome State Fault Refusal :=
  s.issueLane ⟨.mx, 0x9, [g, x]⟩ (fxMxprog g x)

/-! ## LS slots -/

/-- LDV (R256). -/
def execLdv (g : Nat) (acc : Bool) (d st tk : Nat) (s : State) : Host.Outcome State Fault Refusal :=
  s.issueLane ⟨.ls, 0x1, [g, (bit acc), d, st, tk]⟩ (fxLdv g acc d st tk)

/-- STV (R256). -/
def execStv (g a st tk : Nat) (s : State) : Host.Outcome State Fault Refusal :=
  s.issueLane ⟨.ls, 0x2, [g, a, st, tk]⟩ (fxStv g a st tk)

/-- LDVN (R257). -/
def execLdvn (g : Nat) (acc : Bool) (d a tk imm : Nat) (s : State) : Host.Outcome State Fault Refusal :=
  s.issueLane ⟨.ls, 0x3, [g, (bit acc), d, a, tk, imm]⟩ (fxLdvn g acc d a tk imm)

/-- STVN (R257). -/
def execStvn (g d a tk imm : Nat) (s : State) : Host.Outcome State Fault Refusal :=
  s.issueLane ⟨.ls, 0x4, [g, d, a, tk, imm]⟩ (fxStvn g d a tk imm)

/-- GATHER (R258). -/
def execGather (g : Nat) (acc : Bool) (d a b tk : Nat) (s : State) : Host.Outcome State Fault Refusal :=
  s.issueLane ⟨.ls, 0x5, [g, (bit acc), d, a, b, tk]⟩ (fxGather g acc d a b tk)

/-- SCATTER (R258). -/
def execScatter (g d a b tk : Nat) (s : State) : Host.Outcome State Fault Refusal :=
  s.issueLane ⟨.ls, 0x6, [g, d, a, b, tk]⟩ (fxScatter g d a b tk)

/-- LDX (R259). -/
def execLdx (g : Nat) (acc : Bool) (d a tk sz imm : Nat) (s : State) : Host.Outcome State Fault Refusal :=
  s.issueLane ⟨.ls, 0x7, [g, (bit acc), d, a, tk, sz, imm]⟩ (fxLdx g acc d a tk sz imm)

/-- STX (R259). -/
def execStx (g d a tk sz imm : Nat) (s : State) : Host.Outcome State Fault Refusal :=
  s.issueLane ⟨.ls, 0x8, [g, d, a, tk, sz, imm]⟩ (fxStx g d a tk sz imm)

/-- LDX_ACQ (R259). -/
def execLdxAcq (g d a tk : Nat) (sc : Scope) (sz imm : Nat) (s : State) : Host.Outcome State Fault Refusal :=
  s.issueLane ⟨.ls, 0x9, [g, d, a, tk, (scopeCode sc), sz, imm]⟩ (fxLdxAcq g d a tk sc sz imm)

/-- STX_REL (R259). -/
def execStxRel (g d a tk : Nat) (sc : Scope) (sz imm : Nat) (s : State) : Host.Outcome State Fault Refusal :=
  s.issueLane ⟨.ls, 0xa, [g, d, a, tk, (scopeCode sc), sz, imm]⟩ (fxStxRel g d a tk sc sz imm)

/-- LS_FENCE (R260). -/
def execLsFence (g tk : Nat) (sc : Scope) (ord : Ord) (s : State) : Host.Outcome State Fault Refusal :=
  s.issueLane ⟨.ls, 0xb, [g, tk, (scopeCode sc), (ordCode ord)]⟩ (fxLsFence g tk sc ord)

/-- XAFADD (R262). -/
def execXafadd (g d a tk : Nat) (sc : Scope) (sz : Nat) (s : State) : Host.Outcome State Fault Refusal :=
  s.issueLane ⟨.ls, 0x10, [g, d, a, tk, (scopeCode sc), sz]⟩ (fxXafadd g d a tk sc sz)

/-- XAMAX (R262). -/
def execXamax (g d a tk : Nat) (sc : Scope) (sz : Nat) (s : State) : Host.Outcome State Fault Refusal :=
  s.issueLane ⟨.ls, 0x11, [g, d, a, tk, (scopeCode sc), sz]⟩ (fxXamax g d a tk sc sz)

/-- XACAS (R262). -/
def execXacas (g d a b tk : Nat) (sc : Scope) (sz : Nat) (s : State) : Host.Outcome State Fault Refusal :=
  s.issueLane ⟨.ls, 0x12, [g, d, a, b, tk, (scopeCode sc), sz]⟩ (fxXacas g d a b tk sc sz)

/-- XASWAP (R262). -/
def execXaswap (g d a tk : Nat) (sc : Scope) (sz : Nat) (s : State) : Host.Outcome State Fault Refusal :=
  s.issueLane ⟨.ls, 0x13, [g, d, a, tk, (scopeCode sc), sz]⟩ (fxXaswap g d a tk sc sz)

/-- VAFADD (R263). -/
def execVafadd (g d a b tk : Nat) (sc : Scope) (s : State) : Host.Outcome State Fault Refusal :=
  s.issueLane ⟨.ls, 0x14, [g, d, a, b, tk, (scopeCode sc)]⟩ (fxVafadd g d a b tk sc)

/-- VAMAXF (R263). -/
def execVamaxf (g d a b tk : Nat) (sc : Scope) (s : State) : Host.Outcome State Fault Refusal :=
  s.issueLane ⟨.ls, 0x15, [g, d, a, b, tk, (scopeCode sc)]⟩ (fxVamaxf g d a b tk sc)

/-- LS_AMAXRR (R265). -/
def execLsAmaxrr (g d a tk : Nat) (sc : Scope) (s : State) : Host.Outcome State Fault Refusal :=
  s.issueLane ⟨.ls, 0x16, [g, d, a, tk, (scopeCode sc)]⟩ (fxLsAmaxrr g d a tk sc)

/-- STSET (R202). -/
def execStset (g a st : Nat) (s : State) : Host.Outcome State Fault Refusal :=
  s.issueLane ⟨.ls, 0x20, [g, a, st]⟩ (fxStset g a st)

/-- STGET (R202). -/
def execStget (g d st : Nat) (s : State) : Host.Outcome State Fault Refusal :=
  s.issueLane ⟨.ls, 0x21, [g, d, st]⟩ (fxStget g d st)

/-- STGO (R202). -/
def execStgo (g st tk : Nat) (s : State) : Host.Outcome State Fault Refusal :=
  s.issueLane ⟨.ls, 0x22, [g, st, tk]⟩ (fxStgo g st tk)

/-- STSAVE (R202). -/
def execStsave (g a st tk : Nat) (s : State) : Host.Outcome State Fault Refusal :=
  s.issueLane ⟨.ls, 0x23, [g, a, st, tk]⟩ (fxStsave g a st tk)

/-- STLOAD (R202). -/
def execStload (g a st tk : Nat) (s : State) : Host.Outcome State Fault Refusal :=
  s.issueLane ⟨.ls, 0x24, [g, a, st, tk]⟩ (fxStload g a st tk)

/-- RESIZE (R241). -/
def execResize (g tk imm : Nat) (s : State) : Host.Outcome State Fault Refusal :=
  s.issueLane ⟨.ls, 0x28, [g, tk, imm]⟩ (fxResize g tk imm)

/-- SETE (R266). -/
def execSete (g a tk imm : Nat) (s : State) : Host.Outcome State Fault Refusal :=
  s.issueLane ⟨.ls, 0x29, [g, a, tk, imm]⟩ (fxSete g a tk imm)

/-- SETF (R266). -/
def execSetf (g a tk imm : Nat) (s : State) : Host.Outcome State Fault Refusal :=
  s.issueLane ⟨.ls, 0x2a, [g, a, tk, imm]⟩ (fxSetf g a tk imm)

/-- NSFLUSH (R267). -/
def execNsflush (g tk : Nat) (s : State) : Host.Outcome State Fault Refusal :=
  s.issueLane ⟨.ls, 0x2b, [g, tk]⟩ (fxNsflush g tk)

/-- LS_LDR (R298). -/
def execLsLdr (g : Nat) (acc : Bool) (d a b tk sz : Nat) (s : State) : Host.Outcome State Fault Refusal :=
  s.issueLane ⟨.ls, 0x30, [g, (bit acc), d, a, b, tk, sz]⟩ (fxLsLdr g acc d a b tk sz)

/-- LS_STR (R298). -/
def execLsStr (g d a b tk sz : Nat) (s : State) : Host.Outcome State Fault Refusal :=
  s.issueLane ⟨.ls, 0x31, [g, d, a, b, tk, sz]⟩ (fxLsStr g d a b tk sz)

/-- LDRV (R299). -/
def execLdrv (g : Nat) (acc : Bool) (d a b tk : Nat) (s : State) : Host.Outcome State Fault Refusal :=
  s.issueLane ⟨.ls, 0x32, [g, (bit acc), d, a, b, tk]⟩ (fxLdrv g acc d a b tk)

/-- STRV (R299). -/
def execStrv (g d a b tk : Nat) (s : State) : Host.Outcome State Fault Refusal :=
  s.issueLane ⟨.ls, 0x33, [g, d, a, b, tk]⟩ (fxStrv g d a b tk)

/-- LS_LDREF (R298). -/
def execLsLdref (g : Nat) (acc : Bool) (d a b tk : Nat) (s : State) : Host.Outcome State Fault Refusal :=
  s.issueLane ⟨.ls, 0x34, [g, (bit acc), d, a, b, tk]⟩ (fxLsLdref g acc d a b tk)

/-- LS_STREF (R298). -/
def execLsStref (g d a b tk : Nat) (s : State) : Host.Outcome State Fault Refusal :=
  s.issueLane ⟨.ls, 0x35, [g, d, a, b, tk]⟩ (fxLsStref g d a b tk)

/-- LS_PIN (R301). -/
def execLsPin (g d a tk : Nat) (s : State) : Host.Outcome State Fault Refusal :=
  s.issueLane ⟨.ls, 0x36, [g, d, a, tk]⟩ (fxLsPin g d a tk)

/-- LS_UNPIN (R301). -/
def execLsUnpin (g a tk : Nat) (s : State) : Host.Outcome State Fault Refusal :=
  s.issueLane ⟨.ls, 0x37, [g, a, tk]⟩ (fxLsUnpin g a tk)

/-- REFMOV (R300). -/
def execRefmov (g d a : Nat) (s : State) : Host.Outcome State Fault Refusal :=
  s.issueLane ⟨.ls, 0x38, [g, d, a]⟩ (fxRefmov g d a)

/-- REFTAG (R300). -/
def execReftag (g d a : Nat) (s : State) : Host.Outcome State Fault Refusal :=
  s.issueLane ⟨.ls, 0x39, [g, d, a]⟩ (fxReftag g d a)

/-- TAKE (R407). -/
def execTake (g d tk imm : Nat) (s : State) : Host.Outcome State Fault Refusal :=
  s.issueLane ⟨.ls, 0x40, [g, d, tk, imm]⟩ (fxTake g d tk imm)

/-- LS_JRAISE (R409). -/
def execLsJraise (g a b tk : Nat) (sc : Scope) (s : State) : Host.Outcome State Fault Refusal :=
  s.issueLane ⟨.ls, 0x41, [g, a, b, tk, (scopeCode sc)]⟩ (fxLsJraise g a b tk sc)

/-- LS_JDONE (R409). -/
def execLsJdone (g a tk : Nat) (sc : Scope) (s : State) : Host.Outcome State Fault Refusal :=
  s.issueLane ⟨.ls, 0x42, [g, a, tk, (scopeCode sc)]⟩ (fxLsJdone g a tk sc)

/-! ## XF slots -/

/-- PERM (R341). -/
def execPerm (g d a pat tk : Nat) (s : State) : Host.Outcome State Fault Refusal :=
  s.issueLane ⟨.xf, 0x1, [g, d, a, pat, tk]⟩ (fxPerm g d a pat tk)

/-- XMIT (R341). -/
def execXmit (g a b pat tk : Nat) (s : State) : Host.Outcome State Fault Refusal :=
  s.issueLane ⟨.xf, 0x2, [g, a, b, pat, tk]⟩ (fxXmit g a b pat tk)

/-- RECV (R341). -/
def execRecv (g a pat tk : Nat) (s : State) : Host.Outcome State Fault Refusal :=
  s.issueLane ⟨.xf, 0x3, [g, a, pat, tk]⟩ (fxRecv g a pat tk)

/-- CSHUF (R341). -/
def execCshuf (g d a pat tk : Nat) (s : State) : Host.Outcome State Fault Refusal :=
  s.issueLane ⟨.xf, 0x4, [g, d, a, pat, tk]⟩ (fxCshuf g d a pat tk)

/-- XF_CPY (R347). -/
def execXfCpy (g xd tk : Nat) (sc : Scope) (acq rel : Bool) (bk : Nat) (s : State) : Host.Outcome State Fault Refusal :=
  s.issueLane ⟨.xf, 0x5, [g, xd, tk, (scopeCode sc), (bit acq), (bit rel), bk]⟩ (fxXfCpy g xd tk sc acq rel bk)

/-- BINSCAT (R348). -/
def execBinscat (g d a xd tk : Nat) (sc : Scope) (bk : Nat) (s : State) : Host.Outcome State Fault Refusal :=
  s.issueLane ⟨.xf, 0x6, [g, d, a, xd, tk, (scopeCode sc), bk]⟩ (fxBinscat g d a xd tk sc bk)

/-- XF_RELOC (R349). -/
def execXfReloc (g xd tk : Nat) (sc : Scope) (acq rel : Bool) (bk : Nat) (s : State) : Host.Outcome State Fault Refusal :=
  s.issueLane ⟨.xf, 0x7, [g, xd, tk, (scopeCode sc), (bit acq), (bit rel), bk]⟩ (fxXfReloc g xd tk sc acq rel bk)

/-- XF_INSTALL (R350). -/
def execXfInstall (g xd tk : Nat) (sc : Scope) (acq rel : Bool) (bk : Nat) (s : State) : Host.Outcome State Fault Refusal :=
  s.issueLane ⟨.xf, 0x8, [g, xd, tk, (scopeCode sc), (bit acq), (bit rel), bk]⟩ (fxXfInstall g xd tk sc acq rel bk)

/-- RBSEED (R180). -/
def execRbseed (a : Nat) (s : State) : Host.Outcome State Fault Refusal :=
  s.issueLane ⟨.xf, 0xa, [a]⟩ (fxRbseed a)

/-! ## CT slots -/

/-- WAIT (R401). -/
def execWait (tk thr : Nat) (s : State) : Host.Outcome State Fault Refusal :=
  s.issueLane ⟨.ct, 0x1, [tk, thr]⟩ (fxWait tk thr)

/-- WAITF (R403). -/
def execWaitf (a imm : Nat) (s : State) : Host.Outcome State Fault Refusal :=
  s.issueLane ⟨.ct, 0x2, [a, imm]⟩ (fxWaitf a imm)

/-- DLY (R404; n is the count minus 1). -/
def execDly (n : Nat) (s : State) : Host.Outcome State Fault Refusal :=
  s.issueLane ⟨.ct, 0x3, [n]⟩ (fxDly n)

/-- MARK (R422). -/
def execMark (s : State) : Host.Outcome State Fault Refusal :=
  s.issueLane ⟨.ct, 0x4, []⟩ fxMark

/-- TOKADD (R401). -/
def execTokadd (g tk amt : Nat) (s : State) : Host.Outcome State Fault Refusal :=
  s.issueLane ⟨.ct, 0x5, [g, tk, amt]⟩ (fxTokadd g tk amt)

/-- TOKRD (R401). -/
def execTokrd (g tk d : Nat) (s : State) : Host.Outcome State Fault Refusal :=
  s.issueLane ⟨.ct, 0x6, [g, tk, d]⟩ (fxTokrd g tk d)

/-- SETC (R433). -/
def execSetc (g dc op a : Nat) (s : State) : Host.Outcome State Fault Refusal :=
  s.issueLane ⟨.ct, 0x7, [g, dc, op, a]⟩ (fxSetc g dc op a)

/-- BAR (R336; fld is true for FIELD scope). -/
def execBar (sc : Scope) (s : State) : Host.Outcome State Fault Refusal :=
  s.issueLane ⟨.ct, 0x8, [(scopeCode sc)]⟩ (fxBar sc)

/-- PHASE_X (R339). -/
def execPhaseX (s : State) : Host.Outcome State Fault Refusal :=
  s.issueLane ⟨.ct, 0x9, []⟩ fxPhaseX

/-- PHASE_C (R339). -/
def execPhaseC (s : State) : Host.Outcome State Fault Refusal :=
  s.issueLane ⟨.ct, 0xa, []⟩ fxPhaseC

/-- ABAR (R338). -/
def execAbar (s : State) : Host.Outcome State Fault Refusal :=
  s.issueLane ⟨.ct, 0xb, []⟩ fxAbar

/-- TRAPC (R432). -/
def execTrapc (g code : Nat) (s : State) : Host.Outcome State Fault Refusal :=
  s.issueLane ⟨.ct, 0xc, [g, code]⟩ (fxTrapc g code)

/-- KAND (R164). -/
def execKand (g d a b : Nat) (s : State) : Host.Outcome State Fault Refusal :=
  s.issueLane ⟨.ct, 0x10, [g, d, a, b]⟩ (fxKand g d a b)

/-- KOR (R164). -/
def execKor (g d a b : Nat) (s : State) : Host.Outcome State Fault Refusal :=
  s.issueLane ⟨.ct, 0x11, [g, d, a, b]⟩ (fxKor g d a b)

/-- KXOR (R164). -/
def execKxor (g d a b : Nat) (s : State) : Host.Outcome State Fault Refusal :=
  s.issueLane ⟨.ct, 0x12, [g, d, a, b]⟩ (fxKxor g d a b)

/-- KANDN (R164). -/
def execKandn (g d a b : Nat) (s : State) : Host.Outcome State Fault Refusal :=
  s.issueLane ⟨.ct, 0x13, [g, d, a, b]⟩ (fxKandn g d a b)

/-- KNOT (R164). -/
def execKnot (g d a : Nat) (s : State) : Host.Outcome State Fault Refusal :=
  s.issueLane ⟨.ct, 0x14, [g, d, a]⟩ (fxKnot g d a)

/-- KMOV (R164). -/
def execKmov (g d a : Nat) (s : State) : Host.Outcome State Fault Refusal :=
  s.issueLane ⟨.ct, 0x15, [g, d, a]⟩ (fxKmov g d a)

/-- KSET (R164). -/
def execKset (g d hi lo : Nat) (s : State) : Host.Outcome State Fault Refusal :=
  s.issueLane ⟨.ct, 0x16, [g, d, hi, lo]⟩ (fxKset g d hi lo)

/-- KFROMX (R164). -/
def execKfromx (g d a : Nat) (s : State) : Host.Outcome State Fault Refusal :=
  s.issueLane ⟨.ct, 0x17, [g, d, a]⟩ (fxKfromx g d a)

/-- KTOX (R164). -/
def execKtox (g d a : Nat) (s : State) : Host.Outcome State Fault Refusal :=
  s.issueLane ⟨.ct, 0x18, [g, d, a]⟩ (fxKtox g d a)

/-- KPOPC (R164). -/
def execKpopc (g d a : Nat) (s : State) : Host.Outcome State Fault Refusal :=
  s.issueLane ⟨.ct, 0x19, [g, d, a]⟩ (fxKpopc g d a)

/-- The meaning of a slot: v slots. -/
def cellFxOfV (op : Nat) (o : Nat → Nat) : SlotMeaning :=
  match op with
  | 0x1 => fxVmov (o 0) (o 1) (o 2)
  | 0x2 => fxVmovi (o 0) (tyOf (o 1)) (o 2) (o 3)
  | 0x3 => fxVbcst (o 0) (o 1) (o 2)
  | 0x4 => fxVlane (o 0) (o 1)
  | 0x5 => fxVcoord (o 0) (o 1) (o 2)
  | 0x8 => fxVadd (o 0) (tyOf (o 1)) (o 2) (o 3) (o 4)
  | 0x9 => fxVsub (o 0) (tyOf (o 1)) (o 2) (o 3) (o 4)
  | 0xa => fxVmullo (o 0) (tyOf (o 1)) (o 2) (o 3) (o 4)
  | 0xb => fxVmulhi (o 0) (tyOf (o 1)) (o 2) (o 3) (o 4)
  | 0xc => fxVmin (o 0) (tyOf (o 1)) (o 2) (o 3) (o 4)
  | 0xd => fxVmax (o 0) (tyOf (o 1)) (o 2) (o 3) (o 4)
  | 0xe => fxVabsd (o 0) (tyOf (o 1)) (o 2) (o 3) (o 4)
  | 0xf => fxVaddsat (o 0) (tyOf (o 1)) (o 2) (o 3) (o 4)
  | 0x10 => fxVand (o 0) (o 1) (o 2) (o 3)
  | 0x11 => fxVor (o 0) (o 1) (o 2) (o 3)
  | 0x12 => fxVxor (o 0) (o 1) (o 2) (o 3)
  | 0x13 => fxVandn (o 0) (o 1) (o 2) (o 3)
  | 0x14 => fxVshl (o 0) (tyOf (o 1)) (o 2) (o 3) (o 4)
  | 0x15 => fxVshr (o 0) (tyOf (o 1)) (o 2) (o 3) (o 4)
  | 0x16 => fxVsar (o 0) (tyOf (o 1)) (o 2) (o 3) (o 4)
  | 0x17 => fxVshli (o 0) (tyOf (o 1)) (o 2) (o 3) (o 4)
  | 0x18 => fxVpopc (o 0) (tyOf (o 1)) (o 2) (o 3)
  | 0x19 => fxVclz (o 0) (tyOf (o 1)) (o 2) (o 3)
  | 0x1c => fxVsel (o 0) (o 1) (o 2) (o 3) (o 4)
  | 0x1d => fxVshf (o 0) (o 1) (o 2) (o 3)
  | 0x1e => fxVrot (o 0) (o 1) (o 2) (o 3)
  | 0x20 => fxVcmpEq (o 0) (tyOf (o 1)) (o 2) (o 3) (o 4)
  | 0x21 => fxVcmpNe (o 0) (tyOf (o 1)) (o 2) (o 3) (o 4)
  | 0x22 => fxVcmpLt (o 0) (tyOf (o 1)) (o 2) (o 3) (o 4)
  | 0x23 => fxVcmpLe (o 0) (tyOf (o 1)) (o 2) (o 3) (o 4)
  | 0x24 => fxVcmpLtu (o 0) (tyOf (o 1)) (o 2) (o 3) (o 4)
  | 0x25 => fxVcmpLeu (o 0) (tyOf (o 1)) (o 2) (o 3) (o 4)
  | 0x26 => fxVfcmpEq (o 0) (o 1) (o 2) (o 3)
  | 0x27 => fxVfcmpLt (o 0) (o 1) (o 2) (o 3)
  | 0x28 => fxVfcmpLe (o 0) (o 1) (o 2) (o 3)
  | 0x29 => fxVfcmpUn (o 0) (o 1) (o 2) (o 3)
  | 0x30 => fxVfadd (o 0) (rmOf (o 1)) (o 2) (o 3) (o 4)
  | 0x31 => fxVfsub (o 0) (rmOf (o 1)) (o 2) (o 3) (o 4)
  | 0x32 => fxVfmul (o 0) (rmOf (o 1)) (o 2) (o 3) (o 4)
  | 0x33 => fxVfma (o 0) (rmOf (o 1)) (o 2) (o 3) (o 4) (o 5)
  | 0x34 => fxVfms (o 0) (rmOf (o 1)) (o 2) (o 3) (o 4) (o 5)
  | 0x35 => fxVfnma (o 0) (rmOf (o 1)) (o 2) (o 3) (o 4) (o 5)
  | 0x36 => fxVfmin (o 0) (o 1) (o 2) (o 3)
  | 0x37 => fxVfmax (o 0) (o 1) (o 2) (o 3)
  | 0x38 => fxVfabs (o 0) (o 1) (o 2)
  | 0x39 => fxVfneg (o 0) (o 1) (o 2)
  | 0x3a => fxVfdiv (o 0) (rmOf (o 1)) (o 2) (o 3) (o 4)
  | 0x3b => fxVfsqrt (o 0) (rmOf (o 1)) (o 2) (o 3)
  | 0x3c => fxVfrsqrt (o 0) (rmOf (o 1)) (o 2) (o 3)
  | 0x3d => fxVfexp2 (o 0) (rmOf (o 1)) (o 2) (o 3)
  | 0x3e => fxVflog2 (o 0) (rmOf (o 1)) (o 2) (o 3)
  | 0x3f => fxVfclass (o 0) (o 1) (o 2)
  | 0x40 => fxVrsumF32 (o 0) (rmOf (o 1)) (o 2) (o 3)
  | 0x41 => fxVrmaxF32 (o 0) (o 1) (o 2)
  | 0x42 => fxVramax (o 0) (o 1) (o 2)
  | 0x43 => fxVrsumI (o 0) (tyOf (o 1)) (o 2) (o 3)
  | 0x44 => fxVrmaxI (o 0) (tyOf (o 1)) (o 2) (o 3)
  | 0x48 => fxXmov (o 0) (o 1) (o 2)
  | 0x49 => fxXmovi (o 0) (o 1) (o 2)
  | 0x4a => fxXadd (o 0) (o 1) (o 2) (o 3)
  | 0x4b => fxXsub (o 0) (o 1) (o 2) (o 3)
  | 0x4c => fxXmul (o 0) (o 1) (o 2) (o 3)
  | 0x4d => fxXand (o 0) (o 1) (o 2) (o 3)
  | 0x4e => fxCellXor (o 0) (o 1) (o 2) (o 3)
  | 0x4f => fxXshl (o 0) (o 1) (o 2) (o 3)
  | 0x50 => fxXshr (o 0) (o 1) (o 2) (o 3)
  | 0x51 => fxXcmp (o 0) (ccOf (o 1)) (o 2) (o 3) (o 4)
  | 0x52 => fxXfromv (o 0) (o 1) (o 2) (o 3)
  | 0x53 => fxXtok (o 0) (o 1) (o 2)
  | _ => {}

/-- The meaning of a slot: conversions. -/
def cellFxOfConv (op : Nat) (o : Nat → Nat) : SlotMeaning :=
  match op with
  | 0x60 => fxVcvtF32I32 (o 0) (rmOf (o 1)) (o 2) (o 3)
  | 0x61 => fxVcvtI32F32 (o 0) (rmOf (o 1)) (o 2) (o 3)
  | 0x62 => fxVcvtBf16F32 (o 0) (rmOf (o 1)) (o 2) (o 3)
  | 0x63 => fxVcvtF32Bf16 (o 0) (o 1) (o 2)
  | 0x64 => fxVsplit3 (o 0) (o 1) (o 2)
  | 0x65 => fxVamaxb (o 0) (decide (o 1 = 1)) (o 2) (o 3)
  | 0x66 => fxVscale (o 0) (rmOf (o 1)) (o 2) (o 3) (o 4)
  | 0x67 => fxQbfp (o 0) (rmOf (o 1)) (decide (o 2 = 1)) (o 3) (o 4) (o 5)
  | 0x68 => fxDqbfp (o 0) (decide (o 1 = 1)) (o 2) (o 3) (o 4) (o 5)
  | 0x69 => fxVcvtI8F32 (o 0) (rmOf (o 1)) (o 2) (o 3) (o 4)
  | 0x6a => fxVrng (o 0) (o 1)
  | 0x6b => fxVcvtF32I8 (o 0) (o 1) (o 2) (o 3)
  | _ => {}

/-- The meaning of a slot: mx slots. -/
def cellFxOfMx (op : Nat) (o : Nat → Nat) : SlotMeaning :=
  match op with
  | 0x1 => fxMma (o 0) (o 1) (o 2) (o 3) (o 4) (o 5) (o 6) (decide (o 7 = 1)) (decide (o 8 = 1)) (decide (o 9 = 1))
  | 0x2 => fxMmaNest (o 0) (o 1) (o 2) (o 3) (o 4) (o 5) (o 6) (decide (o 7 = 1)) (decide (o 8 = 1)) (decide (o 9 = 1))
  | 0x3 => fxMmaGrp (o 0) (o 1) (o 2) (o 3) (o 4) (o 5) (o 6) (decide (o 7 = 1)) (decide (o 8 = 1)) (decide (o 9 = 1)) (o 10)
  | 0x4 => fxAccz (o 0) (o 1) (o 2) (o 3) (o 4)
  | 0x5 => fxAccrd (o 0) (o 1) (o 2) (o 3)
  | 0x6 => fxAccwr (o 0) (o 1) (o 2) (o 3)
  | 0x7 => fxAccout (o 0) (o 1) (o 2) (o 3) (o 4) (o 5)
  | 0x8 => fxWswap
  | 0x9 => fxMxprog (o 0) (o 1)
  | _ => {}

/-- The meaning of a slot: ls slots. -/
def cellFxOfLs (op : Nat) (o : Nat → Nat) : SlotMeaning :=
  match op with
  | 0x1 => fxLdv (o 0) (decide (o 1 = 1)) (o 2) (o 3) (o 4)
  | 0x2 => fxStv (o 0) (o 1) (o 2) (o 3)
  | 0x3 => fxLdvn (o 0) (decide (o 1 = 1)) (o 2) (o 3) (o 4) (o 5)
  | 0x4 => fxStvn (o 0) (o 1) (o 2) (o 3) (o 4)
  | 0x5 => fxGather (o 0) (decide (o 1 = 1)) (o 2) (o 3) (o 4) (o 5)
  | 0x6 => fxScatter (o 0) (o 1) (o 2) (o 3) (o 4)
  | 0x7 => fxLdx (o 0) (decide (o 1 = 1)) (o 2) (o 3) (o 4) (o 5) (o 6)
  | 0x8 => fxStx (o 0) (o 1) (o 2) (o 3) (o 4) (o 5)
  | 0x9 => fxLdxAcq (o 0) (o 1) (o 2) (o 3) (scopeOf (o 4)) (o 5) (o 6)
  | 0xa => fxStxRel (o 0) (o 1) (o 2) (o 3) (scopeOf (o 4)) (o 5) (o 6)
  | 0xb => fxLsFence (o 0) (o 1) (scopeOf (o 2)) (ordOf (o 3))
  | 0x10 => fxXafadd (o 0) (o 1) (o 2) (o 3) (scopeOf (o 4)) (o 5)
  | 0x11 => fxXamax (o 0) (o 1) (o 2) (o 3) (scopeOf (o 4)) (o 5)
  | 0x12 => fxXacas (o 0) (o 1) (o 2) (o 3) (o 4) (scopeOf (o 5)) (o 6)
  | 0x13 => fxXaswap (o 0) (o 1) (o 2) (o 3) (scopeOf (o 4)) (o 5)
  | 0x14 => fxVafadd (o 0) (o 1) (o 2) (o 3) (o 4) (scopeOf (o 5))
  | 0x15 => fxVamaxf (o 0) (o 1) (o 2) (o 3) (o 4) (scopeOf (o 5))
  | 0x16 => fxLsAmaxrr (o 0) (o 1) (o 2) (o 3) (scopeOf (o 4))
  | 0x20 => fxStset (o 0) (o 1) (o 2)
  | 0x21 => fxStget (o 0) (o 1) (o 2)
  | 0x22 => fxStgo (o 0) (o 1) (o 2)
  | 0x23 => fxStsave (o 0) (o 1) (o 2) (o 3)
  | 0x24 => fxStload (o 0) (o 1) (o 2) (o 3)
  | 0x28 => fxResize (o 0) (o 1) (o 2)
  | 0x29 => fxSete (o 0) (o 1) (o 2) (o 3)
  | 0x2a => fxSetf (o 0) (o 1) (o 2) (o 3)
  | 0x2b => fxNsflush (o 0) (o 1)
  | 0x30 => fxLsLdr (o 0) (decide (o 1 = 1)) (o 2) (o 3) (o 4) (o 5) (o 6)
  | 0x31 => fxLsStr (o 0) (o 1) (o 2) (o 3) (o 4) (o 5)
  | 0x32 => fxLdrv (o 0) (decide (o 1 = 1)) (o 2) (o 3) (o 4) (o 5)
  | 0x33 => fxStrv (o 0) (o 1) (o 2) (o 3) (o 4)
  | 0x34 => fxLsLdref (o 0) (decide (o 1 = 1)) (o 2) (o 3) (o 4) (o 5)
  | 0x35 => fxLsStref (o 0) (o 1) (o 2) (o 3) (o 4)
  | 0x36 => fxLsPin (o 0) (o 1) (o 2) (o 3)
  | 0x37 => fxLsUnpin (o 0) (o 1) (o 2)
  | 0x38 => fxRefmov (o 0) (o 1) (o 2)
  | 0x39 => fxReftag (o 0) (o 1) (o 2)
  | 0x40 => fxTake (o 0) (o 1) (o 2) (o 3)
  | 0x41 => fxLsJraise (o 0) (o 1) (o 2) (o 3) (scopeOf (o 4))
  | 0x42 => fxLsJdone (o 0) (o 1) (o 2) (scopeOf (o 3))
  | _ => {}

/-- The meaning of a slot: xf slots. -/
def cellFxOfXf (op : Nat) (o : Nat → Nat) : SlotMeaning :=
  match op with
  | 0x1 => fxPerm (o 0) (o 1) (o 2) (o 3) (o 4)
  | 0x2 => fxXmit (o 0) (o 1) (o 2) (o 3) (o 4)
  | 0x3 => fxRecv (o 0) (o 1) (o 2) (o 3)
  | 0x4 => fxCshuf (o 0) (o 1) (o 2) (o 3) (o 4)
  | 0x5 => fxXfCpy (o 0) (o 1) (o 2) (scopeOf (o 3)) (decide (o 4 = 1)) (decide (o 5 = 1)) (o 6)
  | 0x6 => fxBinscat (o 0) (o 1) (o 2) (o 3) (o 4) (scopeOf (o 5)) (o 6)
  | 0x7 => fxXfReloc (o 0) (o 1) (o 2) (scopeOf (o 3)) (decide (o 4 = 1)) (decide (o 5 = 1)) (o 6)
  | 0x8 => fxXfInstall (o 0) (o 1) (o 2) (scopeOf (o 3)) (decide (o 4 = 1)) (decide (o 5 = 1)) (o 6)
  | 0xa => fxRbseed (o 0)
  | _ => {}

/-- The meaning of a slot: ct slots. -/
def cellFxOfCt (op : Nat) (o : Nat → Nat) : SlotMeaning :=
  match op with
  | 0x1 => fxWait (o 0) (o 1)
  | 0x2 => fxWaitf (o 0) (o 1)
  | 0x3 => fxDly (o 0)
  | 0x4 => fxMark
  | 0x5 => fxTokadd (o 0) (o 1) (o 2)
  | 0x6 => fxTokrd (o 0) (o 1) (o 2)
  | 0x7 => fxSetc (o 0) (o 1) (o 2) (o 3)
  | 0x8 => fxBar (scopeOf (o 0))
  | 0x9 => fxPhaseX
  | 0xa => fxPhaseC
  | 0xb => fxAbar
  | 0xc => fxTrapc (o 0) (o 1)
  | 0x10 => fxKand (o 0) (o 1) (o 2) (o 3)
  | 0x11 => fxKor (o 0) (o 1) (o 2) (o 3)
  | 0x12 => fxKxor (o 0) (o 1) (o 2) (o 3)
  | 0x13 => fxKandn (o 0) (o 1) (o 2) (o 3)
  | 0x14 => fxKnot (o 0) (o 1) (o 2)
  | 0x15 => fxKmov (o 0) (o 1) (o 2)
  | 0x16 => fxKset (o 0) (o 1) (o 2) (o 3)
  | 0x17 => fxKfromx (o 0) (o 1) (o 2)
  | 0x18 => fxKtox (o 0) (o 1) (o 2)
  | 0x19 => fxKpopc (o 0) (o 1) (o 2)
  | _ => {}

/-- The meaning of a decoded slot. -/
def cellFxOf (r : Raw) : SlotMeaning :=
  let o := fun (i : Nat) => r.ops.getD i 0
  match r.kind with
  | .v => cellFxOfV r.op o
  | .conv => cellFxOfConv r.op o
  | .mx => cellFxOfMx r.op o
  | .ls => cellFxOfLs r.op o
  | .xf => cellFxOfXf r.op o
  | .ct => cellFxOfCt r.op o
  | _ => {}

end Sys2Proof.Machine
end

