-- ==== Sys2Proof/Machine/Next.lean ====
section
/-! DEFINITION. The next-address kinds (R125 to R129), with RFT (R430, R431) and the debug stops of LEND (R441). -/

namespace Sys2Proof.Machine

/-- The next word. -/
def fxSeq : SeqMeaning := pureFx (fun e => { npc := some e.next })

/-- PC ← target. -/
def fxJmp (off : Nat) : SeqMeaning := pureFx (fun e => { npc := some (e.target off 21) })

/-- PC ← target if p(n) XOR negate. -/
def fxBr (p : Nat) (neg : Bool) (off : Nat) : SeqMeaning :=
  pureFx (fun e => { npc := some (if e.q.rP p != neg then e.target off 21 else e.next) })

/-- CALL (R126). -/
def fxCall (off : Nat) : SeqMeaning := fun e s =>
  if 16 ≤ e.q.stack.length then .error (cILLWORD, 1, noInfo)
  else .ok (s, { npc := some (e.target off 21)
                 set := fun r => { r with core := { r.core with stack := e.q.stack ++ [{ rpc := e.next, rmask := e.q.tokmask }] } } })

/-- RET (R126). The restored TOKMASK stands over a TMAND of the same word (R130). -/
def fxRet : SeqMeaning := fun e s =>
  match e.q.stack.getLast? with
  | none => .error (cILLWORD, 2, noInfo)
  | some t => .ok (s, { npc := some t.rpc
                        set := fun r => { r with core := { r.core with stack := e.q.stack.dropLast, tokmask := t.rmask } } })

/-! ## LEND -/

/-- The loop after LEND, whether the body is entered again, and p56 to p63 as written (none for a single stage). -/
def SeqCore.lend (q : SeqCore) (n : Nat) : Loop × Bool × Option (List Bool) :=
  let l := q.loop n
  let l1 := { l with pass := l.pass + 1 }
  if l.stages = 0 then
    if 1 < l.count.toNat then ({ l1 with count := l.count - 1 }, true, none) else ({ l1 with count := 0 }, false, none)
  else
    let ps := decide (1 < l.count.toNat) :: (List.range 7).map (fun i => q.rP (56 + i))
    ({ l1 with count := if 0 < l.count.toNat then l.count - 1 else 0 }, (ps.take (l.stages.toNat + 1)).any id, some ps)

/-- The breakpoint a LEND of loop n meets (R441): the lowest, else the step trap. (Log entry 56: DEDUCED.) -/
def Rec.debugStop (r : Rec) (n : Nat) (l : Loop) : Option (Nat × Nat) :=
  let hit := fun (i : Nat) =>
    let b := r.bps.getD i 0
    tbit b 63 && bitsOf b 60 2 == n && l.pass.toNat == bitsOf b 0 32 + bitsOf b 56 3 + 1 && decide (bitsOf b 56 3 ≤ l.stages.toNat)
  match (List.range 4).find? hit with
  | some i => some (cBREAK, i)
  | none => if r.dbgctl.getLsbD 2 ∧ r.dbgctl.toNat % 4 = n then some (cSTEP, 0) else none

/-- LEND's exit tags the IN of the next bundle for a bank-conflict snapshot at every die (R413). The tag has the number `no`
of an operation of its word. -/
def State.tagSnapshot (s : State) (c n : Nat) (pass : BitVec 32) (no : Nat) : State :=
  s.updRec c (fun r => r.field.dies.foldl (fun r d =>
    let x := r.die d
    r.setDie d { x with snapAt := x.snapAt ++ [(r.core.inn, n, pass, no)] }) r)

/-- LEND (R129): of its loop it writes COUNT and PASS. -/
def fxLend (loop off : Nat) : SeqMeaning := fun e s =>
  let (l, again, ps) := e.q.lend loop
  let no := s.nextId
  .ok (s,
    { npc := some (if again then e.target off 18 else e.next)
      writes := match ps with
        | some ps => ps.zipIdx.flatMap (fun b => one (.p (56 + b.2)) (if b.1 then 1 else 0) 1)
        | none => []
      set := fun r => { r with core := r.core.setLoop loop { r.core.loop loop with count := l.count, pass := l.pass } }
      mem := fun s => if again then s else { s with nextId := s.nextId + 1 }
      fin := fun s =>
        let s := if again then s else s.tagSnapshot e.c loop l.pass no
        match e.rc.debugStop loop l with
        | some (code, detail) => s.updRec e.c (fun r => { r with life := .frozen (.brk code detail l.pass e.q.inn) })
        | none => s })

/-! ## Traps, halts and waits -/

/-- TRAP raises SWTRAP once the word's slots have taken effect (R127). -/
def fxTrap (code : Nat) : SeqMeaning :=
  pureFx (fun e =>
    { fin := fun s => s.takeTrap e.c { code := cSWTRAP, detail := 0, slot := slNA, die := 0xFF, xin := e.q.inn, info := code
                                       xpc := e.next } })

/-- The engines that paused on a watchpoint for context c resume (R443). -/
def State.unpause (s : State) (c : Nat) : State :=
  { s with dies := s.dies.map (fun x =>
      let f := fun (y : Engine) => if y.paused && (match y.running with | some m => m.c == c | none => false) then { y with paused := false } else y
      { x with copy0 := f x.copy0, copy1 := f x.copy1, copy2 := f x.copy2, copy3 := f x.copy3, pge := f x.pge, kiln := f x.kiln }) }

/-- The entry of the map that a rollback to mark k resumes at: the latest that holds it (R374). -/
def Rec.entryOf (r : Rec) (k : BitVec 48) : Option MarkEntry :=
  r.marks.reverse.find? (fun m => decide (0 ≤ inDiff k m.first ∧ inDiff k m.first < m.count))

/-- A rebroadcast of the repetitions that a rollback left to do (R374, R430). The entry of the word that first broadcast
them holds their marks; where none does, they get an entry of their own. -/
def State.rebroadcast (s : State) (c idx n : Nat) (npc : BitVec 18) : State :=
  if n = 0 then s
  else
    let first := (s.rc c).core.inn
    let held := match (s.rc c).entryOf first with
      | some m => m.first + BitVec.ofNat 48 m.count == first + BitVec.ofNat 48 n
      | none => false
    let s := s.broadcast c idx none n
    let q := (s.rc c).core
    let m : MarkEntry :=
      { wpc := npc, npc := npc, idx := idx, count := n, kind := false, shd := { q with pc := npc }, first := first, opsTo := s.nextId }
    if held then s else s.addMark c m

/-- The handler is entered for an event without rollback (R429, R432), while the dies stand; its slot is that of a die event,
but for a home fault of a PIN or UNPIN word, whose slot is X (R117, R494). For a watchpoint the entry is
an acquire of the context (R485). -/
def State.enterF (s : State) (c : Nat) (f : Flag) (xpc : BitVec 18) : State :=
  let s := s.updRec c (fun r => { r with diesStop := true, stopId := s.nextId })
  (if f.code = cWATCH then s.timePasses c none else s).takeTrap c
    { code := f.code, detail := f.detail, slot := if f.die = 0xFF ∧ f.code ≠ cWATCH then slX else slDie, die := f.die, xin := f.ein, info := f.info, xpc := xpc }

/-- What RFT does once its word has ended (R430, R431). -/
def State.returnFromTrap (s : State) (c : Nat) : State :=
  let r := s.rc c
  let watch := r.xcause.toNat % 2 ^ 16 = cWATCH
  let s := s.unpause c
  let s := s.updRec c (fun r =>
    let r := { r with hact := false, diesStop := false, core := { r.core with pc := r.xpc } }
    if watch then r.field.dies.foldl (fun r d => r.setDie d { r.die d with suppress := some r.xin }) r else r)
  match r.heldF with
  | some f =>
    let s := s.updRec c (fun r => { r with heldF := none })
    if f.noRollback then s.enterF c f r.xpc else s.updRec c (fun r => { r with rv := false, life := .frozen (.rollback f) })
  | none =>
    match r.nextF with
    | some f => (s.updRec c (fun r => { r with nextF := none })).enterF c f r.xpc
    | none =>
      let s := if r.rv ∧ !r.xpcWritten then s.rebroadcast c r.ridx r.rcnt r.xpc else s
      s.updRec c (fun r => { r with rv := false, rcnt := 0 })

/-- RFT. -/
def fxRft : SeqMeaning := pureFx (fun e => { npc := some e.rc.xpc, fin := fun s => s.returnFromTrap e.c })

/-- HALT: results in flight land, before any mark of its word takes its shadow, the context enters HALTED, PC ← next is
recorded (R85, R125). -/
def fxHalt : SeqMeaning :=
  pureFx (fun e => { npc := some e.next, set := fun r => { r with core := r.core.drained }
                     fin := fun s => s.updRec e.c (fun r => { r with life := .halted }) })

/-- The key of message m of a record's mailbox block (R358). -/
def mbxMsg (c m : Nat) : Nat := mbxKey c + 64 * m

/-- A context goes on past IDLE with the message of mailbox m, which a recording context logs (R359, R439). It is an acquire
of the context (R322). -/
def State.resumeIdle (s : State) (c m : Nat) : State :=
  let r := s.rc c
  let ws := (List.range 8).map (fun i => memRead s.mem (mbxMsg c m + 8 * i) 8)
  match s.logged c inMAILBOX r.field.origin none r.core.inn.toNat r.core.pc.toNat ws with
  | .error f => (s.updRec c (fun r => { r with life := .ready })).seqFault c slNA f
  | .ok (s, vs) =>
    let s := vs.zipIdx.foldl (fun (s : State) (p : Nat × Nat) => s.poke (mbxMsg c m + 8 * p.2) 8 p.1) s
    (s.timePasses c none).updRec c (fun r => { r with life := .ready })

/-- IDLE m: waits unless the mailbox already holds a message (R125). -/
def fxIdle (m : Nat) : SeqMeaning :=
  pureFx (fun e =>
    { npc := some e.next
      fin := fun s => if (s.mbx.getD e.c 0).getLsbD m then s.resumeIdle e.c m else s.updRec e.c (fun r => { r with life := .waiting (.idle m) }) })

end Sys2Proof.Machine
end

