-- ==== Sys2Proof/Machine/Scalar.lean ====
section
/-! DEFINITION. The scalar slot instructions (R118 to R124, R128), one meaning each. `g` is the guard, held before a
meaning is run; only SEL reads it. -/

namespace Sys2Proof.Machine

/-- sx of R118: the register as a signed number. -/
def sx (w : Word) : Int := w.toInt

/-- An operation that writes s(d). -/
def sOp (d lat : Nat) (f : SeqCore → Word) : SeqMeaning := pureFx (fun e => { writes := one (.s d) (f e.q).toNat lat })

/-- A two-operand operation. -/
def sOp2 (d a b lat : Nat) (f : Word → Word → Word) : SeqMeaning := sOp d lat (fun q => f (q.rS a) (q.rS b))

/-- An operation that writes p(d). -/
def pOp (d : Nat) (f : SeqCore → Bool) : SeqMeaning := pureFx (fun e => { writes := one (.p d) (if f e.q then 1 else 0) 1 })

/-- A compare. -/
def cmpOp (d a b : Nat) (f : Word → Word → Bool) : SeqMeaning := pOp d (fun q => f (q.rS a) (q.rS b))

/-- Leading zero bits of a word (R119). -/
def clz64 (w : Word) : Nat := 64 - (if w = 0 then 0 else Nat.log2 w.toNat + 1)

/-- One bits of the low n bits of a number. -/
def popcount (n w : Nat) : Nat := ((List.range n).filter (fun i => w.testBit i)).length

/-! R118 -/
def fxNop : SeqMeaning := fxNone
def fxMov (_g d a : Nat) : SeqMeaning := sOp d 1 (fun q => q.rS a)
def fxMovi (_g d imm : Nat) : SeqMeaning := sOp d 1 (fun _ => addSext 0 imm 12)
def fxMovl (_g d val : Nat) : SeqMeaning := sOp d 1 (fun _ => BitVec.ofNat 64 (val % 2 ^ 28))
def fxMovlh (_g d val : Nat) : SeqMeaning :=
  sOp d 1 (fun q => (q.rS d &&& 0x0FFFFFFF) ||| BitVec.ofNat 64 (val % 2 ^ 28 * 2 ^ 28))
def fxMovlt (_g d val : Nat) : SeqMeaning :=
  sOp d 1 (fun q => (q.rS d &&& 0x00FFFFFFFFFFFFFF) ||| BitVec.ofNat 64 (val % 2 ^ 8 * 2 ^ 56))
def fxAddi (_g d imm : Nat) : SeqMeaning := sOp d 1 (fun q => addSext (q.rS d) imm 12)

/-! R119 -/
def fxAdd (_g d a b : Nat) : SeqMeaning := sOp2 d a b 1 (fun x y => x + y)
def fxSub (_g d a b : Nat) : SeqMeaning := sOp2 d a b 1 (fun x y => x - y)
def fxAnd (_g d a b : Nat) : SeqMeaning := sOp2 d a b 1 (fun x y => x &&& y)
def fxOr (_g d a b : Nat) : SeqMeaning := sOp2 d a b 1 (fun x y => x ||| y)
def fxXor (_g d a b : Nat) : SeqMeaning := sOp2 d a b 1 (fun x y => x ^^^ y)
def fxAndn (_g d a b : Nat) : SeqMeaning := sOp2 d a b 1 (fun x y => x &&& ~~~y)
def fxShl (_g d a b : Nat) : SeqMeaning := sOp2 d a b 1 (fun x y => x <<< (y.toNat % 64))
def fxShr (_g d a b : Nat) : SeqMeaning := sOp2 d a b 1 (fun x y => x >>> (y.toNat % 64))
def fxSar (_g d a b : Nat) : SeqMeaning := sOp2 d a b 1 (fun x y => x.sshiftRight (y.toNat % 64))
def fxShli (_g d a n : Nat) : SeqMeaning := sOp d 1 (fun q => q.rS a <<< n)
def fxShri (_g d a n : Nat) : SeqMeaning := sOp d 1 (fun q => q.rS a >>> n)
def fxSari (_g d a n : Nat) : SeqMeaning := sOp d 1 (fun q => (q.rS a).sshiftRight n)
def fxMin (_g d a b : Nat) : SeqMeaning := sOp2 d a b 1 (fun x y => if sx y < sx x then y else x)
def fxMax (_g d a b : Nat) : SeqMeaning := sOp2 d a b 1 (fun x y => if sx x < sx y then y else x)
def fxMinu (_g d a b : Nat) : SeqMeaning := sOp2 d a b 1 (fun x y => if y < x then y else x)
def fxMaxu (_g d a b : Nat) : SeqMeaning := sOp2 d a b 1 (fun x y => if x < y then y else x)
def fxClz (_g d a : Nat) : SeqMeaning := sOp d 1 (fun q => BitVec.ofNat 64 (clz64 (q.rS a)))
def fxPopc (_g d a : Nat) : SeqMeaning := sOp d 1 (fun q => BitVec.ofNat 64 (popcount 64 (q.rS a).toNat))

/-! R120 -/
def fxMul (_g d a b : Nat) : SeqMeaning := sOp2 d a b 3 (fun x y => x * y)
def fxMulhu (_g d a b : Nat) : SeqMeaning := sOp2 d a b 4 (fun x y => BitVec.ofNat 64 (x.toNat * y.toNat / 2 ^ 64))
def fxMulhs (_g d a b : Nat) : SeqMeaning := sOp2 d a b 4 (fun x y => BitVec.ofInt 64 (sx x * sx y / 2 ^ 64))
def fxDivu (_g d a b : Nat) : SeqMeaning :=
  sOp2 d a b 24 (fun x y => if y = 0 then BitVec.allOnes 64 else BitVec.ofNat 64 (x.toNat / y.toNat))
def fxRemu (_g d a b : Nat) : SeqMeaning :=
  sOp2 d a b 24 (fun x y => if y = 0 then x else BitVec.ofNat 64 (x.toNat % y.toNat))

/-- R121: SEL writes in either case; its guard selects. -/
def fxSel (g d a b : Nat) : SeqMeaning :=
  sOp d 1 (fun q => if q.rP (g % 64) != decide (64 ≤ g) then q.rS a else q.rS b)

/-! R122 -/
def fxCmpEq (_g d a b : Nat) : SeqMeaning := cmpOp d a b (fun x y => x == y)
def fxCmpNe (_g d a b : Nat) : SeqMeaning := cmpOp d a b (fun x y => x != y)
def fxCmpLt (_g d a b : Nat) : SeqMeaning := cmpOp d a b (fun x y => decide (sx x < sx y))
def fxCmpLe (_g d a b : Nat) : SeqMeaning := cmpOp d a b (fun x y => decide (sx x ≤ sx y))
def fxCmpLtu (_g d a b : Nat) : SeqMeaning := cmpOp d a b (fun x y => decide (x < y))
def fxCmpLeu (_g d a b : Nat) : SeqMeaning := cmpOp d a b (fun x y => decide (x ≤ y))
def fxTstb (_g d a n : Nat) : SeqMeaning := pOp d (fun q => tbit (q.rS a) n)
def fxPmov (_g d a : Nat) : SeqMeaning := pOp d (fun q => q.rP a)
def fxPand (_g d a b : Nat) : SeqMeaning := pOp d (fun q => q.rP a && q.rP b)
def fxPor (_g d a b : Nat) : SeqMeaning := pOp d (fun q => q.rP a || q.rP b)
def fxPxor (_g d a b : Nat) : SeqMeaning := pOp d (fun q => q.rP a != q.rP b)
def fxPandn (_g d a b : Nat) : SeqMeaning := pOp d (fun q => q.rP a && !q.rP b)

/-- R123: s(d)[n] ← p(n), with p0 true. -/
def fxPtos (_g d : Nat) : SeqMeaning := sOp d 1 (fun q => q.p ||| 1)

/-- R123: p(n) ← s(a)[n] for n from 1 to 63. -/
def fxStop (_g a : Nat) : SeqMeaning :=
  pureFx (fun e => { writes := (List.range 63).flatMap (fun i => one (.p (i + 1)) (if tbit (e.q.rS a) (i + 1) then 1 else 0) 1) })

/-! ## The local data store (R124) -/

/-- The first byte of the store that an agent's LD and ST forms reach (R116; log entry 10 for the Atelier). -/
def storeKey (c : Nat) : Nat := if c = ateIdx then ateKey 0 else ldsKey c

/-- The checks of R124 on an effective address. -/
def ldsFault (ea : Word) (n : Nat) : Option FInfo :=
  if ea.toNat % n ≠ 0 then some (cPROTECT, 0x00, ea.toNat)
  else if 0x20000 < ea.toNat + n then some (cPROTECT, 0x04, ea.toNat)
  else none

/-- The effective address of format M. -/
def ldsAddr (q : SeqCore) (a off n : Nat) : Word := q.rS a + BitVec.ofNat 64 (off * n)

/-- A load of n bytes, landing after 3 positions. -/
def ldsLoad (d a off n : Nat) (signed : Bool) : SeqMeaning := fun e s =>
  let ea := ldsAddr e.q a off n
  match ldsFault ea n with
  | some f => .error f
  | none =>
    let v := memRead s.mem (storeKey e.c + ea.toNat) n
    .ok (s, { writes := one (.s d) (if signed then (wordOfInt (sext v (8 * n))).toNat else v) 3 })

/-- A store of the low n bytes of s(v), seen by loads from the next position. -/
def ldsStore (v a off n : Nat) : SeqMeaning := fun e s =>
  let ea := ldsAddr e.q a off n
  match ldsFault ea n with
  | some f => .error f
  | none => .ok (s, { mem := fun s => { s with mem := memWrite s.mem (storeKey e.c + ea.toNat) n (e.q.rS v).toNat } })

def fxLdB (_g d a off : Nat) : SeqMeaning := ldsLoad d a off 1 false
def fxLdH (_g d a off : Nat) : SeqMeaning := ldsLoad d a off 2 false
def fxLdW (_g d a off : Nat) : SeqMeaning := ldsLoad d a off 4 false
def fxLdD (_g d a off : Nat) : SeqMeaning := ldsLoad d a off 8 false
def fxLdsW (_g d a off : Nat) : SeqMeaning := ldsLoad d a off 4 true
def fxStB (_g v a off : Nat) : SeqMeaning := ldsStore v a off 1
def fxStH (_g v a off : Nat) : SeqMeaning := ldsStore v a off 2
def fxStW (_g v a off : Nat) : SeqMeaning := ldsStore v a off 4
def fxStD (_g v a off : Nat) : SeqMeaning := ldsStore v a off 8

/-! ## LSETUP (R128) -/

/-- The loop state after LSETUP of loop n. -/
def SeqCore.lsetup (q : SeqCore) (n stages : Nat) (count : BitVec 32) (head : BitVec 18) : SeqCore :=
  let q1 :=
    if stages = 0 then q
    else { q with l0 := { q.l0 with stages := 0 }, l1 := { q.l1 with stages := 0 }, l2 := { q.l2 with stages := 0 }
                  l3 := { q.l3 with stages := 0 }, stageOwn := BitVec.ofNat 3 (4 + n) }
  q1.setLoop n { count := count, pass := 0, head := head, stages := BitVec.ofNat 3 stages }

/-- LSETUP: `stages` is the field S − 1. -/
def fxLsetup (_g loop stages a : Nat) : SeqMeaning :=
  pureFx (fun e =>
    let count := (e.q.rS a).setWidth 32
    { set := fun r => { r with core := r.core.lsetup loop stages count (e.q.pc + 1) }
      writes := if stages = 0 then []
        else (List.range 8).flatMap (fun i => one (.p (56 + i)) (if i = 0 ∧ 0 < count.toNat then 1 else 0) 1) })

end Sys2Proof.Machine
end

