-- ==== Sys2Proof/Machine/ExecWord.lean ====
section
/-! DEFINITION. Every instruction of the sequencer executed alone: the word that holds it and nothing else (R41), and the meaning of any
decoded slot of a word. -/

namespace Sys2Proof.Machine

/-! ## Scalar slots -/

/-- NOP (R47). -/
def execNop (s : State) : Host.Outcome State Fault Refusal :=
  s.issueSlot ⟨.scalar, 0x0, []⟩ fxNop

/-- MOV (R118). -/
def execMov (g d a : Nat) (s : State) : Host.Outcome State Fault Refusal :=
  s.issueSlot ⟨.scalar, 0x1, [g, d, a]⟩ (fxMov g d a)

/-- MOVI (R118). -/
def execMovi (g d imm : Nat) (s : State) : Host.Outcome State Fault Refusal :=
  s.issueSlot ⟨.scalar, 0x2, [g, d, imm]⟩ (fxMovi g d imm)

/-- MOVL (R118; val is the K28 literal of the same word). -/
def execMovl (g d val : Nat) (s : State) : Host.Outcome State Fault Refusal :=
  s.issueSlot ⟨.scalar, 0x3, [g, d, val]⟩ (fxMovl g d val)

/-- MOVLH (R118; val is the K28 literal of the same word). -/
def execMovlh (g d val : Nat) (s : State) : Host.Outcome State Fault Refusal :=
  s.issueSlot ⟨.scalar, 0x4, [g, d, val]⟩ (fxMovlh g d val)

/-- MOVLT (R118; val is the K28 literal of the same word). -/
def execMovlt (g d val : Nat) (s : State) : Host.Outcome State Fault Refusal :=
  s.issueSlot ⟨.scalar, 0x5, [g, d, val]⟩ (fxMovlt g d val)

/-- ADDI (R118). -/
def execAddi (g d imm : Nat) (s : State) : Host.Outcome State Fault Refusal :=
  s.issueSlot ⟨.scalar, 0x6, [g, d, imm]⟩ (fxAddi g d imm)

/-- ADD (R119). -/
def execAdd (g d a b : Nat) (s : State) : Host.Outcome State Fault Refusal :=
  s.issueSlot ⟨.scalar, 0x8, [g, d, a, b]⟩ (fxAdd g d a b)

/-- SUB (R119). -/
def execSub (g d a b : Nat) (s : State) : Host.Outcome State Fault Refusal :=
  s.issueSlot ⟨.scalar, 0x9, [g, d, a, b]⟩ (fxSub g d a b)

/-- AND (R119). -/
def execAnd (g d a b : Nat) (s : State) : Host.Outcome State Fault Refusal :=
  s.issueSlot ⟨.scalar, 0xa, [g, d, a, b]⟩ (fxAnd g d a b)

/-- OR (R119). -/
def execOr (g d a b : Nat) (s : State) : Host.Outcome State Fault Refusal :=
  s.issueSlot ⟨.scalar, 0xb, [g, d, a, b]⟩ (fxOr g d a b)

/-- XOR (R119). -/
def execXor (g d a b : Nat) (s : State) : Host.Outcome State Fault Refusal :=
  s.issueSlot ⟨.scalar, 0xc, [g, d, a, b]⟩ (fxXor g d a b)

/-- ANDN (R119). -/
def execAndn (g d a b : Nat) (s : State) : Host.Outcome State Fault Refusal :=
  s.issueSlot ⟨.scalar, 0xd, [g, d, a, b]⟩ (fxAndn g d a b)

/-- SHL (R119). -/
def execShl (g d a b : Nat) (s : State) : Host.Outcome State Fault Refusal :=
  s.issueSlot ⟨.scalar, 0xe, [g, d, a, b]⟩ (fxShl g d a b)

/-- SHR (R119). -/
def execShr (g d a b : Nat) (s : State) : Host.Outcome State Fault Refusal :=
  s.issueSlot ⟨.scalar, 0xf, [g, d, a, b]⟩ (fxShr g d a b)

/-- SAR (R119). -/
def execSar (g d a b : Nat) (s : State) : Host.Outcome State Fault Refusal :=
  s.issueSlot ⟨.scalar, 0x10, [g, d, a, b]⟩ (fxSar g d a b)

/-- SHLI (R119). -/
def execShli (g d a n : Nat) (s : State) : Host.Outcome State Fault Refusal :=
  s.issueSlot ⟨.scalar, 0x11, [g, d, a, n]⟩ (fxShli g d a n)

/-- SHRI (R119). -/
def execShri (g d a n : Nat) (s : State) : Host.Outcome State Fault Refusal :=
  s.issueSlot ⟨.scalar, 0x12, [g, d, a, n]⟩ (fxShri g d a n)

/-- SARI (R119). -/
def execSari (g d a n : Nat) (s : State) : Host.Outcome State Fault Refusal :=
  s.issueSlot ⟨.scalar, 0x13, [g, d, a, n]⟩ (fxSari g d a n)

/-- MUL (R120). -/
def execMul (g d a b : Nat) (s : State) : Host.Outcome State Fault Refusal :=
  s.issueSlot ⟨.scalar, 0x14, [g, d, a, b]⟩ (fxMul g d a b)

/-- MULHU (R120). -/
def execMulhu (g d a b : Nat) (s : State) : Host.Outcome State Fault Refusal :=
  s.issueSlot ⟨.scalar, 0x15, [g, d, a, b]⟩ (fxMulhu g d a b)

/-- MULHS (R120). -/
def execMulhs (g d a b : Nat) (s : State) : Host.Outcome State Fault Refusal :=
  s.issueSlot ⟨.scalar, 0x16, [g, d, a, b]⟩ (fxMulhs g d a b)

/-- DIVU (R120). -/
def execDivu (g d a b : Nat) (s : State) : Host.Outcome State Fault Refusal :=
  s.issueSlot ⟨.scalar, 0x17, [g, d, a, b]⟩ (fxDivu g d a b)

/-- REMU (R120). -/
def execRemu (g d a b : Nat) (s : State) : Host.Outcome State Fault Refusal :=
  s.issueSlot ⟨.scalar, 0x18, [g, d, a, b]⟩ (fxRemu g d a b)

/-- MIN (R119). -/
def execMin (g d a b : Nat) (s : State) : Host.Outcome State Fault Refusal :=
  s.issueSlot ⟨.scalar, 0x19, [g, d, a, b]⟩ (fxMin g d a b)

/-- MAX (R119). -/
def execMax (g d a b : Nat) (s : State) : Host.Outcome State Fault Refusal :=
  s.issueSlot ⟨.scalar, 0x1a, [g, d, a, b]⟩ (fxMax g d a b)

/-- MINU (R119). -/
def execMinu (g d a b : Nat) (s : State) : Host.Outcome State Fault Refusal :=
  s.issueSlot ⟨.scalar, 0x1b, [g, d, a, b]⟩ (fxMinu g d a b)

/-- MAXU (R119). -/
def execMaxu (g d a b : Nat) (s : State) : Host.Outcome State Fault Refusal :=
  s.issueSlot ⟨.scalar, 0x1c, [g, d, a, b]⟩ (fxMaxu g d a b)

/-- CLZ (R119). -/
def execClz (g d a : Nat) (s : State) : Host.Outcome State Fault Refusal :=
  s.issueSlot ⟨.scalar, 0x1d, [g, d, a]⟩ (fxClz g d a)

/-- POPC (R119). -/
def execPopc (g d a : Nat) (s : State) : Host.Outcome State Fault Refusal :=
  s.issueSlot ⟨.scalar, 0x1e, [g, d, a]⟩ (fxPopc g d a)

/-- SEL (R121). -/
def execSel (g d a b : Nat) (s : State) : Host.Outcome State Fault Refusal :=
  s.issueSlot ⟨.scalar, 0x1f, [g, d, a, b]⟩ (fxSel g d a b)

/-- CMP_EQ (R122). -/
def execCmpEq (g d a b : Nat) (s : State) : Host.Outcome State Fault Refusal :=
  s.issueSlot ⟨.scalar, 0x20, [g, d, a, b]⟩ (fxCmpEq g d a b)

/-- CMP_NE (R122). -/
def execCmpNe (g d a b : Nat) (s : State) : Host.Outcome State Fault Refusal :=
  s.issueSlot ⟨.scalar, 0x21, [g, d, a, b]⟩ (fxCmpNe g d a b)

/-- CMP_LT (R122). -/
def execCmpLt (g d a b : Nat) (s : State) : Host.Outcome State Fault Refusal :=
  s.issueSlot ⟨.scalar, 0x22, [g, d, a, b]⟩ (fxCmpLt g d a b)

/-- CMP_LE (R122). -/
def execCmpLe (g d a b : Nat) (s : State) : Host.Outcome State Fault Refusal :=
  s.issueSlot ⟨.scalar, 0x23, [g, d, a, b]⟩ (fxCmpLe g d a b)

/-- CMP_LTU (R122). -/
def execCmpLtu (g d a b : Nat) (s : State) : Host.Outcome State Fault Refusal :=
  s.issueSlot ⟨.scalar, 0x24, [g, d, a, b]⟩ (fxCmpLtu g d a b)

/-- CMP_LEU (R122). -/
def execCmpLeu (g d a b : Nat) (s : State) : Host.Outcome State Fault Refusal :=
  s.issueSlot ⟨.scalar, 0x25, [g, d, a, b]⟩ (fxCmpLeu g d a b)

/-- TSTB (R122). -/
def execTstb (g d a n : Nat) (s : State) : Host.Outcome State Fault Refusal :=
  s.issueSlot ⟨.scalar, 0x26, [g, d, a, n]⟩ (fxTstb g d a n)

/-- PMOV (R122). -/
def execPmov (g d a : Nat) (s : State) : Host.Outcome State Fault Refusal :=
  s.issueSlot ⟨.scalar, 0x27, [g, d, a]⟩ (fxPmov g d a)

/-- PAND (R122). -/
def execPand (g d a b : Nat) (s : State) : Host.Outcome State Fault Refusal :=
  s.issueSlot ⟨.scalar, 0x28, [g, d, a, b]⟩ (fxPand g d a b)

/-- POR (R122). -/
def execPor (g d a b : Nat) (s : State) : Host.Outcome State Fault Refusal :=
  s.issueSlot ⟨.scalar, 0x29, [g, d, a, b]⟩ (fxPor g d a b)

/-- PXOR (R122). -/
def execPxor (g d a b : Nat) (s : State) : Host.Outcome State Fault Refusal :=
  s.issueSlot ⟨.scalar, 0x2a, [g, d, a, b]⟩ (fxPxor g d a b)

/-- PANDN (R122). -/
def execPandn (g d a b : Nat) (s : State) : Host.Outcome State Fault Refusal :=
  s.issueSlot ⟨.scalar, 0x2b, [g, d, a, b]⟩ (fxPandn g d a b)

/-- PTOS (R123). -/
def execPtos (g d : Nat) (s : State) : Host.Outcome State Fault Refusal :=
  s.issueSlot ⟨.scalar, 0x2c, [g, d]⟩ (fxPtos g d)

/-- STOP (R123). -/
def execStop (g a : Nat) (s : State) : Host.Outcome State Fault Refusal :=
  s.issueSlot ⟨.scalar, 0x2d, [g, a]⟩ (fxStop g a)

/-- LSETUP (R128; stages is the stage count minus 1). -/
def execLsetup (g loop stages a : Nat) (s : State) : Host.Outcome State Fault Refusal :=
  s.issueSlot ⟨.scalar, 0x2e, [g, loop, stages, a]⟩ (fxLsetup g loop stages a)

/-- LD_B (R124). -/
def execLdB (g d a off : Nat) (s : State) : Host.Outcome State Fault Refusal :=
  s.issueSlot ⟨.scalar, 0x30, [g, d, a, off]⟩ (fxLdB g d a off)

/-- LD_H (R124). -/
def execLdH (g d a off : Nat) (s : State) : Host.Outcome State Fault Refusal :=
  s.issueSlot ⟨.scalar, 0x31, [g, d, a, off]⟩ (fxLdH g d a off)

/-- LD_W (R124). -/
def execLdW (g d a off : Nat) (s : State) : Host.Outcome State Fault Refusal :=
  s.issueSlot ⟨.scalar, 0x32, [g, d, a, off]⟩ (fxLdW g d a off)

/-- LD_D (R124). -/
def execLdD (g d a off : Nat) (s : State) : Host.Outcome State Fault Refusal :=
  s.issueSlot ⟨.scalar, 0x33, [g, d, a, off]⟩ (fxLdD g d a off)

/-- LDS_W (R124). -/
def execLdsW (g d a off : Nat) (s : State) : Host.Outcome State Fault Refusal :=
  s.issueSlot ⟨.scalar, 0x34, [g, d, a, off]⟩ (fxLdsW g d a off)

/-- ST_B (R124). -/
def execStB (g d a off : Nat) (s : State) : Host.Outcome State Fault Refusal :=
  s.issueSlot ⟨.scalar, 0x35, [g, d, a, off]⟩ (fxStB g d a off)

/-- ST_H (R124). -/
def execStH (g d a off : Nat) (s : State) : Host.Outcome State Fault Refusal :=
  s.issueSlot ⟨.scalar, 0x36, [g, d, a, off]⟩ (fxStH g d a off)

/-- ST_W (R124). -/
def execStW (g d a off : Nat) (s : State) : Host.Outcome State Fault Refusal :=
  s.issueSlot ⟨.scalar, 0x37, [g, d, a, off]⟩ (fxStW g d a off)

/-- ST_D (R124). -/
def execStD (g d a off : Nat) (s : State) : Host.Outcome State Fault Refusal :=
  s.issueSlot ⟨.scalar, 0x38, [g, d, a, off]⟩ (fxStD g d a off)

/-! ## Next-address kinds -/

/-- SEQ (R125). -/
def execSeq (s : State) : Host.Outcome State Fault Refusal :=
  s.issueSlot ⟨.na, 0x0, []⟩ fxSeq

/-- JMP (R125). -/
def execJmp (off : Nat) (s : State) : Host.Outcome State Fault Refusal :=
  s.issueSlot ⟨.na, 0x1, [off]⟩ (fxJmp off)

/-- BR (R125). -/
def execBr (p : Nat) (neg : Bool) (off : Nat) (s : State) : Host.Outcome State Fault Refusal :=
  s.issueSlot ⟨.na, 0x2, [p, (bit neg), off]⟩ (fxBr p neg off)

/-- CALL (R126). -/
def execCall (off : Nat) (s : State) : Host.Outcome State Fault Refusal :=
  s.issueSlot ⟨.na, 0x3, [off]⟩ (fxCall off)

/-- RET (R126). -/
def execRet (s : State) : Host.Outcome State Fault Refusal :=
  s.issueSlot ⟨.na, 0x4, []⟩ fxRet

/-- LEND (R129). -/
def execLend (loop off : Nat) (s : State) : Host.Outcome State Fault Refusal :=
  s.issueSlot ⟨.na, 0x5, [loop, off]⟩ (fxLend loop off)

/-- TRAP (R127). -/
def execTrap (code : Nat) (s : State) : Host.Outcome State Fault Refusal :=
  s.issueSlot ⟨.na, 0x6, [code]⟩ (fxTrap code)

/-- RFT (R127, R430). -/
def execRft (s : State) : Host.Outcome State Fault Refusal :=
  s.issueSlot ⟨.na, 0x7, []⟩ fxRft

/-- HALT (R125). -/
def execHalt (s : State) : Host.Outcome State Fault Refusal :=
  s.issueSlot ⟨.na, 0x8, []⟩ fxHalt

/-- IDLE (R125). -/
def execIdle (m : Nat) (s : State) : Host.Outcome State Fault Refusal :=
  s.issueSlot ⟨.na, 0x9, [m]⟩ (fxIdle m)

/-! ## X slots -/

/-- XNOP (R48). -/
def execXnop (s : State) : Host.Outcome State Fault Refusal :=
  s.issueSlot ⟨.x, 0x0, []⟩ fxXnop

/-- BCAST (R329; rep is the repeat count minus 1). -/
def execBcast (rep idx : Nat) (s : State) : Host.Outcome State Fault Refusal :=
  s.issueSlot ⟨.x, 0x1, [rep, idx]⟩ (fxBcast rep idx)

/-- LIT (R330). -/
def execLit (s : State) : Host.Outcome State Fault Refusal :=
  s.issueSlot ⟨.x, 0x2, []⟩ fxLit

/-- K28 (R51). -/
def execK28 (val : Nat) (s : State) : Host.Outcome State Fault Refusal :=
  s.issueSlot ⟨.x, 0x3, [val]⟩ (fxK28 val)

/-- WAITS (R401). -/
def execWaits (ts thr : Nat) (s : State) : Host.Outcome State Fault Refusal :=
  s.issueSlot ⟨.x, 0x5, [ts, thr]⟩ (fxWaits ts thr)

/-- RED (R332, R333). -/
def execRed (grp op ty dc ts d : Nat) (s : State) : Host.Outcome State Fault Refusal :=
  s.issueSlot ⟨.x, 0x6, [grp, op, ty, dc, ts, d]⟩ (fxRed grp op ty dc ts d)

/-- FEAT (R133). -/
def execFeat (d n : Nat) (s : State) : Host.Outcome State Fault Refusal :=
  s.issueSlot ⟨.x, 0xa, [d, n]⟩ (fxFeat d n)

/-! ## MEM operations -/

/-- LDG_B (R269). -/
def execLdgB (ord : Ord) (sc : Scope) (ts d a : Nat) (s : State) : Host.Outcome State Fault Refusal :=
  s.issueSlot ⟨.mem, 0x80, [(ordCode ord), (scopeCode sc), ts, d, a]⟩ (fxLdgB ord sc ts d a)

/-- LDG_H (R269). -/
def execLdgH (ord : Ord) (sc : Scope) (ts d a : Nat) (s : State) : Host.Outcome State Fault Refusal :=
  s.issueSlot ⟨.mem, 0x81, [(ordCode ord), (scopeCode sc), ts, d, a]⟩ (fxLdgH ord sc ts d a)

/-- LDG_W (R269). -/
def execLdgW (ord : Ord) (sc : Scope) (ts d a : Nat) (s : State) : Host.Outcome State Fault Refusal :=
  s.issueSlot ⟨.mem, 0x82, [(ordCode ord), (scopeCode sc), ts, d, a]⟩ (fxLdgW ord sc ts d a)

/-- LDG_D (R269). -/
def execLdgD (ord : Ord) (sc : Scope) (ts d a : Nat) (s : State) : Host.Outcome State Fault Refusal :=
  s.issueSlot ⟨.mem, 0x83, [(ordCode ord), (scopeCode sc), ts, d, a]⟩ (fxLdgD ord sc ts d a)

/-- STG_B (R269). -/
def execStgB (ord : Ord) (sc : Scope) (ts d a : Nat) (s : State) : Host.Outcome State Fault Refusal :=
  s.issueSlot ⟨.mem, 0x84, [(ordCode ord), (scopeCode sc), ts, d, a]⟩ (fxStgB ord sc ts d a)

/-- STG_H (R269). -/
def execStgH (ord : Ord) (sc : Scope) (ts d a : Nat) (s : State) : Host.Outcome State Fault Refusal :=
  s.issueSlot ⟨.mem, 0x85, [(ordCode ord), (scopeCode sc), ts, d, a]⟩ (fxStgH ord sc ts d a)

/-- STG_W (R269). -/
def execStgW (ord : Ord) (sc : Scope) (ts d a : Nat) (s : State) : Host.Outcome State Fault Refusal :=
  s.issueSlot ⟨.mem, 0x86, [(ordCode ord), (scopeCode sc), ts, d, a]⟩ (fxStgW ord sc ts d a)

/-- STG_D (R269). -/
def execStgD (ord : Ord) (sc : Scope) (ts d a : Nat) (s : State) : Host.Outcome State Fault Refusal :=
  s.issueSlot ⟨.mem, 0x87, [(ordCode ord), (scopeCode sc), ts, d, a]⟩ (fxStgD ord sc ts d a)

/-- AFADD (R270). -/
def execAfadd (ord : Ord) (sc : Scope) (ts d e2 a : Nat) (s : State) : Host.Outcome State Fault Refusal :=
  s.issueSlot ⟨.mem, 0x88, [(ordCode ord), (scopeCode sc), ts, d, e2, a]⟩ (fxAfadd ord sc ts d e2 a)

/-- AMIN (R270). -/
def execAmin (ord : Ord) (sc : Scope) (ts d e2 a : Nat) (s : State) : Host.Outcome State Fault Refusal :=
  s.issueSlot ⟨.mem, 0x89, [(ordCode ord), (scopeCode sc), ts, d, e2, a]⟩ (fxAmin ord sc ts d e2 a)

/-- AMAX (R270). -/
def execAmax (ord : Ord) (sc : Scope) (ts d e2 a : Nat) (s : State) : Host.Outcome State Fault Refusal :=
  s.issueSlot ⟨.mem, 0x8a, [(ordCode ord), (scopeCode sc), ts, d, e2, a]⟩ (fxAmax ord sc ts d e2 a)

/-- AAND (R270). -/
def execAand (ord : Ord) (sc : Scope) (ts d e2 a : Nat) (s : State) : Host.Outcome State Fault Refusal :=
  s.issueSlot ⟨.mem, 0x8b, [(ordCode ord), (scopeCode sc), ts, d, e2, a]⟩ (fxAand ord sc ts d e2 a)

/-- AOR (R270). -/
def execAor (ord : Ord) (sc : Scope) (ts d e2 a : Nat) (s : State) : Host.Outcome State Fault Refusal :=
  s.issueSlot ⟨.mem, 0x8c, [(ordCode ord), (scopeCode sc), ts, d, e2, a]⟩ (fxAor ord sc ts d e2 a)

/-- AXOR (R270). -/
def execAxor (ord : Ord) (sc : Scope) (ts d e2 a : Nat) (s : State) : Host.Outcome State Fault Refusal :=
  s.issueSlot ⟨.mem, 0x8d, [(ordCode ord), (scopeCode sc), ts, d, e2, a]⟩ (fxAxor ord sc ts d e2 a)

/-- ASWAP (R270). -/
def execAswap (ord : Ord) (sc : Scope) (ts d e2 a : Nat) (s : State) : Host.Outcome State Fault Refusal :=
  s.issueSlot ⟨.mem, 0x8e, [(ordCode ord), (scopeCode sc), ts, d, e2, a]⟩ (fxAswap ord sc ts d e2 a)

/-- ACAS (R270). -/
def execAcas (ord : Ord) (sc : Scope) (ts d e2 a : Nat) (s : State) : Host.Outcome State Fault Refusal :=
  s.issueSlot ⟨.mem, 0x8f, [(ordCode ord), (scopeCode sc), ts, d, e2, a]⟩ (fxAcas ord sc ts d e2 a)

/-- AMAXF (R270). -/
def execAmaxf (ord : Ord) (sc : Scope) (ts d a : Nat) (s : State) : Host.Outcome State Fault Refusal :=
  s.issueSlot ⟨.mem, 0x90, [(ordCode ord), (scopeCode sc), ts, d, a]⟩ (fxAmaxf ord sc ts d a)

/-- MEM_AMAXRR (R270). -/
def execMemAmaxrr (ord : Ord) (sc : Scope) (ts d a : Nat) (s : State) : Host.Outcome State Fault Refusal :=
  s.issueSlot ⟨.mem, 0x91, [(ordCode ord), (scopeCode sc), ts, d, a]⟩ (fxMemAmaxrr ord sc ts d a)

/-- MEM_FENCE (R271). -/
def execMemFence (ord : Ord) (sc : Scope) (ts : Nat) (s : State) : Host.Outcome State Fault Refusal :=
  s.issueSlot ⟨.mem, 0x92, [(ordCode ord), (scopeCode sc), ts]⟩ (fxMemFence ord sc ts)

/-- MEM_LDREF (R302). -/
def execMemLdref (ord : Ord) (sc : Scope) (ts d h h2 : Nat) (s : State) : Host.Outcome State Fault Refusal :=
  s.issueSlot ⟨.mem, 0x93, [(ordCode ord), (scopeCode sc), ts, d, h, h2]⟩ (fxMemLdref ord sc ts d h h2)

/-- MEM_STREF (R302). -/
def execMemStref (ord : Ord) (sc : Scope) (ts d h h2 : Nat) (s : State) : Host.Outcome State Fault Refusal :=
  s.issueSlot ⟨.mem, 0x94, [(ordCode ord), (scopeCode sc), ts, d, h, h2]⟩ (fxMemStref ord sc ts d h h2)

/-- MEM_PIN (R302). -/
def execMemPin (ord : Ord) (sc : Scope) (ts d h : Nat) (s : State) : Host.Outcome State Fault Refusal :=
  s.issueSlot ⟨.mem, 0x95, [(ordCode ord), (scopeCode sc), ts, d, h]⟩ (fxMemPin ord sc ts d h)

/-- MEM_UNPIN (R302). -/
def execMemUnpin (ord : Ord) (sc : Scope) (ts h : Nat) (s : State) : Host.Outcome State Fault Refusal :=
  s.issueSlot ⟨.mem, 0x96, [(ordCode ord), (scopeCode sc), ts, h]⟩ (fxMemUnpin ord sc ts h)

/-- MEM_LDR (R302). -/
def execMemLdr (ord : Ord) (sc : Scope) (ts d e2 h : Nat) (s : State) : Host.Outcome State Fault Refusal :=
  s.issueSlot ⟨.mem, 0x97, [(ordCode ord), (scopeCode sc), ts, d, e2, h]⟩ (fxMemLdr ord sc ts d e2 h)

/-- MEM_STR (R302). -/
def execMemStr (ord : Ord) (sc : Scope) (ts d e2 h : Nat) (s : State) : Host.Outcome State Fault Refusal :=
  s.issueSlot ⟨.mem, 0x98, [(ordCode ord), (scopeCode sc), ts, d, e2, h]⟩ (fxMemStr ord sc ts d e2 h)

/-- MEM_JRAISE (R409). -/
def execMemJraise (ord : Ord) (sc : Scope) (ts d a : Nat) (s : State) : Host.Outcome State Fault Refusal :=
  s.issueSlot ⟨.mem, 0x99, [(ordCode ord), (scopeCode sc), ts, d, a]⟩ (fxMemJraise ord sc ts d a)

/-- MEM_JDONE (R409). -/
def execMemJdone (ord : Ord) (sc : Scope) (ts a : Nat) (s : State) : Host.Outcome State Fault Refusal :=
  s.issueSlot ⟨.mem, 0x9a, [(ordCode ord), (scopeCode sc), ts, a]⟩ (fxMemJdone ord sc ts a)

/-! ## Engine commands -/

/-- ENG_CPY (R347). -/
def execEngCpy (desc ts : Nat) (acq rel : Bool) (sc : Scope) (bp : Nat) (s : State) : Host.Outcome State Fault Refusal :=
  s.issueSlot ⟨.eng, 0x38, [desc, ts, (bit acq), (bit rel), (scopeCode sc), bp]⟩ (fxEngCpy desc ts acq rel sc bp)

/-- ENG_INSTALL (R350). -/
def execEngInstall (desc ts : Nat) (acq rel : Bool) (sc : Scope) (bp : Nat) (s : State) : Host.Outcome State Fault Refusal :=
  s.issueSlot ⟨.eng, 0x39, [desc, ts, (bit acq), (bit rel), (scopeCode sc), bp]⟩ (fxEngInstall desc ts acq rel sc bp)

/-- ENG_RELOC (R349). -/
def execEngReloc (desc ts : Nat) (acq rel : Bool) (sc : Scope) (bp : Nat) (s : State) : Host.Outcome State Fault Refusal :=
  s.issueSlot ⟨.eng, 0x3a, [desc, ts, (bit acq), (bit rel), (scopeCode sc), bp]⟩ (fxEngReloc desc ts acq rel sc bp)

/-- MBXSEND (R360). -/
def execMbxsend (desc ts : Nat) (acq rel : Bool) (sc : Scope) (bp : Nat) (s : State) : Host.Outcome State Fault Refusal :=
  s.issueSlot ⟨.eng, 0x3b, [desc, ts, (bit acq), (bit rel), (scopeCode sc), bp]⟩ (fxMbxsend desc ts acq rel sc bp)

/-- ENQ (R355). -/
def execEnq (desc ts : Nat) (acq rel : Bool) (sc : Scope) (bp : Nat) (s : State) : Host.Outcome State Fault Refusal :=
  s.issueSlot ⟨.eng, 0x3c, [desc, ts, (bit acq), (bit rel), (scopeCode sc), bp]⟩ (fxEnq desc ts acq rel sc bp)

/-- PODSEND (R361). -/
def execPodsend (desc ts : Nat) (acq rel : Bool) (sc : Scope) (bp : Nat) (s : State) : Host.Outcome State Fault Refusal :=
  s.issueSlot ⟨.eng, 0x3d, [desc, ts, (bit acq), (bit rel), (scopeCode sc), bp]⟩ (fxPodsend desc ts acq rel sc bp)

/-- CTXSTART (R363, launch). -/
def execCtxstart (desc ts : Nat) (acq rel : Bool) (sc : Scope) (bp : Nat) (s : State) : Host.Outcome State Fault Refusal :=
  s.issueSlot ⟨.eng, 0x3e, [desc, ts, (bit acq), (bit rel), (scopeCode sc), bp]⟩ (fxCtxstart desc ts acq rel sc bp)

/-- CTXSTART_RESTORE (R363, restore; the same words as CTXSTART). -/
def execCtxstartRestore (desc ts : Nat) (acq rel : Bool) (sc : Scope) (bp : Nat) (s : State) : Host.Outcome State Fault Refusal :=
  s.issueSlot ⟨.eng, 0x3e, [desc, ts, (bit acq), (bit rel), (scopeCode sc), bp]⟩ (fxCtxstartRestore desc ts acq rel sc bp)

/-- CTXSTART_GO (R363, GO; the same words as CTXSTART). -/
def execCtxstartGo (desc ts : Nat) (acq rel : Bool) (sc : Scope) (bp : Nat) (s : State) : Host.Outcome State Fault Refusal :=
  s.issueSlot ⟨.eng, 0x3e, [desc, ts, (bit acq), (bit rel), (scopeCode sc), bp]⟩ (fxCtxstartGo desc ts acq rel sc bp)

/-- CTXSAVE (R364). -/
def execCtxsave (desc ts : Nat) (acq rel : Bool) (sc : Scope) (bp : Nat) (s : State) : Host.Outcome State Fault Refusal :=
  s.issueSlot ⟨.eng, 0x3f, [desc, ts, (bit acq), (bit rel), (scopeCode sc), bp]⟩ (fxCtxsave desc ts acq rel sc bp)

/-! ## CSR accesses -/

/-- CSRR (R131). -/
def execCsrr (num d : Nat) (s : State) : Host.Outcome State Fault Refusal :=
  s.issueSlot ⟨.csr, 0x20, [num, d]⟩ (fxCsrr num d)

/-- CSRW (R131). -/
def execCsrw (num a : Nat) (s : State) : Host.Outcome State Fault Refusal :=
  s.issueSlot ⟨.csr, 0x21, [num, a]⟩ (fxCsrw num a)

/-- CSRS (R131). -/
def execCsrs (num d a : Nat) (s : State) : Host.Outcome State Fault Refusal :=
  s.issueSlot ⟨.csr, 0x22, [num, d, a]⟩ (fxCsrs num d a)

/-- CSRC (R131). -/
def execCsrc (num d a : Nat) (s : State) : Host.Outcome State Fault Refusal :=
  s.issueSlot ⟨.csr, 0x23, [num, d, a]⟩ (fxCsrc num d a)

/-! ## Context registers and FEAT -/

/-- DMSET (R132). -/
def execDmset (a : Nat) (s : State) : Host.Outcome State Fault Refusal :=
  s.issueSlot ⟨.ctx, 0x90, [a]⟩ (fxDmset a)

/-- DMGET (R132). -/
def execDmget (d : Nat) (s : State) : Host.Outcome State Fault Refusal :=
  s.issueSlot ⟨.ctx, 0x91, [d]⟩ (fxDmget d)

/-- CMSET (R132). -/
def execCmset (a : Nat) (s : State) : Host.Outcome State Fault Refusal :=
  s.issueSlot ⟨.ctx, 0x92, [a]⟩ (fxCmset a)

/-- CMGET (R132). -/
def execCmget (d : Nat) (s : State) : Host.Outcome State Fault Refusal :=
  s.issueSlot ⟨.ctx, 0x93, [d]⟩ (fxCmget d)

/-- TMAND (R132). -/
def execTmand (a : Nat) (s : State) : Host.Outcome State Fault Refusal :=
  s.issueSlot ⟨.ctx, 0x94, [a]⟩ (fxTmand a)

/-- TMGET (R132). -/
def execTmget (d : Nat) (s : State) : Host.Outcome State Fault Refusal :=
  s.issueSlot ⟨.ctx, 0x95, [d]⟩ (fxTmget d)

/-- PRIO (R132). -/
def execPrio (a : Nat) (s : State) : Host.Outcome State Fault Refusal :=
  s.issueSlot ⟨.ctx, 0x96, [a]⟩ (fxPrio a)

/-- The meaning of a slot: scalar slots. -/
def seqFxScalar (op : Nat) (o : Nat → Nat) : SeqMeaning :=
  match op with
  | 0x0 => fxNop
  | 0x1 => fxMov (o 0) (o 1) (o 2)
  | 0x2 => fxMovi (o 0) (o 1) (o 2)
  | 0x3 => fxMovl (o 0) (o 1) (o 2)
  | 0x4 => fxMovlh (o 0) (o 1) (o 2)
  | 0x5 => fxMovlt (o 0) (o 1) (o 2)
  | 0x6 => fxAddi (o 0) (o 1) (o 2)
  | 0x8 => fxAdd (o 0) (o 1) (o 2) (o 3)
  | 0x9 => fxSub (o 0) (o 1) (o 2) (o 3)
  | 0xa => fxAnd (o 0) (o 1) (o 2) (o 3)
  | 0xb => fxOr (o 0) (o 1) (o 2) (o 3)
  | 0xc => fxXor (o 0) (o 1) (o 2) (o 3)
  | 0xd => fxAndn (o 0) (o 1) (o 2) (o 3)
  | 0xe => fxShl (o 0) (o 1) (o 2) (o 3)
  | 0xf => fxShr (o 0) (o 1) (o 2) (o 3)
  | 0x10 => fxSar (o 0) (o 1) (o 2) (o 3)
  | 0x11 => fxShli (o 0) (o 1) (o 2) (o 3)
  | 0x12 => fxShri (o 0) (o 1) (o 2) (o 3)
  | 0x13 => fxSari (o 0) (o 1) (o 2) (o 3)
  | 0x14 => fxMul (o 0) (o 1) (o 2) (o 3)
  | 0x15 => fxMulhu (o 0) (o 1) (o 2) (o 3)
  | 0x16 => fxMulhs (o 0) (o 1) (o 2) (o 3)
  | 0x17 => fxDivu (o 0) (o 1) (o 2) (o 3)
  | 0x18 => fxRemu (o 0) (o 1) (o 2) (o 3)
  | 0x19 => fxMin (o 0) (o 1) (o 2) (o 3)
  | 0x1a => fxMax (o 0) (o 1) (o 2) (o 3)
  | 0x1b => fxMinu (o 0) (o 1) (o 2) (o 3)
  | 0x1c => fxMaxu (o 0) (o 1) (o 2) (o 3)
  | 0x1d => fxClz (o 0) (o 1) (o 2)
  | 0x1e => fxPopc (o 0) (o 1) (o 2)
  | 0x1f => fxSel (o 0) (o 1) (o 2) (o 3)
  | 0x20 => fxCmpEq (o 0) (o 1) (o 2) (o 3)
  | 0x21 => fxCmpNe (o 0) (o 1) (o 2) (o 3)
  | 0x22 => fxCmpLt (o 0) (o 1) (o 2) (o 3)
  | 0x23 => fxCmpLe (o 0) (o 1) (o 2) (o 3)
  | 0x24 => fxCmpLtu (o 0) (o 1) (o 2) (o 3)
  | 0x25 => fxCmpLeu (o 0) (o 1) (o 2) (o 3)
  | 0x26 => fxTstb (o 0) (o 1) (o 2) (o 3)
  | 0x27 => fxPmov (o 0) (o 1) (o 2)
  | 0x28 => fxPand (o 0) (o 1) (o 2) (o 3)
  | 0x29 => fxPor (o 0) (o 1) (o 2) (o 3)
  | 0x2a => fxPxor (o 0) (o 1) (o 2) (o 3)
  | 0x2b => fxPandn (o 0) (o 1) (o 2) (o 3)
  | 0x2c => fxPtos (o 0) (o 1)
  | 0x2d => fxStop (o 0) (o 1)
  | 0x2e => fxLsetup (o 0) (o 1) (o 2) (o 3)
  | 0x30 => fxLdB (o 0) (o 1) (o 2) (o 3)
  | 0x31 => fxLdH (o 0) (o 1) (o 2) (o 3)
  | 0x32 => fxLdW (o 0) (o 1) (o 2) (o 3)
  | 0x33 => fxLdD (o 0) (o 1) (o 2) (o 3)
  | 0x34 => fxLdsW (o 0) (o 1) (o 2) (o 3)
  | 0x35 => fxStB (o 0) (o 1) (o 2) (o 3)
  | 0x36 => fxStH (o 0) (o 1) (o 2) (o 3)
  | 0x37 => fxStW (o 0) (o 1) (o 2) (o 3)
  | 0x38 => fxStD (o 0) (o 1) (o 2) (o 3)
  | _ => fxNone

/-- The meaning of a slot: next-address kinds. -/
def seqFxNa (op : Nat) (o : Nat → Nat) : SeqMeaning :=
  match op with
  | 0x0 => fxSeq
  | 0x1 => fxJmp (o 0)
  | 0x2 => fxBr (o 0) (decide (o 1 = 1)) (o 2)
  | 0x3 => fxCall (o 0)
  | 0x4 => fxRet
  | 0x5 => fxLend (o 0) (o 1)
  | 0x6 => fxTrap (o 0)
  | 0x7 => fxRft
  | 0x8 => fxHalt
  | 0x9 => fxIdle (o 0)
  | _ => fxNone

/-- The meaning of a slot: x slots. -/
def seqFxX (op : Nat) (o : Nat → Nat) : SeqMeaning :=
  match op with
  | 0x0 => fxXnop
  | 0x1 => fxBcast (o 0) (o 1)
  | 0x2 => fxLit
  | 0x3 => fxK28 (o 0)
  | 0x5 => fxWaits (o 0) (o 1)
  | 0x6 => fxRed (o 0) (o 1) (o 2) (o 3) (o 4) (o 5)
  | 0xa => fxFeat (o 0) (o 1)
  | _ => fxNone

/-- The meaning of a slot: mem operations. -/
def seqFxMem (op : Nat) (o : Nat → Nat) : SeqMeaning :=
  match op with
  | 0x80 => fxLdgB (ordOf (o 0)) (scopeOf (o 1)) (o 2) (o 3) (o 4)
  | 0x81 => fxLdgH (ordOf (o 0)) (scopeOf (o 1)) (o 2) (o 3) (o 4)
  | 0x82 => fxLdgW (ordOf (o 0)) (scopeOf (o 1)) (o 2) (o 3) (o 4)
  | 0x83 => fxLdgD (ordOf (o 0)) (scopeOf (o 1)) (o 2) (o 3) (o 4)
  | 0x84 => fxStgB (ordOf (o 0)) (scopeOf (o 1)) (o 2) (o 3) (o 4)
  | 0x85 => fxStgH (ordOf (o 0)) (scopeOf (o 1)) (o 2) (o 3) (o 4)
  | 0x86 => fxStgW (ordOf (o 0)) (scopeOf (o 1)) (o 2) (o 3) (o 4)
  | 0x87 => fxStgD (ordOf (o 0)) (scopeOf (o 1)) (o 2) (o 3) (o 4)
  | 0x88 => fxAfadd (ordOf (o 0)) (scopeOf (o 1)) (o 2) (o 3) (o 4) (o 5)
  | 0x89 => fxAmin (ordOf (o 0)) (scopeOf (o 1)) (o 2) (o 3) (o 4) (o 5)
  | 0x8a => fxAmax (ordOf (o 0)) (scopeOf (o 1)) (o 2) (o 3) (o 4) (o 5)
  | 0x8b => fxAand (ordOf (o 0)) (scopeOf (o 1)) (o 2) (o 3) (o 4) (o 5)
  | 0x8c => fxAor (ordOf (o 0)) (scopeOf (o 1)) (o 2) (o 3) (o 4) (o 5)
  | 0x8d => fxAxor (ordOf (o 0)) (scopeOf (o 1)) (o 2) (o 3) (o 4) (o 5)
  | 0x8e => fxAswap (ordOf (o 0)) (scopeOf (o 1)) (o 2) (o 3) (o 4) (o 5)
  | 0x8f => fxAcas (ordOf (o 0)) (scopeOf (o 1)) (o 2) (o 3) (o 4) (o 5)
  | 0x90 => fxAmaxf (ordOf (o 0)) (scopeOf (o 1)) (o 2) (o 3) (o 4)
  | 0x91 => fxMemAmaxrr (ordOf (o 0)) (scopeOf (o 1)) (o 2) (o 3) (o 4)
  | 0x92 => fxMemFence (ordOf (o 0)) (scopeOf (o 1)) (o 2)
  | 0x93 => fxMemLdref (ordOf (o 0)) (scopeOf (o 1)) (o 2) (o 3) (o 4) (o 5)
  | 0x94 => fxMemStref (ordOf (o 0)) (scopeOf (o 1)) (o 2) (o 3) (o 4) (o 5)
  | 0x95 => fxMemPin (ordOf (o 0)) (scopeOf (o 1)) (o 2) (o 3) (o 4)
  | 0x96 => fxMemUnpin (ordOf (o 0)) (scopeOf (o 1)) (o 2) (o 3)
  | 0x97 => fxMemLdr (ordOf (o 0)) (scopeOf (o 1)) (o 2) (o 3) (o 4) (o 5)
  | 0x98 => fxMemStr (ordOf (o 0)) (scopeOf (o 1)) (o 2) (o 3) (o 4) (o 5)
  | 0x99 => fxMemJraise (ordOf (o 0)) (scopeOf (o 1)) (o 2) (o 3) (o 4)
  | 0x9a => fxMemJdone (ordOf (o 0)) (scopeOf (o 1)) (o 2) (o 3)
  | _ => fxNone

/-- The meaning of a slot: engine commands. -/
def seqFxEng (op : Nat) (o : Nat → Nat) : SeqMeaning :=
  match op with
  | 0x38 => fxEngCpy (o 0) (o 1) (decide (o 2 = 1)) (decide (o 3 = 1)) (scopeOf (o 4)) (o 5)
  | 0x39 => fxEngInstall (o 0) (o 1) (decide (o 2 = 1)) (decide (o 3 = 1)) (scopeOf (o 4)) (o 5)
  | 0x3a => fxEngReloc (o 0) (o 1) (decide (o 2 = 1)) (decide (o 3 = 1)) (scopeOf (o 4)) (o 5)
  | 0x3b => fxMbxsend (o 0) (o 1) (decide (o 2 = 1)) (decide (o 3 = 1)) (scopeOf (o 4)) (o 5)
  | 0x3c => fxEnq (o 0) (o 1) (decide (o 2 = 1)) (decide (o 3 = 1)) (scopeOf (o 4)) (o 5)
  | 0x3d => fxPodsend (o 0) (o 1) (decide (o 2 = 1)) (decide (o 3 = 1)) (scopeOf (o 4)) (o 5)
  | 0x3e => fxCtxstart (o 0) (o 1) (decide (o 2 = 1)) (decide (o 3 = 1)) (scopeOf (o 4)) (o 5)
  | 0x3f => fxCtxsave (o 0) (o 1) (decide (o 2 = 1)) (decide (o 3 = 1)) (scopeOf (o 4)) (o 5)
  | _ => fxNone

/-- The meaning of a slot: csr accesses. -/
def seqFxCsr (op : Nat) (o : Nat → Nat) : SeqMeaning :=
  match op with
  | 0x20 => fxCsrr (o 0) (o 1)
  | 0x21 => fxCsrw (o 0) (o 1)
  | 0x22 => fxCsrs (o 0) (o 1) (o 2)
  | 0x23 => fxCsrc (o 0) (o 1) (o 2)
  | _ => fxNone

/-- The meaning of a slot: context registers and feat. -/
def seqFxCtx (op : Nat) (o : Nat → Nat) : SeqMeaning :=
  match op with
  | 0x90 => fxDmset (o 0)
  | 0x91 => fxDmget (o 0)
  | 0x92 => fxCmset (o 0)
  | 0x93 => fxCmget (o 0)
  | 0x94 => fxTmand (o 0)
  | 0x95 => fxTmget (o 0)
  | 0x96 => fxPrio (o 0)
  | _ => fxNone

/-- The meaning of a decoded slot. -/
def seqFx (r : Raw) : SeqMeaning :=
  let o := fun (i : Nat) => r.ops.getD i 0
  match r.kind with
  | .scalar => seqFxScalar r.op o
  | .na => seqFxNa r.op o
  | .x => seqFxX r.op o
  | .mem => seqFxMem r.op o
  | .eng => seqFxEng r.op o
  | .csr => seqFxCsr r.op o
  | .ctx => seqFxCtx r.op o
  | _ => fxNone

end Sys2Proof.Machine
end

