-- ==== Sys2Proof/Machine/Issue.lean ====
section
/-! DEFINITION. The steps that issue: the merge stage (R36 to R38), a word of the control store (R42), the frames of
the broadcast tree (R26, R328), a bundle of a decode queue (R63), and the ends of waits (R125, R402). -/

namespace Sys2Proof.Machine

/-- A step that cannot happen now. (Log entry 7: DESIGN CHOICE.) -/
def notNow (why : String) : Host.Outcome State Fault Refusal := .refused (.notEnabled why)

/-! ## Words -/

/-- The 128 bits of the word at a context's PC; the Atelier fetches from its own SRAM (R448). -/
def State.wordBits (s : State) (c : Nat) : Nat :=
  mapGet 0 (if c = ateIdx then s.aram else s.cstore) (s.rc c).core.pc.toNat

/-- The X slot of the word at a context's PC; XNOP where it does not decode. -/
def State.nextX (s : State) (c : Nat) : Raw :=
  match decodeX (fld (s.wordBits c) 0 32) with
  | .ok x => x
  | .error _ => .xnop

/-- The slot of an undecodable word: the first illegal field in the order NA, S0, S1, X. -/
def illegalSlot (w : Nat) : Nat :=
  let lit := match decodeX (fld w 0 32) with | .ok x => x.literal | .error _ => some 0
  if !(decodeRaw .na none (fld w 96 32)).isOk then slNA
  else if !(decodeRaw .scalar lit (fld w 64 32)).isOk then slS0
  else if !(decodeRaw .scalar lit (fld w 32 32)).isOk then slS1
  else slX

/-- Issues decoded bits as a word of context c. -/
def State.issueBits (s : State) (c w : Nat) : Host.Outcome State Fault Refusal :=
  match decodeWord w with
  | .error _ => s.illegalWord c (illegalSlot w) (match decodeX (fld w 0 32) with | .ok x => x | .error _ => .xnop)
  | .ok x => s.issueWord c ⟨x.s0, slS0, seqFx x.s0⟩ ⟨x.s1, slS1, seqFx x.s1⟩ ⟨x.x, slX, seqFx x.x⟩ ⟨x.na, slNA, seqFx x.na⟩

/-- WORD_ISSUE (R42): context c issues the word at its PC; 16 is the Atelier. -/
def execWordIssue (c : Nat) (s : State) : Host.Outcome State Fault Refusal :=
  if ateIdx < c then .fault (.noUnit "context record") else s.issueBits c (s.wordBits c)

/-- WAITS_SATISFIED (R401): the word held on WAITS issues. -/
def execWaitsSatisfied (c : Nat) (s : State) : Host.Outcome State Fault Refusal :=
  if ateIdx < c then .fault (.noUnit "context record")
  else if s.asleep then notNow "the clocks of the dies and the networks stand"
  else if (s.rc c).life ≠ .waiting .waits then notNow "the context does not wait on WAITS"
  else if !waitsHolds (s.rc c).core (s.nextX c) then notNow "the WAITS condition does not hold"
  else (s.updRec c (fun r => { r with life := .ready })).issueBits c (s.wordBits c)

/-- IDLE_RESUME (R125, R322): the mailbox holds a message. -/
def execIdleResume (c : Nat) (s : State) : Host.Outcome State Fault Refusal :=
  if 16 ≤ c then .fault (.noUnit "context record")
  else
    match (s.rc c).life with
    | .waiting (.idle m) => if (s.mbx.getD c 0).getLsbD m then .next (s.resumeIdle c m) else notNow "the mailbox is empty"
    | _ => notNow "the context does not wait on IDLE"

/-! ## The merge stage -/

/-- A WAITING context becomes READY when its condition clears, a READY one whose word cannot be taken WAITING (R18). -/
def State.refresh (s : State) (c : Nat) : State :=
  let r := s.rc c
  let x := s.nextX c
  let now : Life := if r.seqFlag.isSome then .ready else if !waitsHolds r.core x then .waiting .waits else if broadcasts x && !r.credit s.clk then .waiting r.creditWait else .ready
  match r.life with
  | .ready | .waiting .waits | .waiting .credit | .waiting .bar => s.setRec c { r with life := now }
  | _ => s

/-- The largest decode-queue occupancy over the dies of a context's field (R29). -/
def Rec.occupancy (r : Rec) : Nat := (r.field.dies.map (fun d => (r.die d).q.length)).foldl max 0

/-- One cycle of a resident context: a sample leaves the dies, one of 36 cycles ago is at the sequencer, the profile
counters advance (R29, R117). -/
def Rec.cycle (r : Rec) (clk : Nat) : Rec :=
  let late := 36 ≤ r.occFlight.length
  let waiting := match r.life with | .waiting _ => true | _ => false
  { r with occ := if late then r.occFlight.headD 0 else r.occ
           occFlight := (if late then r.occFlight.drop 1 else r.occFlight) ++ [r.occupancy]
           sent := r.sent.filter (fun p => decide (clk ≤ p.1 + 71))
           cycres := r.cycres + 1
           waitcyc := if waiting then r.waitcyc + 1 else r.waitcyc
           creditcyc := if r.life = .waiting .credit ∨ r.life = .waiting .bar then r.creditcyc + 1 else r.creditcyc }

/-- A candidate of a merge cycle: context, effective priority, wait count, residency slot. -/
structure Cand where
  c : Nat
  eff : Nat
  waits : Nat
  slot : Nat

/-- a goes before b (R37). -/
def Cand.before (a b : Cand) : Bool :=
  decide (a.eff < b.eff) || (a.eff == b.eff && (decide (b.waits < a.waits) || (a.waits == b.waits && decide (a.slot < b.slot))))

/-- Puts a candidate in its place in an ordered list. -/
def Cand.insert (a : Cand) : List Cand → List Cand
  | [] => [a]
  | b :: bs => if a.before b then a :: b :: bs else b :: Cand.insert a bs

/-- The ready contexts, best first (R36, R37). -/
def State.readyList (s : State) : List Cand :=
  ((List.range 16).filterMap (fun c =>
    let r := s.rc c
    match r.slot with
    | some k =>
      if r.life = .ready ∧ !(broadcasts (s.nextX c) && decide (0 < s.litBusy)) then
        some { c := c, eff := if r.waitCnt = 4096 then 0 else r.core.prio.toNat, waits := r.waitCnt, slot := k : Cand }
      else none
    | none => none)).foldl (fun l a => a.insert l) []

/-- The slots a BCAST's bundle occupies. -/
def State.bcastSlots (s : State) (c : Nat) (x : Raw) : Nat := slotsUsed ((s.rc c).bundleBits (x.ops.getD 1 0) none)

/-- mergeable(a, b) (R38). -/
def State.mergeable (s : State) (a b : Nat) : Bool :=
  let x := s.nextX a
  let y := s.nextX b
  let lit := fun (z : Raw) => z.kind == .x && z.op == 2
  match broadcasts x, broadcasts y with
  | false, false => true
  | true, false => !lit x
  | false, true => !lit y
  | true, true =>
    !lit x && !lit y
      && ((s.rc a).field.dies.all (fun d => !(s.rc b).field.dies.contains d) || (s.bcastSlots a x &&& s.bcastSlots b y) == 0)

/-- The contexts a merge cycle issues, at most two. -/
def State.picks (s : State) : List Nat :=
  match s.readyList with
  | [] => []
  | a :: rest =>
    match rest.find? (fun b => s.mergeable a.c b.c) with
    | some b => [a.c, b.c]
    | none => [a.c]

/-- An engine holds or runs a command. -/
def Engine.working (y : Engine) : Bool := !y.queue.isEmpty || y.running.isSome

/-- The device is idle (R466). Host requests end in the step in which they are made. -/
def State.isIdle (s : State) : Bool :=
  (List.range 16).all (fun c => let r := s.rc c
    r.slot.isNone || r.life == .halted || (match r.life with | .waiting (.idle _) => true | _ => false))
  && s.armq.all (fun q => q.isEmpty) && s.armRun.all (fun m => m.isNone)
  && s.dies.all (fun x => !(x.copy0.working || x.copy1.working || x.copy2.working || x.copy3.working || x.pge.working || x.kiln.working))
  && !s.fw.busy && s.qslots.all (fun q => !tbit q.qa 62)

/-- The cycles for which the device has been idle; they count on while it sleeps (R466). -/
def State.countIdle (s : State) : State :=
  if s.asleep && !s.waking then { s with idleNs := s.idleNs + 1 }
  else { s with idleNs := if s.isIdle then s.idleNs + 1 else 0 }

/-- A frame has been on its way for 36 cycles and has not arrived (R26, R328). -/
def State.frameDue (s : State) : Bool :=
  (List.range 16).any (fun c => (s.rc c).slot.isSome && (s.rc c).field.dies.any (fun d =>
    match (s.dctx c d).frames with | f :: _ => decide (f.1 + 36 ≤ s.clk) | [] => false))

/-- The arrivals of the present cycle: every frame sent 36 cycles ago. -/
def State.arrivals (s : State) : List Instr :=
  (List.range 16).flatMap (fun c =>
    if (s.rc c).slot.isNone then []
    else (s.rc c).field.dies.flatMap (fun d =>
      ((s.dctx c d).frames.filter (fun f => decide (f.1 + 36 ≤ s.clk))).map (fun _ => Instr.broadcastFrameArrival c d)))

/-- MERGE_CYCLE (R37): the clock of the merge stage advances, waits are looked at, and the words it picks are the next
steps, after the arrivals of the frames that are due in the new cycle. No cycle begins before those of the last one have
arrived (R26). (Log entry 42: DESIGN CHOICE.) (Log entry 66: DESIGN CHOICE.) -/
def execMergeCycle (s : State) : Host.Outcome State Fault Refusal :=
  if s.asleep = true then .next { s with clk := s.clk + 1, litBusy := s.litBusy - 1 }.countIdle
  else if s.frameDue = true then notNow "a frame is due at a die"
  else
    let s := { s with clk := s.clk + 1, litBusy := s.litBusy - 1 }.countIdle
    let res := (List.range 16).filter (fun c => (s.rc c).slot.isSome)
    let s := res.foldl (fun (s : State) c => s.updRec c (fun r => r.cycle s.clk)) s
    let s := res.foldl State.refresh s
    let ready := s.readyList
    let now := s.picks
    let s := ready.foldl (fun (s : State) a => s.updRec a.c (fun r =>
      { r with waitCnt := if now.contains a.c then 0 else min (r.waitCnt + 1) 4096 })) s
    .next { s with agenda := s.arrivals ++ now.map Instr.wordIssue ++ s.agenda }

/-- OCCUPANCY_REPORT (R29): the oldest sample reaches the sequencer, 36 cycles after it was taken. -/
def execOccupancyReport (c : Nat) (s : State) : Host.Outcome State Fault Refusal :=
  if 16 ≤ c then .fault (.noUnit "context record")
  else if s.asleep then notNow "the clocks of the dies and the networks stand"
  else if (s.rc c).occFlight.length < 36 then notNow "no report arrives"
  else .next (s.updRec c (fun r => { r with occ := r.occFlight.headD 0, occFlight := r.occFlight.drop 1 }))

/-! ## Frames -/

/-- The notice of a sequencer effect word's mark reaches a die (R422): the die stands at it, or will; the counts of R427 start
again there. -/
def DieCtx.noticeMark (x : DieCtx) (m : BitVec 48) : DieCtx :=
  if x.passed = m ∨ x.atMark = some m then x
  else if x.e - 1 = m then
    let x := { x with sinceMark := 0, sinceStores := 0 }
    if x.dly = 0 then { x with atMark := some m } else { x with dlyMark := true }
  else { x with markAsk := x.markAsk ++ [m] }

/-- The reduction still stands and samples this die (R333). -/
def State.samples (s : State) (c d id : Nat) : Bool :=
  (s.rc c).reqs.any (fun q => q.id == id && (match q.body with | .red _ _ _ _ _ dies _ _ => dies.contains d | _ => false))

/-- BROADCAST_FRAME_ARRIVAL (R26, R328): the oldest item of a context on its way to a die arrives, 36 cycles after it was
sent. -/
def execBroadcastFrameArrival (c d : Nat) (s : State) : Host.Outcome State Fault Refusal :=
  if 16 ≤ c ∨ 32 ≤ d then .fault (.noUnit "context record or die")
  else if s.asleep then notNow "the clocks of the dies and the networks stand"
  else
    match (s.dctx c d).frames with
    | [] => notNow "no frame is on its way"
    | (sent, f) :: fs =>
      if s.clk < sent + 36 then notNow "the frame is still on its way"
      else .next (s.updDctx c d (fun x =>
        let x := { x with frames := fs }
        match f with
        | .bundle e => { x with q := x.q ++ [e] }
        | .red id => if s.samples c d id then { x with redAsk := x.redAsk ++ [id] } else x
        | .mark m => x.noticeMark m))

/-! ## Bundles -/

/-- The slots of a decoded bundle, in order. -/
def bundleSlotsOf (b : Bundle) : List BSlot :=
  ([b.v0, b.v1, b.mx, b.ls, b.xf, b.ct].zipIdx).filterMap (fun p => p.1.map (fun r => { raw := r, no := p.2, fx := cellFxOf r }))

/-- One repetition of the head of a decode queue is done. -/
def popBundle : List QEntry → List QEntry
  | [] => []
  | e :: es => if e.reps ≤ 1 then es else { e with reps := e.reps - 1, inn := e.inn + 1 } :: es

/-- The slots of a queued bundle; none where it does not decode. -/
def Rec.entrySlots (r : Rec) (e : QEntry) : List Raw :=
  match decodeBundle (r.bundleBits e.idx e.lit) with
  | .ok b => [b.v0, b.v1, b.mx, b.ls, b.xf, b.ct].filterMap id
  | .error _ => []

/-- The head bundle leaves its queue, unless it waits there. A bundle that has faulted leaves too: the rollback discards
the queue (R428). The die notes the cycle and the slots that the bundle occupied (R28). -/
def State.takenHead (s : State) (c d used : Nat) : State :=
  if (s.dctx c d).hold = some .wait ∨ (s.dctx c d).hold = some .waitf then s
  else s.updDctx c d (fun y => { y with q := popBundle y.q, cycAt := s.clk + 1, cycSlots := used })

/-- The slots that a queued bundle occupies (R28). -/
def Rec.entryUsed (r : Rec) (e : QEntry) : Nat := slotsUsed (r.bundleBits e.idx e.lit)

/-- The head bundle of a context at a die, if nothing but another context could keep it from issuing. -/
def State.headReady (s : State) (c d : Nat) : Option QEntry :=
  let r := s.rc c
  match s.cannotBundle c d, (s.dctx c d).q with
  | none, e :: _ =>
    let cells := activeCells r d e.diemask e.cellmask
    if (s.dctx c d).cycAt ≠ s.clk + 1 && roomFor r d e.inn cells (r.entrySlots e) && s.mxRoom c d cells (r.entrySlots e) then some e else none
  | _, _ => none

/-- The other contexts whose field holds a die. -/
def State.othersAt (s : State) (c d : Nat) : List Nat :=
  (List.range 16).filter (fun k => k != c && (s.rc k).slot.isSome && (s.rc k).field.dies.contains d)

/-- Why the head bundle of context c must let this cycle of die d pass (R28): the context, or two others, have issued in
it, a slot it needs is taken, or a bundle that entered its queue earlier needs one of its slots. -/
def State.mustYield (s : State) (c d : Nat) (e : QEntry) : Option String :=
  let used := (s.rc c).entryUsed e
  let others := s.othersAt c d
  let issued := others.filter (fun k => (s.dctx k d).cycAt == s.clk + 1)
  if (s.dctx c d).cycAt = s.clk + 1 then some "the context has issued in this cycle"
  else if 2 ≤ issued.length ∨ issued.any (fun k => (s.dctx k d).cycSlots &&& used != 0) = true then some "the slots of this cycle are taken"
  else if others.any (fun k => match s.headReady k d with
      | some g => decide (g.no < e.no) && (s.rc k).entryUsed g &&& used != 0
      | none => false) = true then some "a bundle that entered earlier goes first"
  else none

/-- The head bundle of a decode queue is decoded and issued. -/
def State.issueHead (s : State) (c d : Nat) : Host.Outcome State Fault Refusal :=
  match s.cannotBundle c d with
  | some why => notNow why
  | none =>
    let x := s.dctx c d
    match x.q with
    | [] => notNow "the decode queue is empty"
    | e :: _ =>
      match s.mustYield c d e with
      | some why => notNow why
      | none =>
        let used := (s.rc c).entryUsed e
        match decodeBundle ((s.rc c).bundleBits e.idx e.lit) with
        | .error _ => .next ((s.dieFault c d x.e (cILLBUNDLE, 0, noInfo)).takenHead c d used)
        | .ok b =>
          match s.issueBundle c d x.e e.diemask e.cellmask (bundleSlotsOf b) with
          | .next s' => .next (s'.takenHead c d used)
          | o => o

/-- BUNDLE_ISSUE (R63): die d takes the head bundle of context c. -/
def execBundleIssue (c d : Nat) (s : State) : Host.Outcome State Fault Refusal :=
  if 16 ≤ c ∨ 32 ≤ d then .fault (.noUnit "context record or die") else s.issueHead c d

/-- The end of a wait: the bundle at the head of the queue issues, if its condition holds now. -/
def State.endWait (s : State) (c d : Nat) (h : Hold) : Host.Outcome State Fault Refusal :=
  if 16 ≤ c ∨ 32 ≤ d then .fault (.noUnit "context record or die")
  else if s.asleep then notNow "the clocks of the dies and the networks stand"
  else if (s.dctx c d).hold ≠ some h then notNow "the die does not wait so"
  else
    match (s.updDctx c d (fun x => { x with hold := none })).issueHead c d with
    | .next s' => if (s'.dctx c d).hold = some h then notNow "the condition does not hold" else .next s'
    | o => o

/-- WAIT_SATISFIED (R402). -/
def execWaitSatisfied (c d : Nat) (s : State) : Host.Outcome State Fault Refusal := s.endWait c d .wait

/-- WAITF_SATISFIED (R403). -/
def execWaitfSatisfied (c d : Nat) (s : State) : Host.Outcome State Fault Refusal := s.endWait c d .waitf

/-! ## Positions without an issue -/

/-- One position of a delay passes at a die (R404); the last one may be a mark (R422). -/
def DieCtx.delayed (x : DieCtx) : DieCtx :=
  { x.passCells (x.e - 1) (fun _ => true) with
           dly := x.dly - 1
           atMark := if x.dly = 1 ∧ x.dlyMark then some (x.e - 1) else x.atMark
           dlyMark := x.dlyMark && decide (x.dly ≠ 1) }

/-- FIXED_LATENCY_LAND (R82, R85): at a die, a position of a delay ends; at the sequencer, the results in flight of a
context that is frozen for a trap land before it is taken. -/
def execFixedLatencyLand (c : Nat) (die : Option Nat) (s : State) : Host.Outcome State Fault Refusal :=
  if 16 ≤ c then .fault (.noUnit "context record")
  else
    match die with
    | none =>
      let stops := match (s.rc c).life with | .frozen (.brk ..) => true | _ => false
      if stops && !(s.rc c).core.fly.isEmpty then .next (s.updSeq c SeqCore.endPos)
      else notNow "no position ends without an issue"
    | some d =>
      if 32 ≤ d then .fault (.noUnit "die")
      else if (s.dctx c d).dly = 0 then notNow "no delay is passing"
      else
        match (s.updDctx c d (fun x => { x with dly := 0, e := x.e - 1, redAsk := [] })).cannotBundle c d with
        | some why => notNow why
        | none => .next (s.updDctx c d DieCtx.delayed)

end Sys2Proof.Machine
end

