-- ==== Sys2Proof/Machine/Perform.lean ====
section
/-! DEFINITION. Performing long-latency operations: their order (R307 to R310, R426, R493), what each does when it is
performed, the landing of its result (R396) and the posting of its token (R13, R399, R400). -/

namespace Sys2Proof.Machine

/-! ## Events an access raises late -/

/-- A die flags a fault; of several it keeps the one with the smallest IN (R421). -/
def DieCtx.raise (x : DieCtx) (f : Flag) : DieCtx :=
  { x with flag := match x.flag with
      | none => some f
      | some g => if !x.flagSent && decide (inDiff f.ein g.ein < 0) then some f else some g }

/-- A fault of an operation that has been issued: a cell's die flags it, and where its mark has committed it counts at
the IN the die has reached (R421); the sequencer takes it before its next word; the Atelier stops (R450).
(Log entry 53: DEDUCED.) -/
def State.lateFault (s : State) (c : Nat) (q : Req) (f : FInfo) : State :=
  match q.org with
  | some (d, _) =>
    s.updDctx c d (fun x => x.raise
      { code := f.1, detail := f.2.1, info := f.2.2, ein := q.ein, noRollback := false, die := d, xpc := 0
        at_ := if inDiff q.ein (s.rc c).cf ≤ 0 then x.e else q.ein })
  | none =>
    if c = ateIdx then s.stopAtelier
    else s.updRec c (fun r => { r with
      life := match r.life with | .waiting _ => .ready | x => x
      seqFlag := some { code := f.1, detail := f.2.1, info := f.2.2, ein := q.ein, at_ := q.ein, noRollback := false, die := 0xFF, xpc := q.pc } })

/-- A remote atomic that matches a watchpoint at its home is reported (R443), unless it matched at issue. -/
def State.watchRemote (s : State) (c : Nat) (q : Req) (p : Part) : State :=
  let t := s.reroute (s.rc c).pasid.toNat p.tgt
  let own := match q.org with | some (d, _) => d | none => 32
  let atIssue := match q.org with | some (d, _) => ((s.watches c d).hit (fun _ => true) p.tgt.va p.n).isSome | none => false
  if atIssue then s else s.remoteMatch c own ((s.rc c).reporter q).2 q.ein t.key p.tgt.va p.n

/-! ## What an operation does when it is performed -/

/-- The accesses of a cell's operation, in order: each load or old value by its unit; none at an uncorrectable error.
(Log entry 59: DESIGN CHOICE.) -/
def State.cellParts (s : State) (c d l : Nat) (q : Req) (path : Path) : List Part → State × Option (List (Nat × Nat))
  | [] => (s, some [])
  | p :: ps =>
    let (s, v) := match p.op with
      | .load => s.cellRead c d l q.id path p.tgt p.n 0 false q.again
      | .store => (s.cellWrite c d l path p.tgt p.n p.val, some 0)
      | .rmw f =>
        let pasid := (s.rc c).pasid.toNat
        let t := s.reroute pasid p.tgt
        let r := (s.writeBackAt c d l t.key p.n).rmwT pasid p.tgt p.n f p.val
        (r.1.watchRemote c q p, r.2)
    match v with
    | none => (s, none)
    | some v =>
      match State.cellParts s c d l q path ps with
      | (s, none) => (s, none)
      | (s, some vs) => (s, some (if p.op = .store then vs else (p.lane, v) :: vs))

/-- The accesses of a sequencer's operation. The Atelier reaches MMIO pages with its own rights (R455). -/
def State.seqParts (s : State) (c : Nat) (q : Req) : List Part → State × Option (List (Nat × Nat))
  | [] => (s, some [])
  | p :: ps =>
    let pasid := (s.rc c).pasid.toNat
    let (s, v) :=
      if c = ateIdx ∧ p.tgt.cls = clsMMIO then
        match p.op with
        | .load => (s, some (s.mmioRead 0 true p.tgt.key p.n))
        | _ => (s.mmioWrite 0 true p.tgt.key p.n p.val, some 0)
      else
        let r := s.part pasid p
        (match p.op with | .rmw _ => r.1.watchRemote c q p | _ => r.1, r.2)
    match v with
    | none => (s, none)
    | some v =>
      match State.seqParts s c q ps with
      | (s, none) => (s, none)
      | (s, some vs) => (s, some (if p.op = .store then vs else (p.lane, v) :: vs))

/-- The dies of a field in the order of R39, from a die on. -/
def Rec.diesFrom (r : Rec) (d : Nat) : List Nat :=
  let i := r.field.fidx d
  r.field.dies.drop i ++ r.field.dies.take i

/-- TAKE (R407): the next ticket, by the dies in order. -/
def State.takeTicket (s : State) (c n : Nat) : List Nat → State × Nat
  | [] => (s, 0x8000000000000000)
  | g :: gs =>
    let w := mapGet 0 (s.dctx c g).tc n
    let v := bitsOf w 0 32
    if v < bitsOf w 32 32 then
      (s.updDctx c g (fun x => { x with tc := mapSet 0 x.tc n (w + 1) }), (s.rc c).field.fidx g * 2 ^ 32 + v)
    else State.takeTicket s c n gs

/-- The lines of a cache that go with the ways that leave it, when its ways become `new` from `old` (R241): which way a
line lies in is free, and at most `new` lines of a set stay. (Log entry 24: DESIGN CHOICE.) -/
def leavingLines (old new : Nat) : Nat → List Nat → List Nat → List Nat
  | _, _, [] => []
  | i, kept, x :: xs =>
    let full := decide (new ≤ (kept.filter (fun k => Config.nearSet k % 512 == Config.nearSet x % 512)).length)
    if full || decide (new ≤ Config.nearVictim i % old) then x :: leavingLines old new (i + 1) kept xs
    else leavingLines old new (i + 1) (x :: kept) xs

/-- Ways leave the cache: their dirty lines are written back, and they hold no line any more. -/
def State.shrinkNear (s : State) (c d l old new : Nat) : State :=
  let ls := (s.cell c d l).lines.map Prod.fst
  (leavingLines old new s.freeCtr [] ls).foldl (fun (s : State) x => s.dropLine c d l x) { s with freeCtr := s.freeCtr + ls.length }

/-- RESIZE when it is performed (R241): ways that leave the cache join scratch zeroed and full, ways that leave scratch
lose their contents. -/
def State.resizeWays (s : State) (c d l old new : Nat) : State :=
  let ways := (s.rc c).win.ways
  let lo := (ways - max old new) * 65536
  let hi := (ways - min old new) * 65536
  let s := if new < old then s.shrinkNear c d l old new else s
  let s := { s with mem := memClear s.mem (nearKey c d l + lo) (hi - lo), poison := s.poison.filter (fun p =>
    decide (p.1 * 128 < nearKey c d l + lo ∨ nearKey c d l + hi ≤ p.1 * 128)) }
  s.updCell c d l (fun y => { y with empty := y.empty.filter (fun ln => decide (128 * ln < lo ∨ hi ≤ 128 * ln)) })

/-- The source of a pattern's entry: die of the field, or GIDX of the group (R375, R376). -/
def patternSrc (tab : List (Nat × Nat × Nat)) (p i : Nat) : Option Nat :=
  (tab.find? (fun x => x.1 == p && x.2.1 == i)).map (fun x => x.2.2)

/-- The sending die of a receiving die (R340). -/
def Rec.srcDie (r : Rec) (pat d : Nat) : Option Nat :=
  (patternSrc r.routes pat (r.field.fidx d)).map (fun f => r.field.dies.getD f 0)

/-- The sending cell of a CSHUF: none where the receiver keeps its register; some none where it lies outside the group. -/
def Rec.srcCell (r : Rec) (pat l : Nat) : Option (Option Nat) :=
  (patternSrc r.cells pat (r.group.gidx l)).map (fun g => r.group.cells[g]?)

/-- A die stands at a PHASE.C. -/
def DieCtx.closing (x : DieCtx) : Bool := x.hold == some .phase && !x.phaseOpen

/-- Lanes received from what a cell has sent, 0 where it has sent nothing. -/
def lanesOf (x : Option Sent) (lanes : List Nat) : List (Nat × Nat) :=
  lanes.map (fun i => (i, match x with | some y => ((y.vals.find? (fun v => v.1 == i)).map Prod.snd).getD 0 | none => 0))

/-- Received bytes land in scratch, of the size it had when the RECV was issued: their lines are full, those beyond it are
discarded and counted (R241, R341). -/
def State.deliver (s : State) (c d l a size : Nat) (bs : List (BitVec 8)) : State :=
  let keep := bs.take (size - a)
  let s := s.pokes (nearKey c d l + a) keep
  let s := s.updCell c d l (fun y => { y with empty := (List.range ((keep.length + 127) / 128)).foldl (fun em i => setLine true (a / 128 + i) em) y.empty })
  s.updDctx c d (fun x => { x with discards := x.discards + (bs.length - keep.length) })

/-- Bytes of scratch as the cell sees them in the place of operation `before` (R240, R341). -/
def State.scratchBytes (s : State) (c d l before a n : Nat) : List (BitVec 8) :=
  let own := ((s.rc c).ownBefore d l before).flatMap (fun q => s.storeBytes 0 q)
  (List.range n).map (fun i => (lastWrite (nearKey c d l + a + i) own).getD (memGet s.mem (nearKey c d l + a + i)))

/-- The bytes of an XMIT are read out: what the cell has sent is complete. -/
def DieCtx.readOut (x : DieCtx) (ein : BitVec 48) (l : Nat) (bs : List (BitVec 8)) : DieCtx :=
  { x with sent := x.sent.map (fun y => if y.op == 5 && y.ein == ein && y.cell == l then { y with op := 2, bytes := bs } else y) }

/-- What an operation yields: not now, or the state with the values and flags that land, or a fault met late. -/
abbrev Done := Option (State × Except FInfo (List (Nat × Nat) × Nat))

/-- A transfer (R341). -/
def State.doXfer (s : State) (c d l : Nat) (q : Req) (op pat ord : Nat) (lanes : List Nat) (a n : Nat) : Done :=
  let r := s.rc c
  match op with
  | 1 =>
    match r.srcDie pat d with
    | none => some (s, .ok ([], 0))
    | some g =>
      let x := r.die g
      if x.perms ≤ ord then none
      else some (s, .ok (lanesOf (x.sent.find? (fun y => y.op == 1 && y.ord == ord && y.cell == l)) lanes, 0))
  | 2 =>
    if (List.range (n / 128)).any (fun i => s.bad (nearKey c d l + a + 128 * i)) then
      some (s.updDctx c d (fun x => x.readOut q.ein l []), .error (cECC, 0, noInfo))
    else some (s.updDctx c d (fun x => x.readOut q.ein l (s.scratchBytes c d l q.id a n)), .ok ([], 0))
  | 4 =>
    match r.srcCell pat l with
    | none => some (s, .ok ([], 0))
    | some src =>
      let y : Option Sent := match src with
        | some k => (r.die d).sent.find? (fun (y : Sent) => y.op == 4 && y.ein == q.ein && y.cell == k)
        | none => none
      some (s, .ok (lanesOf y lanes, 0))
  | _ =>
    let sent : Option Sent := match r.srcDie pat d with
      | some g => (r.die g).sent.find? (fun (y : Sent) => y.op == 2 && y.pat == pat && y.ord == ord && y.cell == l)
      | none => none
    let never : Bool := match r.srcDie pat d with
      | some g => (r.die g).closing && !(r.die g).sent.any (fun y => y.op == 5 && y.pat == pat && y.ord == ord && y.cell == l)
      | none => true
    match sent with
    | some y =>
      if y.bytes.isEmpty ∧ !(r.die d).closing then none else some (s.deliver c d l a n y.bytes, .ok ([], 0))
    | none => if never ∧ (r.die d).closing then some (s, .ok ([], 0)) else none

/-- The items an STGO waits for have been fetched (R203). One whose sequence STSET has abandoned waits for the items of the
stream as it then stands. (Log entry 93: DESIGN CHOICE.) -/
def State.started (s : State) (c d l st cur : Nat) : Bool :=
  let y := s.cell c d l
  let D := y.core.desc st
  dStore D || !dGo D || (List.range (min 64 (dLen D - cur))).all (fun i =>
    decide (cur + i < dCur D) || y.items.any (fun x => x.st == st && x.t == cur + i && x.live))

/-- A cell's operation is performed. -/
def State.doCell (s : State) (c d l : Nat) (q : Req) : Done :=
  let s := if q.releases ∧ q.sc ≠ .cell then s.cleanNear c d l else s
  match q.body with
  | .mem path ps =>
    match s.cellParts c d l q path ps with
    | (s, none) => some (s, .error (cECC, 0, noInfo))
    | (s, some vs) => some (if q.acquires then s.acquireSteps c d l q.sc else s, .ok (vs, q.flags))
  | .ldv st D want lanes =>
    let (s, is) := s.getItems c d l D st q.id (want.map Prod.snd)
    match itemsFault D is with
    | some f => some (s, .error f)
    | none =>
      some (s.updCell c d l (fun y => y.dropItems st (min (dCur D + dItems D) (dLen D))),
        .ok ((want.zip is).flatMap (fun p => itemLanes D lanes p.1.1 p.2), q.flags))
  | .vals vs =>
    if vs.isEmpty ∧ q.dest.isNone ∧ (s.cell c d l).core.fly.any (fun f => f.op == some q.id) then none
    else some (s, .ok (vs, q.flags))
  | .fence _ => if q.acquiring then none else some (s, .ok ([], 0))
  | .stgo st cur => if s.started c d l st cur then some (s, .ok ([], 0)) else none
  | .stload _ ps =>
    match s.cellParts c d l q (.stream none) ps with
    | (s, none) => some (s, .error (cECC, 0, noInfo))
    | (s, some vs) =>
      let D := stloadDesc ((List.range 8).map (fun i => BitVec.ofNat 64 (((vs.find? (fun v => v.1 == i)).map Prod.snd).getD 0)))
      some (s, .ok (D.zipIdx.map (fun p => (p.2, p.1.toNat)), 0))
  | .resize old new => some (s.resizeWays c d l old new, .ok ([], 0))
  | .nsflush => some (s.flushNear c d l, .ok ([], 0))
  | .fullEmpty line full => some (s.updCell c d l (fun y => { y with empty := setLine full line y.empty }), .ok ([], 0))
  | .take n =>
    let (s, v) := s.takeTicket c n ((s.rc c).diesFrom d)
    some (s, .ok ([(0, v)], 0))
  | .pin r =>
    match s.pinHome (s.rc c).pasid.toNat r.toNat with
    | none => none
    | some (s, v, f) =>
      some (match f with | some f => s.event c d f.1 f.2.1 f.2.2 q.ein d | none => s, .ok ([(0, v)], 0))
  | .unpin r =>
    let (s, f) := s.unpinHome (s.rc c).pasid.toNat r.toNat
    some (match f with | some f => s.event c d f.1 f.2.1 f.2.2 q.ein d | none => s, .ok ([], 0))
  | .xfer op pat ord lanes a n => s.doXfer c d l q op pat ord lanes a n
  | .macro_ .. | .cmd _ | .red .. => none

/-- A sequencer's operation is performed. -/
def State.doSeq (s : State) (c : Nat) (q : Req) : Done :=
  let o := (s.rc c).field.origin
  match q.body with
  | .mem _ ps =>
    match s.seqParts c q ps with
    | (s, none) => some (s, .error (cECC, 0, noInfo))
    | (s, some vs) => some (s, .ok (vs, 0))
  | .fence _ => if q.acquiring then none else some (s, .ok ([], 0))
  | .pin r =>
    match s.pinHome (s.rc c).pasid.toNat r.toNat with
    | none => none
    | some (s, v, f) => some (match f with | some f => s.event c o f.1 f.2.1 f.2.2 q.ein 0xFF | none => s, .ok ([(0, v)], 0))
  | .unpin r =>
    let (s, f) := s.unpinHome (s.rc c).pasid.toNat r.toNat
    some (match f with | some f => s.event c o f.1 f.2.1 f.2.2 q.ein 0xFF | none => s, .ok ([], 0))
  | _ => none

/-- The homes take note of an operation that has been performed: TAKE, whose counter lies on no line, moves its agent's time
alone. (Log entry 31: DESIGN CHOICE.) -/
def State.noteReq (s : State) (c : Nat) (q : Req) : State :=
  let ag : Agent := (c, q.org)
  match q.body with
  | .mem .coherent ps => s.noteParts ag q.sc ps
  | .take _ => s.timePasses c q.org
  | .pin r | .unpin r => s.noteEntry ag (s.rc c).pasid.toNat (refHid r.toNat) (refObj r.toNat) q.sc (.rmw .add)
  | _ => s

/-! ## Landing (R396) -/

/-- Values by unit as values by register and unit: unit 64·k + i is lane i of the k-th register of a vector result. -/
def destVals (dest : Option RegId) (vs : List (Nat × Nat)) : List (RegId × Nat × Nat) :=
  match dest with
  | none => []
  | some (.v n) => vs.map (fun v => (.v (n + v.1 / 64), v.1 % 64, v.2))
  | some r => vs.map (fun v => (r, v.1, v.2))

/-- The result of an operation lands in the registers and in every shadow where it is still awaited. An A-marked load that
has read one of the registers ahead reads again (R33), and a stream whose image lands loses its items (R199). In a shadow where
a control-page load is still in flight, its mark stands until the value lands there (R85, R140, R167). -/
def State.land (s : State) (c : Nat) (q : Req) (vs : List (Nat × Nat)) (flags : Nat) : State :=
  let ds := destVals q.dest vs
  match q.org with
  | none =>
    s.updRec c (fun r => { r with core := r.core.arrive q.id ds
                                  marks := r.marks.map (fun m => { m with shd := m.shd.arrive q.id ds }) })
  | some (d, l) =>
    let flying := fun (y : CellCore) => y.fly.any (fun f => f.op == some q.id)
    let old := fun (y : CellCore) => if y.pend.any (fun p => p.op == q.id) && !flying y then y.arrive q.id ds flags else y
    s.updDctx c d (fun x =>
      let q0 := (x.cell l).core
      let regs := (ds.filter (fun v => (pendLive q.id v.1 q0.pend).contains v.2.1)).map Prod.fst
      let x := x.overtaken q.ein l regs
      let y : Cell := { x.cell l with core := q0.arrive q.id ds flags }
      let x := x.setCell l (match q.body with
        | .stload st _ => if (pendLive q.id (.st st) q0.pend).isEmpty then y else y.dropStream st
        | _ => y)
      { x with shadows := x.shadows.map (fun sh => { sh with cells := sh.cells.map (fun p => if p.1 = l then (l, old p.2) else p) }) })

/-- The acquire half of a fence is performed (R260, R316); a fence without a release half is done. -/
def State.fenceAcquired (s : State) (c : Nat) (q : Req) : State :=
  let s := match q.org with | some (d, l) => s.acquireSteps c d l q.sc | none => s
  (s.timePasses c q.org).updReq c q.id (fun q => { q with body := .fence true, stage := if q.releases then q.stage else .performed })

/-- LOAD_RESULT_LANDS (R396): operation r is performed and its result lands, once everything before it in its agent's
order has been. Of a fence, the acquire half is performed first, held or not. -/
def execLoadResultLands (r : Nat) (s : State) : Host.Outcome State Fault Refusal :=
  match s.req r with
  | none => notNow "no such operation"
  | some (c, q) =>
    if s.asleep = true then notNow "the device is not in RUN"
    else if s.fenceAcquires c q = true then .next (s.fenceAcquired c q)
    else if q.stage ≠ .out then notNow "the operation is held or performed"
    else if s.blocked c q then notNow "an earlier access is not performed"
    else
      match (match q.org with | some (d, l) => s.doCell c d l q | none => s.doSeq c q) with
      | none => notNow "the operation cannot be performed now"
      | some (s', .error f) =>
        let s' := (s'.dropBad c q).land c q [] 0
        .next ((s'.updReq c r (fun q => { q with stage := .performed })).lateFault c q f)
      | some (s', .ok (vs, flags)) =>
        let s' := s'.noteReq c q
        match s'.received c q vs with
        | .error f => .next ((s'.updReq c r (fun q => { q with stage := .performed })).lateFault c q f)
        | .ok (s', vs) => .next ((s'.land c q vs flags).updReq c r (fun q => { q with stage := .performed }))

end Sys2Proof.Machine
end

