-- ==== Sys2Proof/Machine/Tokens.lean ====
section
/-! DEFINITION. The layout of a context image (R435), the posting of tokens (R13, R394, R398 to R400) and reductions
(R333 to R335). -/

namespace Sys2Proof.Machine

/-! ## The layout of an image (R435) -/

/-- Bytes of a cell's section. -/
def Rec.cellLen (r : Rec) (d l : Nat) : Nat :=
  28672 + 4 * (8192 * r.win.acc) + 65536 * (r.win.ways - ((r.die d).cell l).core.cways)

/-- The cells of a field in the order of their sections. -/
def Rec.imageCells (r : Rec) : List (Nat × Nat) := r.field.dies.flatMap (fun d => r.group.cells.map (fun l => (d, l)))

/-- Offset of the first cell section. -/
def Rec.cellBase (r : Rec) : Nat := 0x3000 + 4096 * r.field.dies.length

/-- Offset of the section of a cell. -/
def Rec.cellOff (r : Rec) (d l : Nat) : Nat :=
  r.cellBase + ((r.imageCells.takeWhile (fun p => p != (d, l))).map (fun p => r.cellLen p.1 p.2)).sum

/-- The image size. -/
def Rec.imageSize (r : Rec) : Nat :=
  (r.cellBase + (r.imageCells.map (fun p => r.cellLen p.1 p.2)).sum + 4095) / 4096 * 4096

/-- Offset of a token record (R398). -/
def Rec.tokenOff (r : Rec) (org : Option (Nat × Nat)) (t : Nat) : Nat :=
  match org with
  | none => 0x1100 + 4 * t
  | some (d, l) => r.cellOff d l + 0x6000 + 4 * t

/-! ## Posting -/

/-- A posting to token home: COUNT + 1, INFL − 1 (R399). None while its page is not present; none inside where the page
refuses the write. -/
def State.postHome (s : State) (r : Rec) (org : Option (Nat × Nat)) (t : Nat) : Option (Option State) :=
  match s.engKey r.pasid.toNat (r.image.getD 0 + r.tokenOff org t) true with
  | none => none
  | some none => some none
  | some (some k) =>
    let w := memRead s.mem k 4
    some (some (s.poke k 4 ((w / 65536 + 65535) % 65536 * 65536 + (w + 1) % 65536)))

/-- One more in a count. -/
def bumpTs (q : SeqCore) (t : Nat) : SeqCore := q.wTs t (q.rTs t + 1)
def bumpTk (q : CellCore) (t fl : Nat) : CellCore := (q.wTk t (q.rTk t + 1)).orCst fl

/-- The flags a macro-operation sets at its posting (R214). -/
def Req.postFlags (q : Req) : Nat := match q.body with | .macro_ .. => q.flags | _ => 0

/-- A posting to the registers, and to every shadow whose mark the operation stands before (R400). -/
def Rec.post (r : Rec) (q : Req) (t : Nat) : Rec :=
  match q.org with
  | none =>
    { r with core := bumpTs r.core t
             marks := r.marks.map (fun m => if q.id < m.opsTo then { m with shd := bumpTs m.shd t } else m) }
  | some (d, l) =>
    let x := r.die d
    let x := x.setCell l { x.cell l with core := bumpTk (x.cell l).core t q.postFlags }
    r.setDie d { x with shadows := x.shadows.map (fun sh =>
      if inDiff q.ein sh.mark ≤ 0 then { sh with cells := mapPut sh.cells l (bumpTk (mapGet .reset sh.cells l) t q.postFlags) } else sh) }

/-- An operation is gone; a reduction frees its group. -/
def State.endReq (s : State) (c : Nat) (q : Req) : State :=
  let s := s.dropReq c q.id
  match q.body with
  | .red grp .. => s.updRec c (fun r => { r with redBusy := r.redBusy.filter (fun g => g != grp) })
  | _ => s

/-- An operation of a resident context posts its token, once, and is gone (R13). -/
def State.postReq (s : State) (c : Nat) (q : Req) : State :=
  match q.tok with
  | none => s.endReq c q
  | some t => (s.setRec c ((s.rc c).post q t)).endReq c q

/-- The posting of an operation waits for the page of its saved context's token record. -/
def State.postWaits (s : State) (r : Rec) (q : Req) : Bool :=
  match q.tok with | some t => (s.postHome r q.org t).isNone | none => false

/-- An image is that of a context that is SAVED. -/
def State.imageLive (s : State) (r : Rec) : Bool :=
  s.recs.any (fun x => x.life == .saved && x.pasid == r.pasid && x.image == r.image)

/-- A command whose context is SAVED: the key of its image, its record, the operation. What else an image holds goes on, and
posts, once the context has been restored (R399). -/
def State.imageReq (s : State) (id : Nat) : Option (Nat × Rec × Req) :=
  s.images.findSome? (fun p =>
    if s.imageLive p.2 then (p.2.reqs.find? (fun q => q.id == id && q.isCmd)).map (fun q => (p.1, p.2, q)) else none)

/-- Such an operation posts its token to token home (R13, R343), or waits for its page; refused, the Armature keeps the
posting and reports it (R399). -/
def State.postImage (s : State) (k : Nat) (r : Rec) (q : Req) (keep : Bool) : State :=
  let drop := { r with reqs := r.reqs.filter (fun x => x.id != q.id) }
  let kept := fun (t : Nat) =>
    { s with images := mapPut s.images k { drop with kept := drop.kept ++ [(q.org, t)] }, reports := s.reports ++ [Report.posting r.pasid.toNat] }
  match q.tok with
  | none => { s with images := mapPut s.images k drop }
  | some t =>
    match s.postHome r q.org t with
    | some (some s) => { s with images := mapPut s.images k drop }
    | some none => kept t
    | none =>
      if keep then kept t
      else { s with images := mapPut s.images k { r with reqs := r.reqs.map (fun x => if x.id = q.id then { x with stage := .performed } else x) } }

/-- TOK_POST (R13): completed operation r adds one to its token. -/
def execTokPost (r : Nat) (s : State) : Host.Outcome State Fault Refusal :=
  if s.asleep then notNow "the clocks of the dies and the networks stand"
  else
    match s.req r with
    | none =>
      (match s.imageReq r with
      | some (k, x, q) => if q.stage = .performed ∧ !s.postWaits x q then .next (s.postImage k x q false) else notNow "the operation cannot post"
      | none => notNow "no such operation")
    | some (c, q) =>
      if q.stage ≠ .performed then notNow "the operation is not complete"
      else .next (s.postReq c q)

/-- The first operation of saved context c whose posting waits for the page of its token record, with its image (R399). -/
def State.postWaiter (s : State) (c : Nat) : Option (Nat × Rec × Req) :=
  let r := s.rc c
  if r.life = Life.saved then
    s.images.findSome? (fun p =>
      if p.2.pasid = r.pasid ∧ p.2.image = r.image then
        (p.2.reqs.find? (fun q => q.stage == .performed && q.isCmd && s.postWaits p.2 q)).map (fun q => (p.1, p.2, q))
      else none)
  else none

/-! ## Reductions -/

/-- id(op, type) of R334. -/
def redId (op ty : Nat) : Nat :=
  match op, ty with
  | 1, _ => 2 ^ 64 - 1
  | 2, 2 => 0x80000000
  | 3, 1 => 0x8000000000000000
  | 3, 2 => 0xFF800000
  | _, _ => 0

/-- comb(a, b) of R334. -/
def redComb (op ty a b : Nat) : Nat :=
  match op, ty with
  | 0, _ => a ||| b
  | 1, _ => a &&& b
  | 2, 2 => (f32Add .rne (a % 2 ^ 32) (b % 2 ^ 32)).1
  | 2, _ => (a + b) % 2 ^ 64
  | _, 0 => max a b
  | _, 1 => if sext a 64 < sext b 64 then b else a
  | _, _ => (f32Largest [a % 2 ^ 32, b % 2 ^ 32]).1

/-- One level of the tree. -/
def redLevel (op ty : Nat) : List Nat → List Nat
  | a :: b :: xs => redComb op ty a b :: redLevel op ty xs
  | xs => xs

/-- The tree of R334. -/
def redTree (op ty : Nat) : Nat → List Nat → Nat
  | 0, xs => xs.headD 0
  | n + 1, xs => redTree op ty n (redLevel op ty xs)

/-- The value of a reduction from the die values. F32 takes the low halves. -/
def Rec.redValue (r : Rec) (op ty : Nat) (got : List (Nat × Word)) : Nat :=
  redTree op ty 5 (r.field.dies.map (fun d =>
    match got.find? (fun g => g.1 == d) with
    | some g => if ty = 2 then g.2.toNat % 2 ^ 32 else g.2.toNat
    | none => redId op ty))

/-- The last value has arrived: the result lands, is logged, and the token posts (R335, R439). -/
def State.finishRed (s : State) (c : Nat) (q : Req) (op ty : Nat) (got : List (Nat × Word)) : State :=
  match s.logged c inRED (s.rc c).field.origin none q.ein.toNat q.pc.toNat [(s.rc c).redValue op ty got] with
  | .error f => (s.postReq c q).lateFault c q f
  | .ok (s, vs) => (s.land c q [(0, vs.headD 0)] 0).postReq c q

/-- The operation of a group's reduction. -/
def Rec.redReq (r : Rec) (grp : Nat) : Option Req :=
  r.reqs.find? (fun q => match q.body with | .red g .. => g == grp | _ => false)

/-- RED_SAMPLE (R333): die d samples for the reduction of a group, at the end of the position of IN_R − 1. -/
def execRedSample (c grp d : Nat) (s : State) : Host.Outcome State Fault Refusal :=
  if 16 ≤ c ∨ 32 ≤ d then .fault (.noUnit "context record or die")
  else if s.asleep then notNow "the clocks of the dies and the networks stand"
  else
    match (s.rc c).redReq grp with
    | none => notNow "no reduction of the group"
    | some q =>
      match q.body with
      | .red g op ty dc inr dies air got =>
        let x := s.dctx c d
        if !x.redAsk.contains q.id ∨ x.dly ≠ 0 ∨ ¬ inDiff inr x.e ≤ 0 then notNow "the sample point is not reached"
        else
          let s := s.updReq c q.id (fun q => { q with body := .red g op ty dc inr dies (air ++ [(d, mapGet 0 x.dc dc)]) got })
          .next (s.updDctx c d (fun x => { x with redAsk := x.redAsk.filter (fun i => i != q.id) }))
      | _ => notNow "no reduction of the group"

/-- RED_VALUE_ARRIVAL (R335): the value of die d reaches the sequencer; a reduction that samples no die ends at once. -/
def execRedValueArrival (c grp d : Nat) (s : State) : Host.Outcome State Fault Refusal :=
  if 16 ≤ c ∨ 32 ≤ d then .fault (.noUnit "context record or die")
  else if s.asleep then notNow "the clocks of the dies and the networks stand"
  else
    match (s.rc c).redReq grp with
    | none => notNow "no reduction of the group"
    | some q =>
      match q.body with
      | .red g op ty dc inr dies air got =>
        if dies.isEmpty then .next (s.finishRed c q op ty [])
        else
          match air.find? (fun v => v.1 == d) with
          | none => notNow "no value of the die is on its way"
          | some v =>
            let got := got ++ [v]
            if dies.all (fun y => got.any (fun w => w.1 == y)) then .next (s.finishRed c q op ty got)
            else
              .next (s.updReq c q.id (fun q => { q with body := .red g op ty dc inr dies (air.filter (fun w => w.1 != d)) got }))
      | _ => notNow "no reduction of the group"

end Sys2Proof.Machine
end

