-- ==== Sys2Proof/Machine/Marks.lean ====
section
/-! DEFINITION. Restart marks, commits and rollback (R372 to R374, R421 to R428), and the events that end in them: fault
flags, breakpoints and steps (R441). -/

namespace Sys2Proof.Machine

/-! ## Passing a mark -/

/-- A transfer of this die has still to land (R339), apart from a delivery held by the mark of this very bundle. -/
def Rec.xferOpen (r : Rec) (d : Nat) (m : BitVec 48) : Bool :=
  r.reqs.any (fun q => (match q.org with | some o => o.1 == d | none => false) && q.stage != .performed
    && !(q.stage == .held && q.ein == m) && (match q.body with | .xfer .. => true | _ => false))

/-- A die takes the shadow of a mark (R423). -/
def DieCtx.shadow (x : DieCtx) (m : BitVec 48) : DieCtx :=
  { x with passed := m, atMark := none
           shadows := x.shadows ++ [{ mark := m, dc := x.dc, cells := x.cells.map (fun p => (p.1, p.2.core))
                                      phaseOpen := x.phaseOpen, xfers := x.xfers, perms := x.perms, barSeq := x.barSeq }] }

/-- MARK_PASS (R424, R425): a die passes the mark at which it stands, unless it holds two shadows already. -/
def execMarkPass (c d : Nat) (s : State) : Host.Outcome State Fault Refusal :=
  if 16 ≤ c ∨ 32 ≤ d then .fault (.noUnit "context record or die")
  else if s.asleep then notNow "the clocks of the dies and the networks stand"
  else
    let x := s.dctx c d
    match x.atMark with
    | none => notNow "the die stands at no mark"
    | some m =>
      if 2 ≤ x.shadows.length then notNow "an older mark is not committed"
      else if x.closing && (s.rc c).xferOpen d m then notNow "a transfer of the superstep is not done"
      else .next (s.updDctx c d (fun x => x.shadow m))

/-! ## Committing a mark -/

/-- The oldest of the marks that dies have passed. -/
def Rec.commonMark (r : Rec) : BitVec 48 :=
  match r.field.dies.map (fun d => (r.die d).passed) with
  | [] => r.cf
  | m :: ms => ms.foldl (fun a b => if inDiff b a < 0 then b else a) m

/-- The first mark of an entry above an IN, if it has one. -/
def MarkEntry.above (m : MarkEntry) (k : BitVec 48) : Option (BitVec 48) :=
  if inDiff k m.first < 0 then some m.first
  else
    let last := m.first + BitVec.ofNat 48 (m.count - 1)
    if inDiff k last < 0 then some (k + 1) else none

/-- The oldest mark that has not committed. -/
def Rec.nextMark (r : Rec) : Option (BitVec 48) :=
  match r.marks.filterMap (fun m => m.above r.cf) with
  | [] => none
  | m :: ms => some (ms.foldl (fun a b => if inDiff b a < 0 then b else a) m)

/-- Entries of the map that a commit retires: every die has passed a mark of a later entry (R373). -/
def retireMarks (cf : BitVec 48) : List MarkEntry → List MarkEntry
  | a :: b :: ms => if inDiff b.first cf ≤ 0 then retireMarks cf (b :: ms) else a :: b :: ms
  | ms => ms

/-- The mark at IN k commits: CF moves, held operations of the sequencer are released, the commit goes down. -/
def State.commit (s : State) (c : Nat) (k : BitVec 48) : State :=
  let s := s.updRec c (fun r => { r with cf := k, marks := retireMarks k r.marks }.releaseSeq)
  s.updRec c (fun r => r.field.dies.foldl (fun r d => r.setDie d { r.die d with commits := (r.die d).commits ++ [k] }) r)

/-- A fault has been flagged that counts at or before mark k (R424). -/
def Rec.faultBy (r : Rec) (k : BitVec 48) : Bool :=
  r.field.dies.any (fun d => match (r.die d).flag with | some f => decide (inDiff f.at_ k ≤ 0) | none => false)

/-- MARK_COMMIT (R424): the oldest mark commits when every die of the field has passed it, with no fault raised at or before
it. -/
def execMarkCommit (c : Nat) (s : State) : Host.Outcome State Fault Refusal :=
  if 16 ≤ c then .fault (.noUnit "context record")
  else if s.asleep then notNow "the clocks of the dies and the networks stand"
  else
    let r := s.rc c
    match r.nextMark with
    | none => notNow "every mark has committed"
    | some k =>
      if r.slot.isNone ∨ 0 < inDiff k r.commonMark then notNow "a die has not passed the mark"
      else if r.faultBy k then notNow "a fault has been raised at or before the mark"
      else .next (s.commit c k)

/-- One ACCWR value goes into the accumulator store. A macro-operation issued before it, which no earlier ACCWR has passed,
keeps the value it had for the entry (R209). -/
def State.commitAccOne (s : State) (c d l : Nat) (w : Nat × Nat × Lane) : State :=
  let had := (mapGet 0 (s.cell c d l).acc w.2.1).toNat
  let s := s.updRec c (fun r => { r with reqs := r.reqs.map (fun q =>
    match q.body with
    | .macro_ op ops skip =>
      if q.org = some (d, l) ∧ inTile ops w.2.1 ∧ 0 < inDiff (BitVec.ofNat 48 w.1) q.ein ∧ !skip.any (fun p => p.1 == w.2.1) then
        { q with body := .macro_ op ops (skip ++ [(w.2.1, had, w.1)]) }
      else q
    | _ => q) })
  s.updCell c d l (fun y => { y with acc := mapSet 0 y.acc w.2.1 w.2.2 })

/-- Uncommitted ACCWR entries up to a mark go into the accumulator store, in order (R206, R426). -/
def State.commitAcc (s : State) (c d l : Nat) (k : BitVec 48) : State :=
  let due := (s.cell c d l).core.accw.filter (fun w => decide (inDiff (BitVec.ofNat 48 w.1) k ≤ 0))
  let keep := fun (q : CellCore) => { q with accw := q.accw.filter (fun w => decide (0 < inDiff (BitVec.ofNat 48 w.1) k)) }
  if due.isEmpty then s
  else
    (due.foldl (fun (s : State) w => s.commitAccOne c d l w) s).updDctx c d (fun x =>
      let y := x.cell l
      { x.setCell l { y with core := keep y.core } with shadows := x.shadows.map (fun sh =>
          { sh with cells := sh.cells.map (fun p => if p.1 = l then (l, keep p.2) else p) }) })

/-- Held effects of a die's cells up to a mark are released (R426). -/
def Rec.releaseCells (r : Rec) (d : Nat) (k : BitVec 48) : Rec :=
  { r with reqs := r.reqs.map (fun q =>
      match q.org with
      | some o => if o.1 = d ∧ q.stage = .held ∧ inDiff q.ein k ≤ 0 then { q with stage := .out } else q
      | none => q) }

/-- COMMIT_ARRIVAL (R426): the oldest commit on its way to a die arrives. -/
def execCommitArrival (c d : Nat) (s : State) : Host.Outcome State Fault Refusal :=
  if 16 ≤ c ∨ 32 ≤ d then .fault (.noUnit "context record or die")
  else if s.asleep then notNow "the clocks of the dies and the networks stand"
  else
    match (s.dctx c d).commits with
    | [] => notNow "no commit is on its way"
    | k :: ks =>
      let s := s.updDctx c d (fun x =>
        { x with commits := ks, shadows := x.shadows.filter (fun sh => decide (0 ≤ inDiff sh.mark k)) })
      let s := s.updRec c (fun r => r.releaseCells d k)
      .next ((s.rc c).group.cells.foldl (fun (s : State) l => s.commitAcc c d l k) s)

/-! ## Rolling the field back -/

/-- Entries of queues whose operation is cancelled are gone. -/
def State.dropQueued (s : State) (ids : List Nat) : State :=
  let keep := fun (q : List QCmd) => q.filter (fun m => !ids.contains m.req)
  let f := fun (y : Engine) => { y with queue := keep y.queue }
  { s with armq := s.armq.map keep
           dies := s.dies.map (fun x => { x with copy0 := f x.copy0, copy1 := f x.copy1, copy2 := f x.copy2
                                                 copy3 := f x.copy3, pge := f x.pge, kiln := f x.kiln }) }

/-- The operations that a rollback to mark k cancels: those of cells after it, those of the sequencer from `opsTo` on. -/
def Rec.cancelled (r : Rec) (k : BitVec 48) (opsTo : Nat) : List Req :=
  r.reqs.filter (fun q => match q.org with | some _ => decide (0 < inDiff q.ein k) | none => decide (opsTo ≤ q.id))

/-- A cell's registers restored from a shadow: of its matrix queue the operations that have not started (R222, R423). -/
def Cell.restoreCore (y : Cell) (q : CellCore) (live : List Nat) : Cell :=
  let run := match y.run with | some x => some x.req | none => none
  { y with core := { q with mxq := q.mxq.filter (fun x => live.contains x.req && run != some x.req) }, items := [] }

/-- A die restored to mark k. `reds` are the reductions that stand; a die that stands in the barrier or phase of the mark
itself stands there still, and with a PHASE.C what it has sent in the superstep, which is not over (R339, R341). Of the
snapshots that are due, those stay whose LEND is not executed again (R374, R413). -/
def DieCtx.restoreTo (x : DieCtx) (k : BitVec 48) (live reds : List Nat) (opsTo : Nat) : DieCtx :=
  let stays := x.e - 1 == k && (match x.hold with | some (.bar ..) | some .phase => true | _ => false)
  let asked := x.redAsk ++ x.frames.filterMap (fun f => match f.2 with | .red id => some id | _ => none)
  match x.shadows.find? (fun sh => sh.mark == k) with
  | none => x
  | some sh =>
    { x with frames := [], q := [], e := k + 1, hold := if stays then x.hold else none, dly := 0, dlyMark := false, dc := sh.dc
             cells := x.cells.map (fun p => (p.1, p.2.restoreCore (mapGet .reset sh.cells p.1) live))
             shadows := x.shadows.filter (fun y => decide (inDiff y.mark k ≤ 0)), passed := k, markAsk := [], atMark := none
             sinceMark := 0, sinceStores := 0, redAsk := asked.filter reds.contains, flag := none, flagSent := false
             fevents := [], phaseOpen := sh.phaseOpen, xfers := sh.xfers, perms := sh.perms
             sent := if sh.phaseOpen || (stays && x.closing) then x.sent.filter (fun y => decide (inDiff y.ein k ≤ 0)) else []
             barSeq := sh.barSeq, barPend := if stays then x.barPend else 0, barGot := if stays then x.barGot else 2 * sh.barSeq
             barSteps := stays && x.barSteps, access := k + 1, ahead := []
             snapAt := x.snapAt.filter (fun p => decide (p.2.2.2 < opsTo)) }

/-- The field rolls back to mark k (R428): what it cancels goes, dies and sequencer take their shadows, and the forwarding
caches are empty (R291).
Gives the index and the number of the repetitions still to broadcast, and NPC. -/
def State.rollTo (s : State) (c : Nat) (k : BitVec 48) : State × Nat × Nat × BitVec 18 :=
  let r := s.rc c
  match r.entryOf k with
  | none => (s, 0, 0, r.core.pc)
  | some m =>
    let gone := r.cancelled k m.opsTo
    let ids := gone.map Req.id
    let s := s.dropQueued ids
    let left := if m.kind then 0 else m.count - 1 - (inDiff k m.first).toNat
    let reqs := r.reqs.filter (fun q => !ids.contains q.id)
    let live := (reqs.filter (fun q => q.stage != .performed)).map Req.id
    let reds := (reqs.filter (fun q => match q.body with | .red .. => true | _ => false)).map Req.id
    let freed := gone.filterMap (fun q => match q.body with | .red g .. => some g | _ => none)
    let r := { r with
      core := { m.shd with pc := m.npc, inn := k + 1 }, reqs := reqs
      redBusy := r.redBusy.filter (fun g => !freed.contains g)
      marks := r.marks.filter (fun (x : MarkEntry) => decide (inDiff x.first k ≤ 0)) }
    let r := r.field.dies.foldl (fun r d => r.setDie d ((r.die d).restoreTo k live reds m.opsTo)) r
    (s.setRec c r.noFwdCache, m.idx, left, m.npc)

/-- A rollback can be made to mark k: every die has passed it and stands at no mark up to it. -/
def Rec.standsAt (r : Rec) (k : BitVec 48) : Bool :=
  r.field.dies.all (fun d => let x := r.die d; decide (0 ≤ inDiff x.passed k) && x.shadows.any (fun sh => sh.mark == k))

/-- The earliest of flagged events: smallest IN, then lowest die (R421). -/
def firstFlag : List Flag → Option Flag
  | [] => none
  | f :: fs => some (fs.foldl (fun a b => if inDiff b.ein a.ein < 0 ∨ (b.ein = a.ein ∧ b.die < a.die) then b else a) f)

/-- Every event flagged at the dies that is handled by a freeze without rollback. -/
def Rec.events (r : Rec) : List Flag := r.dies.flatMap (fun (p : Nat × DieCtx) => p.2.fevents)

/-- ROLLBACK (R428): the field rolls back to the mark of the fault; the trap is entered, or the page request waits for
its answer (R437). Of the events at or before the mark, the first is held for the RFT of the handler (R421). -/
def execRollback (c : Nat) (s : State) : Host.Outcome State Fault Refusal :=
  if 16 ≤ c then .fault (.noUnit "context record")
  else
    let r := s.rc c
    match r.life with
    | .frozen (.rollback f) =>
      let k := r.rollbackMark f.at_
      if !r.standsAt k then notNow "a die does not stand at the mark"
      else
        let held := firstFlag ((r.nextF.toList ++ r.events).filter (fun g => decide (inDiff g.ein k ≤ 0)))
        let (s, idx, left, npc) := s.rollTo c k
        let s := s.updRec c (fun r => { r with rv := true, ridx := idx, rcnt := left, nextF := held })
        if f.code = cPAGE then .next (s.updRec c (fun r => { r.note (.page f.ein f.die) with life := .frozen (.page f false) }))
        else
          .next (s.takeTrap c { code := f.code, detail := f.detail, slot := slDie, die := f.die, xin := f.ein, info := f.info, xpc := npc })
    | _ => notNow "no rollback is due"

/-! ## Fault flags -/

/-- A context that a flag can freeze: resident, not saved or at rest. -/
def Rec.resident (r : Rec) : Bool := r.slot.isSome

/-- An event joins those that wait for a handler to return: the first of them is entered, the others are not reported
(R421). -/
def firstOf (f : Flag) (g : Option Flag) : Option Flag := firstFlag (f :: g.toList)

/-- A fault to be handled by rollback reaches the sequencer. While a handler runs it is held for the return; an event that
was held there waits behind it, for the rollback decides whether it stands (R421). -/
def State.flagRb (s : State) (c d : Nat) (f : Flag) : Host.Outcome State Fault Refusal :=
  let r := s.rc c
  let s := s.updDctx c d (fun x => { x with flagSent := true })
  if r.hact then
    .next (s.updRec c (fun r =>
      match r.heldF with
      | some g => if g.noRollback then { r with heldF := some f, nextF := firstOf g r.nextF } else { r with heldF := firstOf f (some g) }
      | none => { r with heldF := some f }))
  else
    match r.life with
    | .frozen (.rollback g) => .next (s.updRec c (fun r => { r with life := .frozen (.rollback ((firstFlag [g, f]).getD f)) }))
    | .frozen (.page ..) | .frozen (.preempt ..) | .frozen .dead => notNow "the context is frozen"
    | _ => .next (s.updRec c (fun r => { r with life := .frozen (.rollback f) }))

/-- An event handled without a rollback reaches the sequencer (R432): of all that are flagged the first is taken, the
others are not reported. While a handler runs it is held, behind a fault that is held. -/
def State.flagF (s : State) (c : Nat) : Host.Outcome State Fault Refusal :=
  let r := s.rc c
  match firstFlag r.events with
  | none => notNow "no event is flagged"
  | some f =>
    if r.dies.any (fun (p : Nat × DieCtx) => p.2.flag.isSome && !p.2.flagSent) then notNow "a fault to be rolled back is flagged"
    else
      let clear := fun (r : Rec) => { r with dies := r.dies.map (fun (p : Nat × DieCtx) => (p.1, ({ p.2 with fevents := [] } : DieCtx))) }
      if r.hact then
        .next (s.updRec c (fun r =>
          match r.heldF with
          | some g => if g.noRollback then { clear r with heldF := firstOf f (some g) } else { clear r with nextF := firstOf f r.nextF }
          | none => { clear r with heldF := some f }))
      else
        match r.life with
        | .frozen _ => notNow "the context is frozen"
        | _ =>
          .next ((s.updRec c clear).enterF c f r.core.pc)

/-- FAULT_FLAG (R421, R428, R432): what die d has flagged reaches the sequencer. -/
def execFaultFlag (c d : Nat) (s : State) : Host.Outcome State Fault Refusal :=
  if 16 ≤ c ∨ 32 ≤ d then .fault (.noUnit "context record or die")
  else if s.asleep then notNow "the clocks of the dies and the networks stand"
  else if !(s.rc c).resident then notNow "the context is not resident"
  else
    let x := s.dctx c d
    match x.flag with
    | some f => if x.flagSent then notNow "the flag has arrived" else s.flagRb c d f
    | none => if x.fevents.isEmpty then notNow "the die has flagged nothing" else s.flagF c

/-! ## Breakpoints and steps -/

/-- Every die has executed what was broadcast (R441). -/
def Rec.drained (r : Rec) : Bool :=
  r.field.dies.all (fun d => let x := r.die d
    x.q.isEmpty && x.dly == 0 && x.hold.isNone && x.flag.isNone && x.frames.all (fun f => match f.2 with | .bundle _ => false | _ => true))

/-- The stop that a LEND has met is taken as a trap once the dies have drained; the trace buffer takes a record of it. -/
def State.stopAt (s : State) (c code : Nat) : Host.Outcome State Fault Refusal :=
  if 16 ≤ c then .fault (.noUnit "context record")
  else
    let r := s.rc c
    match r.life with
    | .frozen (.brk cd detail pass xin) =>
      if cd ≠ code then notNow "another stop is due"
      else if !r.drained then notNow "the dies have not drained"
      else
        let s := s.takeTrap c { code := cd, detail := detail, slot := slNA, die := 0xFF, xin := xin, info := pass.toNat, xpc := r.core.pc }
        .next (s.emit c 0 0x11 r.field.origin none 0 [xin.toNat, (stopLoop r cd detail) * 2 ^ 32 + pass.toNat])
    | _ => notNow "no stop is due"
where
  /-- The loop of the stop: that of the breakpoint, or of the step control. -/
  stopLoop (r : Rec) (cd detail : Nat) : Nat := if cd = cSTEP then r.dbgctl.toNat % 4 else bitsOf (r.bps.getD detail 0) 60 2

/-- BREAK (R441). -/
def execBreakTaken (c : Nat) (s : State) : Host.Outcome State Fault Refusal := s.stopAt c cBREAK

/-- STEP (R441). -/
def execStepTaken (c : Nat) (s : State) : Host.Outcome State Fault Refusal := s.stopAt c cSTEP

end Sys2Proof.Machine
end

