-- ==== Sys2Proof/Machine/Barrier.lean ====
section
/-! DEFINITION. The reports and releases of barriers (R336, R337) and of transfer supersteps (R339). -/

namespace Sys2Proof.Machine

/-- The mark of the bundle at which a die stands has committed, and the commit has reached the die. -/
def Rec.markDone (r : Rec) (d : Nat) : Bool :=
  let x := r.die d
  x.passed == x.e - 1 && decide (0 ≤ inDiff r.cf (x.e - 1)) && x.commits.all (fun k => decide (0 < inDiff k (x.e - 1)))

/-- The release steps of the cells of a barrier have ended (R315, R336): its mark has committed, and everything of those
cells that a release waits for has been performed. -/
def State.releaseDone (s : State) (c d : Nat) (cells : List Nat) : Bool :=
  let r := s.rc c
  r.markDone d && !(r.reqs.any (fun q =>
    (match q.org with | some o => o.1 == d && cells.contains o.2 | none => false)
    && q.stage != .performed && (q.stage == .held || s.beforeRelease q)))

/-- The release steps write the near-store cache back (R315). -/
def State.releaseCells (s : State) (c d : Nat) (cells : List Nat) : State :=
  cells.foldl (fun (s : State) l => s.cleanNear c d l) s

/-- BAR_REPORT (R336): a report of die d reaches the sequencer: its arrival, or, once its release steps have ended, its
second report. -/
def execBarReport (c d : Nat) (s : State) : Host.Outcome State Fault Refusal :=
  if 16 ≤ c ∨ 32 ≤ d then .fault (.noUnit "context record or die")
  else if s.asleep then notNow "the clocks of the dies and the networks stand"
  else
    let x := s.dctx c d
    if 0 < x.barPend then .next (s.updDctx c d (fun x => { x with barPend := x.barPend - 1, barGot := x.barGot + 1 }))
    else
      match x.hold with
      | some (.bar true cells) =>
        if x.barSteps then notNow "both reports have been sent"
        else if !s.releaseDone c d cells then notNow "the release steps have not ended"
        else .next ((s.releaseCells c d cells).updDctx c d (fun x => { x with barSteps := true, barGot := x.barGot + 1 }))
      | _ => notNow "no report is on its way"

/-- The cells of a barrier acquire, and the die goes on (R316, R336). -/
def State.departBar (s : State) (c d : Nat) (cells : List Nat) (sc : Scope) : State :=
  (cells.foldl (fun (s : State) l => (s.acquireSteps c d l sc).timePasses c (some (d, l))) s).updDctx c d (fun x => { x with hold := none })

/-- Every die of the field has sent both reports of the barrier at which die d stands. -/
def Rec.allReported (r : Rec) (d : Nat) : Bool :=
  r.field.dies.all (fun g => decide (2 * (r.die d).barSeq ≤ (r.die g).barGot))

/-- The dies that stand at the k-th FIELD barrier, each with the cells that take part. -/
def Rec.atFieldBar (r : Rec) (k : Nat) : List (Nat × List Nat) :=
  r.field.dies.filterMap (fun g =>
    match (r.die g).hold with
    | some (.bar true cells) => if (r.die g).barSeq = k then some (g, cells) else none
    | _ => none)

/-- A context that was held while its dies stood at a barrier is looked at again once none stands there (R18). -/
def State.barGone (s : State) (c : Nat) : State :=
  if (s.rc c).life = .waiting .bar ∧ !(s.rc c).atBar then s.refresh c else s

/-- BAR_RELEASE (R336): the release of the FIELD barrier at which die d stands reaches every die of the field on one cycle,
and all that stand at it depart (R337): the k-th of one die pairs with the k-th of every other; at a DIE barrier the die departs when its release steps have ended. -/
def execBarRelease (c d : Nat) (s : State) : Host.Outcome State Fault Refusal :=
  if 16 ≤ c ∨ 32 ≤ d then .fault (.noUnit "context record or die")
  else if s.asleep then notNow "the clocks of the dies and the networks stand"
  else
    match (s.dctx c d).hold with
    | some (.bar true _) =>
      if (s.rc c).allReported d then
        .next (((s.rc c).atFieldBar (s.dctx c d).barSeq).foldl (fun (s : State) p => s.departBar c p.1 p.2 .field) s |>.barGone c)
      else notNow "a report is missing"
    | some (.bar false cells) =>
      if s.releaseDone c d cells then .next (((s.releaseCells c d cells).departBar c d cells .die).barGone c)
      else notNow "the release steps have not ended"
    | _ => notNow "the die stands at no barrier"

/-- A transfer of this die is not done. -/
def Rec.xferLeft (r : Rec) (d : Nat) : Bool :=
  r.reqs.any (fun q => (match q.org with | some o => o.1 == d | none => false) && q.stage != .performed
    && (match q.body with | .xfer .. => true | _ => false))

/-- A die has arrived at the phase bundle it stands at (R339): it has passed its mark, and at a PHASE.C every transfer
of the superstep has landed. -/
def Rec.phaseArrived (r : Rec) (d : Nat) : Bool :=
  let x := r.die d
  x.hold == some .phase && x.passed == x.e - 1 && (x.phaseOpen || !r.xferLeft d)

/-- A die leaves a phase bundle; a PHASE.C ends the superstep. -/
def DieCtx.leavePhase (x : DieCtx) : DieCtx :=
  if x.phaseOpen then { x with hold := none } else { x with hold := none, sent := [], xfers := 0, perms := 0 }

/-- PHASE_RELEASE (R339): every die of the field has arrived, and all go on on one cycle. -/
def execPhaseRelease (c : Nat) (s : State) : Host.Outcome State Fault Refusal :=
  if 16 ≤ c then .fault (.noUnit "context record")
  else if s.asleep then notNow "the clocks of the dies and the networks stand"
  else
    let r := s.rc c
    if r.field.dies.isEmpty ∨ !(r.field.dies.all r.phaseArrived) then notNow "a die has not arrived"
    else .next (s.updRec c (fun r => r.field.dies.foldl (fun (r : Rec) d => r.setDie d (r.die d).leavePhase) r))

end Sys2Proof.Machine
end

