-- ==== Sys2Proof/Machine/Fetch.lean ====
section
/-! DEFINITION. What a cell does ahead of or beside its bundles: the access stream (R31 to R35), stream fetches (R198),
the matrix queue (R207, R211, R222, R223) and the random-bit queue (R179). -/

namespace Sys2Proof.Machine

/-! ## The access stream -/

/-- The bundles that wait in a decode queue, each with its IN, as far as the access stream may go (R32). -/
def DieCtx.upcoming (x : DieCtx) : List (BitVec 48 × QEntry) :=
  (x.q.flatMap (fun e => (List.range (min e.reps 256)).map (fun i => (e.inn + BitVec.ofNat 48 i, e)))).take 256

/-- The slot keeps the access stream from later bundles until the execute stream has issued it (R32): ABAR, BAR, or
an access with acquire ordering. (Log entry 65: DEDUCED.) -/
def stopsAccess (r : Raw) : Bool :=
  (r.kind == .ct && (r.op == 0x0B || r.op == 8)) || (r.kind == .ls && r.op == 9)
  || (r.kind == .ls && r.op == 0x0B && r.ops.getD 3 0 != 2)
  || (r.kind == .xf && (r.op == 5 || r.op == 7 || r.op == 8) && r.ops.getD 4 0 == 1)

/-- The next A-marked load of the access stream, if nothing before it stops the stream. -/
def Rec.nextAccess (r : Rec) (x : DieCtx) : Option (BitVec 48 × QEntry × Raw) :=
  let rec go : List (BitVec 48 × QEntry) → Option (BitVec 48 × QEntry × Raw)
    | [] => none
    | p :: ps =>
      let sl := r.entrySlots p.2
      match (if inDiff p.1 x.access < 0 then none else sl.find? isMarkedLoad) with
      | some m => some (p.1, p.2, m)
      | none => if sl.any stopsAccess then none else go ps
  go x.upcoming

/-- The registers that an A-marked load uses as address operands, its guard among them (R33). -/
def aheadRegs (r : Raw) : List RegId :=
  r.uses.filterMap (fun u =>
    match u.1 with
    | .kg => if u.2 % 64 = 0 then none else some (.k (u.2 % 64))
    | .xR => some (.x u.2)
    | .hR => some (.h u.2)
    | .vR | .vX => some (.v u.2)
    | _ => none)

/-- The 128-byte lines of the parts of an operation. -/
def partLines (ps : List Part) : List Nat :=
  ps.flatMap (fun p => (List.range ((p.tgt.key + p.n - 1) / 128 + 1 - p.tgt.key / 128)).map (fun i => p.tgt.key / 128 + i))

/-- The access stream issues an A-marked load in one cell: what it read, or the fault it met, is kept for the execute
point (R34). A load that something before it still holds back is issued and read later (R493). LDV leaves its items to the
stream's own fetches, and a control-page load is made at the execute point. (Log entries 77 and 78: DEDUCED.) -/
def State.readAhead (s : State) (c d l : Nat) (ein : BitVec 48) (r : Raw) : State :=
  let plain : Raw := { r with ops := r.ops.set 1 0 }
  let e := cellEnv s c d (s.rc c) (s.dctx c d) ein l { raw := plain, no := 3, fx := cellFxOf plain } [plain]
  if e.lanes.isEmpty ∨ r.op = 1 then s
  else
    let keep := fun (s : State) (read done : Bool) (ls : List Nat) (vs : List (Nat × Nat)) (f : Option FInfo) =>
      s.updDctx c d (fun x => { x with ahead := x.ahead ++
        [({ ein := ein, cell := l, raw := r, regs := aheadRegs r, done := done, read := read, lines := ls, vals := vs, fault := f } : Ahead)] })
    match (cellFxOf plain).cell e s with
    | .error f => keep s false true [] [] (some f)
    | .ok (s', fx) =>
      match fx.req with
      | none => s
      | some q =>
        match q.body with
        | .mem _ ps =>
          let q := { q with id := s'.nextId }
          if s'.blocked c q then keep s false false (partLines ps) [] none
          else
            match s'.readNow c d l q with
            | (s', none) => keep (s'.dropBad c q) true true (partLines ps) [] (some (cECC, 0, noInfo))
            | (s', some vs) => keep s' true true (partLines ps) vs none
        | _ => s

/-- One of the cells takes part in the barrier at which the die stands: its departure is an acquire (R316, R319). -/
def DieCtx.atBar (x : DieCtx) (cells : List Nat) : Bool :=
  match x.hold with
  | some (.bar _ ls) => cells.any ls.contains
  | _ => false

/-- ACCESS_STREAM_ISSUE (R32): the access stream of die d issues the next A-marked load of context c in every active
cell. -/
def execAccessStreamIssue (c d : Nat) (s : State) : Host.Outcome State Fault Refusal :=
  if 16 ≤ c ∨ 32 ≤ d then .fault (.noUnit "context record or die")
  else
    let r := s.rc c
    let x := r.die d
    let still : Bool := match r.life with | .frozen _ | .free | .saved => true | _ => r.diesStop
    if r.slot.isNone ∨ !r.field.dies.contains d ∨ still = true ∨ s.asleep = true ∨ x.flag.isSome then notNow "the context stands still at the die"
    else
      match r.nextAccess x with
      | none => notNow "no A-marked load can be issued"
      | some (a, e, m) =>
        let cells := activeCells r d e.diemask e.cellmask
        if 256 ≤ inDiff a x.e then notNow "the bundle is too far ahead"
        else if cells.any (fun l => decide (64 * r.win.trk ≤ r.tracked d l + (x.ahead.filter (fun y => y.cell == l)).length)) then
          notNow "the request tracker is full"
        else if cells.any (fun l => r.acquireWaits d l s.nextId) then notNow "an acquire is not performed"
        else if x.atBar cells then notNow "a cell stands at a barrier"
        else
          .next ((cells.foldl (fun (s : State) l => s.readAhead c d l a m) s).updDctx c d (fun x => { x with access := a + 1 }))

/-! ## Stream fetches -/

/-- The next item a started load stream has not fetched, within its window (R198). -/
def Cell.nextItem (y : Cell) (st : Nat) : Option Nat :=
  let D := y.core.desc st
  if !dGo D ∨ dEnd D ∨ dStore D then none
  else
    ((List.range (min (4096 / dUnit D) (dLen D - dCur D))).map (fun i => dCur D + i)).find? (fun t =>
      !(y.items.any (fun x => x.st == st && x.t == t && x.live)))

/-- The first macro-operation in the queue of a cell that will take item t of a stream. -/
def Cell.consumer (y : Cell) (st t : Nat) : Option Nat :=
  (y.run.toList ++ y.core.mxq).findSome? (fun x =>
    if (y.macroItems x.req).any (fun m => m.1 == st && decide (m.2.1 ≤ t ∧ t < m.2.2)) then some x.req else none)

/-- STREAM_FETCH (R198): a started load stream fetches its next item, in the place of what will consume it (R306). -/
def execStreamFetch (c d cell st : Nat) (s : State) : Host.Outcome State Fault Refusal :=
  if 16 ≤ c ∨ 32 ≤ d ∨ 64 ≤ cell ∨ 16 ≤ st then .fault (.noUnit "context record, die, cell or stream")
  else
    let r := s.rc c
    let y := s.cell c d cell
    if r.slot.isNone ∨ s.asleep = true then notNow "the context is not resident"
    else if y.core.fly.any (fun f => f.reg == .st st) ∨ y.core.pend.any (fun p => p.reg == .st st) then notNow "a write of the stream is on its way"
    else if r.acquireWaits d cell s.nextId then notNow "an acquire is not performed"
    else
      match y.nextItem st with
      | none => notNow "the stream has nothing to fetch"
      | some t =>
        let D := y.core.desc st
        let before := (y.consumer st t).getD s.nextId
        if r.releaseWaits d cell before then notNow "a release is not performed"
        else if s.itemsHeld c d cell D st before [t] then notNow "an earlier operation of the cell holds the item back"
        else
          let (s, i) := s.getItem c d cell D st t before
          .next (s.keepItem c d cell i)

/-! ## The matrix queue -/

/-- A freeze stops the matrix queue (R222); a faulting operation waits for its handler (R223). -/
def Rec.matrixStops (r : Rec) (x : MxEntry) : Bool :=
  (match r.life with
   | .frozen _ | .free | .saved => true
   | _ => false) || (r.hact && r.rv && r.xin == x.ein)

/-- MATRIX_OP_START (R207, R426): the head macro-operation, released, starts, once what it is ordered after has been
performed (R307); one with ZERO over groups clears its tile first (R217). -/
def execMatrixOpStart (c d cell : Nat) (s : State) : Host.Outcome State Fault Refusal :=
  if 16 ≤ c ∨ 32 ≤ d ∨ 64 ≤ cell then .fault (.noUnit "context record, die or cell")
  else
    let r := s.rc c
    let y := s.cell c d cell
    match y.run, y.core.mxq with
    | none, x :: xs =>
      match r.reqs.find? (fun q => q.id == x.req) with
      | none => notNow "the operation is not held"
      | some q =>
        if r.slot.isNone ∨ s.asleep = true ∨ q.stage ≠ .out then notNow "the operation is not released"
        else if r.matrixStops x ∨ s.blocked c q then notNow "the operation cannot start"
        else
          let s := s.updCell c d cell (fun y => { y with run := some x, core := { y.core with mxq := xs } })
          let n := tileRows x.ops * tileCols x.ops
          .next (if x.op = 3 ∧ opsZero x.ops then s.accPut c d cell x.req ((List.range n).map (fun i => (tileBase x.ops + i, 0))) 0 else s)
    | _, _ => notNow "no operation can start"

/-- MATRIX_ROW_COMPLETE (R211): the array completes one tile row; a fault an item holds is raised at the row that uses it,
with the EIN of the bundle, and counts for the mark at the IN the die has reached (R421, R223). -/
def execMatrixRowComplete (c d cell : Nat) (s : State) : Host.Outcome State Fault Refusal :=
  if 16 ≤ c ∨ 32 ≤ d ∨ 64 ≤ cell then .fault (.noUnit "context record, die or cell")
  else
    match (s.cell c d cell).run with
    | none => notNow "no operation runs"
    | some x =>
      if s.asleep = true ∨ (s.rc c).matrixStops x = true ∨ (s.dctx c d).flag.isSome then notNow "the operation stands at an interruption point"
      else
        match s.macroRow c d cell x with
        | (s, .ok (some x')) => .next (s.updCell c d cell (fun y => { y with run := some x' }))
        | (s, .ok none) =>
          .next ((s.updCell c d cell (fun y => { y with run := none })).updReq c x.req (fun q => { q with stage := .performed }))
        | (s, .error f) =>
          .next (s.updDctx c d (fun y => y.raise { code := f.1, detail := f.2.1, info := f.2.2, ein := x.ein, at_ := y.e
                                                   noRollback := false, die := d, xpc := 0 }))

/-! ## The random-bit queue -/

/-- RBQ_REFILL (R179): the generator appends one entry. -/
def execRbqRefill (c d cell : Nat) (s : State) : Host.Outcome State Fault Refusal :=
  if 16 ≤ c ∨ 32 ≤ d ∨ 64 ≤ cell then .fault (.noUnit "context record, die or cell")
  else if s.asleep then notNow "the clocks of the dies and the networks stand"
  else
    let q := (s.cell c d cell).core
    if q.rbTaken + 16 ≤ q.rbMade then notNow "the queue is full"
    else .next (s.updCore c d cell (fun q => { q with rbMade := q.rbMade + 1 }))

end Sys2Proof.Machine
end

