-- ==== Sys2Proof/Machine/Image.lean ====
section
/-! DEFINITION. Reading and writing blocks of a tenant's memory, and the context image (R398, R434 to R436, R495): the
pre-emption that rolls the field back and writes it. The header, the token records, the way counts, the accumulator
windows and the scratch ways are bytes of memory; what else an image holds, whose layout the spec leaves open, is
kept as data beside it (`State.images`), and its bytes in memory are free. -/

namespace Sys2Proof.Machine

/-! ## Blocks of memory -/

/-- The key of a byte of device memory (class DRAM or SRAMT) of a tenant. -/
def State.devByte (s : State) (pasid va : Nat) : Option Nat :=
  match s.walkSound pasid va with
  | .error _ => none
  | .ok (_, w, level) =>
    let t := pageTarget pasid va w level
    if t.cls = clsDRAM ∨ t.cls = clsSRAMT then some t.key else none

/-- A doubleword of device memory, at a multiple of 8; none where its line has an uncorrectable error. -/
def State.vaWord (s : State) (pasid va : Nat) : Option Nat :=
  if va % 8 ≠ 0 ∨ 2 ^ 52 ≤ va then none else (s.devByte pasid va).bind (fun k => if s.bad k then none else some (memRead s.mem k 8))

/-- Doublewords of device memory. -/
def State.vaWords (s : State) (pasid va : Nat) : Nat → Option (List Nat)
  | 0 => some []
  | n + 1 =>
    match s.vaWord pasid va, State.vaWords s pasid (va + 8) n with
    | some w, some ws => some (w :: ws)
    | _, _ => none

/-- Byte i of doublewords. -/
def wordsByte (ws : List Nat) (i : Nat) : Nat := ws.getD (i / 8) 0 / 256 ^ (i % 8) % 256

/-- The first n bytes of doublewords. -/
def wordsBytes (ws : List Nat) (n : Nat) : List (BitVec 8) := (List.range n).map (fun i => BitVec.ofNat 8 (wordsByte ws i))

/-- Writes numbers at offsets of a block whose keys are given: (offset, bytes, value). -/
def State.putAt (s : State) (key : Nat → Nat) (ws : List (Nat × Nat × Nat)) : State :=
  ws.foldl (fun (s : State) w => { s with mem := memWrite s.mem (key w.1) w.2.1 w.2.2 }) s

/-- Zeroes a block of 4 KiB. -/
def State.wipe (s : State) (k : Nat) : State :=
  { s with mem := memClear s.mem k 4096, poison := s.poison.filter (fun p => decide (p.1 * 128 < k ∨ k + 4096 ≤ p.1 * 128)) }

/-! ## The header (R495) -/

/-- The magic and version of an image. -/
def imageMagic : Nat := 0x4B474349
def imageVersion : Nat := 0x0100

/-- A rectangle in the layout of FIELDG and CGROUP. -/
def Rect.word (f : Rect) : Nat := f.x + f.y * 2 ^ 8 + f.w * 2 ^ 16 + f.h * 2 ^ 24
/-- The rectangle of a FIELDG or CGROUP word. -/
def rectOf (w : Nat) : Rect := ⟨w % 256, w / 2 ^ 8 % 256, w / 2 ^ 16 % 256, w / 2 ^ 24 % 256⟩
/-- Windows in the layout of WINDOW (R117). -/
def Windows.word (w : Windows) : Nat := (bytesWord [w.v, w.k, w.tk, w.st, w.ways, w.acc, w.trk, w.q]).toNat
/-- The windows of a WINDOW word. -/
def windowsOf (w : Nat) : Windows :=
  let b := fun (i : Nat) => w / 256 ^ i % 256
  ⟨b 0, b 1, b 2, b 3, b 4, b 5, b 6, b 7⟩

/-- CTXSTART word E0 of a context, with RESTORE, HOLD and GO 0. -/
def Rec.e0 (r : Rec) (c : Nat) : Nat :=
  c + (if r.priv then 2 ^ 5 else 0) + r.floor.toNat * 2 ^ 8 + r.pasid.toNat * 2 ^ 20

/-- STATUS: the state at the save. -/
def statusWord (hact : Bool) (l : Life) : Nat :=
  (if hact then 1 else 0) + (match l with
    | .halted => 2 * 2 ^ 8
    | .waiting (.idle m) => 2 ^ 8 + 2 ^ 12 + m * 2 ^ 16
    | .waiting _ => 2 ^ 8
    | _ => 0)

/-- RESUME: the repetitions still to broadcast. -/
def resumeWord (rv : Bool) (idx cnt : Nat) : Nat := (if rv then 2 ^ 63 else 0) + cnt % 512 * 2 ^ 48 + idx % 2 ^ 16

/-- The resume record of a context that is saved: a handler's own, else the repetitions the save has left. -/
def Rec.resumeRec (r : Rec) : Nat :=
  if r.hact then resumeWord r.rv r.ridx r.rcnt
  else match r.resumeBc with | some (i, n) => resumeWord true i n | none => 0

/-- The doublewords of the header, by offset. -/
def Rec.header (r : Rec) (c : Nat) : List (Nat × Nat) :=
  [(0, imageMagic + imageVersion * 2 ^ 32), (8, r.imageSize), (16, r.pasid.toNat), (24, r.e0 c)
  , (32, r.field.word + r.group.word * 2 ^ 32), (40, r.win.word), (48, r.resumeRec), (56, statusWord r.hact (if r.held then .waiting .start else r.resumeLife))
  , (64, r.dictAddr), (72, r.routeAddr)]

/-! ## Writing an image (R398, R435) -/

/-- Operations that are issued on a token and will still post (R398). -/
def Rec.inflight (r : Rec) (org : Option (Nat × Nat)) (t : Nat) : Nat :=
  (r.reqs.filter (fun q => q.org == org && q.tok == some t)).length

/-- The token records: offset and value. -/
def Rec.tokenRecords (r : Rec) : List (Nat × Nat) :=
  let one := fun (org : Option (Nat × Nat)) (t count : Nat) => (r.tokenOff org t, r.inflight org t % 2 ^ 16 * 2 ^ 16 + count)
  (List.range 16).map (fun t => one none t (r.core.rTs t).toNat)
  ++ r.imageCells.flatMap (fun p => (List.range (4 * r.win.tk)).map (fun t =>
      one (some p) t ((((r.die p.1).cell p.2).core.rTk t).toNat)))

/-- The way count, the accumulator window and the scratch ways of the cells, as (offset, bytes, value). -/
def State.cellSections (s : State) (c : Nat) : List (Nat × Nat × Nat) :=
  let r := s.rc c
  r.imageCells.flatMap (fun p =>
    let y := (r.die p.1).cell p.2
    let o := r.cellOff p.1 p.2
    let acc := 4 * (8192 * r.win.acc)
    let k := nearKey c p.1 p.2
    let size := (r.win.ways - y.core.cways) * 65536
    (o + 0x5FF8, 8, y.core.cways)
      :: (y.acc.filter (fun a => decide (a.1 < 8192 * r.win.acc))).map (fun a => (o + 0x7000 + 4 * a.1, 4, a.2.toNat))
      ++ ((s.mem.filter (fun b => decide (k ≤ b.1 ∧ b.1 < k + size))).map (fun b => (o + 0x7000 + acc + (b.1 - k), 1, b.2.toNat))))

/-- The parts of an image that the spec names without laying out their bytes, (offset, bytes): the sequencer's state but
for the token records, the die sections, the shadowed registers, the matrix queue, and the end of the last page. -/
def Rec.openParts (r : Rec) : List (Nat × Nat) :=
  let last := r.cellBase + (r.imageCells.map (fun p => r.cellLen p.1 p.2)).sum
  [(0x1000, 0x100), (0x1140, r.cellBase - 0x1140)]
  ++ r.imageCells.flatMap (fun p =>
      let o := r.cellOff p.1 p.2
      [(o, 0x5FF8), (o + 0x6000 + 16 * r.win.tk, 0x1000 - 16 * r.win.tk)])
  ++ [(last, r.imageSize - last)]

/-- Doublewords of a block, from an offset on, take free values: a program that reads them reads anything (log entry 11). -/
def State.freeAt (s : State) (key : Nat → Nat) (off : Nat) : Nat → State
  | 0 => s
  | n + 1 =>
    let i := s.freeCtr
    let bs := (List.range 8).map (fun j => Config.freeByte (i + j))
    State.freeAt { s with freeCtr := i + 8, mem := memPutBytes s.mem (key off) bs } key (off + 8) n

/-- The bytes of an image by which its record in `State.images` is found again, wherever a copy of it lies: the first of
those that the spec leaves without a layout. (Log entry 11: DESIGN CHOICE.) -/
def tagOffset : Nat := 0x1000
def tagBytes : Nat := 16

/-- The image of context c is written at a virtual address of its tenant, by the translations that the Armature holds
(R364): the keys of its pages. -/
def State.writeImage (s : State) (c va : Nat) (pages : List Nat) : State :=
  let r := s.rc c
  let key := pageKey pages va
  let s := r.imageCells.foldl (fun (s : State) p => s.flushNear c p.1 p.2) s
  let cells := s.cellSections c
  let no := s.freeCtr
  let s := (List.range (r.imageSize / 4096)).foldl (fun (s : State) i => s.wipe (key (4096 * i))) s
  let s := r.openParts.foldl (fun (s : State) p => s.freeAt key p.1 (p.2 / 8)) s
  let s := s.putAt key ((r.header c).map (fun w => (w.1, 8, w.2)) ++ r.tokenRecords.map (fun w => (w.1, 4, w.2)) ++ cells)
  let r := { s.rc c with image := some va, tag := memBytes s.mem (key tagOffset) tagBytes }
  let keep := r.field.dies.foldl (fun (r : Rec) d => r.setDie d { r.die d with absel := (s.pdie d).absel, suppress := none }) r
  { s with images := mapPut s.images no keep }

/-- The image that lies at a virtual address of a tenant: of those whose tag stands there, the one that was written there
last, else the newest. -/
def State.imageAt (s : State) (pasid va : Nat) : Option (Nat × Rec) :=
  match s.engKey? pasid (va + tagOffset) false with
  | none => none
  | some k =>
    let found := s.images.reverse.filter (fun p => p.2.pasid.toNat == pasid && p.2.tag == memBytes s.mem k tagBytes)
    match found.find? (fun p => p.2.image == some va) with
    | some p => some p
    | none => found.head?

/-! ## Resuming in place -/

/-- A context goes on with the repetitions that a rollback has left, in the state it was in. -/
def State.goOn (s : State) (c : Nat) : State :=
  let r := s.rc c
  if r.held then s.setRec c { r with held := false, life := .waiting .start }
  else
    let s := s.setRec c { r with resumeBc := none, life := match r.resumeLife with
      | .waiting (.idle m) => .waiting (.idle m)
      | .halted => .halted
      | .frozen .dead => .frozen .dead
      | _ => .ready }
    match r.resumeBc with
    | some (i, n) => s.rebroadcast c i n (s.rc c).core.pc
    | none => s

/-! ## What a context leaves behind -/

/-- A record without a context: the debug block and the log belong to the record.
(Log entry 30: DEDUCED.) -/
def Rec.freed (r : Rec) : Rec :=
  { Rec.reset with bps := r.bps, dbgctl := r.dbgctl, bufs := r.bufs, replay := r.replay, replaying := r.replaying, notes := r.notes }

/-- A released write of a context is performed. (Log entry 51: DEDUCED.) -/
def State.settleOne (s : State) (c : Nat) (q : Req) : State :=
  let writes : Bool := match q.body with | .mem _ ps => ps.any (fun p => p.op != .load) | .pin _ | .unpin _ => true | _ => false
  if q.stage = .out ∧ writes then
    match (match q.org with | some (d, l) => s.doCell c d l q | none => s.doSeq c q) with
    | some (s, _) => s
    | none => s
  else s

/-- Before a context ends or is discarded, what it has released is performed and its near-store caches are written back:
its posted stores do not end with it. -/
def State.settle (s : State) (c : Nat) : State :=
  let s := (s.rc c).reqs.foldl (fun (s : State) q => s.settleOne c q) s
  (s.rc c).imageCells.foldl (fun (s : State) p => s.flushNear c p.1 p.2) s

/-- A context ends: its record is FREE, its held effects are discarded. -/
def State.endContext (s : State) (c : Nat) : State :=
  let s := s.settle c
  let s := s.dropQueued (((s.rc c).reqs.filter (fun q => q.stage == .held)).map Req.id)
  let s := s.unpause c
  { s with mem := memClear s.mem (nearKey c 0 0) (2 ^ 30) }.setRec c (s.rc c).freed

/-- A context ends for a cause that the Atelier reports to the host (R438). -/
def State.endFor (s : State) (c code xin info : Nat) : State :=
  { s with reports := s.reports ++ [Report.ended (s.rc c).pasid.toNat code xin info] }.endContext c

/-! ## Pre-emption (R434) -/

/-- The context can be frozen for a save: not where it already is, nor before a rollback or a drain has ended. -/
def Life.preemptible : Life → Bool
  | .ready | .waiting _ | .halted | .frozen .dead | .frozen (.page ..) | .frozen (.preempt none true) => true
  | _ => false

/-- A context freezes for a save. One that waits for a page goes on, when it does, where it would have after the answer,
and asks again; one that is held stays held. -/
def Rec.freeze (r : Rec) (cmd : Option Nat) : Rec :=
  match r.life with
  | .frozen (.page _ true) => { r with resumeLife := .ready, life := .frozen (.preempt cmd false) }
  | .frozen (.page _ false) =>
    { r with resumeLife := .ready, resumeBc := if r.rcnt = 0 then none else some (r.ridx, r.rcnt), rv := false, rcnt := 0
             life := .frozen (.preempt cmd false) }
  | .frozen (.preempt none true) => { r with life := .frozen (.preempt cmd false) }
  | .waiting .start => { r with held := true, life := .frozen (.preempt cmd false) }
  | l => { r with resumeLife := l, life := .frozen (.preempt cmd false) }

/-- PREEMPTION_REQUEST (R434): the Atelier has context c freeze. -/
def execPreemptionRequest (c : Nat) (s : State) : Host.Outcome State Fault Refusal :=
  if 16 ≤ c then .fault (.noUnit "context record")
  else
    let r := s.rc c
    if r.slot.isNone ∨ !r.life.preemptible ∨ r.life = .frozen (.preempt none true) then notNow "the context cannot be frozen"
    else .next (s.setRec c (r.freeze none))

/-- Operations that go on while a context is saved, or are part of its image. A copy with an end in the near store
ends first. -/
def Req.savable (q : Req) : Bool :=
  match q.body with
  | .cmd m => !(m.cls == 0 && (tbit (m.e.getD 0 0) 63 || tbit (m.e.getD 1 0) 63))
  | .macro_ .. | .stgo .. | .xfer .. => true
  | _ => false

/-- What stands in the way of writing the image at mark k: a commit on its way, an operation up to the mark that has not
ended (R434). -/
def Rec.unsettled (r : Rec) (k : BitVec 48) : Bool :=
  r.cf != k || r.field.dies.any (fun d => !(r.die d).commits.isEmpty)
  || (match r.entryOf k with
      | none => true
      | some m => r.reqs.any (fun q => !((r.cancelled k m.opsTo).any (fun x => x.id == q.id)) && !q.savable))

/-- The field rolls back to the newest mark that every die has passed. A context in which that undoes something was not
at rest there: it goes on from the mark, so that one that halts after it halts again, with nothing in flight (R85). An event at or before the mark stays flagged, since its bundle is not executed
again (R421). (Log entry 26: DEDUCED.) -/
def State.rollForSave (s : State) (c : Nat) : State :=
  let r := s.rc c
  let k := r.commonMark
  let (s', idx, left, _) := s.rollTo c k
  let same := (s'.rc c).core == r.core && (s'.rc c).reqs.length == r.reqs.length && left == 0
  let held := fun (d : Nat) => (r.die d).fevents.filter (fun f => decide (inDiff f.ein k ≤ 0))
  s'.updRec c (fun x => { r.field.dies.foldl (fun (x : Rec) d => x.setDie d { x.die d with fevents := held d }) (x.note (.preempted (k + 1))) with
    resumeBc := if left = 0 then r.resumeBc else some (idx, left)
    resumeLife := if same then r.resumeLife else match r.resumeLife with | .frozen f => .frozen f | _ => .ready })

/-- What a record keeps while its context is saved: the tenant and the token home, beside what is its own. -/
def Rec.savedRec (r : Rec) (va : Nat) : Rec :=
  { r.freed with life := .saved, pasid := r.pasid, floor := r.floor, priv := r.priv, image := some va }

/-- The running command of Armature class 7 that saves context c, if it is the one of an operation. -/
def State.saveCmd (s : State) (id : Nat) : Option QCmd :=
  match s.armRun.getD 7 none with
  | some m => if m.req = id then some m else none
  | none => none

/-- The image is written where the command names it, through the pages whose keys it holds; one that does not fit ends
the command and the context goes on as it was (R364). -/
def State.saveContext (s : State) (c : Nat) (m : QCmd) : State :=
  let r := s.rc c
  let va := (m.cmd.e.getD 1 0).toNat
  let ended := fun (s : State) (code prog : Nat) =>
    { s with armRun := s.armRun.set 7 (some { m with code := code, prog := prog, ended := true }) }
  if (m.cmd.e.getD 2 0).toNat < r.imageSize then ended (s.goOn c) 6 r.imageSize
  else
    let s := (s.unpause c).writeImage c va (m.cmd.items.map Prod.fst)
    let s := { s with mem := memClear s.mem (nearKey c 0 0) (2 ^ 30) }
    ended (s.setRec c (if tbit (m.cmd.e.headD 0) 4 then r.freed else r.savedRec va)) 0 0

/-- PREEMPT_HALT (R434): the last die has reported; the field rolls back, and for a CTXSAVE the image is written. -/
def execPreemptHalt (c : Nat) (s : State) : Host.Outcome State Fault Refusal :=
  if 16 ≤ c then .fault (.noUnit "context record")
  else
    let r := s.rc c
    match r.life with
    | .frozen (.preempt cmd false) =>
      let k := r.commonMark
      if !r.standsAt k ∨ r.unsettled k then notNow "the field has not settled at a mark"
      else
        let s := s.rollForSave c
        match cmd with
        | none => .next (s.updRec c (fun r => { r with life := .frozen (.preempt none true) }))
        | some id =>
          match s.saveCmd id with
          | none => .next (s.goOn c)
          | some m => .next (s.saveContext c m)
    | _ => notNow "the context is not frozen for a save"

end Sys2Proof.Machine
end

