-- ==== Sys2Proof/Machine/Start.lean ====
section
/-! DEFINITION. Placing a context (R6, R17 to R24, R363): the checks of CTXSTART, the dictionary and the tables it loads
(R366 to R370, R375 to R377), a launch from a linked image (R453, R454) and a restore from a context image (R435, R436,
R495). -/

namespace Sys2Proof.Machine

/-- Completion codes (R344). -/
def kDONE : Nat := 0
def kREMAPPED : Nat := 1
def kQUOTA : Nat := 2
def kWEAR : Nat := 3
def kVERIFY : Nat := 4
def kSRCECC : Nat := 5
def kRANGE : Nat := 6
def kREADERS : Nat := 7
def kPAGEFAIL : Nat := 8
def kFULL : Nat := 9
def kDENIED : Nat := 10
def kLINK : Nat := 11
def kSTATE : Nat := 12
def kFIELD : Nat := 13
def kRETIRED : Nat := 14
def kTENANT : Nat := 15
def kWINDOW : Nat := 16
def kBANK : Nat := 17
def kRESIDENCY : Nat := 18

/-! ## Where a context may stand (R20 to R24) -/

/-- The resident contexts but c. -/
def State.residents (s : State) (c : Nat) : List Rec :=
  (((List.range 16).filter (fun i => i ≠ c)).map s.rc).filter (fun r => r.slot.isSome)

/-- Two fields share a die. -/
def Rect.meets (a b : Rect) : Bool := a.dies.any (fun d => b.dies.contains d)

/-- The windows of contexts that share a cell fit into it, and the decode-queue shares of those that share a die fit into
its hubs, which all take every bundle (R23, R26). -/
def windowsFit (field group : Rect) (w : Windows) (others : List Rec) : Bool :=
  let near := others.filter (fun r => r.field.meets field)
  let sum := fun (rs : List Rec) (f : Windows → Nat) => f w + (rs.map (fun r => f r.win)).sum
  field.dies.all (fun d =>
    let here := near.filter (fun r => r.field.dies.contains d)
    group.cells.all (fun l =>
      let rs := here.filter (fun r => r.group.cells.contains l)
      decide (sum rs Windows.v ≤ 8 ∧ sum rs Windows.k ≤ 8 ∧ sum rs Windows.tk ≤ 8 ∧ sum rs Windows.st ≤ 8
        ∧ sum rs Windows.ways ≤ 8 ∧ sum rs Windows.acc ≤ 16 ∧ sum rs Windows.trk ≤ 8 ∧ sum here Windows.q ≤ 4)))

/-- The code with which the checks of R20 end a CTXSTART of record c, if they do. -/
def State.placeFault (s : State) (c pasid : Nat) (field group : Rect) (w : Windows) : Option Nat :=
  let others := s.residents c
  if !(field.legal 8 4 && field.inside 8 4 && group.legal 16 4 && group.inside 16 4) then some kFIELD
  else if field.dies.any (fun d => (s.pdie d).retired) then some kRETIRED
  else if (mapFind s.tenants pasid).isNone ∨ others.any (fun r => r.field.meets field && r.pasid.toNat != pasid) then some kTENANT
  else if 4 ≤ others.length then some kRESIDENCY
  else if !windowsFit field group w others then some kWINDOW
  else none

/-- The lowest residency slot that is free. -/
def State.freeSlot (s : State) (c : Nat) : Nat :=
  ((List.range 4).find? (fun k => !((s.residents c).any (fun r => r.slot == some k)))).getD 0

/-- The lowest base at which n dictionary entries are free in every hub of the field (R366). -/
def State.dictPlace (s : State) (c : Nat) (field : Rect) (n : Nat) : Option Nat :=
  let taken := ((s.residents c).filter (fun r => r.field.meets field)).map (fun r => (r.dictBase, r.dictBase + r.dictSize))
  let fits := fun (b : Nat) => decide (b + n ≤ 8192) && taken.all (fun t => decide (b + n ≤ t.1 ∨ t.2 ≤ b))
  match ((0 :: taken.map Prod.snd).filter fits) with
  | [] => none
  | b :: bs => some (bs.foldl min b)

/-! ## The dictionary and the tables -/

/-- A dictionary block (R367). -/
def State.loadDict (s : State) (pasid va : Nat) : Option (List Nat) :=
  if va % 64 ≠ 0 then none
  else
    match s.vaWords pasid va 8 with
    | some (n :: zs) =>
      if n = 0 ∨ 8192 < n ∨ zs.any (fun z => z != 0) then none
      else
        (s.vaWords pasid (va + 64) (6 * n)).map (fun ws =>
          (List.range n).map (fun x => ((List.range 6).map (fun j => ws.getD (6 * x + j) 0 * 2 ^ (64 * j))).sum))
    | _ => none

/-- The entries of one pattern: the first `n` bytes hold sources below `m`, the others are 0. -/
def patternOk (bs : List Nat) (n : Nat) (bad : Nat → Bool) (loaded : Bool) : Bool :=
  bs.zipIdx.all (fun b => if loaded ∧ b.2 < n then !(bad b.1) else b.1 == 0)

/-- The sources of the loaded patterns: (pattern, receiver, source). -/
def patternList (ws : List Nat) (base stride n mask valid : Nat) : List (Nat × Nat × Nat) :=
  (List.range 64).flatMap (fun p => (List.range n).filterMap (fun i =>
    let b := wordsByte ws (base + stride * p + i)
    if valid / 2 ^ p % 2 = 1 ∧ 128 ≤ b then some (p, i, b % mask) else none))

/-- The route and cell-shuffle tables of a record: RVALID and SRC, CVALID and CSRC (R375, R376). -/
structure Routes where
  valid : Nat
  routes : List (Nat × Nat × Nat)
  cvalid : Nat
  cells : List (Nat × Nat × Nat)

/-- Two receivers of one pattern name one source. -/
def sharedSource : List (Nat × Nat × Nat) → Bool
  | [] => false
  | x :: xs => xs.any (fun y => y.1 == x.1 && y.2.2 == x.2.2) || sharedSource xs

/-- The route block and the cell-shuffle block after it; none where they break a check. Address 0 names no block. -/
def State.loadRoutes (s : State) (pasid va : Nat) (field : Rect) : Option Routes :=
  if va = 0 then some { valid := 0, routes := [], cvalid := 0, cells := [] }
  else
    match s.vaWords pasid va 264, s.vaWords pasid (va + 2112) 520 with
    | some rw, some cw =>
      let n := field.w * field.h
      let valid := rw.headD 0
      let cvalid := cw.headD 0
      let row := fun (p : Nat) => (List.range 32).map (fun f => wordsByte rw (64 + 32 * p + f))
      let crow := fun (p : Nat) => (List.range 64).map (fun f => wordsByte cw (64 + 64 * p + f))
      let bad := fun (b : Nat) => decide (b / 32 % 4 ≠ 0 ∨ (128 ≤ b ∧ n ≤ b % 32))
      let cbad := fun (b : Nat) => decide (b / 64 % 2 ≠ 0)
      let routes := patternList rw 64 32 n 32 valid
      if (rw.drop 1).take 7 ≠ List.replicate 7 0 ∨ (cw.drop 1).take 7 ≠ List.replicate 7 0 then none
      else if !(List.range 64).all (fun p => patternOk (row p) n bad (valid / 2 ^ p % 2 == 1)) then none
      else if !(List.range 64).all (fun p => (crow p).all (fun b => !cbad b)) then none
      else if sharedSource routes then none
      else some { valid := valid, routes := routes, cvalid := cvalid, cells := patternList cw 64 64 64 64 cvalid }
    | _, _ => none

/-! ## Clearing (R22) -/

/-- A die passes to a tenant: what a change of tenant clears is cleared. -/
def State.giveDie (s : State) (d pasid : Nat) : State :=
  if (s.pdie d).tenant = some pasid then s
  else
    let f := fun (y : Engine) => { y with busy := 0, completed := 0, pageWait := 0, refused := 0 }
    let s := s.updPdie d (fun x => { x with tenant := some pasid, tlb := [], copy0 := f x.copy0, copy1 := f x.copy1
                                            copy2 := f x.copy2, copy3 := f x.copy3, pge := f x.pge, kiln := f x.kiln })
    ({ s with bankConf := s.bankConf.filter (fun p => decide (p.1 / 8192 ≠ d)) }.returnOwned d).dropCopies d

/-- The near stores of record c, and, at a launch alone, the local data store share (R107, R116) and the mailboxes. -/
def State.clearFor (s : State) (c pasid : Nat) (field : Rect) (launch : Bool) : State :=
  let s := (field.dies.foldl (fun (s : State) d => s.giveDie d pasid) s).dropCopies (32 + c)
  let s := { s with mem := memClear s.mem (nearKey c 0 0) (2 ^ 30) }
  if launch then { s with mem := memClear (memClear s.mem (ldsKey c) (2 ^ 17)) (mbxKey c) 256, mbx := s.mbx.set c 0 } else s

/-! ## The start vector (R19, R453) -/

/-- What a template presets. -/
structure Vector where
  core : SeqCore
  cell : CellCore
  dc : Map Word
  tc : Map Word

/-- Doubleword i of the group table. -/
def CellCore.wGtab (y : CellCore) (i v : Nat) : CellCore :=
  let g := y.gtab.toNat
  if i = 0 then { y with gtab := BitVec.ofNat 128 (g / 2 ^ 64 * 2 ^ 64 + v) }
  else { y with gtab := BitVec.ofNat 128 (v * 2 ^ 64 + g % 2 ^ 64) }

/-- One preset record: file, index, value; none where it is out of range. -/
def Vector.preset (v : Vector) (s : State) (pasid : Nat) (w : Windows) (group field : Rect) (file ix val : Nat) : Option Vector :=
  let word := BitVec.ofNat 64 val
  let q := v.core
  let y := v.cell
  let at_ := fun (ok : Bool) (x : Vector) => if ok then some x else none
  match file with
  | 1 => at_ (decide (ix < 64)) { v with core := q.wS ix word }
  | 2 => at_ (decide (ix < 64)) { v with core := q.wP ix (tbit word 0) }
  | 3 => at_ (decide (ix < 16)) { v with core := q.wTs ix (word.setWidth 16) }
  | 4 => at_ (decide (ix < 4 * w.tk)) { v with cell := y.wTk ix (word.setWidth 16) }
  | 5 => at_ (decide (ix < 32)) { v with cell := y.wX ix word }
  | 6 => at_ (decide (ix < 8)) { v with dc := mapSet 0 v.dc ix word }
  | 7 => at_ (decide (ix < 8)) { v with tc := mapSet 0 v.tc ix word }
  | 8 => at_ (ix == 0) { v with core := { q with tokmask := word.setWidth 48 } }
  | 9 => at_ (ix == 0) { v with core := { q with diemask := word.setWidth 32 &&& field.dieBits } }
  | 10 => at_ (ix == 0) { v with core := { q with cellmask := word &&& group.cellBits } }
  | 11 => at_ (ix == 0 && decide (val ≤ w.ways)) { v with cell := { y with cways := val } }
  | 12 => at_ (decide (ix < 16)) { v with core := q.wH ix word, cell := y.wH ix word }
  | 13 => at_ (decide (ix < 8 * w.v)) { v with cell := (List.range 64).foldl (fun (y : CellCore) i => y.wV ix i (word.setWidth 32)) y }
  | 14 => at_ (decide (ix < 8 * w.k)) { v with cell := (List.range 64).foldl (fun (y : CellCore) i => y.wK ix i (tbit word i)) y }
  | 15 =>
    if 2 * w.st ≤ ix ∨ val % 64 ≠ 0 then none
    else (s.vaWords pasid val 8).map (fun ws => { v with cell := y.setDesc ix (stloadDesc (ws.map (BitVec.ofNat 64))) })
  | 16 => at_ (ix == 0) { v with cell := { y with cctl := word &&& 0x303 } }
  | 17 => at_ (decide (ix < 2)) { v with cell := y.wGtab ix val }
  | 18 => at_ (ix == 0) { v with core := { q with sstat := word &&& 0x101 } }
  | _ => none

/-- The preset records from an address, in order. -/
def Vector.presets (v : Vector) (s : State) (pasid : Nat) (w : Windows) (group field : Rect) (va : Nat) : Nat → Option Vector
  | 0 => some v
  | n + 1 =>
    match s.vaWord pasid va, s.vaWord pasid (va + 8) with
    | some a, some b =>
      if a / 2 ^ 8 % 2 ^ 8 ≠ 0 ∨ a / 2 ^ 32 ≠ 0 then none
      else
        match v.preset s pasid w group field (a % 256) (a / 2 ^ 16 % 2 ^ 16) b with
        | some v => Vector.presets v s pasid w group field (va + 16) n
        | none => none
    | _, _ => none

/-- A template of a linked image: its sixteen doublewords. (Log entry 28: DEDUCED.) -/
def State.template (s : State) (pasid va i : Nat) : Option (List Nat) := s.vaWords pasid (va + 64 + 128 * i) 16

/-- The header of a linked image: its context count, control-store offset, word count and base PC; none where it is
malformed. (Log entry 44: DEDUCED.) -/
def State.linked (s : State) (pasid va : Nat) : Option (Nat × Nat × Nat × Nat) :=
  if va % 4096 ≠ 0 then none
  else
    match s.vaWords pasid va 5 with
    | some [w0, w1, off, n, pc] =>
      if w0 % 2 ^ 32 ≠ 0x4B474C49 ∨ w0 / 2 ^ 32 ≠ 1 ∨ w1 % 2 ^ 32 = 0 ∨ 16 < w1 % 2 ^ 32 ∨ w1 / 2 ^ 32 ≠ 0 then none
      else some (w1 % 2 ^ 32, off, n, pc)
    | _ => none

/-- A launched context at its start vector (R8, R19): every cell takes its own random seed (R181), the entry PC is the
mark at IN −1 (R422). -/
def placedRec (r : Rec) (v : Vector) (seed entry opsTo : Nat) : Rec :=
  let core := { v.core with pc := BitVec.ofNat 18 entry }
  let r := { r with core := core, cf := BitVec.allOnes 48
                    marks := [{ wpc := core.pc, npc := core.pc, idx := 0, count := 1, kind := true, shd := core
                                first := BitVec.allOnes 48, opsTo := opsTo }] }
  r.field.dies.foldl (fun (r : Rec) d =>
    let cores := r.group.cells.map (fun l => (l, v.cell.reseed (BitVec.ofNat 64 seed) (64 * r.field.fidx d + r.group.gidx l)))
    r.setDie d { DieCtx.reset with
      dc := v.dc, tc := v.tc
      cells := cores.map (fun p => (p.1, ({ Cell.reset with core := p.2 } : Cell)))
      shadows := [{ mark := BitVec.allOnes 48, dc := v.dc, cells := cores, phaseOpen := false, xfers := 0, perms := 0, barSeq := 0 }] }) r

/-- Must-be-0 bits of CTXSTART words E0 and E5. -/
def e0Bad (e : Nat) : Bool := decide (e / 2 ^ 40 ≠ 0 ∨ e / 2 ^ 11 % 2 ^ 9 ≠ 0)

/-- A launch of record c with words E0, E1, E2 and a template (R363): the code that ends it, with the state as it was,
or the state with the context placed. (Log entry 27: DEDUCED.) -/
def State.launchCtx (s : State) (c e0 e1 e2 : Nat) (t : List Nat) (hold : Bool) : Except Nat State :=
  let r := s.rc c
  let pasid := e0 / 2 ^ 20 % 2 ^ 20
  let field := rectOf (e1 % 2 ^ 32)
  let group := rectOf (e1 / 2 ^ 32)
  let w := windowsOf e2
  let f := fun (i : Nat) => t.getD i 0
  let prio := BitVec.ofNat 3 (e0 / 2 ^ 8)
  let lds := s.vaWords pasid (f 10) (f 11 / 8)
  if r.life ≠ .free ∧ r.life ≠ .halted then .error kSTATE
  else if 2 ^ 18 ≤ f 5 ∨ 2 ^ 18 ≤ f 6 ∨ (t.drop 12).any (fun z => z != 0) ∨ 131072 < f 11 ∨ f 11 % 8 ≠ 0 ∨ (f 10 ≠ 0 ∧ lds.isNone) then .error kRANGE
  else
    match s.loadDict pasid (f 3), s.loadRoutes pasid (f 4) field with
    | some dict, some rt =>
      match s.placeFault c pasid field group w with
      | some k => .error k
      | none =>
        let core := { SeqCore.reset with diemask := field.dieBits, cellmask := group.cellBits, prio := prio }
        let v0 : Vector := { core := core, cell := .reset, dc := [], tc := [] }
        match v0.presets s pasid w group field (f 8) (f 9), s.dictPlace c field dict.length with
        | none, _ => .error kRANGE
        | _, none => .error kWINDOW
        | some v, some base =>
          let r' : Rec :=
            { r.freed with life := if hold then .waiting .start else .ready, slot := some (s.freeSlot c)
                           pasid := BitVec.ofNat 20 pasid, floor := prio, priv := tbit (BitVec.ofNat 64 e0) 5
                           field := field, group := group, win := w, dictSize := dict.length, dict := dict, dictAddr := f 3
                           dictBase := base, routeAddr := f 4, routes := rt.routes, routesValid := BitVec.ofNat 64 rt.valid
                           cells := rt.cells, cellsValid := BitVec.ofNat 64 rt.cvalid, xvec := BitVec.ofNat 18 (f 6) }
          let s := ((s.settle c).clearFor c pasid field true).setRec c (placedRec r' v (f 7) (f 5) s.nextId)
          .ok { s with mem := if f 10 = 0 then s.mem else memPutBytes s.mem (ldsKey c) (wordsBytes (lds.getD []) (f 11)) }
    | _, _ => .error kRANGE

/-! ## Restoring (R363, R435, R436) -/

/-- The header of an image in memory, its sixteen first doublewords; none where it is malformed. -/
def State.imageHeader (s : State) (pasid va : Nat) : Option (List Nat) :=
  match s.vaWords pasid va 512 with
  | none => none
  | some ws =>
    let g := fun (i : Nat) => ws.getD i 0
    if g 0 % 2 ^ 32 ≠ imageMagic ∨ g 0 / 2 ^ 40 % 2 ^ 8 ≠ 1 ∨ g 0 / 2 ^ 48 ≠ 0 ∨ g 2 / 2 ^ 20 ≠ 0 ∨ (ws.drop 10).any (fun z => z != 0)
      ∨ e0Bad (g 3) ∨ g 3 / 2 ^ 6 % 4 ≠ 0 ∨ g 3 / 2 ^ 4 % 2 ≠ 0 ∨ g 6 / 2 ^ 57 % 2 ^ 6 ≠ 0 ∨ g 6 / 2 ^ 16 % 2 ^ 32 ≠ 0
      ∨ g 7 / 2 ^ 18 ≠ 0 ∨ g 7 / 2 % 2 ^ 7 ≠ 0 ∨ g 7 / 2 ^ 10 % 4 ≠ 0 ∨ g 7 / 2 ^ 13 % 8 ≠ 0 then none
    else some ws

/-- The bits of a mask over `old`, moved to the units in the same places of `new`. -/
def moveBits (n : Nat) (old new : List Nat) (m : BitVec n) : BitVec n :=
  (old.zip new).foldl (fun (a : BitVec n) p => if m.getLsbD p.1 then a ||| (1 <<< p.2) else a) 0

/-- Moves the parts of an image to a new field and group of the same shape; DIEMASK and CELLMASK keep naming the same
places of the field and of the group (log entry 21). -/
def Rec.moveTo (r : Rec) (field group : Rect) : Rec :=
  let die := fun (d : Nat) => field.dies.getD (r.field.fidx d) d
  let cell := fun (l : Nat) => group.cells.getD (r.group.gidx l) l
  let dieX := fun (x : DieCtx) =>
    { x with cells := r.group.cells.foldl (fun (m : Map Cell) l => mapPut m (cell l) (x.cell l)) []
             shadows := x.shadows.map (fun sh => { sh with cells := r.group.cells.foldl (fun (m : Map CellCore) l => mapPut m (cell l) (mapGet .reset sh.cells l)) [] })
             sent := x.sent.map (fun y => { y with cell := cell y.cell })
             fevents := x.fevents.map (fun f => if r.field.dies.contains f.die then { f with die := die f.die } else f), hold := match x.hold with
               | some (.bar b cs) => some (.bar b (cs.map cell))
               | h => h }
  { r with field := field, group := group
           core := { r.core with diemask := moveBits 32 r.field.dies field.dies r.core.diemask
                                 cellmask := moveBits 64 r.group.cells group.cells r.core.cellmask }
           dies := r.field.dies.foldl (fun (m : Map DieCtx) d => mapPut m (die d) (dieX (r.die d))) []
           reqs := r.reqs.map (fun q => { q with org := q.org.map (fun o => (die o.1, cell o.2)) })
           kept := r.kept.map (fun p => (p.1.map (fun o => (die o.1, cell o.2)), p.2)) }

/-- Loads the token counts of the image (R399), and the postings the record kept. -/
def State.loadTokens (s : State) (old : Rec) (va : Nat) (kept : List (Option (Nat × Nat) × Nat)) (new : Rec) : Rec :=
  let pasid := new.pasid.toNat
  let count := fun (org : Option (Nat × Nat)) (o : Nat) (t : Nat) =>
    (match s.engKey? pasid (va + o) false with | some k => memRead s.mem k 2 | none => 0)
      + (kept.filter (fun x => x.1 == org && x.2 == t)).length
  let core := (List.range 16).foldl (fun (q : SeqCore) t => q.wTs t (BitVec.ofNat 16 (count none (old.tokenOff none t) t))) new.core
  let r := { new with core := core }
  (old.imageCells.zip r.imageCells).foldl (fun (r : Rec) p =>
    let x := r.die p.2.1
    let y := x.cell p.2.2
    let q := (List.range (4 * r.win.tk)).foldl (fun (q : CellCore) t =>
      q.wTk t (BitVec.ofNat 16 (count (some p.1) (old.tokenOff (some p.1) t) t))) y.core
    r.setDie p.2.1 (x.setCell p.2.2 { y with core := q })) r

/-- The accumulator window and the scratch ways of the cells, read from the image. -/
def State.loadCells (s : State) (c : Nat) (old : Rec) (va : Nat) : State :=
  let r := s.rc c
  (old.imageCells.zip r.imageCells).foldl (fun (s : State) p =>
    let o := va + old.cellOff p.1.1 p.1.2 + 0x7000
    let n := 8192 * r.win.acc
    let y := s.cell c p.2.1 p.2.2
    let rd := fun (a k : Nat) => match s.engKey? r.pasid.toNat a false with | some x => memRead s.mem x k | none => 0
    let acc := (List.range n).foldl (fun (m : Map Lane) e => mapSet 0 m e (BitVec.ofNat 32 (rd (o + 4 * e) 4))) []
    let size := (r.win.ways - y.core.cways) * 65536
    let bs := (List.range size).map (fun i => BitVec.ofNat 8 (rd (o + 4 * n + i) 1))
    { s with mem := memPutBytes s.mem (nearKey c p.2.1 p.2.2) bs }.updCell c p.2.1 p.2.2 (fun y => { y with acc := acc })) s

/-- The bank rule of R436: a die that another context uses must have the selector of the image. -/
def State.bankFault (s : State) (c : Nat) (new : Rec) : Bool :=
  new.field.dies.any (fun d => (s.residents c).any (fun r => r.field.dies.contains d) && (s.pdie d).absel != (new.die d).absel)

/-- The operations of an image but its engine commands, which are under way, take new numbers, above `n`. -/
def Rec.renumber (r : Rec) (n : Nat) : Rec :=
  let cmds := (r.reqs.filter Req.isCmd).map Req.id
  let f := fun (i : Nat) => if cmds.contains i then i else n + i
  let pend := fun (p : Pend) => { p with op := f p.op }
  let fly := fun (x : Fly) => { x with op := x.op.map f }
  let mx := fun (e : MxEntry) => { e with req := f e.req }
  let core := fun (y : CellCore) => { y with pend := y.pend.map pend, fly := y.fly.map fly, mxq := y.mxq.map mx }
  let cell := fun (y : Cell) => { y with core := core y.core, run := y.run.map mx }
  { r with core := { r.core with pend := r.core.pend.map pend, fly := r.core.fly.map fly }
           reqs := r.reqs.map (fun q => { q with id := f q.id })
           dies := r.dies.map (fun p => (p.1, { p.2 with cells := p.2.cells.map (fun z => (z.1, cell z.2)) })) }

/-- The restored record: the mark at which it was saved stands as its first entry, so that a fault before the next mark
rolls back to the restore; its forwarding caches are empty (R291). (Log entry 29: DEDUCED.) -/
def Rec.restored (r : Rec) (opsTo : Nat) : Rec :=
  let k := r.core.inn - 1
  let sh := fun (x : DieCtx) => { x with passed := k, e := k + 1, shadows :=
    [{ mark := k, dc := x.dc, cells := x.cells.map (fun p => (p.1, p.2.core)), phaseOpen := x.phaseOpen, xfers := x.xfers
       perms := x.perms, barSeq := x.barSeq }] }
  { r with cf := k, marks := [{ wpc := r.core.pc, npc := r.core.pc, idx := 0, count := 1, kind := true, shd := r.core, first := k, opsTo := opsTo }]
           dies := r.dies.map (fun (p : Nat × DieCtx) => (p.1, sh p.2)), redBusy := [], occ := 0, occFlight := [], sent := [], waitCnt := 0 }.noFwdCache

/-- The times of the agents of a context pass to the home maximum (R304). -/
def State.agentsPass (s : State) (c : Nat) : State :=
  (s.rc c).imageCells.foldl (fun (s : State) p => s.timePasses c (some p)) (s.timePasses c none)

/-- An image has been restored: the operations that were under way, and the postings that were kept, are the restored
context's. -/
def State.taken (s : State) (no : Nat) (r : Rec) : State :=
  let rest := r.reqs.filter (fun q => !q.isCmd)
  { s with images := mapPut s.images no { r with kept := [], reqs := rest } }

/-- The state a saved context returns to (R363). -/
def statusLife (w : Nat) : Life :=
  if w / 2 ^ 8 % 4 = 2 then .halted
  else if w / 2 ^ 8 % 4 = 1 ∧ w / 2 ^ 12 % 2 = 1 then .waiting (.idle (w / 2 ^ 16 % 4))
  else .ready

/-- A restore of record c from an image (R363): the code that ends it, or the state with the context placed. The image
lies at a virtual address of the tenant whose context the record holds saved (R362). (Log entry 27: DEDUCED.) -/
def State.restoreCtx (s : State) (c e0 e1 e2 va : Nat) (hold : Bool) : Except Nat State :=
  let r := s.rc c
  let pasid := r.pasid.toNat
  let field := rectOf (e1 % 2 ^ 32)
  let group := rectOf (e1 / 2 ^ 32)
  if r.life ≠ .saved then .error kSTATE
  else if va % 4096 ≠ 0 then .error kRANGE
  else
    match s.imageHeader pasid va, s.imageAt pasid va with
    | some h, some (no, old) =>
      let g := fun (i : Nat) => h.getD i 0
      let w := windowsOf (g 5)
      let of := rectOf (g 4 % 2 ^ 32)
      let og := rectOf (g 4 / 2 ^ 32)
      if g 2 ≠ pasid ∨ e0 / 2 ^ 20 % 2 ^ 20 ≠ pasid then .error kTENANT
      else if field.w ≠ of.w ∨ field.h ≠ of.h ∨ group.w ≠ og.w ∨ group.h ≠ og.h ∨ e2 ≠ g 5 then .error kWINDOW
      else
        match s.placeFault c pasid field group w with
        | some k => .error k
        | none =>
          match s.loadDict pasid (g 8), s.loadRoutes pasid (g 9) field with
          | some dict, some rt =>
            match s.dictPlace c field dict.length with
            | none => .error kWINDOW
            | some base =>
              let hact := g 7 % 2 == 1
              let rv := g 6 / 2 ^ 63 == 1
              let life := statusLife (g 7)
              let new := ((s.loadTokens old va old.kept (old.moveTo field group)).renumber s.nextId).restored (2 * s.nextId)
              let new := { new with
                slot := some (s.freeSlot c), life := .waiting .start, resumeLife := life, held := false, tag := [], floor := BitVec.ofNat 3 (g 3 / 2 ^ 8)
                priv := tbit (BitVec.ofNat 64 (g 3)) 5, hact := hact, rv := hact && rv
                ridx := if hact then g 6 % 2 ^ 16 else 0, rcnt := if hact then g 6 / 2 ^ 48 % 512 else 0
                resumeBc := if hact then old.resumeBc else if rv ∧ g 6 / 2 ^ 48 % 512 ≠ 0 then some (g 6 % 2 ^ 16, g 6 / 2 ^ 48 % 512) else none
                dict := dict, dictSize := dict.length, dictAddr := g 8, dictBase := base, routeAddr := g 9, routes := rt.routes
                routesValid := BitVec.ofNat 64 rt.valid, cells := rt.cells, cellsValid := BitVec.ofNat 64 rt.cvalid
                image := some va, kept := [], bps := r.bps, dbgctl := r.dbgctl, bufs := r.bufs, replay := r.replay, replaying := r.replaying, notes := r.notes }
              if s.bankFault c new then .error kBANK
              else
                let s := (s.clearFor c pasid field false).setRec c new
                let s := new.field.dies.foldl (fun (s : State) d =>
                  if (s.residents c).any (fun r => r.field.dies.contains d) then s
                  else s.updPdie d (fun x => { x with absel := (new.die d).absel })) s
                let s := s.loadCells c old va
                let s := ({ s with nextId := 2 * s.nextId }.taken no old).agentsPass c
                .ok (if hold then s else s.goOn c)
          | _, _ => .error kRANGE
    | _, _ => .error kRANGE

/-! ## CTXSTART and its GO form (R363) -/

/-- The contexts of the mask that wait at their start vector or resume point leave it together. -/
def State.goMask (s : State) (pasid mask : Nat) : State :=
  (List.range 16).foldl (fun (s : State) c =>
    let r := s.rc c
    if mask / 2 ^ c % 2 = 1 ∧ r.pasid.toNat = pasid ∧ r.life = .waiting .start then s.goOn c else s) s

/-- A CTXSTART by its descriptor, for a tenant: the code, and the state. -/
def State.ctxstart (s : State) (pasid : Nat) (e : List Word) : State × Nat :=
  let g := fun (i : Nat) => (e.getD i 0).toNat
  let e0 := g 0
  let c := e0 % 16
  let hold := e0 / 2 ^ 6 % 2 == 1
  if e0Bad e0 ∨ g 5 / 2 ^ 16 ≠ 0 ∨ g 6 ≠ 0 ∨ g 7 ≠ 0 then (s, kRANGE)
  else if e0 / 2 ^ 7 % 2 = 1 then
    if e0 ≠ 2 ^ 7 ∨ g 1 ≠ 0 ∨ g 2 ≠ 0 then (s, kRANGE) else (s.goMask pasid (g 5), kDONE)
  else if (mapFind s.tenants (e0 / 2 ^ 20 % 2 ^ 20)).isNone then (s, kTENANT)
  else
    let out :=
      if e0 / 2 ^ 4 % 2 = 1 then s.restoreCtx c e0 (g 1) (g 2) (g 3) hold
      else
        let p := e0 / 2 ^ 20 % 2 ^ 20
        match s.linked p (g 3) with
        | none => .error kRANGE
        | some (n, _) =>
          match ((List.range n).filterMap (fun i => s.template p (g 3) i)).find? (fun t => t.headD 0 % 16 == c) with
          | none => .error kRANGE
          | some t => s.launchCtx c e0 (g 1) (g 2) t hold
    match out with
    | .ok s => (s, kDONE)
    | .error k => (s, k)

end Sys2Proof.Machine
end

