-- ==== Sys2Proof/Machine/Engine.lean ====
section
/-! DEFINITION. The engines (R342 to R348, R355, R360, R361): how a command leaves its queue, starts, waits for a page and
ends, and what copies, bin scatters, messages and packets do. A command's work is done in one step where it ends,
unless it meets a page that is not present or a watchpoint. -/

namespace Sys2Proof.Machine

/-! ## Engines by name -/

/-- The engine exists: classes 3 to 7 run at the Armature. -/
def engineOk : EngineId → Bool
  | .copy d i => decide (d < 32 ∧ i < 4)
  | .pointing d | .kiln d => decide (d < 32)
  | .armature cls => decide (3 ≤ cls ∧ cls < 8)

/-- The die of an engine and its index of R411. -/
def enginePlace : EngineId → Option (Nat × Nat)
  | .copy d i => some (d, i)
  | .pointing d => some (d, 4)
  | .kiln d => some (d, 5)
  | .armature _ => none

/-- The command an engine runs. -/
def State.running (s : State) (e : EngineId) : Option QCmd :=
  match e with
  | .armature cls => s.armRun.getD cls none
  | e => match enginePlace e with | some (d, i) => ((s.pdie d).engine i).running | none => none

/-- Replaces the command an engine runs. -/
def State.setRunning (s : State) (e : EngineId) (m : Option QCmd) : State :=
  match e with
  | .armature cls => { s with armRun := s.armRun.set cls m }
  | e => match enginePlace e with
    | some (d, i) => s.updPdie d (fun x => x.setEngine i { x.engine i with running := m })
    | none => s

/-- Updates a die's engine; nothing at the Armature. -/
def State.updEngine (s : State) (e : EngineId) (f : Engine → Engine) : State :=
  match enginePlace e with
  | some (d, i) => s.updPdie d (fun x => x.setEngine i (f (x.engine i)))
  | none => s

/-- The engine has paused on a watchpoint. -/
def State.isPaused (s : State) (e : EngineId) : Bool :=
  match enginePlace e with | some (d, i) => ((s.pdie d).engine i).paused | none => false

/-- Descriptor word n of a command. -/
def QCmd.w (m : QCmd) (n : Nat) : Nat := (m.cmd.e.getD n 0).toNat

/-- The operation of a command: in its context's record, or, while the context is saved, in its image. -/
def State.cmdReq (s : State) (id : Nat) : Option Req :=
  match s.req id with
  | some (_, q) => some q
  | none => s.images.findSome? (fun p => p.2.reqs.find? (fun q => q.id == id))

/-- The die of a command's flash destination, the issuer's where it is not mapped. (Log entry 34: DEDUCED.) -/
def State.destDie (s : State) (m : QCmd) : Nat :=
  match s.walk m.pasid (m.w 1 % 2 ^ 52) with
  | .ok (_, w, level) =>
    let k := (pageTarget m.pasid (m.w 1 % 2 ^ 52) w level).key
    if isDieKey k then k / 2 ^ 48 else m.home
  | .error _ => m.home

/-- The engine that runs a command (R342). -/
def State.engineFor (s : State) (m : QCmd) : EngineId :=
  match m.cmd.cls with
  | 0 | 8 => .copy m.home (match m.org with | some (_, l) => l % 4 | none => 0)
  | 1 => .kiln (s.destDie m)
  | 2 => .pointing (s.heapDie m.pasid (refHid (m.w 0)))
  | n => .armature n

/-- A command has been released (R426), and no acquire of the sequencer before it is still to be performed (R268). -/
def State.released (s : State) (m : QCmd) : Bool :=
  match s.cmdReq m.req with
  | some q => q.stage == .out && !(q.org.isNone && (s.rc m.c).seqAcquireWaits q.id)
  | none => m.req != cmdUnclaimed

/-! ## Leaving a queue -/

/-- ARMATURE_COMMAND_FORWARD (R342): the queue of a class below 3 hands its head to the die queue of the engine that runs
it, where there is room. -/
def execArmatureCommandForward (cls : Nat) (s : State) : Host.Outcome State Fault Refusal :=
  if 3 ≤ cls then .fault (.noUnit "forwarding queue")
  else if s.asleep then notNow "the device is not in RUN"
  else
    match s.armq.getD cls [] with
    | [] => notNow "the queue is empty"
    | m :: rest =>
      match enginePlace (s.engineFor m) with
      | none => notNow "no engine"
      | some (d, i) =>
        if !s.released m then notNow "the command is held"
        else if dieDepth ≤ ((s.pdie d).engine i).queue.length then notNow "the queue of the engine is full"
        else
          let s := { s with armq := s.armq.set cls rest }
          .next ({ s with cmdNo := s.cmdNo + 1 }.updPdie d (fun x =>
            x.setEngine i { x.engine i with queue := (x.engine i).queue ++ [{ m with no := s.cmdNo }] }))

/-- The dies whose queues can hold commands for an engine. -/
def queueDies (e : EngineId) : List Nat :=
  match e with
  | .copy d _ => [d]
  | .pointing _ | .kiln _ => List.range 32
  | .armature _ => []

/-- The earlier of two commands that wait in die queues. -/
def earlier (a b : QCmd × State) : QCmd × State := if b.1.no < a.1.no then b else a

/-- The head of a queue that an engine takes next, and the state without it: of the heads that it runs and that have been
released, the one that arrived first (R342). -/
def State.takeHead (s : State) (e : EngineId) : Option (QCmd × State) :=
  match e with
  | .armature cls =>
    match s.armq.getD cls [] with
    | m :: rest => if s.released m then some (m, { s with armq := s.armq.set cls rest }) else none
    | [] => none
  | e =>
    match enginePlace e with
    | none => none
    | some (_, i) =>
      match (queueDies e).filterMap (fun x =>
        match ((s.pdie x).engine i).queue with
        | m :: rest =>
          if s.engineFor m == e && s.released m
          then some (m, s.updPdie x (fun y => y.setEngine i { y.engine i with queue := rest })) else none
        | [] => none) with
      | [] => none
      | h :: hs => some (hs.foldl earlier h)

/-- What an acquire point of a command waits for (R317): every earlier access of its agent. -/
def State.acquirePoint (s : State) (m : QCmd) : Bool :=
  match s.req m.req with
  | some (c, q) => (s.rc c).reqs.all (fun p =>
      !(p.org == q.org && decide (p.id < q.id) && p.stage != .performed && s.beforeRelease p))
  | none => true

/-- A CPY from or to the near store waits for a RESIZE of its cell that comes before it and has still to be performed
(R241). -/
def State.nearMoves (s : State) (m : QCmd) : Bool :=
  match s.req m.req with
  | some (c, q) => m.cmd.near && (match q.org with
      | some (d, l) => ((s.rc c).ownBefore d l q.id).any (fun p => match p.body with | .resize .. => true | _ => false)
      | none => false)
  | none => false

/-! ## Ending -/

/-- n bytes from an address touch the cell control page, which no engine reaches (R139). -/
def touchesCtl (va : Int) (n : Nat) : Bool := decide (va < (ctlPage : Int) + 2 ^ 16 ∧ (ctlPage : Int) < va + n ∧ n ≠ 0)

/-- The status address of a command (R346); 0 where it has none. -/
def QCmd.status (m : QCmd) : Nat :=
  match m.cmd.cls with
  | 0 | 8 => m.w 6 | 1 | 7 => m.w 3 | 2 | 3 => m.w 2 | 5 | 6 => m.w 4 | _ => 0

/-- The status address breaks R344. -/
def QCmd.badStatus (m : QCmd) : Bool := decide (m.status % 8 ≠ 0 ∨ 2 ^ 52 ≤ m.status) || touchesCtl m.status 8

/-- A command's work is over, with a code. -/
def QCmd.finish (m : QCmd) (code : Nat) : QCmd := { m with code := code, ended := true, page := false }

/-- The completion record (R344). -/
def QCmd.record (m : QCmd) : Nat := m.prog % 2 ^ 48 * 2 ^ 16 + m.cmd.cls * 2 ^ 8 + m.code % 2 ^ 8

/-- The agent whose command an engine runs. -/
def QCmd.agent (m : QCmd) : Agent := (m.c, m.org)

/-- What an access of an engine comes to: a page that is not present, a refusal, an uncorrectable error (R254), a value: the key
of an address that is translated. -/
inductive EngVal where
  | page | range | ecc | val (v : Nat)

/-- The key an engine of a die, or of the Armature, reaches at an address for an agent, unless the page is not present, its
class or its permissions refuse the access, it lies in the control page (R139, R228, R345), or the walk meets an uncorrectable
error (R254). -/
def State.engAt (s : State) (ag : Agent) (die : Option Nat) (pasid va : Nat) (kind : AccKind) : State × EngVal :=
  if inCtlPage va then (s, .range)
  else
    let page : Except FInfo (State × Word × Nat) :=
      match die with
      | some d => s.xlate ag d pasid va
      | none => (match s.walkFor ag pasid va with | .ok (s, _, w, level) => .ok (s, w, level) | .error f => .error f)
    match page with
    | .error f => (s, if f.1 = cECC then .ecc else .page)
    | .ok (s, w, level) =>
      let t := pageTarget pasid va w level
      match (if t.cls = clsHOST then s.atsFind pasid va else some s) with
      | none => (s, .page)
      | some s =>
        if (classFault kind t.cls 8).isSome ∨ (kind.reads ∧ !tbit w 2) ∨ (kind.writes ∧ !tbit w 3) then (s, .range)
        else (s, .val (if kind.writes then s.writeKey t else s.readKey t))

/-- The die of an engine. -/
def engineDie (e : EngineId) : Option Nat := (enginePlace e).map Prod.fst

/-- The lowest byte of an engine's write that a watchpoint of the command's context matches (R443). -/
def State.watched (s : State) (e : EngineId) (m : QCmd) (va n : Nat) : Option Nat :=
  match engineDie e, s.req m.req with
  | some d, some (c, _) => (s.watches c d).hit (fun w => tbit w 62) va n
  | _, _ => none

/-- WATCH of an engine write, reported at the engine's die (R443). -/
def State.watchEvent (s : State) (e : EngineId) (m : QCmd) (va : Nat) : State :=
  match enginePlace e, s.req m.req with
  | some (d, i), some (c, q) => s.event c d cWATCH (0x10 + i) va q.ein d
  | _, _ => s

/-- The token of a command posts, in the record of its context or at token home (R13, R343). -/
def State.postCmd (s : State) (id : Nat) : State :=
  match s.req id with
  | some (c, q) => s.postReq c q
  | none => match s.imageReq id with | some (k, r, q) => s.postImage k r q false | none => s

/-- The value of the completion record as its context receives it (R439). -/
def State.recordValue (s : State) (m : QCmd) : State × Nat :=
  match s.req m.req with
  | none => (s, m.record)
  | some (c, q) =>
    match s.logged c inENGINE ((s.rc c).reporter q).1 (q.org.map Prod.snd) q.ein.toNat q.pc.toNat [m.record] with
    | .ok (s, vs) => (s, vs.headD 0)
    | .error f => (s.lateFault c q f, m.record)

/-- The command of a firmware command that the Armature runs: it posts no token. -/
def cmdFirmware : Nat := 2 ^ 64 + 1

/-- A firmware command that an engine has run ends with a status (R459): success, or failure. -/
def State.fwDone (s : State) (code : Nat) : State := { s with fw := { s.fw with busy := false, status := BitVec.ofNat 8 code } }

/-- The engine is free: the command is counted, its token posts. -/
def State.retire (s : State) (e : EngineId) (m : QCmd) : State :=
  let s := (s.setRunning e none).updEngine e (fun y => { y with completed := y.completed + 1 })
  if m.req = cmdFirmware then s.fwDone (if m.code = kDONE then 0 else 6) else s.postCmd m.req

/-- The context, die and cell of a command's near store. -/
def State.cmdCell (s : State) (m : QCmd) : Option (Nat × Nat × Nat) :=
  match s.req m.req, m.org with | some (c, _), some (d, l) => some (c, d, l) | _, _ => none

/-- An engine has written n bytes at a key for a command: the lines that the issuing cell's cache was filled with are stale
(R318). -/
def State.engWrote (s : State) (m : QCmd) (k n : Nat) : State :=
  match s.cmdCell m with
  | some (c, d, l) => (List.range ((k + n - 1) / 128 + 1 - k / 128)).foldl (fun (s : State) i => s.staleNear c d l (k / 128 + i)) s
  | none => s

/-- An engine writes n bytes for a command. -/
def State.engPoke (s : State) (m : QCmd) (k n v : Nat) : State := ((s.l2Write k 0 false).poke k n v).engWrote m k n

/-- The end of a command whose work is over: its record is written, or lost, or waits for a page (R344). None where it
still waits. -/
def State.endCmd (s : State) (e : EngineId) (m : QCmd) : Option State :=
  let a := m.status
  if a = 0 ∨ m.lost ∨ m.badStatus then some (s.retire e m)
  else
    match s.engAt m.agent (engineDie e) m.pasid a .engWrite with
    | (s, .page) => if m.page then none else some (s.setRunning e (some { m with page := true }))
    | (s, .range) | (s, .ecc) => some (s.retire e m)
    | (s, .val k) =>
      let (s, v) := s.recordValue m
      let s := s.engPoke m k 8 v
      let s := match s.watched e m a 8 with | some b => s.watchEvent e m b | none => s
      some (s.retire e m)

/-- How the work of a command goes on: it needs a page that is not present, it stands before a write that a watchpoint
matches, or it is over. -/
inductive EngRun where
  | page (s : State) (m : QCmd)
  | watch (s : State) (m : QCmd) (va : Nat)
  | over (s : State) (m : QCmd)

/-! ## CPY (R347) -/

/-- The command after an access that answered: its work is over where the access was refused or met an error. None where
it waits for a page. -/
def EngVal.go (x : State × EngVal) (m : QCmd) (next : Nat → QCmd) : State × Option QCmd :=
  match x with
  | (s, .page) => (s, none)
  | (s, .range) => (s, some (m.finish kRANGE))
  | (s, .ecc) => (s, some (m.finish kSRCECC))
  | (s, .val v) => (s, some (next v))

/-- The descriptor of a CPY. -/
structure Cpy where
  rows : Nat
  rb : Nat
  src : Nat
  dst : Nat
  sstr : Int
  dstr : Int
  snear : Bool
  dnear : Bool
  uc : Nat
  disc : Bool

/-- The descriptor of a CPY command. -/
def QCmd.cpy (m : QCmd) : Cpy :=
  { rows := m.w 2 / 2 ^ 32, rb := m.w 2 % 2 ^ 32, src := m.w 0 % 2 ^ 52, dst := m.w 1 % 2 ^ 52
    sstr := (m.cmd.e.getD 3 0).toInt, dstr := (m.cmd.e.getD 4 0).toInt, snear := tbit (m.cmd.e.getD 0 0) 63
    dnear := tbit (m.cmd.e.getD 1 0) 63, uc := m.w 5 / 2 ^ 56, disc := tbit (m.cmd.e.getD 5 0) 55 }

/-- Where a row starts. -/
def Cpy.srcRow (x : Cpy) (r : Nat) : Int := (x.src : Int) + x.sstr * (r : Int)
def Cpy.dstRow (x : Cpy) (r : Nat) : Int := (x.dst : Int) + x.dstr * (r : Int)

/-- The rows of one end lie in [0, top): the first and the last decide. -/
def rowsInside (row : Nat → Int) (rows rb top : Nat) : Bool :=
  decide (0 ≤ row 0 ∧ row 0 + (rb : Int) ≤ (top : Int) ∧ 0 ≤ row (rows - 1) ∧ row (rows - 1) + (rb : Int) ≤ (top : Int))

/-- A source row and a destination row share a byte. -/
def Cpy.overlaps (x : Cpy) : Bool :=
  x.snear == x.dnear && (List.range x.rows).any (fun r => (List.range x.rows).any (fun q =>
    decide (x.srcRow r < x.dstRow q + (x.rb : Int) ∧ x.dstRow q < x.srcRow r + (x.rb : Int))))

/-- A CPY that ends with RANGE before any access. -/
def Cpy.refused (x : Cpy) (m : QCmd) (size : Nat) : Bool :=
  decide (m.w 0 / 2 ^ 52 % 2 ^ 11 ≠ 0 ∨ m.w 1 / 2 ^ 52 % 2 ^ 11 ≠ 0 ∨ m.w 5 % 2 ^ 55 ≠ 0 ∨ x.uc = 255 ∨ m.w 7 ≠ 0)
  || ((x.snear || x.dnear) && m.org.isNone)
  || (decide (x.rows ≠ 0 ∧ x.rb ≠ 0)
      && (decide (2 ^ 40 < x.rows * x.rb) || !rowsInside x.srcRow x.rows x.rb (if x.snear then size else 2 ^ 52)
          || !rowsInside x.dstRow x.rows x.rb (if x.dnear then size else 2 ^ 52) || x.overlaps
          || (List.range x.rows).any (fun r => (!x.snear && touchesCtl (x.srcRow r) x.rb) || (!x.dnear && touchesCtl (x.dstRow r) x.rb))))

/-- A line of the destination receives no byte of the command from byte p of its block on (R347, R443). -/
def Cpy.lastOf (x : Cpy) (line p : Nat) : Bool :=
  let r := p / x.rb
  let lo : Int := (line * 128 : Nat)
  !(decide (p % x.rb ≠ 0 ∧ x.dstRow r + ((p % x.rb : Nat) : Int) < lo + 128 ∧ lo < x.dstRow r + (x.rb : Int))
    || (List.range x.rows).any (fun q => decide (r < q ∨ (r = q ∧ p % x.rb = 0))
        && decide (x.dstRow q < lo + 128 ∧ lo < x.dstRow q + (x.rb : Int))))

/-- The bytes of one step of a copy, from byte p of the block on: within one row and one 128-byte line at both ends. -/
def Cpy.chunk (x : Cpy) (p : Nat) : Nat × Nat × Nat :=
  let r := p / x.rb
  let b := p % x.rb
  let src := (x.srcRow r + (b : Int)).toNat
  let dst := (x.dstRow r + (b : Int)).toNat
  (src, dst, min (x.rb - b) (min (128 - src % 128) (128 - dst % 128)))

/-- The key of one end of a copy. -/
def State.copyKey (s : State) (e : EngineId) (m : QCmd) (near write : Bool) (va : Nat) : State × EngVal :=
  if near then
    match s.cmdCell m with
    | some (c, d, l) => (s, .val (nearKey c d l + va))
    | none => (s, .range)
  else s.engAt m.agent (engineDie e) m.pasid va (if write then .engWrite else .engRead)

/-- A full line of scratch that the copy has filled (R347). -/
def State.copyFull (s : State) (x : Cpy) (m : QCmd) (dst n : Nat) : State :=
  match (if x.dnear && x.lastOf (dst / 128) (m.prog + n) then s.cmdCell m else none) with
  | some (c, d, l) => s.updCell c d l (fun y => { y with empty := setLine true (dst / 128) y.empty })
  | none => s

/-- One step of a copy: n bytes from src to dst. A source line with an error is written poisoned. The read of a line counts
once its last byte has been taken (R249); a line that the write fills takes the count and mark of the descriptor (R248).
None where a page is not present; a refusal or an error of a walk ends the command. (Log entry 36: DEDUCED.) -/
def State.copyOne (s : State) (e : EngineId) (x : Cpy) (m : QCmd) (src dst n : Nat) : State × Option QCmd :=
  match s.copyKey e m x.snear false src with
  | (s, .val k) =>
    match s.copyKey e m x.dnear true dst with
    | (s, .val k') =>
      let bad := s.bad k
      let bs := memBytes s.mem k n
      let s := if (src + n) % 128 = 0 ∨ (m.prog + n) % x.rb = 0 then s.noteRead k x.uc x.disc false else s
      let s := if dst % 128 = 0 ∨ m.prog % x.rb = 0 then s.l2Write k' x.uc x.disc else s
      let s := ((s.pokeBytes k' bs bad).engWrote m k' n).copyFull x m dst n
      (s, some { m with prog := m.prog + n, code := if bad then kSRCECC else m.code })
    | r => EngVal.go r m (fun _ => m)
  | r => EngVal.go r m (fun _ => m)

/-- Copies from byte `prog` of the block on. `stop` says that a watchpoint ends the run before its write; with `skid`
the run completes the destination line of that number, also where later rows come back to it. -/
def copyRun (e : EngineId) (x : Cpy) (stop : Bool) (skid : Option Nat) : Nat → State → QCmd → EngRun
  | 0, s, m => .over s m
  | fuel + 1, s, m =>
    if x.rows * x.rb ≤ m.prog then .over s (m.finish m.code)
    else
      let (src, dst, n) := x.chunk m.prog
      let out := (match skid with | some line => x.lastOf line m.prog | none => false)
      match (if stop && !x.dnear then s.watched e m dst n else none) with
      | some va => .watch s m va
      | none =>
        if out then .over s m
        else
          match s.copyOne e x m src dst n with
          | (s, none) => .page s m
          | (s, some m) => if m.ended then .over s m else copyRun e x stop skid fuel s m

/-- The scratch size of a command's cell. -/
def State.cmdScratch (s : State) (m : QCmd) : Nat :=
  match s.cmdCell m with | some (c, d, l) => s.scratchSize c d l | none => 0

/-- CPY: its checks, then its copy. -/
def State.runCpy (s : State) (e : EngineId) (m : QCmd) : EngRun :=
  let x := m.cpy
  if x.refused m (s.cmdScratch m) then .over s (m.finish kRANGE)
  else copyRun e x true none (x.rows * x.rb + 1) s m

/-! ## BINSCAT (R348) -/

/-- A BINSCAT that ends with RANGE before any access. -/
def QCmd.binRefused (m : QCmd) : Bool :=
  let bins := m.w 2 % 2 ^ 32
  let cap := m.w 2 / 2 ^ 32
  let ov := m.w 4
  decide (bins = 0 ∨ 2 ^ 24 < bins ∨ m.w 0 % 4 ≠ 0 ∨ m.w 1 % 4 ≠ 0 ∨ m.w 3 % 8 ≠ 0 ∨ m.w 5 % 8 ≠ 0 ∨ 2 ^ 32 ≤ ov ∨ m.w 7 ≠ 0
    ∨ 2 ^ 52 < m.w 0 + 4 * bins * cap ∨ 2 ^ 52 < m.w 1 + 4 * bins ∨ 2 ^ 52 < m.w 3 + 8 * ov ∨ 2 ^ 52 < m.w 5 + 8
    ∨ 2 ^ 52 ≤ m.w 0 ∨ 2 ^ 52 ≤ m.w 1 ∨ 2 ^ 52 ≤ m.w 3)
  || touchesCtl (m.w 0) (4 * bins * cap) || touchesCtl (m.w 1) (4 * bins) || touchesCtl (m.w 3) (8 * ov) || touchesCtl (m.w 5) 8

/-- AFADD.W(va, 1) by an engine, a coherent access at the command's scope: the count before. At a home on another die it is a
remote atomic (R443). -/
def State.engCount (s : State) (e : EngineId) (m : QCmd) (va : Nat) : State × EngVal :=
  match s.engAt m.agent (engineDie e) m.pasid va (.atomic true) with
  | (s, .val k) =>
    if s.bad k then (s, .ecc)
    else
      let old := memRead s.mem k 4
      let s := ((s.noteRead k 0 false false).engPoke m k 4 (old + 1)).noteCoherent m.c m.org m.sc k (.rmw .add)
      let own := (engineDie e).getD 32
      (match s.req m.req with | some (c, q) => s.remoteMatch c own own q.ein k va 4 | none => s, .val old)
  | r => r

/-- A write of n bytes by an engine. -/
def State.engPut (s : State) (e : EngineId) (m : QCmd) (va n v : Nat) : State × EngVal :=
  match s.engAt m.agent (engineDie e) m.pasid va .engWrite with
  | (s, .val k) => (s.engPoke m k n v, .val 0)
  | r => r

/-- One access of a bin scatter. An item's lane number carries how far it has come: + 64·(1 + k) once its bin's counter
has returned k, + 64·(2^32 + 1 + o) once the overflow count has returned o. Gives the write still to be checked
against watchpoints: its address and size. -/
def State.binStep (s : State) (e : EngineId) (m : QCmd) : Option (Nat × Nat) × (State × Option QCmd) :=
  match m.cmd.items with
  | [] => (none, s, some (m.finish kDONE))
  | (x, b, item) :: rest =>
    let bins := m.w 2 % 2 ^ 32
    let cap := m.w 2 / 2 ^ 32
    let t := x / 64
    let withItems := fun (is : List (Nat × Nat × Nat)) => { m with cmd := { m.cmd with items := is } }
    let count := fun (va base : Nat) =>
      (some (va, 4), EngVal.go (s.engCount e m va) m (fun k => withItems ((x % 64 + 64 * (base + k), b, item) :: rest)))
    let put := fun (va n v : Nat) =>
      (some (va, n), EngVal.go (s.engPut e m va n v) m (fun _ => { withItems rest with prog := m.prog + 1 }))
    if t = 0 then (if b < bins then count (m.w 1 + 4 * b) 1 else count (m.w 5) (2 ^ 32 + 1))
    else if t ≤ 2 ^ 32 then
      let k := t - 1
      if k < cap then put (m.w 0 + 4 * (b * cap + k)) 4 item else count (m.w 5) (2 ^ 32 + 1)
    else
      let o := t - (2 ^ 32 + 1)
      if o < m.w 4 then put (m.w 3 + 8 * o) 8 (b * 2 ^ 32 + item)
      else (some (m.w 5 + 4, 4), EngVal.go (s.engCount e m (m.w 5 + 4)) m (fun _ => withItems rest))

/-- A bin scatter goes on, up to a write, of an item or of a count, that a watchpoint matches. -/
def binRun (e : EngineId) : Nat → State → QCmd → EngRun
  | 0, s, m => .over s m
  | fuel + 1, s, m =>
    let (wr, out) := s.binStep e m
    let hit : Option Nat := match wr with | some (va, n) => s.watched e m va n | none => none
    match hit with
    | some va => .watch s m va
    | none =>
      match out with
      | (s, none) => .page s m
      | (s, some m) => if m.ended then .over s m else binRun e fuel s m

/-- A bin scatter goes on until it has made its last write into a line, which completes that line (R443, R485); what it has
come to so far is `best`. -/
def binLine (e : EngineId) (line : Nat) : Nat → State → QCmd → EngRun → EngRun
  | 0, _, _, best => best
  | fuel + 1, s, m, best =>
    match s.binStep e m with
    | (_, _, none) => best
    | (wr, s, some m) =>
      let best := match wr with | some (va, _) => if va / 128 = line then .over s m else best | none => best
      if m.ended then best else binLine e line fuel s m best

/-- BINSCAT. -/
def State.runBin (s : State) (e : EngineId) (m : QCmd) : EngRun :=
  if m.binRefused then .over s (m.finish kRANGE) else binRun e (4 * m.cmd.items.length + 1) s m

/-! ## MBXSEND and PODSEND (R359 to R361) -/

/-- What reading a command's source comes to: it waits for a page, it ends the command with a code, or the bytes. -/
inductive EngData where
  | page | code (k : Nat) | bytes (bs : List (BitVec 8))

/-- Bytes of a command's source, in n blocks of 64. The read of a line counts once, when its bytes have been taken (R248,
R249). A page that is not present leaves every count as it was. -/
def State.engBytes (s : State) (m : QCmd) (va : Nat) : Nat → State × EngData
  | 0 => (s, .bytes [])
  | n + 1 =>
    match s.engAt m.agent none m.pasid va .engRead with
    | (_, .page) => (s, .page)
    | (s, .range) => (s, .code kRANGE)
    | (s, .ecc) => (s, .code kSRCECC)
    | (s', .val k) =>
      if s'.bad k then (s', .code kSRCECC)
      else
        let bs := memBytes s'.mem k 64
        match State.engBytes (if va % 128 = 64 ∨ n = 0 then s'.noteRead k 0 false false else s') m (va + 64) n with
        | (_, .page) => (s, .page)
        | (s, .bytes more) => (s, .bytes (bs ++ more))
        | r => r

/-- A delivery to a mailbox (R359): all 64 bytes and FULL, in one step. -/
def State.deliverMbx (s : State) (c m : Nat) (bs : List (BitVec 8)) : State :=
  { s with mem := memPutBytes s.mem (mbxMsg c m) bs, mbx := s.mbx.modify c (fun x => x ||| BitVec.ofNat 4 (2 ^ m)) }

/-- A mailbox holds an unread message. -/
def State.mbxFull (s : State) (c m : Nat) : Bool := (s.mbx.getD c 0).getLsbD m

/-- A record that takes no delivery from a tenant. (Log entry 47: DEDUCED.) -/
def State.mbxDenied (s : State) (pasid c : Nat) : Bool := (s.rc c).life == .free || (s.rc c).pasid.toNat != pasid

/-- The descriptor words from n on are 0. -/
def QCmd.zeroFrom (m : QCmd) (n : Nat) : Bool := (m.cmd.e.drop n).all (fun w => w == 0)

/-- MBXSEND. -/
def State.runMbx (s : State) (m : QCmd) : EngRun :=
  let c := m.w 0 % 16
  let b := m.w 0 / 16 % 4
  if 64 ≤ m.w 0 ∨ m.w 1 % 64 ≠ 0 ∨ 2 ^ 52 ≤ m.w 1 ∨ touchesCtl (m.w 1) 64 ∨ !m.zeroFrom 3 then .over s (m.finish kRANGE)
  else if s.mbxDenied m.pasid c then .over s (m.finish kDENIED)
  else
    match s.engBytes m (m.w 1) 1 with
    | (s, .page) => .page s m
    | (s, .code k) => .over s (m.finish k)
    | (s, .bytes bs) =>
      if s.mbxFull c b then .over s (m.finish kFULL)
      else .over (s.deliverMbx c b bs) (m.finish kDONE)

/-- PODSEND: what the peer answers is free (R361). -/
def State.runPod (s : State) (m : QCmd) : EngRun :=
  let port := m.w 1 % 8
  let toMbx := tbit (m.cmd.e.getD 1 0) 3
  let n := m.w 3
  let p := s.pods.getD port .reset
  if m.w 0 % 64 ≠ 0 ∨ 2 ^ 52 < m.w 0 + n ∨ 2 ^ 10 ≤ m.w 1 ∨ n % 64 ≠ 0 ∨ 2 ^ 32 ≤ n ∨ touchesCtl (m.w 0) n ∨ (toMbx ∧ (n ≠ 64 ∨ m.w 2 ≠ 0)) ∨ !m.zeroFrom 5
    then .over s (m.finish kRANGE)
  else if m.code = kLINK ∨ !p.up ∨ p.version = 0 then .over s (m.finish kLINK)
  else
    match s.engBytes m (m.w 0) (n / 64) with
    | (s, .page) => .page s m
    | (s, .code k) => .over s (m.finish k)
    | (s, .bytes bs) =>
      let i := s.freeCtr
      let s := { s with freeCtr := i + 1 }
      if Config.podRefuses port i ∨ (!toMbx && decide (2 ^ 52 < m.w 2 + n)) then .over s (m.finish kDENIED)
      else if toMbx then .over s (if Config.podMailboxFull port i then m.finish kFULL else { m.finish kDONE with prog := n })
      else .over (s.pokes (podKey port (m.w 2)) bs) { m.finish kDONE with prog := n }

/-! ## ENQ (R355) -/

/-- ENQ: the packet goes into its slot of the ring of the queue that took it at issue, P0 last; then the kick. Where the
header's page or the ring's refuses the access, or its page request fails, the packet is dropped and the token still
posts. (Log entry 80: DESIGN CHOICE.) -/
def State.runEnq (s : State) (m : QCmd) : EngRun :=
  let (hdr, ix, log2) := m.cmd.items.headD (0, 0, 0)
  match s.engAt m.agent none m.pasid hdr .engRead with
  | (s, .page) => .page s m
  | (s, .range) | (s, .ecc) => .over s (m.finish kRANGE)
  | (s, .val k) =>
    let va := memRead s.mem k 8 % 2 ^ 52 + 64 * (ix % 2 ^ log2)
    match (s.noteRead k 0 false false).engAt m.agent none m.pasid va .engWrite with
    | (s, .page) => .page s m
    | (s, .range) | (s, .ecc) => .over s (m.finish kRANGE)
    | (s, .val k) =>
      let p0 := (ix + 1) % 2 ^ 32 * 2 ^ 32 + m.w 0 % 2 ^ 32
      let s := (List.range 7).foldl (fun (s : State) i => s.poke (k + 8 * (i + 1)) 8 (m.w (i + 1))) s
      .over ((s.poke k 8 p0).kick m.pasid (m.w 0 % 2 ^ 16)) (m.finish kDONE)

end Sys2Proof.Machine
end

