-- ==== Sys2Proof/Machine/Health.lean ====
section
/-! DEFINITION. Health (R469 to R471), the wear and the repair of the weight flash (R385, R386, R414, R415). -/

namespace Sys2Proof.Machine

/-- Cycles of the main clock in one hour (R2): 1.5 GHz. -/
def hourClk : Nat := 3600 * 1500000000

/-- Three restarts of the Atelier lie within one hour (R470). -/
def threeInHour : List Nat → Bool
  | a :: b :: c :: ts => decide (c ≤ a + hourClk) || threeInHour (b :: c :: ts)
  | _ => false

/-- The dies in service. -/
def State.inService (s : State) : List Nat := (List.range 32).filter (fun d => !(s.pdie d).retired)

/-- The spare columns in use: the repair entries of KIND 4 in force (R16, R385). -/
def State.columnsUsed (s : State) : Nat :=
  (s.dies.map (fun x => (x.repair.filter (fun p => tbit p.2 63 && bitsOf p.2 60 3 == 4)).length)).sum

/-- The gauges and the health state follow what they are computed from; HSTATE never decreases (R415, R469, R470). -/
def State.refreshHealth (s : State) : State :=
  let spares := (s.inService.map (fun d => (s.pdie d).spares.toNat)).foldl min 4096
  let wear := (s.inService.map (fun d => (s.pdie d).wearg.toNat)).foldl max 0
  let level :=
    if 8 ≤ s.nRetired ∨ 900 ≤ wear ∨ spares ≤ 256 ∨ threeInHour s.ate.restarts then 2
    else if s.nRetired ≠ 0 ∨ s.columnsUsed ≠ 0 ∨ spares ≤ 1024 then 1
    else 0
  { s with health := { s.health with spcols := BitVec.ofNat 16 s.columnsUsed, minspares := BitVec.ofNat 13 spares, wear := BitVec.ofNat 10 wear
                                     hstate := BitVec.ofNat 2 (max s.health.hstate.toNat level) } }

/-! ## Erase blocks -/

/-- Erase blocks of a die that addresses reach, and the rating of a block (R414). -/
def nBlocks : Nat := 131072
def blockRating : Nat := 3000

/-- A repair entry in force (R385). -/
def repairEntry (kind unit spare : Nat) : Word := BitVec.ofNat 64 (2 ^ 63 + kind * 2 ^ 60 + unit * 2 ^ 28 + spare)

/-- The repair entry of a flash block, by its place in the table. (Log entry 39: DESIGN CHOICE.) -/
def Die.blockRepair (x : Die) (b : Nat) : Option (Nat × Word) :=
  x.repair.find? (fun p => tbit p.2 63 && bitsOf p.2 60 3 == 3 && bitsOf p.2 28 28 == b)

/-- The block that serves an address block: itself, or its spare, numbered after the addressed blocks. -/
def Die.servedBy (x : Die) (b : Nat) : Nat :=
  match x.blockRepair b with | some (_, w) => nBlocks + bitsOf w 0 28 | none => b

/-- The first entry of the repair table that is not in force. -/
def Die.freeRepair (x : Die) : Option Nat := (List.range 4096).find? (fun i => !tbit (mapGet 0 x.repair i) 63)

/-- A block is retired and replaced from the pool (R414); none where the pool is empty, or the table is full. -/
def Die.retireBlock (x : Die) (b : Nat) : Option Die :=
  let place := match x.blockRepair b with | some (i, _) => some i | none => x.freeRepair
  match place with
  | some i =>
    if x.spares = 0 then none
    else some { x with repair := mapSet 0 x.repair i (repairEntry 3 b (4096 - x.spares.toNat)), spares := x.spares - 1 }
  | none => none

/-- A block is retired: the die, whether it was replaced, whether it could not be. -/
def Die.replaceBlock (x : Die) (b : Nat) : Die × Bool × Bool :=
  match x.retireBlock b with
  | some x => (x, true, false)
  | none => (x, false, true)

/-- Replaces blocks in order, up to the first that cannot be replaced. -/
def Die.replaceBlocks (x : Die) : List Nat → Die × Bool × Bool
  | [] => (x, false, false)
  | b :: bs =>
    match x.replaceBlock b with
    | (x, _, true) => (x, false, true)
    | (x, r, false) => let y := Die.replaceBlocks x bs; (y.1, r || y.2.1, y.2.2)

/-- An erase of an address block: PEC + 1; at the rating the block is retired. -/
def Die.eraseBlock (x : Die) (b : Nat) : Die × Bool × Bool :=
  let p := x.servedBy b
  let n := (mapGet 0 x.wear p) + 1
  let x := { x with wear := mapSet 0 x.wear p n }
  if blockRating ≤ n.toNat then x.replaceBlock b else (x, false, false)

/-- Erases blocks in order, up to the first that needs a replacement and gets none (R414). -/
def Die.eraseBlocks (x : Die) : List Nat → Die × Bool × Bool
  | [] => (x, false, false)
  | b :: bs =>
    match x.eraseBlock b with
    | (x, _, true) => (x, false, true)
    | (x, r, false) => let y := Die.eraseBlocks x bs; (y.1, r || y.2.1, y.2.2)

/-- WEARG of a die (R415). -/
def Die.gauge (x : Die) : Die :=
  { x with wearg := BitVec.ofNat 10 (1000 * (x.wear.map (fun p => p.2.toNat)).sum / (blockRating * nBlocks)) }

end Sys2Proof.Machine
end

