-- ==== Sys2Proof/Machine/Install.lean ====
section
/-! DEFINITION. INSTALL (R350, R416): its checks and its reservation, and the commit of one unit. -/

namespace Sys2Proof.Machine

/-- A unit of an install. -/
def unitBytes : Nat := 2 ^ 25

/-- The first die-physical address of the weight flash. -/
def flashBase : Nat := 0x010000000000

/-- The flash unit of a key. -/
def flashUnit (k : Nat) : Nat := (k % 2 ^ 48 - flashBase) / unitBytes

/-- An INSTALL that its descriptor alone refuses. -/
def QCmd.installRefused (m : QCmd) : Bool :=
  decide (m.w 0 % 4096 ≠ 0 ∨ m.w 2 % unitBytes ≠ 0 ∨ m.w 2 = 0 ∨ 2 ^ 39 < m.w 2 ∨ 2 ^ 52 < m.w 0 + m.w 2 ∨ 2 ^ 52 < m.w 1 + m.w 2)
  || touchesCtl (m.w 0) (m.w 2) || touchesCtl (m.w 1) (m.w 2) || !m.zeroFrom 4

/-- What the translations of a range come to: a page is not present, one is refused, the walk of one meets an uncorrectable
error, or the keys at which they begin. -/
inductive EngPages where
  | page | range | ecc | keys (ks : List Nat)

/-- The translations of n pages for an engine, from a page's address on. -/
def State.pageKeys (s : State) (ag : Agent) (die : Option Nat) (pasid va : Nat) (kind : AccKind) : Nat → State × EngPages
  | 0 => (s, .keys [])
  | n + 1 =>
    match s.engAt ag die pasid va kind with
    | (s, .page) => (s, .page)
    | (s, .range) => (s, .range)
    | (s, .ecc) => (s, .ecc)
    | (s, .val k) =>
      match State.pageKeys s ag die pasid (va + 65536) kind n with
      | (s, .keys ks) => (s, .keys (k :: ks))
      | r => r

/-- The number of 64 KiB pages that n bytes from an address touch, and the address of the first. -/
def pageCount (va n : Nat) : Nat := (va % 65536 + n + 65535) / 65536
def pageBase (va : Nat) : Nat := va / 65536 * 65536

/-- The pages of an INSTALL's destination lie on die d, each 32 MiB of it on a whole unit of the flash, in order (R350):
their keys, from the page of the destination's first byte on. -/
def wholeUnits (d va : Nat) (ks : List Nat) : Bool :=
  va % 65536 == 0 && (List.range ks.length).all (fun i =>
    let k := ks.getD i 0
    k / 2 ^ 48 == d && k % unitBytes == 65536 * i % unitBytes && flashUnit k == flashUnit (ks.getD (i / 512 * 512) 0))

/-- The checks of an INSTALL that read translations: the source in class DRAM, the destination in class WEIGHT, all of
it on die d, each unit a whole unit of the flash. None where a page is not present; else the code that ends it, if any. -/
def State.installPages (s : State) (d : Nat) (m : QCmd) : State × Option (Option Nat) :=
  match s.pageKeys m.agent (some d) m.pasid (pageBase (m.w 0)) (.item false clsDRAM) (pageCount (m.w 0) (m.w 2)) with
  | (s, .page) => (s, none)
  | (s, .range) => (s, some (some kRANGE))
  | (s, .ecc) => (s, some (some kSRCECC))
  | (s, .keys _) =>
    match s.pageKeys m.agent (some d) m.pasid (pageBase (m.w 1)) .kiln (pageCount (m.w 1) (m.w 2)) with
    | (s, .page) => (s, none)
    | (s, .range) => (s, some (some kRANGE))
    | (s, .ecc) => (s, some (some kSRCECC))
    | (s, .keys ks) => (s, some (if wholeUnits d (m.w 1) ks then none else some kRANGE))

/-- Units reserved by a running install that it has not committed; whether a block has been remapped. -/
def QCmd.left (m : QCmd) : Nat := (m.cmd.items.headD (0, 0, 0)).1
def QCmd.remapped (m : QCmd) : Bool := (m.cmd.items.headD (0, 0, 0)).2.1 != 0
/-- The install has its reservation. -/
def QCmd.accepted (m : QCmd) : Bool := !m.cmd.items.isEmpty

/-- A tenant's record with its budget counters changed. -/
def State.updTenant (s : State) (pasid : Nat) (f : Tenant → Tenant) : State :=
  match mapFind s.tenants pasid with | some t => { s with tenants := mapPut s.tenants pasid (f t) } | none => s

/-- An install takes its reservation, or ends (R350, R416; in RESTRICTED with WEAR, R471): its state is kept with the command. -/
def State.acceptInstall (s : State) (d : Nat) (m : QCmd) : EngRun :=
  let u := m.w 2 / unitBytes
  if s.health.hstate = 2 then .over s (m.finish kWEAR)
  else if m.installRefused then .over s (m.finish kRANGE)
  else
    match s.installPages d m with
    | (s, none) => .page s m
    | (s, some (some k)) => .over s (m.finish k)
    | (s, some none) =>
      match mapFind s.tenants m.pasid with
      | none => .over s (m.finish kQUOTA)
      | some t =>
        if t.budget.toNat < t.resv.toNat + u then .over s (m.finish kQUOTA)
        else if (s.pdie d).spares.toNat ≤ 256 then .over s (m.finish kWEAR)
        else
          .over (s.updTenant m.pasid (fun t => { t with resv := t.resv + BitVec.ofNat 32 u }))
            { m with cmd := { m.cmd with items := [(u, 0, 0)] }, page := false }

/-- A command stops: the units that an install has not committed are released (R416). -/
def State.release (s : State) (m : QCmd) : State :=
  if m.cmd.cls = 1 ∧ m.accepted then s.updTenant m.pasid (fun t => { t with resv := t.resv - BitVec.ofNat 32 m.left }) else s

/-- An unconsumed item of a started WEIGHT load stream in a cell of die d lies in a unit of its flash (R350).
(Log entry 38: DEDUCED.) -/
def State.readers (s : State) (d u : Nat) : Bool :=
  (List.range 16).any (fun c =>
    let r := s.rc c
    r.slot.isSome && r.field.dies.contains d && r.group.cells.any (fun l =>
      (List.range 16).any (fun st =>
        let D := ((r.die d).cell l).core.desc st
        dGo D && !dStore D && dClass D == clsWEIGHT && (List.range (dLen D - dCur D)).any (fun i =>
          (itemBytes D (dCur D + i)).any (fun b =>
            match s.walk r.pasid.toNat b.1 with
            | .ok (_, w, level) =>
              let k := (pageTarget r.pasid.toNat b.1 w level).key
              k / 2 ^ 48 == d && flashUnit k == u
            | .error _ => false)))))

/-- What the L2 notes of a read of n bytes: the lines that carry a count or a mark (R248). -/
def State.noteRange (s : State) (key n : Nat) : State :=
  (s.l2.filter (fun p => decide (key / 128 ≤ p.1 ∧ p.1 * 128 < key + n))).foldl (fun (s : State) p => s.noteRead (p.1 * 128) 0 false false) s

/-- Copies the source of a unit into the flash, page by page, each page taken before its read counts (R249): none where a
page is not present; else the code that stops it, if any. -/
def State.unitPages (s : State) (d : Nat) (m : QCmd) (src key : Nat) : Nat → State × Option (Option Nat)
  | 0 => (s, some none)
  | n + 1 =>
    match s.engAt m.agent (some d) m.pasid src (.item false clsDRAM) with
    | (s, .page) => (s, none)
    | (s, .range) => (s, some (some kRANGE))
    | (s, .ecc) => (s, some (some kSRCECC))
    | (s, .val k) =>
      if (List.range 32).any (fun i => s.bad (k + 128 * i)) then (s, some (some kSRCECC))
      else State.unitPages ({ s with mem := memCopy s.mem k key 4096 }.noteRange k 4096) d m (src + 4096) (key + 4096) n

/-- What keeps one step's outcome: the unit is committed, or the command stops with a code. -/
def State.stopInstall (s : State) (d : Nat) (m : QCmd) (code : Nat) : State :=
  (s.release m).setRunning (.kiln d) (some (m.finish code))

/-- The L2 lines and the staging lines of a unit are invalid, and none of its lines has an error (R253, R254). -/
def State.freshUnit (s : State) (key : Nat) : State :=
  let out := fun (size n : Nat) => decide (n < key / size ∨ (key + unitBytes) / size ≤ n)
  { s with l2 := s.l2.filter (fun p => out 128 p.1), staging := s.staging.filter (out 4096), poison := s.poison.filter (fun p => out 128 p.1) }

/-- The lowest watched byte of a unit. (Log entry 35: DEDUCED.) -/
def State.watchedUnit (s : State) (d : Nat) (m : QCmd) (va : Nat) : Option Nat :=
  match s.req m.req with
  | some (c, _) =>
    let hits := (List.range 4).filterMap (fun j =>
      let b := bitsOf ((s.watches c d).wbase.getD j 0) 0 52
      let lo := max b va
      s.watched (.kiln d) m lo (min (b + 4096) (va + unitBytes) - lo))
    match hits with | [] => none | h :: hs => some (hs.foldl min h)
  | none => none

/-- A unit that has been programmed and verified commits. -/
def State.commitUnit (s : State) (d : Nat) (m : QCmd) (x : Die) (unit : Nat) (remap : Bool) : State :=
  let s := s.updPdie d (fun _ => { x.gauge with badUnits := x.badUnits.filter (fun b => b != unit) })
  let s := (s.updTenant m.pasid (fun t => { t with budget := BitVec.ofNat 32 (t.budget.toNat - 1), resv := t.resv - 1 })).refreshHealth
  let again := m.remapped || remap
  let va := m.w 1 + m.prog * unitBytes
  let m := { m with prog := m.prog + 1, cmd := { m.cmd with items := [(m.left - 1, if again then 1 else 0, 0)] } }
  let m := if m.left = 0 then m.finish (if again then kREMAPPED else kDONE) else m
  let s := s.setRunning (.kiln d) (some m)
  match s.watchedUnit d m va with
  | some b => (s.watchEvent (.kiln d) m b).updEngine (.kiln d) (fun y => { y with paused := true })
  | none => s

/-- A unit whose verification failed is invalid; its erases count (R350, R414). -/
def State.spoilUnit (s : State) (d : Nat) (x : Die) (unit : Nat) : State :=
  (s.updPdie d (fun _ => { x.gauge with badUnits := if x.badUnits.contains unit then x.badUnits else x.badUnits ++ [unit] })).refreshHealth

/-- The blocks of a unit that failed to program, one of them at the least. (Log entry 69: DEDUCED.) -/
def failedBlocks (unit n : Nat) : List Nat :=
  match (List.range 8).filter (fun i => (Config.failedBlocks n).getLsbD i) with
  | [] => [unit * 8]
  | is => is.map (fun i => unit * 8 + i)

/-- A unit's erase blocks are erased and programmed; `fail` says that some fail and are replaced. The die, whether a block
was replaced, whether one could not be. -/
def Die.program (x : Die) (unit : Nat) (fail : Bool) (n : Nat) : Die × Bool × Bool :=
  match x.eraseBlocks ((List.range 8).map (fun i => unit * 8 + i)) with
  | (x, _, true) => (x, false, true)
  | (x, r, false) =>
    let y := x.replaceBlocks (if fail then failedBlocks unit n else [])
    (y.1, r || y.2.1, y.2.2)

/-- INSTALL_UNIT_COMMIT (R350): the Kiln of die d reads, programs and verifies the next unit, with the outcome the flash
gives: blocks that fail program-verify are retired and replaced, and where the pool is empty the unit fails VERIFY (R414). (Log entry 69: DEDUCED.) -/
def execInstallUnitCommit (d : Nat) (out : InstallOutcome) (s : State) : Host.Outcome State Fault Refusal :=
  if 32 ≤ d then .fault (.noUnit "die")
  else if s.asleep then notNow "the device is not in RUN"
  else
    match s.running (.kiln d) with
    | none => notNow "the Kiln runs no command"
    | some m =>
      if m.ended ∨ !m.accepted ∨ s.isPaused (.kiln d) then notNow "the Kiln programs no unit"
      else if s.health.hstate = 2 then .next (s.stopInstall d m kWEAR)
      else
        match s.engAt m.agent (some d) m.pasid (m.w 1 + m.prog * unitBytes) .kiln with
        | (s', .page) => if m.page then notNow "a page is not present" else .next (s'.setRunning (.kiln d) (some { m with page := true }))
        | (s', .range) => .next (s'.stopInstall d m kRANGE)
        | (s', .ecc) => .next (s'.stopInstall d m kSRCECC)
        | (s, .val key) =>
          let unit := flashUnit key
          if s.readers d unit then .next (s.stopInstall d m kREADERS)
          else if out = .srcEcc then .next (s.stopInstall d m kSRCECC)
          else
            match s.unitPages d m (m.w 0 + m.prog * unitBytes) key (unitBytes / 4096) with
            | (s', none) =>
              if m.page then notNow "a page is not present"
              else .next ({ s' with mem := s.mem }.setRunning (.kiln d) (some { m with page := true }))
            | (s', some (some k)) => .next ({ s' with mem := s.mem }.stopInstall d m k)
            | (s', some none) =>
              let (x, remap, failed) := (s'.pdie d).program unit (out == .remapped || out == .verifyFail) s'.freeCtr
              let s' := { s' with freeCtr := s'.freeCtr + 1 }
              if failed then .next (({ s' with mem := s.mem }.spoilUnit d x unit).stopInstall d m kVERIFY)
              else .next ((s'.freshUnit key).commitUnit d m x unit remap)

end Sys2Proof.Machine
end

