-- ==== Sys2Proof/Machine/Reloc.lean ====
section
/-! DEFINITION. Moving an object (R286 to R289), the invalidations of forwarding caches (R292), and what the heap service
does to an entry (R280). -/

namespace Sys2Proof.Machine

/-- The dies whose DIEACC bit is set in a companion word of a page of a range (R289). -/
def State.accessed (s : State) (pasid va n : Nat) : List Nat :=
  (List.range 32).filter (fun d =>
    (List.range ((va % 65536 + n + 65535) / 65536)).any (fun i =>
      match s.walk pasid (va / 65536 * 65536 + 65536 * i) with
      | .ok (leaf, _, _) => tbit (BitVec.ofNat 64 (memRead s.mem (leaf + 8) 8)) d
      | .error _ => false))

/-- Invalidations of an entry, with a number of their own, go to dies. -/
def State.sendFwdInv (s : State) (ds : List Nat) (pasid hid obj : Nat) : State :=
  let x := (pasid, hid, obj, s.invNo)
  ds.foldl (fun (s : State) d => s.updPdie d (fun y => { y with fwdInv := y.fwdInv ++ [x] })) { s with invNo := s.invNo + 1 }

/-- The checks of a RELOC that need no access to the new range (R281, R286): the code that ends it. -/
def State.relocFault (s : State) (m : QCmd) : Option Nat :=
  let r := m.w 0
  let f := s.fwdEntry m.pasid (refHid r) (refObj r)
  let nb := m.w 1
  let n := (f.size + 127) / 128 * 128
  let arena := s.heapArena m.pasid (refHid r)
  if 2 ^ 52 ≤ nb ∨ !m.zeroFrom 3 then some 4
  else if (s.refIssueFault m.pasid r).isSome ∨ (refHomeFault f r).isSome ∨ f.size = 0 then some 3
  else if nb % 128 ≠ 0 ∨ nb < arena ∨ arena + s.heapSize m.pasid (refHid r) < nb + n ∨ (nb < f.base + n ∧ f.base < nb + n)
      ∨ touchesCtl nb n ∨ touchesCtl f.base n then some 4
  else none

/-- The engine sets the entry of the object it moves, at the entry's home. -/
def State.putEntry (s : State) (m : QCmd) (pasid hid obj : Nat) (f : FwdEntry) : State :=
  (s.setFwd pasid hid obj f).noteEntry m.agent pasid hid obj .device .store

/-- A RELOC is accepted, or ends: the entry becomes MOVING, and the engine holds the translations of both ranges
(R286). -/
def State.acceptReloc (s : State) (d : Nat) (m : QCmd) : EngRun :=
  match s.relocFault m with
  | some k => .over s (m.finish k)
  | none =>
    let r := m.w 0
    let f := s.fwdEntry m.pasid (refHid r) (refObj r)
    let lines := (f.size + 127) / 128
    match s.pageKeys m.agent (some d) m.pasid (pageBase (m.w 1)) (.ref true) (pageCount (m.w 1) (128 * lines)) with
    | (s, .page) => .page s m
    | (s, .range) => .over s (m.finish 4)
    | (s, .ecc) => .over s (m.finish 5)
    | (s, .keys new) =>
      match s.pageKeys m.agent (some d) m.pasid (pageBase f.base) (.ref false) (pageCount f.base (128 * lines)) with
      | (s, .page) => .page s m
      | (s, .range) => .over s (m.finish 4)
      | (s, .ecc) => .over s (m.finish 5)
      | (s, .keys old) =>
        if f.state = 2 then .over s (m.finish 2)
        else if f.pins ≠ 0 then .over s (m.finish 1)
        else
          let s := s.putEntry m m.pasid (refHid r) (refObj r) (mkFwd f.version 0 2 f.size f.base (m.w 1) 0)
          let x : Move := { pasid := m.pasid, hid := refHid r, obj := refObj r, old := f.base, new := m.w 1, oldPages := old
                            newPages := new, lines := lines, done := 0, poisoned := false, no := 0, acks := none }
          .over (s.updEngine (.pointing d) (fun y => { y with move := some x })) { m with page := false }

/-- The contents of the old range of a move, from its line j on, are defined no longer (R289). -/
def State.scramble (s : State) (x : Move) (j : Nat) : Nat → State
  | 0 => s
  | n + 1 =>
    let i := s.freeCtr
    let bs := (List.range 128).map (fun b => Config.freeByte (i + b))
    State.scramble ({ s with freeCtr := i + 128 }.pokes (pageKey x.oldPages x.old (128 * j)) bs) x (j + 1) n

/-- The last acknowledgement of a move has arrived: the old range is the heap service's, the command's work is over. -/
def State.endMove (s : State) (d : Nat) (x : Move) : State :=
  let s := s.scramble x 0 x.lines
  let s := s.updEngine (.pointing d) (fun y => { y with move := none })
  match s.running (.pointing d) with
  | some m => s.setRunning (.pointing d) (some { m.finish (if x.poisoned then 5 else 0) with prog := x.done })
  | none => s

/-- The engine copies line `done` of a move, by the translations it holds (R287); after the last the entry is HOME at its
new base and the invalidations go out. -/
def State.copyLine (s : State) (d : Nat) (x : Move) (m : QCmd) : State :=
  let f := s.fwdEntry x.pasid x.hid x.obj
  let k := pageKey x.oldPages x.old (128 * x.done)
  let bad := s.bad k
  let bs := memBytes s.mem k 128
  let k' := pageKey x.newPages x.new (128 * x.done)
  let s := ((s.noteRead k 0 false false).pokeBytes k' bs bad).engWrote m k' 128
  let x := { x with done := x.done + 1, poisoned := x.poisoned || bad }
  let s := s.setRunning (.pointing d) (some { m with prog := x.done })
  if x.done < x.lines then
    let s := s.putEntry m x.pasid x.hid x.obj (mkFwd f.version f.pins 2 f.size f.base f.newBase x.done)
    s.updEngine (.pointing d) (fun y => { y with move := some x })
  else
    let s := s.putEntry m x.pasid x.hid x.obj (mkFwd f.version f.pins 1 f.size x.new 0 0)
    let ds := s.accessed x.pasid x.old (128 * x.lines)
    let x := { x with no := s.invNo, acks := some ds }
    let s := (s.sendFwdInv ds x.pasid x.hid x.obj).updEngine (.pointing d) (fun y => { y with move := some x })
    if ds.isEmpty then s.endMove d x else s

/-- The watched byte of the next line of a move. -/
def State.watchedLine (s : State) (d : Nat) (x : Move) (m : QCmd) : Option Nat :=
  s.watched (.pointing d) m (x.new + 128 * x.done) 128

/-- RELOC_LINE_COPY (R287): the pointing engine of die d copies one line. -/
def execRelocLineCopy (d : Nat) (s : State) : Host.Outcome State Fault Refusal :=
  if 32 ≤ d then .fault (.noUnit "die")
  else if s.asleep then notNow "the device is not in RUN"
  else
    let y := (s.pdie d).engine 4
    match y.move, y.running with
    | some x, some m =>
      if x.acks.isSome then notNow "the lines are copied"
      else if y.paused then notNow "the engine has paused"
      else if (s.watchedLine d x m).isSome then notNow "a watchpoint matches the line"
      else .next (s.copyLine d x m)
    | _, _ => notNow "no move"

/-- FWD_INVALIDATION (R292): the oldest invalidation on its way reaches die d: the copies of the entry in its cells, and in
the sequencer that acts for it, are dropped. -/
def execFwdInvalidation (d : Nat) (s : State) : Host.Outcome State Fault Refusal :=
  if 32 ≤ d then .fault (.noUnit "die")
  else if s.asleep then notNow "the clocks of the dies and the networks stand"
  else
    match (s.pdie d).fwdInv with
    | [] => notNow "no invalidation is on its way"
    | x :: xs =>
      .next ((s.dropEntry d x.1 (fwdKey x.1 x.2.1 x.2.2.1)).updPdie d (fun y => { y with fwdInv := xs, fwdAck := y.fwdAck ++ [x] }))

/-- An operation issues from die d, or from a sequencer that acts for it. -/
def Rec.fromDie (r : Rec) (d : Nat) (q : Req) : Bool :=
  match q.org with | some (g, _) => g == d | none => r.field.origin == d

/-- The accesses of an operation, with their references. -/
def Req.parts (q : Req) : List Part :=
  match q.body with | .mem _ ps => ps | .stload _ ps => ps | _ => []

/-- A reference access of die d to an object has passed the barrier and is not performed. -/
def State.refInFlight (s : State) (d : Nat) (x : Nat × Nat × Nat × Nat) : Bool :=
  s.recs.any (fun r => r.pasid.toNat == x.1 && r.reqs.any (fun q =>
    q.stage != .performed && r.fromDie d q && q.parts.any (fun p =>
      match p.tgt.ref with | some (w, _) => refHid w == x.2.1 && refObj w == x.2.2.1 | none => false)))

/-- Die d has acknowledged the invalidations of a number: the space of a freed object is free once every die has (R292). -/
def State.ackFreed (s : State) (d no : Nat) : State :=
  { s with freed := (s.freed.map (fun f => if f.no = no then { f with dies := f.dies.filter (fun y => y != d) } else f)).filter
                      (fun f => !f.dies.isEmpty) }

/-- A die's acknowledgement reaches the engine that moves the object, or the heap service that freed it. -/
def State.ackMove (s : State) (d no : Nat) : State :=
  (List.range 32).foldl (fun (s : State) g =>
    match ((s.pdie g).engine 4).move with
    | some v =>
      match (if v.no = no then v.acks else none) with
      | some ds =>
        let ds := ds.filter (fun y => y != d)
        if ds.isEmpty then s.endMove g v else s.updEngine (.pointing g) (fun y => { y with move := some { v with acks := some ds } })
      | none => s
    | none => s) (s.ackFreed d no)

/-- FWD_INVALIDATION_ACK (R289, R292): die d acknowledges the oldest invalidation it has received. -/
def execFwdInvalidationAck (d : Nat) (s : State) : Host.Outcome State Fault Refusal :=
  if 32 ≤ d then .fault (.noUnit "die")
  else if s.asleep then notNow "the clocks of the dies and the networks stand"
  else
    match (s.pdie d).fwdAck with
    | [] => notNow "no invalidation to acknowledge"
    | x :: xs =>
      if s.refInFlight d x then notNow "an access that has passed the barrier is not performed"
      else .next ((s.updPdie d (fun y => { y with fwdAck := xs })).ackMove d x.2.2.2)

/-! ## The heap service (R280) -/

/-- A range meets the space of a freed object whose invalidations are not all acknowledged, or a range of a move that runs
(R289, R292). -/
def State.guarded (s : State) (pasid base size : Nat) : Bool :=
  let meets := fun (b n : Nat) => decide (base < b + n ∧ b < base + size)
  s.freed.any (fun f => f.pasid == pasid && meets f.base f.size)
  || s.dies.any (fun x => (x.pge.move.map (fun v => v.pasid == pasid && (meets v.old (128 * v.lines) || meets v.new (128 * v.lines)))).getD false)

/-- HEAP_ALLOCATE: a FREE entry becomes HOME, at a base and of a size that R279 allows. -/
def execHeapAllocate (pasid hid obj base size : Nat) (s : State) : Host.Outcome State Fault Refusal :=
  let f := s.fwdEntry pasid hid obj
  if !s.heapValid pasid hid ∨ s.heapCount pasid hid ≤ obj then notNow "the heap has no such entry"
  else if f.state ≠ 0 then notNow "the entry is not FREE"
  else if size = 0 ∨ 2 ^ 24 < size ∨ base % 128 ≠ 0 ∨ base < s.heapArena pasid hid
      ∨ s.heapArena pasid hid + s.heapSize pasid hid < base + size then notNow "the object does not lie in the arena"
  else if s.guarded pasid base size then notNow "the space is not to be reused yet"
  else .next (s.setFwd pasid hid obj (mkFwd f.version 0 1 size base 0 0))

/-- HEAP_FREE: a HOME entry without pins becomes FREE at its next version; the dies whose DIEACC bits are set take an
invalidation, and the space waits for them (R292). A moving entry is freed once it is HOME. -/
def execHeapFree (pasid hid obj : Nat) (s : State) : Host.Outcome State Fault Refusal :=
  let f := s.fwdEntry pasid hid obj
  if f.state ≠ 1 then notNow "the entry is not HOME"
  else if f.pins ≠ 0 then notNow "the object is pinned"
  else
    let s := s.setFwd pasid hid obj (mkFwd (f.version + 1) 0 0 f.size f.base 0 0)
    let ds := s.accessed pasid f.base f.size
    let gone : Freed := { pasid := pasid, base := f.base, size := f.size, no := s.invNo, dies := ds }
    .next ({ s with freed := if ds.isEmpty then s.freed else s.freed ++ [gone] }.sendFwdInv ds pasid hid obj)

end Sys2Proof.Machine
end

