-- ==== Sys2Proof/Machine/Command.lean ====
section
/-! DEFINITION. Starting and ending the commands of engines (R342 to R345), CTXSTART and CTXSAVE at the Armature (R362 to
R364), watchpoints of engine writes (R443), and the answers to page requests (R437, R438). -/

namespace Sys2Proof.Machine

/-! ## Starting -/

/-- ENGINE_COMMAND_START (R342): an engine that is free takes the next command of its queues. The issuing cell's dirty
near-store lines are written back first (R240, R315); its acquire point is an acquire of the issuing agent (R304, R317). -/
def execEngineCommandStart (e : EngineId) (s : State) : Host.Outcome State Fault Refusal :=
  if !engineOk e then .fault (.noUnit "engine")
  else if s.asleep then notNow "the device is not in RUN"
  else if (s.running e).isSome then notNow "the engine runs a command"
  else
    match s.takeHead e with
    | none => notNow "no command is released"
    | some (m, s) =>
      if m.cmd.acq && !s.acquirePoint m then notNow "an earlier access of the agent is not performed"
      else if s.nearMoves m then notNow "the ways of the near store are not ready"
      else
        let s := match s.cmdCell m with | some (c, d, l) => s.cleanNear c d l | none => s
        let s := if m.cmd.acq then s.timePasses m.c m.org else s
        let bad := if m.cmd.cls = 2 then 4 else kRANGE
        .next (s.setRunning e (some (if m.badStatus then m.finish bad else m)))

/-! ## CTXSTART: the pages it reads -/

/-- A page of a range is not present. Addresses above the space, and the control page (R138), are no pages. -/
def State.pageMissing (s : State) (pasid va : Nat) : Nat → Bool
  | 0 => false
  | n + 1 =>
    if 2 ^ 52 ≤ va ∨ inCtlPage va then false
    else match s.walk pasid va with
      | .error _ => true
      | .ok _ => State.pageMissing s pasid ((va / 65536 + 1) * 65536) n

/-- A page of n bytes from an address is not present. -/
def State.rangeMissing (s : State) (pasid : Nat) (x : Nat × Nat) : Bool :=
  s.pageMissing pasid x.1 ((x.1 % 65536 + x.2 + 65535) / 65536)

/-- The blocks an image names: a dictionary block, a route block with its cell-shuffle block. -/
def State.tableRanges (s : State) (pasid dict route : Nat) : List (Nat × Nat) :=
  let n := match s.vaWord pasid dict with | some n => min n 8192 | none => 0
  [(dict, 64 + 48 * n), (route, if route = 0 then 0 else 2112 + 4160)]

/-- What a launch reads: the header and the templates, then what its template names. -/
def State.launchRanges (s : State) (pasid c va : Nat) : List (Nat × Nat) :=
  match s.linked pasid va with
  | none => [(va, 64)]
  | some (n, _) =>
    (va, 64 + 128 * n) ::
      match ((List.range n).filterMap (fun i => s.template pasid va i)).find? (fun t => t.headD 0 % 16 == c) with
      | none => []
      | some t =>
        let f := fun (i : Nat) => t.getD i 0
        let presets := min (f 9) 65536
        s.tableRanges pasid (f 3) (f 4) ++ [(f 8, 16 * presets), (f 10, if f 10 = 0 then 0 else f 11)]
          ++ (List.range presets).filterMap (fun i =>
            match s.vaWord pasid (f 8 + 16 * i), s.vaWord pasid (f 8 + 16 * i + 8) with
            | some a, some b => if a % 256 = 15 then some (b, 64) else none
            | _, _ => none)

/-- What a restore reads. -/
def State.restoreRanges (s : State) (pasid va : Nat) : List (Nat × Nat) :=
  match s.imageHeader pasid va with
  | none => [(va, 4096)]
  | some h => (va, h.getD 1 0) :: s.tableRanges pasid (h.getD 8 0) (h.getD 9 0)

/-- What a CTXSTART reads, and of which tenant: the issuing descriptor's for a launch, that of the saved context for a
restore (R362). -/
def State.startRanges (s : State) (m : QCmd) : Nat × List (Nat × Nat) :=
  let e0 := m.w 0
  let p := e0 / 2 ^ 20 % 2 ^ 20
  let r := s.rc (e0 % 16)
  if e0Bad e0 ∨ e0 / 2 ^ 7 % 2 = 1 ∨ (mapFind s.tenants p).isNone then (p, [])
  else if e0 / 2 ^ 4 % 2 = 0 then (p, s.launchRanges p (e0 % 16) (m.w 3))
  else (r.pasid.toNat, if r.life == .saved then s.restoreRanges r.pasid.toNat (m.w 3) else [])

/-- A page that a CTXSTART reads is not present (R345). -/
def State.startMissing (s : State) (m : QCmd) : Bool := (s.startRanges m).2.any (s.rangeMissing (s.startRanges m).1)

/-- A CTXSTART whose image, dictionary, routes or tables lie in the control page (R139). -/
def State.startRefused (s : State) (m : QCmd) : Bool := (s.startRanges m).2.any (fun x => touchesCtl x.1 x.2)

/-- CTXSTART. -/
def State.runStart (s : State) (m : QCmd) : EngRun :=
  if s.startRefused m then .over s (m.finish kRANGE)
  else if s.startMissing m then .page s m
  else
    let (s, k) := s.ctxstart m.pasid m.cmd.e
    .over s (m.finish k)

/-! ## CTXSAVE -/

/-- A CTXSAVE goes on: its checks, the translations of the image's pages, which it holds, then the freeze (R364). None while the context is being frozen, or cannot be frozen
yet. -/
def State.runSave (s : State) (m : QCmd) : Option EngRun :=
  let c := m.w 0 % 16
  let r := s.rc c
  let mine := match r.life with | .frozen (.preempt (some id) _) => id == m.req | _ => false
  if mine then none
  else if 32 ≤ m.w 0 ∨ m.w 1 % 4096 ≠ 0 ∨ 2 ^ 52 < m.w 1 + m.w 2 ∨ touchesCtl (m.w 1) (m.w 2) ∨ !m.zeroFrom 4 then some (.over s (m.finish kRANGE))
  else if r.slot.isNone then some (.over s (m.finish kSTATE))
  else
    match s.pageKeys (c, none) none r.pasid.toNat (pageBase (m.w 1)) .engWrite (pageCount (m.w 1) (m.w 2)) with
    | (s, .page) => some (.page s m)
    | (s, .range) => some (.over s (m.finish kRANGE))
    | (s, .ecc) => some (.over s (m.finish kSRCECC))
    | (s, .keys ks) =>
      if r.life.preemptible then
        some (.over (s.setRec c ((s.rc c).freeze (some m.req))) { m with page := false, cmd := { m.cmd with items := ks.map (fun k => (k, 0, 0)) } })
      else none

/-! ## Ending -/

/-- The work of a running command goes on as far as it can. None where nothing can be done now: the Kiln and the pointing
engine go on unit by unit and line by line. -/
def State.runCmd (s : State) (e : EngineId) (m : QCmd) : Option EngRun :=
  match m.cmd.cls with
  | 0 => some (s.runCpy e m)
  | 8 => some (s.runBin e m)
  | 1 => if m.accepted then none else some (s.acceptInstall ((engineDie e).getD 0) m)
  | 2 =>
    if ((s.pdie ((engineDie e).getD 0)).engine 4).move.isSome then none
    else some (s.acceptReloc ((engineDie e).getD 0) m)
  | 3 => some (s.runMbx m)
  | 4 => some (s.runEnq m)
  | 5 => some (s.runPod m)
  | 6 => some (s.runStart m)
  | _ => s.runSave m

/-- ENGINE_COMMAND_COMPLETE (R344): the running command does its work and ends: its record is written, its token posts.
Where it meets a page that is not present it sends a page request and waits; a move, an install and a save only start
here, and end here when they are over. (Log entry 32: DESIGN CHOICE.) -/
def execEngineCommandComplete (e : EngineId) (s : State) : Host.Outcome State Fault Refusal :=
  if !engineOk e then .fault (.noUnit "engine")
  else if s.asleep then notNow "the device is not in RUN"
  else
    match s.running e with
    | none => notNow "the engine runs no command"
    | some m =>
      if s.isPaused e then notNow "the engine has paused"
      else if m.ended then
        match s.endCmd e m with
        | some s => .next s
        | none => notNow "the page of the status address is not present"
      else
        match s.runCmd e m with
        | none => notNow "the command is under way"
        | some (.page s' m') =>
          if m.page ∧ m'.prog = m.prog ∧ m'.cmd.items = m.cmd.items then notNow "a page is not present"
          else .next (s'.setRunning e (some { m' with page := true }))
        | some (.watch s' m' _) =>
          if m'.prog = m.prog ∧ m'.cmd.items = m.cmd.items then notNow "a watchpoint matches the next write"
          else .next (s'.setRunning e (some { m' with page := false }))
        | some (.over s' m') =>
          if m'.ended then
            match s'.endCmd e m' with
            | some s => .next s
            | none => .next (s'.setRunning e (some m'))
          else .next (s'.setRunning e (some m'))

/-- The engine pauses with its command as it stands, and reports the match. -/
def State.pauseAt (s : State) (e : EngineId) (m : QCmd) (va : Nat) : State :=
  ((s.setRunning e (some m)).watchEvent e m va).updEngine e (fun y => { y with paused := true })

/-- What a run past a watchpoint leaves: the engine pauses. -/
def afterWatch (e : EngineId) (m : QCmd) (va : Nat) : EngRun → State
  | .page s' m' | .over s' m' | .watch s' m' _ => s'.pauseAt e { m' with page := m.page } va

/-- WATCH_ENGINE (R443): the next write of an engine matches a watchpoint of the issuing context; the engine completes the
128-byte line and pauses. -/
def execWatchEngine (e : EngineId) (s : State) : Host.Outcome State Fault Refusal :=
  if !engineOk e then .fault (.noUnit "engine")
  else if s.asleep then notNow "the device is not in RUN"
  else
    match s.running e with
    | none => notNow "the engine runs no command"
    | some m =>
      if s.isPaused e ∨ m.ended then notNow "the engine writes nothing"
      else
        match m.cmd.cls with
        | 0 =>
          (match s.runCpy e m with
          | .watch s' m' va => .next (afterWatch e m' va (copyRun e m'.cpy false (some (va / 128)) (m'.cpy.rows * m'.cpy.rb + 1) s' m'))
          | _ => notNow "no watchpoint matches")
        | 8 =>
          (match s.runBin e m with
          | .watch s' m' va => .next (afterWatch e m' va (binLine e (va / 128) (4 * m'.cmd.items.length + 1) s' m' (.page s' m')))
          | _ => notNow "no watchpoint matches")
        | 2 =>
          let d := (engineDie e).getD 0
          (match ((s.pdie d).engine 4).move with
          | some x =>
            if x.acks.isSome then notNow "the lines are copied"
            else
              match s.watchedLine d x m with
              | none => notNow "no watchpoint matches"
              | some va =>
                .next (((s.copyLine d x m).watchEvent e m va).updEngine e (fun y => { y with paused := true }))
          | none => notNow "no move")
        | _ => notNow "no watchpoint matches"

/-! ## Page requests (R437) -/

/-- The engines in the order in which their page requests are answered. -/
def allEngines : List EngineId :=
  [3, 4, 5, 6, 7].map EngineId.armature
  ++ (List.range 32).flatMap (fun d => (List.range 4).map (EngineId.copy d) ++ [.pointing d, .kiln d])

/-- The engine that waits for a page with a command of context c. (Log entry 33: DEDUCED.) -/
def State.pageWaiter (s : State) (c : Nat) : Option (EngineId × QCmd) :=
  allEngines.findSome? (fun e =>
    match s.running e with | some m => if m.page && m.c == c then some (e, m) else none | none => none)

/-- The answer to an engine's page request (R344, R345). -/
def State.answerEngine (s : State) (e : EngineId) (m : QCmd) (ans : PageAnswer) : State :=
  match ans with
  | .success => s.setRunning e (some { m with page := false })
  | _ =>
    if m.ended then s.setRunning e (some { m with page := false, lost := true })
    else (s.release m).setRunning e (some (m.finish kPAGEFAIL))

/-- The answer to a context's page request: it resumes, takes its trap, or ends (R437, R438). An F event held at or before
the mark is handled at the next RFT; after a success no handler runs, so that it waits for a later one. (Log entry 82:
DESIGN CHOICE.) -/
def State.answerContext (s : State) (c : Nat) (f : Flag) (seq : Bool) (ans : PageAnswer) : State :=
  let r := s.rc c
  match ans with
  | .success =>
    if seq then s.setRec c { r with life := .ready }
    else
      let s := s.rebroadcast c r.ridx r.rcnt r.core.pc
      s.updRec c (fun r => { r with life := .ready, rv := false, rcnt := 0 })
  | .invalid =>
    let s := s.setRec c { r with life := .ready }
    s.takeTrap c { code := f.code, detail := f.detail, slot := if seq then slX else slDie, die := f.die, xin := f.ein
                   info := f.info, xpc := r.core.pc }
  | .failure => s.endFor c cFRAMELESS f.ein.toNat f.info

/-- PAGE_REQUEST_ANSWER (R437): the relay answers the page request of context c, of an engine that runs a command of it,
or of a posting to its image (R399). -/
def execPageRequestAnswer (c : Nat) (ans : PageAnswer) (s : State) : Host.Outcome State Fault Refusal :=
  if 17 ≤ c then .fault (.noUnit "context record")
  else
    match (s.rc c).life with
    | .frozen (.page f seq) => .next (s.answerContext c f seq ans)
    | _ =>
      match s.pageWaiter c with
      | some (e, m) => .next (s.answerEngine e m ans)
      | none =>
        match s.postWaiter c with
        | some (k, r, q) => .next (if ans = .success then s else s.postImage k r q true)
        | none => notNow "no page request is open"

end Sys2Proof.Machine
end

