-- ==== Sys2Proof/Machine/Tables.lean ====
section
/-! DEFINITION. What befalls tables and dies: translations and their invalidation (R236, R379, R380), retirement (R384,
R387), dictionary entries with errors (R371), repair (R385, R386), stall counters (R410, R411) and bank-conflict
snapshots (R413). -/

namespace Sys2Proof.Machine

/-! ## Retirement -/

/-- The heaps whose table lies on die d lose it: HV is cleared (R384). -/
def Tenant.dropHeaps (t : Tenant) (d : Nat) : Tenant :=
  { t with heap := (List.range 16).foldl (fun (h : Map Word) i =>
      let w := mapGet 0 h (4 * i)
      if tbit w 63 ∧ bitsOf w 40 5 = d then mapSet 0 h (4 * i) (wbit w 63 false) else h) t.heap }

/-- A die retires (R384, R387): contexts whose field contains it end with MCHK (R438), for which the rules name no XIN and no
XINFO (log entry 8). A SAVED context whose last field contains it stays. (Log entry 90: DESIGN CHOICE.) -/
def State.retireDie (s : State) (d : Nat) : State :=
  let s := (List.range 16).foldl (fun (s : State) c =>
    let r := s.rc c
    if r.slot.isSome && r.field.dies.contains d then
      let (s, info) := s.freeInfo noInfo
      s.endFor c cMCHK r.core.inn.toNat info.toNat
    else s) s
  let s := s.updPdie d (fun x => { x with retired := true, tenant := none })
  ({ s with tenants := s.tenants.map (fun (p : Nat × Tenant) => (p.1, p.2.dropHeaps d)) }.returnOwned d).refreshHealth

/-- DIE_RETIREMENT (R387): a machine check retires die d. -/
def execDieRetirement (d : Nat) (s : State) : Host.Outcome State Fault Refusal :=
  if 32 ≤ d then .fault (.noUnit "die")
  else if (s.pdie d).retired then notNow "the die is retired"
  else .next (s.retireDie d)

/-! ## Dictionary entries -/

/-- Cycles charged to a cause (R410). -/
def DieCtx.chargeN (x : DieCtx) (k n : Nat) : DieCtx := { x with sc := mapSet 0 x.sc k (mapGet 0 x.sc k + BitVec.ofNat 64 n) }
/-- One cycle charged to a cause. -/
def DieCtx.charge (x : DieCtx) (k : Nat) : DieCtx := x.chargeN k 1

/-- The 48 bytes of a dictionary entry in its block; none where one of their lines has an error, and, since the rules name
no other outcome of that read, where a page is absent or refuses it. (Log entry 85: DESIGN CHOICE.) -/
def State.blockEntry (s : State) (r : Rec) (x : Nat) : Option Nat :=
  (s.vaWords r.pasid.toNat (r.dictAddr + 64 + 48 * x) 6).map (fun ws => ((List.range 6).map (fun j => ws.getD j 0 * 2 ^ (64 * j))).sum)

/-- Every recording context on die d annotates that it corrected an error (R439). -/
def State.noteDie (s : State) (d : Nat) : State :=
  { s with recs := s.recs.map (fun r => if r.slot.isSome && r.field.dies.contains d then r.note (.corrected d) else r) }

/-- A rewriting of a dictionary entry holds issue for some cycles, up to 64, and is logged as a corrected error. -/
def State.noteRewrite (s : State) (c d : Nat) : State :=
  let n := Config.rewriteCycles s.freeCtr % 65
  ({ s with freeCtr := s.freeCtr + 1, reports := s.reports ++ [Report.dictionary d] }.noteDie d).updDctx c d (fun y => y.chargeN 11 n)

/-- DICT_ENTRY_REWRITE (R371): hub 0 to 3 rewrites an entry of context c on die d from a sibling, which changes no value;
hub 4 stands for all four copies bad, which fetches the entry from its block again, or retires the die. One copy stands
for all hubs of the field, so that where the block has been changed, every die executes the entry fetched; which bundles
execute then is not defined (R368). (Log entry 86: DESIGN CHOICE.) -/
def execDictEntryRewrite (c d hub x : Nat) (s : State) : Host.Outcome State Fault Refusal :=
  if 16 ≤ c ∨ 32 ≤ d ∨ 5 ≤ hub then .fault (.noUnit "context record, die or hub")
  else
    let r := s.rc c
    if r.slot.isNone ∨ !r.field.dies.contains d ∨ r.dictSize ≤ x then notNow "the hub holds no such entry"
    else
      let s := s.noteRewrite c d
      if hub < 4 then .next s
      else
        match s.blockEntry r x with
        | some w => .next (s.updRec c (fun r => { r with dict := r.dict.set x w }))
        | none => .next (s.retireDie d)

/-! ## Repair -/

/-- REPAIR_DECISION (R386): the Atelier writes a repair entry of die d, master and both copies. A logic column is
replaced only while no context is resident on the die. -/
def execRepairDecision (d ix : Nat) (ent : Word) (s : State) : Host.Outcome State Fault Refusal :=
  if 32 ≤ d ∨ 4096 ≤ ix then .fault (.noUnit "die or repair entry")
  else
    let kind := bitsOf ent 60 3
    if 5 ≤ kind ∨ bitsOf ent 56 4 ≠ 0 then notNow "no such entry is written"
    else if kind = 4 ∧ tbit ent 63 ∧ (List.range 16).any (fun c => (s.rc c).slot.isSome && (s.rc c).field.dies.contains d)
      then notNow "a context is resident on the die"
    else
      let s := s.updPdie d (fun x => { x with repair := mapSet 0 x.repair ix ent })
      .next s.refreshHealth

/-! ## Translations -/

/-- The TLB keys of a whole PASID. -/
def tlbOfPasid (pasid k : Nat) : Bool := decide (pasid * 2 ^ 37 ≤ k ∧ k < (pasid + 1) * 2 ^ 37)

/-- A virtual address lies in what an invalidation names: a page by its TLB key, or the whole PASID. -/
def inPage (pasid : Nat) (page : Option Nat) (va : Nat) : Bool :=
  match page with
  | none => true
  | some k => k == tlbKey pasid va 2 || k == tlbKey pasid va 3

/-- An address lies in the 64 KiB pages of a range, as far as an invalidation names them. -/
def rangeInPage (pasid : Nat) (page : Option Nat) (va n : Nat) : Bool :=
  (List.range (pageCount va n)).any (fun i => inPage pasid page (pageBase va + 65536 * i))

/-- An access of die d through the old translation is not performed, or a move of its pointing engine, or a CTXSAVE under
way, holds it (R286, R364, R380). -/
def State.pageInUse (s : State) (d pasid : Nat) (page : Option Nat) : Bool :=
  s.recs.any (fun r => r.pasid.toNat == pasid && r.reqs.any (fun q =>
    q.stage != .performed && r.fromDie d q && q.parts.any (fun p => p.tgt.cls != clsNEAR && inPage pasid page p.tgt.va)))
  || (match ((s.pdie d).engine 4).move with
      | some x => x.pasid == pasid && (rangeInPage pasid page x.old (128 * x.lines) || rangeInPage pasid page x.new (128 * x.lines))
      | none => false)
  || (match s.armRun.getD 7 none with
      | some m => (s.rc (m.w 0 % 16)).pasid.toNat == pasid && !m.ended && !m.cmd.items.isEmpty && rangeInPage pasid page (m.w 1) (m.w 2)
      | none => false)

/-- An invalidation drops the translations of a page, or of a whole PASID. -/
def dropTlb (m : Map TlbEntry) (pasid : Nat) (page : Option Nat) : Map TlbEntry :=
  m.filter (fun e => match page with | some p => e.1 ≠ p | none => !tlbOfPasid pasid e.1)

/-- TLB_INVALIDATION (R380): the oldest invalidation on its way reaches die d, or pod port d − 32, which drops the
translations it holds. -/
def execTlbInvalidation (d : Nat) (s : State) : Host.Outcome State Fault Refusal :=
  if 40 ≤ d then .fault (.noUnit "die or pod port")
  else if s.asleep then notNow "the clocks of the dies and the networks stand"
  else if 32 ≤ d then
    let p := s.pods.getD (d - 32) .reset
    match p.inv with
    | [] => notNow "no invalidation is on its way"
    | (pasid, page) :: rest =>
      .next { s with pods := s.pods.set (d - 32) { p with inv := rest, ack := p.ack ++ [(pasid, page)], tlb := dropTlb p.tlb pasid page } }
  else
    match (s.pdie d).tlbInv with
    | [] => notNow "no invalidation is on its way"
    | (pasid, page) :: rest =>
      .next (s.updPdie d (fun x => { x with tlbInv := rest, tlbAck := x.tlbAck ++ [(pasid, page)], tlb := dropTlb x.tlb pasid page }))

/-- The acknowledgement of a die, or of pod port d − 32, reaches the Atelier; the last one ends the MAPINV. -/
def State.ackMapinv (s : State) (d pasid : Nat) (page : Option Nat) : State :=
  match s.mapinv with
  | some (p, pg, ds) =>
    if p = pasid ∧ pg = page then
      let ds := ds.filter (fun x => x != d)
      if ds.isEmpty then { s with mapinv := none }.fwDone 0 else { s with mapinv := some (p, pg, ds) }
    else s
  | none => s

/-- TLB_INVALIDATION_ACK (R380): die d, or pod port d − 32, acknowledges once every access through the old translation is
performed; what a peer delivers is performed as it arrives. -/
def execTlbInvalidationAck (d : Nat) (s : State) : Host.Outcome State Fault Refusal :=
  if 40 ≤ d then .fault (.noUnit "die or pod port")
  else if s.asleep then notNow "the clocks of the dies and the networks stand"
  else if 32 ≤ d then
    let p := s.pods.getD (d - 32) .reset
    match p.ack with
    | [] => notNow "no invalidation to acknowledge"
    | (pasid, page) :: rest => .next ({ s with pods := s.pods.set (d - 32) { p with ack := rest } }.ackMapinv d pasid page)
  else
    match (s.pdie d).tlbAck with
    | [] => notNow "no invalidation to acknowledge"
    | (pasid, page) :: rest =>
      if s.pageInUse d pasid page then notNow "an access through the old translation is not performed"
      else .next ((s.updPdie d (fun x => { x with tlbAck := rest })).ackMapinv d pasid page)

/-- ATS_INVALIDATION (R236): the host port drops the translation, and completes once no access to the host page is under
way. -/
def execAtsInvalidation (pasid page : Nat) (s : State) : Host.Outcome State Fault Refusal :=
  if s.recs.any (fun r => r.pasid.toNat == pasid && r.reqs.any (fun q => q.stage != .performed && q.parts.any (fun p =>
      p.tgt.cls == clsHOST && p.tgt.va / 2 ^ 16 == page))) then notNow "an access to the page is not performed"
  else .next { s with ats := s.ats.filter (fun p => p ≠ (pasid, page)) }

/-- The ranges of a tenant's addresses that a command names (R346). -/
def QCmd.ranges (m : QCmd) : List (Nat × Nat) :=
  (m.status, 8) ::
    match m.cmd.cls with
    | 0 =>
      let x := m.cpy
      (List.range x.rows).flatMap (fun r => (if x.snear then [] else [((x.srcRow r).toNat, x.rb)]) ++ (if x.dnear then [] else [((x.dstRow r).toNat, x.rb)]))
    | 1 => [(m.w 0, m.w 2), (m.w 1, m.w 2)]
    | 3 => [(m.w 1, 64)]
    | 5 => [(m.w 0, m.w 3)]
    | 7 => [(m.w 1, m.w 2)]
    | 8 => [(m.w 0, 4 * (m.w 2 % 2 ^ 32) * (m.w 2 / 2 ^ 32)), (m.w 1, 4 * (m.w 2 % 2 ^ 32)), (m.w 3, 8 * m.w 4), (m.w 5, 8)]
    | _ => []

/-- Two ranges touch a 64 KiB page together: the one at `va` of one byte. -/
def pageOf (va : Nat) (x : Nat × Nat) : Bool := decide (pageBase x.1 ≤ va ∧ va < pageBase (x.1 + x.2 - 1) + 65536)

/-- A program has named an address for use on die d, and the access is still to be performed (R40): an operation under way,
the next item of a started stream, or a command that an engine of the die runs. -/
def State.walkNamed (s : State) (d pasid va : Nat) : Bool :=
  !inCtlPage va && ((List.range 16).any (fun c =>
    let r := s.rc c
    r.pasid.toNat == pasid && r.slot.isSome && r.field.dies.contains d
    && (r.reqs.any (fun q => q.stage != .performed && r.fromDie d q && q.parts.any (fun p => p.tgt.cls != clsNEAR && p.tgt.va / 65536 == va / 65536))
        || r.group.cells.any (fun l => (List.range 16).any (fun st =>
            let y := (r.die d).cell l
            match (if dClass (y.core.desc st) = 6 then none else y.nextItem st) with
            | some t => (itemBytes (y.core.desc st) t).any (fun b => b.1 / 65536 == va / 65536)
            | none => false))))
  || (List.range 6).any (fun e =>
      match ((s.pdie d).engine e).running with
      | some m => m.pasid == pasid && !m.ended && m.ranges.any (pageOf va)
      | none => false))

/-- What stands for a die's walker as an agent: no record has its number. -/
def hwAgent (d : Nat) : Agent := (18 + d, none)

/-- TABLE_WALK (R379): a walk for die d, for an access that is to be performed (R40), reaches a valid leaf: its bit is set,
the TLB is filled. -/
def execTableWalk (d pasid va : Nat) (s : State) : Host.Outcome State Fault Refusal :=
  let va := va % 2 ^ 52
  if 32 ≤ d then .fault (.noUnit "die")
  else if s.asleep then notNow "the device is not in RUN"
  else if !s.walkNamed d pasid va then notNow "no access names the address"
  else
    match s.fillTlb (hwAgent d) d pasid va with
    | .error _ => notNow "the walk reaches no valid leaf"
    | .ok (s, _, _) => .next s

/-! ## Counters -/

/-- The bank-conflict counters of a cell: requester q at bank b is number 16·q + b (R412). (Log entry 40: DESIGN CHOICE.) -/
def State.bankOf (s : State) (d l i : Nat) : Nat := (mapGet 0 s.bankConf ((d * 64 + l) * 128 + i)).toNat

/-- The requester that a bank serves (R243): the lowest that asks, but one that has been refused for 16 cycles in a row goes
first. -/
def bankTurn (asks : Nat → Bool) (refused : Nat → Nat) : Option Nat :=
  match (List.range 8).find? (fun q => asks q && decide (16 ≤ refused q)) with
  | some q => some q
  | none => (List.range 8).find? asks

/-- One more in a 16-bit saturating counter. -/
def satInc (x : BitVec 16) : BitVec 16 := if x = BitVec.allOnes 16 then x else x + 1

/-- One cycle of bank b of cell l of die d: those that are refused ask again in the next (R243, R412). Which requesters come
new is free. -/
def State.bankCycle (s : State) (d l b : Nat) : State :=
  let key := fun (q : Nat) => (d * 64 + l) * 128 + 16 * q + b
  let refused := fun (q : Nat) => mapGet 0 s.bankWait (key q)
  let asks := fun (q : Nat) => decide (refused q ≠ 0) || Config.bankAsks s.clk ((d * 64 + l) * 16 + b) q
  let turn := bankTurn asks refused
  (List.range 8).foldl (fun (s : State) q =>
    if asks q && turn != some q then
      { s with bankConf := mapSet 0 s.bankConf (key q) (satInc (mapGet 0 s.bankConf (key q)))
               bankWait := mapSet 0 s.bankWait (key q) (refused q + 1) }
    else { s with bankWait := mapSet 0 s.bankWait (key q) 0 }) s

/-- One cycle of every bank of a die. -/
def State.banksCycle (s : State) (d : Nat) : State :=
  (List.range 1024).foldl (fun (s : State) i => s.bankCycle d (i / 16) (i % 16)) s

/-- Numbers of w bits packed into doublewords. -/
def packWords (w : Nat) (xs : List Nat) : List Nat :=
  (List.range (xs.length * w / 64)).map (fun i =>
    ((List.range (64 / w)).map (fun j => xs.getD (i * (64 / w) + j) 0 % 2 ^ w * 2 ^ (w * j))).sum)

/-- The first of the cells with the largest total. -/
def largestCell (total : Nat → Nat) : List Nat → Nat
  | [] => 0
  | l :: ls => ls.foldl (fun (a b : Nat) => if total a < total b then b else a) l

/-- BANK_SNAPSHOT (R413): die d has reached the IN that a LEND tagged: one record, and the matrices of the group are
cleared. -/
def execBankSnapshot (c d : Nat) (s : State) : Host.Outcome State Fault Refusal :=
  if 16 ≤ c ∨ 32 ≤ d then .fault (.noUnit "context record or die")
  else if s.asleep then notNow "the clocks of the dies and the networks stand"
  else
    let r := s.rc c
    let x := s.dctx c d
    match x.snapAt with
    | [] => notNow "no snapshot is due"
    | (inn, loop, pass, _) :: rest =>
      if inDiff x.e inn < 0 then notNow "the die has not reached the snapshot"
      else
        let cells := r.group.cells
        let sums := (List.range 128).map (fun i => (cells.map (fun l => s.bankOf d l i)).sum)
        let big := largestCell (fun l => ((List.range 128).map (s.bankOf d l)).sum) cells
        let s := s.emit c 1 0x30 d (some big) 0
          ([inn.toNat, loop * 2 ^ 32 + pass.toNat] ++ packWords 32 sums ++ [big] ++ packWords 16 ((List.range 128).map (s.bankOf d big)))
        let s := { s with bankConf := s.bankConf.filter (fun p => !(p.1 / 8192 == d && cells.contains (p.1 / 128 % 64))) }
        .next (s.updDctx c d (fun x => { x with snapAt := rest }))

/-- The head bundle of a context on a die finds no room in a request tracker or a matrix queue. -/
def State.queuesFull (s : State) (c d : Nat) : Bool :=
  let r := s.rc c
  match (r.die d).q with
  | [] => false
  | e :: _ =>
    match decodeBundle (r.bundleBits e.idx e.lit) with
    | .error _ => false
    | .ok b =>
      let bs := bundleSlotsOf b
      let cells := activeCells r d e.diemask e.cellmask
      !(s.mxRoom c d cells (bs.map BSlot.raw) && roomFor r d e.inn cells (bs.map BSlot.raw))

/-- A reference access of a context waits at the line that a move copies in this cycle (R25, R287). -/
def State.waitsForCopy (s : State) (c d : Nat) : Bool :=
  let r := s.rc c
  s.dies.any (fun y => match y.pge.move with
    | some x => x.pasid == r.pasid.toNat && x.acks.isNone && Config.underCopy s.clk d && r.reqs.any (fun q =>
        q.stage != .performed && r.fromDie d q && q.parts.any (fun p => match p.tgt.ref with
          | some (w, off) => refHid w == x.hid && refObj w == x.obj && off / 128 == x.done
          | none => false))
    | none => false)

/-- The cause to which a cycle without an issue is charged (R410), the first that holds; none where the head could
issue. (Log entry 41: DESIGN CHOICE.) -/
def State.stallCause (s : State) (c d : Nat) : Option Nat :=
  let r := s.rc c
  let x := r.die d
  let frozen : Bool := match r.life with | .frozen _ => true | _ => r.diesStop
  match x.hold, x.q with
  | some .wait, _ => some 0
  | some .waitf, _ => some 1
  | some _, _ => some 2
  | none, [] => some 6
  | none, e :: _ =>
    if s.queuesFull c d || (x.atMark.isSome && decide (2 ≤ x.shadows.length)) then some 3
    else if s.waitsForCopy c d then some 4
    else if (s.cannotBundle c d).isNone then (if x.cycAt ≠ s.clk + 1 ∧ (s.mustYield c d e).isSome then some 5 else none)
    else if frozen then some 7
    else if x.dly ≠ 0 then some 8
    else none

/-- The bundle holds an ABAR. -/
def isAbar (r : Raw) : Bool := r.kind == .ct && r.op == 0x0B

/-- The access stream of a die is held by ABAR, or by its limit of 256 bundles, while an A-marked load waits beyond (R410):
the entries of the decode queue are looked at in order. -/
def Rec.accessHeld (r : Rec) (x : DieCtx) : List QEntry → Bool
  | [] => false
  | e :: es =>
    let sl := r.entrySlots e
    let past := inDiff x.access e.inn
    if sl.any isMarkedLoad && decide (past < e.reps) then
      if decide (0 < past) && sl.any stopsAccess then sl.any isAbar
      else decide (256 ≤ inDiff (if 0 < past then x.access else e.inn) x.e)
    else if sl.any isAbar then es.any (fun f => (r.entrySlots f).any isMarkedLoad)
    else if sl.any stopsAccess then false
    else Rec.accessHeld r x es

/-- One cycle of an engine (R411). -/
def Engine.cycle (y : Engine) : Engine :=
  match y.running with
  | some m => { y with busy := y.busy + 1, pageWait := if m.page then y.pageWait + 1 else y.pageWait }
  | none => y

/-- The errors that die d corrects in a cycle are logged and annotated (R254, R371, R384, R387, R439). -/
def State.noteCorrected (s : State) (d : Nat) : State :=
  let e := Config.corrected s.clk d
  let s := { s with reports := s.reports ++ (if e.getLsbD 0 then [Report.dictionary d] else []) ++ (if e.getLsbD 1 then [Report.forwarding d] else [])
                                 ++ (if e.getLsbD 2 then [Report.repair d] else [])
                                 ++ (if e.getLsbD 3 then [Report.memory d] else []) }
  if e = 0 then s else s.noteDie d

/-- DIE_CYCLE (R410 to R412): the stall counters of the contexts on die d, the counters of its engines and those of its
near-store banks advance. -/
def execDieCycle (d : Nat) (s : State) : Host.Outcome State Fault Refusal :=
  if 32 ≤ d then .fault (.noUnit "die")
  else if s.asleep then notNow "the device is not in RUN"
  else
    let s := (List.range 16).foldl (fun (s : State) c =>
      let r := s.rc c
      if r.slot.isSome && r.field.dies.contains d then
        let s := match s.stallCause c d with | some k => s.updDctx c d (fun x => x.charge k) | none => s
        if r.accessHeld (r.die d) (r.die d).q then s.updDctx c d (fun x => x.charge 10) else s
      else s) s
    let s := (s.banksCycle d).noteCorrected d
    .next (s.updPdie d (fun x => { x with copy0 := x.copy0.cycle, copy1 := x.copy1.cycle, copy2 := x.copy2.cycle
                                          copy3 := x.copy3.cycle, pge := x.pge.cycle, kiln := x.kiln.cycle }))

end Sys2Proof.Machine
end

