-- ==== Sys2Proof/Machine/Sha.lean ====
section
/-! DEFINITION. SHA-256 (R463, R464), on lists of bytes. The constants are computed from their definition, the first 32
bits behind the point of square and cube roots of primes; the message schedule is a window of 16 words that slides by
one word a round. -/

namespace Sys2Proof.Machine

/-- The primes up to 311, which are 64. -/
def shaPrimes : List Nat :=
  (List.range 312).filter (fun n => decide (2 ≤ n) && (List.range 18).all (fun m => decide (m < 2 ∨ n ≤ m ∨ n % m ≠ 0)))

/-- The largest r with r^k ≤ x that agrees with r0 above the low n bits. -/
def shaRoot (k x : Nat) : Nat → Nat → Nat
  | 0, r0 => r0
  | n + 1, r0 => shaRoot k x n (if (r0 + 2 ^ n) ^ k ≤ x then r0 + 2 ^ n else r0)

/-- 32 bits behind the point of the k-th root of p. -/
def shaFraction (k p : Nat) : Lane := BitVec.ofNat 32 (shaRoot k (p * 2 ^ (32 * k)) 37 0)

/-- The hash value while a block is taken in, and the 16 words of its message schedule that are still needed. -/
structure ShaRun where
  a : Lane
  b : Lane
  c : Lane
  d : Lane
  e : Lane
  f : Lane
  g : Lane
  h : Lane
  window : List Lane

/-- The exclusive or of two rotations to the right and a third word. -/
def shaMix (x : Lane) (i j : Nat) (y : Lane) : Lane := x.rotateRight i ^^^ x.rotateRight j ^^^ y

/-- One round with its constant: the oldest word of the window is taken, and the word 16 places on joins it. -/
def ShaRun.next (r : ShaRun) (k : Lane) : ShaRun :=
  let w := fun (i : Nat) => r.window.getD i 0
  let joins := w 0 + w 9 + shaMix (w 1) 7 18 (w 1 >>> 3) + shaMix (w 14) 17 19 (w 14 >>> 10)
  let pick := r.g ^^^ (r.e &&& (r.f ^^^ r.g))
  let most := (r.a &&& (r.b ||| r.c)) ||| (r.b &&& r.c)
  let t := r.h + shaMix r.e 6 11 (r.e.rotateRight 25) + pick + k + w 0
  { a := t + shaMix r.a 2 13 (r.a.rotateRight 22) + most, b := r.a, c := r.b, d := r.c, e := r.d + t, f := r.e, g := r.f, h := r.g
    window := r.window.drop 1 ++ [joins] }

/-- Bytes as a number, the first most significant. -/
def shaNumber (bs : List (BitVec 8)) : Nat := bs.foldl (fun n b => 256 * n + b.toNat) 0

/-- A hash value: eight words. -/
abbrev ShaValue := List Lane

/-- Takes in a block of 64 bytes. -/
def shaTake (v : ShaValue) (block : List (BitVec 8)) : ShaValue :=
  let x := fun (i : Nat) => v.getD i 0
  let r0 : ShaRun :=
    { a := x 0, b := x 1, c := x 2, d := x 3, e := x 4, f := x 5, g := x 6, h := x 7
      window := (List.range 16).map (fun i => BitVec.ofNat 32 (shaNumber ((block.drop (4 * i)).take 4))) }
  let r := (shaPrimes.map (shaFraction 3)).foldl ShaRun.next r0
  [x 0 + r.a, x 1 + r.b, x 2 + r.c, x 3 + r.d, x 4 + r.e, x 5 + r.f, x 6 + r.g, x 7 + r.h]

/-- A number as n bytes, the first most significant. -/
def shaBytes (n x : Nat) : List (BitVec 8) := ((List.range n).map (fun i => BitVec.ofNat 8 (x / 256 ^ i))).reverse

/-- SHA-256: the message, a byte 0x80, zeroes and its length in bits fill whole blocks, which are taken in one by one. -/
def sha256 (m : List (BitVec 8)) : List (BitVec 8) :=
  let blocks := (m.length + 72) / 64
  let whole := m ++ 0x80 :: List.replicate (64 * blocks - m.length - 9) 0 ++ shaBytes 8 (8 * m.length)
  ((List.range blocks).foldl (fun v i => shaTake v ((whole.drop (64 * i)).take 64))
    ((shaPrimes.take 8).map (shaFraction 2))).flatMap (fun w => shaBytes 4 w.toNat)

end Sys2Proof.Machine
end

