-- ==== Sys2Proof/Machine/Translator.lean ====
section
/-! DEFINITION. The Nueri translation cache (R106, R388 to R390): keys, lookup, insertion, replacement, and how the
management cores serve the loads that translate. The loader stands outside the device: what it hands to the translator is
a list of the state, and so is what it gets. (Log entry 50: DEDUCED.) -/

namespace Sys2Proof.Machine

/-- Little-endian bytes of a number. -/
def leBytes (n v : Nat) : List (BitVec 8) := (List.range n).map (fun i => BitVec.ofNat 8 (v / 256 ^ i))

/-- TK: the tenant key of a PASID at a generation of its record (R388). -/
def State.tenantKey (s : State) (pasid : Nat) (gen : BitVec 32) : List (BitVec 8) := sha256 (s.secret ++ leBytes 4 pasid ++ leBytes 4 gen.toNat)

/-- FD: the feature digest (R388). -/
def State.featureDigest (s : State) : List (BitVec 8) :=
  sha256 (([0, 1, 2, 4, 5, 6, 7, 8].map (fun i => leBytes 8 (s.featWord i).toNat)).flatten ++ s.translator)

/-- The key of a tenant's entry for a Nueri section: TK, FD, SH. -/
def State.transKey (s : State) (t : Tenant) (sec : List (BitVec 8)) : List (BitVec 8) := t.tk ++ s.featureDigest ++ sha256 sec

/-- The bytes that a tenant's partition holds. -/
def partSize (pasid : Nat) (l : List TransEntry) : Nat := ((l.filter (fun x => x.pasid == pasid)).map (fun x => x.obj.length)).sum

/-- Drops the least recently used entries of a tenant until the rest takes no more than `room` (R389). -/
def makeFit (pasid room : Nat) : List TransEntry → List TransEntry
  | [] => []
  | x :: xs => if x.pasid = pasid ∧ room < partSize pasid (x :: xs) then makeFit pasid room xs else x :: makeFit pasid room xs

/-- An insertion: an object larger than the quota is not kept (R389). -/
def State.cacheObj (s : State) (pasid quota : Nat) (key obj : List (BitVec 8)) : State :=
  if quota < obj.length then s
  else { s with trans := makeFit pasid (quota - obj.length) s.trans ++ [{ pasid := pasid, key := key, obj := obj }] }

/-- A load that translates: a hit in the tenant's own partition, else the translator, whose result is kept; a failure is
not (R388). A PASID without a tenant record gets what a failed translation gives. (Log entry 50: DEDUCED.) -/
def State.translateFor (s : State) (pasid : Nat) (sec : List (BitVec 8)) : State × Option (List (BitVec 8)) :=
  match mapFind s.tenants pasid with
  | none => (s, none)
  | some t =>
    match s.trans.find? (fun x => x.pasid == pasid && x.key == s.transKey t sec) with
    | some x => ({ s with trans := s.trans.erase x ++ [x] }, some x.obj)
    | none =>
      match Config.translate s.translator sec with
      | none => (s, none)
      | some obj => (s.cacheObj pasid t.cacheQuota (s.transKey t sec) obj, some obj)

/-- The tenant whose slice comes next: round-robin over the tenants, whether or not one has a load (R389). -/
def State.nextSlice (s : State) : Option Nat :=
  let after := fun (p : Nat) => (p + 2 ^ 20 - 1 - s.loadTurn) % 2 ^ 20
  match s.tenants.map Prod.fst with
  | [] => none
  | x :: xs => some (xs.foldl (fun a b => if after b < after a then b else a) x)

/-- The management cores spend a slice: on the oldest load of its tenant, or on nothing (R389). Loads of a PASID without a
tenant record take no slice. (Log entry 50: DEDUCED.) -/
def State.serveLoad (s : State) : State :=
  let owned := fun (x : Nat × List (BitVec 8)) => (mapFind s.tenants x.1).isSome
  let lost := (s.loads.filter (fun x => !owned x)).map (fun (x : Nat × List (BitVec 8)) => (x.1, none))
  let s := { s with loads := s.loads.filter owned, loaded := s.loaded ++ lost }
  match s.nextSlice with
  | none => s
  | some p =>
    match s.loads.find? (fun (x : Nat × List (BitVec 8)) => x.1 == p) with
    | none => { s with loadTurn := p }
    | some x =>
      let (s', r) := s.translateFor x.1 x.2
      { s' with loads := s.loads.erase x, loaded := s.loaded ++ [(x.1, r)], loadTurn := p }

/-- The translation cache of a tenant is emptied (R390). -/
def State.dropTrans (s : State) (pasid : Nat) : State := { s with trans := s.trans.filter (fun x => x.pasid != pasid) }

end Sys2Proof.Machine
end

