-- ==== Sys2Proof/Machine/Outside.lean ====
section
/-! DEFINITION. What the host, the pod peers and the slot hardware do (R321, R353 to R361, R406, R455 to R461), and the
Atelier's frames and restarts (R450, R451). An event of the outside reaches a device that sleeps after its wake (R467). -/

namespace Sys2Proof.Machine

/-- A step of the outside: held while the device sleeps. -/
def State.outside (s : State) (next : State) : Host.Outcome State Fault Refusal :=
  if s.asleep = true ∨ s.power ≠ .run then notNow "the device is not in RUN" else .next next

/-- A request of the host has been outstanding: the device was not idle (R466). -/
def State.stirred (s : State) : State := { s with idleNs := 0 }

/-- A request of the host that is carried leaves `next`; one that is not leaves everything but the idle time. -/
def State.hostStep (s : State) (carried : Bool) (next : State) : Host.Outcome State Fault Refusal :=
  s.outside (if carried then next else s).stirred

/-- The host protocol has an agreed version; an interface without one carries only negotiation (R458). -/
def State.hostAgreed (s : State) : Bool := s.fw.negHost != 0

/-- The Armature pages are exposed: not in recovery mode (R462). -/
def State.exposed (s : State) : Bool := s.ate.life != .recovery

/-- A delivery or a kick reaches its page: under an agreed version, of the host, or of the pod protocol at a port, since the
step does not say whose it is. (Log entry 46: DEDUCED.) -/
def State.carries (s : State) : Bool := s.exposed && (s.hostAgreed || s.pods.any (fun p => p.version != 0))

/-! ## Mailboxes, kicks, tickets -/

/-- MAILBOX_DELIVERY (R359): 64 bytes of the host or of a pod peer; refused whole where the mailbox is full. -/
def execMailboxDelivery (c m : Nat) (msg : List (BitVec 64)) (s : State) : Host.Outcome State Fault Refusal :=
  if 16 ≤ c ∨ 4 ≤ m then .fault (.noUnit "mailbox")
  else
    let bs := wordsBytes (msg.map BitVec.toNat) 64
    s.hostStep (s.carries && !s.mbxFull c m && (s.rc c).life != .free) (s.deliverMbx c m bs)

/-- MBXSTAT_STORE (R358): the FULL bits written as 1 are cleared. -/
def execMbxstatStore (c v : Nat) (s : State) : Host.Outcome State Fault Refusal :=
  if 16 ≤ c then .fault (.noUnit "context record")
  else s.hostStep s.exposed { s with mbx := s.mbx.modify c (fun x => x &&& ~~~(BitVec.ofNat 4 v)) }

/-- KICK (R356): a store of the host or of a pod peer to the kick page of a tenant. -/
def execKick (pasid qid : Nat) (s : State) : Host.Outcome State Fault Refusal :=
  if 8192 ≤ qid then .fault (.noUnit "queue") else s.hostStep s.carries (s.kick pasid qid)

/-- TICKET_BLOCK_STORE (R406): a doubleword of the host or of the Atelier to TCn of context c at die d; ignored where the
context is not resident there. -/
def execTicketBlockStore (c d n : Nat) (v : Word) (s : State) : Host.Outcome State Fault Refusal :=
  if 16 ≤ c ∨ 32 ≤ d ∨ 8 ≤ n then .fault (.noUnit "ticket counter")
  else
    let r := s.rc c
    s.hostStep (r.slot.isSome && r.field.dies.contains d) (s.updDctx c d (fun x => { x with tc := mapSet 0 x.tc n v }))

/-! ## The memory window (R457) -/

/-- What stands for the host port as an agent: no record has its number. -/
def hostAgent : Agent := (17, none)

/-- What an access of the host to the memory window comes to: none where it is refused, or the protocol has no agreed
version (R458). (Log entry 46: DEDUCED.) -/
def State.windowAt (s : State) (pasid off : Nat) (kind : AccKind) : Option Nat :=
  match mapFind s.tenants pasid with
  | none => none
  | some t =>
    if !s.hostAgreed ∨ 2 ^ 40 ≤ off ∨ 2 ^ 52 ≤ t.hwb + off then none
    else match (s.engAt hostAgent none pasid (t.hwb + off) kind).2 with | .val k => some k | _ => none

/-- The keys of the bytes of an access to the memory window: none where one of them is refused. -/
def State.windowKeys (s : State) (pasid off n : Nat) (write : Bool) : Option (List Nat) :=
  let ks := (List.range n).map (fun i => s.windowAt pasid (off + i) (if write then .engWrite else .engRead))
  if (mapFind s.tenants pasid).isSome && ks.all Option.isSome then some (ks.filterMap id) else none

/-- HOST_POSTED_WRITE (R321, R457): committed in the order of arrival, one write at a time. A write that is refused is
lost. -/
def execHostPostedWrite (pasid off : Nat) (bytes : List (BitVec 8)) (_relaxed : Bool) (s : State) : Host.Outcome State Fault Refusal :=
  match s.windowKeys pasid off bytes.length true with
  | some ks => s.hostStep true (s.pokeCells (ks.zip bytes))
  | none => s.hostStep false s

/-- The host receives bytes: none where its request completes with an error. -/
def State.answerHost (s : State) (bs : List (BitVec 8)) : State := { s with hostReads := s.hostReads ++ [bs] }

/-- A read of the memory window. -/
def State.hostLoad (s : State) (pasid off n : Nat) : State :=
  match s.windowKeys pasid off n false with
  | some ks =>
    let bad := ks.any s.bad
    let bs := if bad then [] else ks.map (memGet s.mem)
    ((linesOf ks).foldl (fun (s : State) l => s.noteRead (l * 128) 0 false false) s).answerHost bs
  | none => s.answerHost []

/-- An AtomicOp of 4 or 8 bytes on the memory window: the old value returns; an access at SYSTEM scope (R321, R457). -/
def State.hostAtomic (s : State) (pasid off n : Nat) (f : Rmw) (new : Nat → Nat) : State :=
  match (if (n = 4 ∨ n = 8) ∧ off % n = 0 then s.windowAt pasid off (.atomic true) else none) with
  | some k =>
    if s.bad k then s.answerHost []
    else
      let old := memRead s.mem k n
      let s := ((s.noteRead k 0 false false).l2Write k 0 false).poke k n (new old)
      (s.noteCoherent hostAgent.1 none .system k (.rmw f)).answerHost (leBytes n old)
  | none => s.answerHost []

/-- NEGV: the negotiated versions (R459). -/
def State.negv (s : State) : Nat := (s.pods.getD 0 .reset).version.toNat * 2 ^ 32 + s.fw.negHost.toNat * 2 ^ 16 + s.fw.negFw.toNat

/-- FSTAT (R459). -/
def FwIface.fstat (f : FwIface) : Nat := (if f.busy then 2 ^ 63 else 0) + (if f.cmdlost then 2 ^ 62 else 0) + f.status.toNat

/-- Byte i of the control window (R459): CMD, FSTAT, NEGV and the 128 bytes of RESP; in recovery mode the image buffer alone
(R462). (Log entry 48: DESIGN CHOICE.) -/
def State.controlByte (s : State) (i : Nat) : BitVec 8 :=
  if !s.exposed then (if i < 0x1000 then 0 else s.bootImage.getD (i - 0x1000) 0)
  else if i < 0x40 then s.fw.cmd.getD i 0
  else if 0x48 ≤ i ∧ i < 0x50 then BitVec.ofNat 8 (s.fw.fstat / 256 ^ (i - 0x48))
  else if 0x50 ≤ i ∧ i < 0x58 then BitVec.ofNat 8 (s.negv / 256 ^ (i - 0x50))
  else if 0x80 ≤ i ∧ i < 0x100 then s.fw.resp.getD (i - 0x80) 0
  else 0

/-- HOST_READ (R455, R457, R459): what a request of the host returns, of the memory window, where an AtomicOp performs too, of
the control window, or of a register page of die d. (Log entry 71: DESIGN CHOICE.) -/
def execHostRead (pasid off : Nat) (acc : HostAccess) (s : State) : Host.Outcome State Fault Refusal :=
  match acc with
  | .read n => s.hostStep true (s.hostLoad pasid off n)
  | .fetchAdd n v => s.hostStep true (s.hostAtomic pasid off n .add (fun old => old + v))
  | .swap n v => s.hostStep true (s.hostAtomic pasid off n .swap (fun _ => v))
  | .cas n old new => s.hostStep true (s.hostAtomic pasid off n (.cas new) (fun x => if x = old % 2 ^ (8 * n) then new else x))
  | .control n => s.hostStep true (s.answerHost ((List.range n).map (fun i => s.controlByte (off + i))))
  | .register n d =>
    if 32 ≤ d then .fault (.noUnit "die")
    else if off < 0x0F0000000000 ∨ 7 ≤ mmioPage off ∨ (n ≠ 4 ∧ n ≠ 8) ∨ off % n ≠ 0 then notNow "no register"
    else s.hostStep true (s.answerHost (if s.exposed then leBytes n (s.mmioRead 0 true (dieKey d off) n) else []))

/-! ## Pod ports (R458, R460, R461) -/

/-- What stands for a pod port as an agent: no record has its number. -/
def podAgent (port : Nat) : Agent := (50 + port, none)

/-- The translation of an address for the peer of a pod port: one it has cached, else a walk, which sets its PODACC bit and
reads the entry again (R233, R379). -/
def State.podXlate (s : State) (port pasid va : Nat) : Option (State × Word × Nat) :=
  let p := s.pods.getD port .reset
  match (mapFind p.tlb (tlbKey pasid va 3)).orElse (fun _ => mapFind p.tlb (tlbKey pasid va 2)) with
  | some e => some (s, e.word, e.level)
  | none =>
    match s.walkFor (podAgent port) pasid va with
    | .error _ => none
    | .ok (s, leaf, w, level) =>
      let s := (s.setCompanion (podAgent port) leaf (32 + port)).noteCoherent (podAgent port).1 none .device leaf .load
      some ({ s with pods := s.pods.set port { p with tlb := mapPut p.tlb (tlbKey pasid va level) { word := w, level := level } } }, w, level)

/-- The keys of n pages that a peer writes; none where one is absent or refuses it. -/
def State.podPages (s : State) (port pasid va : Nat) : Nat → State × Option (List Nat)
  | 0 => (s, some [])
  | n + 1 =>
    match s.podXlate port pasid va with
    | none => (s, none)
    | some (s, w, level) =>
      let t := pageTarget pasid va w level
      if (classFault .engWrite t.cls 8).isSome ∨ !tbit w 3 ∨ inCtlPage va then (s, none)
      else
        match State.podPages s port pasid (va + 65536) n with
        | (s, some ks) => (s, some (s.writeKey t :: ks))
        | r => r

/-- Bytes that a peer delivers at an offset of a port's window: refused whole beyond the window, or where a page of it is
absent or refuses them. -/
def State.podWrite (s : State) (port off : Nat) (bytes : List (BitVec 8)) : State :=
  let p := s.pods.getD port .reset
  let va := p.base + off
  if p.size < off + bytes.length then s
  else
    match s.podPages port p.pasid (pageBase va) (pageCount va bytes.length) with
    | (s, none) => s
    | (s, some ks) => s.pokeCells (bytes.zipIdx.map (fun b => (pageKey ks va b.2, b.1)))

/-- POD_ARRIVAL (R461): what a peer's PODSEND delivers; refused whole beyond the window, or at a full mailbox. -/
def execPodArrival (port : Nat) (mbx : Option (Nat × Nat)) (off : Nat) (bytes : List (BitVec 8)) (s : State) : Host.Outcome State Fault Refusal :=
  if 8 ≤ port then .fault (.noUnit "pod port")
  else if !(s.pods.getD port .reset).up then notNow "the port is down"
  else
    match mbx with
    | some (c, m) =>
      if 16 ≤ c ∨ 4 ≤ m then .fault (.noUnit "mailbox")
      else s.outside (if bytes.length ≠ 64 ∨ s.mbxFull c m ∨ (s.rc c).life = .free then s else s.deliverMbx c m bytes)
    | none => s.outside (s.podWrite port off bytes)

/-- The version that two offered ranges agree (R458): 0 where there is none. The device offers version 1.0. -/
def agreed (lo hi : Nat) : Nat := if max lo 0x0100 ≤ min hi 0x0100 then min hi 0x0100 else 0

/-- POD_LINK_UP (R460, R461): the port negotiates; without an agreed version it stays down. The window that the host driver
exports through it is free: of a tenant, its base and its size multiples of 64 KiB. (Log entry 37: DESIGN CHOICE.) -/
def execPodLinkUp (port lo hi peer : Nat) (s : State) : Host.Outcome State Fault Refusal :=
  if 8 ≤ port then .fault (.noUnit "pod port")
  else
    let p := s.pods.getD port .reset
    let v := agreed lo hi
    if p.up then notNow "the port is up"
    else if v = 0 then .next s
    else
      let w := Config.podWindow port s.freeCtr
      let base := 65536 * (w.2.1 % 2 ^ 36)
      let p := { p with up := true, version := BitVec.ofNat 16 v, peer := BitVec.ofNat 32 peer, pasid := w.1 % 2 ^ 20
                        base := base, size := min (65536 * w.2.2) (2 ^ 52 - base) }
      .next { s with freeCtr := s.freeCtr + 1, pods := s.pods.set port p }

/-- The PODSENDs that the Armature has accepted for a port are to end with LINK (R460). -/
def State.loseSends (s : State) (port : Nat) : State :=
  let f := fun (m : QCmd) => if m.w 1 % 8 = port ∧ !m.ended then { m with code := kLINK } else m
  { s with armq := s.armq.modify 5 (fun l => l.map f), armRun := s.armRun.modify 5 (fun m => m.map f) }

/-- POD_LINK_LOSS (R460): the agreed version is dropped; commands accepted for the port end with LINK, whether or not the link
comes up before they run. The peer's translations are gone, and with them what their invalidations wait for. -/
def execPodLinkLoss (port : Nat) (s : State) : Host.Outcome State Fault Refusal :=
  if 8 ≤ port then .fault (.noUnit "pod port")
  else
    let p := s.pods.getD port .reset
    if !p.up then notNow "the port is down"
    else
      let s := { s.loseSends port with pods := s.pods.set port { p with up := false, version := 0, tlb := [], inv := [], ack := [] } }
      .next ((p.inv ++ p.ack).foldl (fun (s : State) x => s.ackMapinv (32 + port) x.1 x.2) s)

/-! ## Registers (R455, R456, R459) -/

/-- Writes the bytes of a number into a list. -/
def putList (xs : List (BitVec 8)) (at_ n v : Nat) : List (BitVec 8) :=
  (List.range n).foldl (fun xs i => xs.set (at_ + i) (BitVec.ofNat 8 (v / 256 ^ i))) xs

/-- A write to the control window. In recovery mode it exposes the image buffer alone, from 4 KiB on (R462).
(Log entry 48: DESIGN CHOICE.) -/
def State.controlWrite (s : State) (off n v : Nat) : State :=
  if s.ate.life = .recovery then
    if off < 0x1000 then s
    else
      let at_ := off - 0x1000
      let img := s.bootImage ++ List.replicate (at_ + n - s.bootImage.length) 0
      { s with bootImage := putList img at_ n v }
  else if off + n ≤ 0x40 then { s with fw := { s.fw with cmd := putList s.fw.cmd off n v } }
  else if off = 0x40 then
    if s.fw.busy then { s with fw := { s.fw with cmdlost := true } } else { s with fw := { s.fw with busy := true } }
  else if off = 0x48 ∧ n = 8 then { s with fw := { s.fw with cmdlost := s.fw.cmdlost && !tbit (BitVec.ofNat 64 v) 62 } }
  else s

/-- REGISTER_WRITE (R455, R459): a write of the host or of the Atelier to a device register: of die d, or, for d = 32, at
an offset of the control window, which in recovery mode exposes no other page (R462). A kick names its tenant and is a step of its own. -/
def execRegisterWrite (pa d n : Nat) (v : Word) (s : State) : Host.Outcome State Fault Refusal :=
  if 33 ≤ d then .fault (.noUnit "die")
  else if !([1, 2, 4, 8].contains n) ∨ pa % n ≠ 0 then notNow "the write is not aligned"
  else if d = 32 then s.hostStep true (s.controlWrite pa n v.toNat)
  else if pa < 0x0F0000000000 ∨ 7 ≤ mmioPage pa then notNow "no register page"
  else if s.exposed && mmioPage pa == 4 then notNow "a kick names its tenant"
  else s.hostStep s.exposed (s.mmioWrite 0 true (dieKey d pa) n v.toNat)

/-! ## The Atelier (R450, R451, R354) -/

/-- The management cores read the kick-pending FIFO: a free number of its entries; once they have read them all, an overflow
is dealt with (R327, R356). What they do with a queue is firmware. (Log entry 84: DESIGN CHOICE.) -/
def State.readKicks (s : State) : State :=
  let rest := s.kickFifo.drop (Config.kicksRead s.ate.framecnt.toNat)
  { s with kickFifo := rest, kickOver := s.kickOver && !rest.isEmpty }

/-- The slots from one on, up to another, map no queue: their poll positions pass without a step (R354). -/
def State.noSlots (s : State) (first last : Nat) : Bool :=
  (List.range 32).all (fun n => decide (n < first ∨ last ≤ n) || !tbit (s.qslots.getD n .reset).qa 63)

/-- ATELIER_FRAME_TICK (R451): every poll position of the frame has passed; the next frame begins. The management cores read
kicks and serve a load meanwhile. -/
def execAtelierFrameTick (s : State) : Host.Outcome State Fault Refusal :=
  if s.ate.life ≠ .running then notNow "the Atelier does not run"
  else if s.power = .vault then notNow "the device is in VAULT"
  else if !s.noSlots s.ate.poll 32 then notNow "a poll position of the frame is to come"
  else .next { s.readKicks.serveLoad with ate := { s.ate with framecnt := s.ate.framecnt + 1, poll := 0 } }

/-- The priority by which the shipped firmware serves a slot (R452). -/
def QSlot.effective (q : QSlot) : Nat := if 64 ≤ bitsOf q.qa 45 12 then 0 else bitsOf q.qa 58 3

/-- Slot i goes before slot j (R452): by effective priority, then by the longer wait, then by number. -/
def QSlot.before (x y : QSlot) (i j : Nat) : Bool :=
  let w := fun (q : QSlot) => bitsOf q.qa 45 12
  decide (x.effective < y.effective)
  || (x.effective == y.effective && (decide (w y < w x) || (w x == w y && decide (i < j))))

/-- The slot that gives way to a pending queue (R452): of the valid slots without a kick, the one that ranks last. -/
def State.victimSlot (s : State) : Option Nat :=
  let at_ := fun (i : Nat) => s.qslots.getD i .reset
  match (List.range 32).filter (fun i => tbit (at_ i).qa 63 && !tbit (at_ i).qa 62) with
  | [] => none
  | i :: is => some (is.foldl (fun a b => if (at_ a).before (at_ b) a b then b else a) i)

/-- A kicked slot waits one frame more. -/
def QSlot.wait (q : QSlot) : QSlot :=
  if tbit q.qa 62 ∧ bitsOf q.qa 45 12 < 4095 then { q with qa := q.qa + BitVec.ofNat 64 (2 ^ 45) } else q

/-- A slot without reserved indices claims a run of them in one ACAS on WIDX, which finds WIDX as it read it because the
poll is one step. Where the header's page is absent or refuses it, nothing is claimed until a later poll. (Log entry 83:
DESIGN CHOICE.) -/
def State.reserve (s : State) (n : Nat) (q : QSlot) : State :=
  if bitsOf q.qa 41 4 ≠ 0 then s
  else
    match s.engAt (ateIdx, none) none (bitsOf q.qa 20 20) (bitsOf q.qb 6 46 * 64 + 16) (.atomic true) with
    | (s, .val k) =>
      let widx := memRead s.mem k 4
      let used := (widx + 2 ^ 32 - bitsOf q.qc 32 32) % 2 ^ 32
      let run := min 8 (2 ^ bitsOf q.qb 0 5 - used)
      if run = 0 then s
      else
        let q := { q with qc := BitVec.ofNat 64 (bitsOf q.qc 32 32 * 2 ^ 32 + widx), qa := q.qa + BitVec.ofNat 64 (run * 2 ^ 41) }
        let s := { s with qslots := s.qslots.set n q }
        ((s.noteRead k 0 false false).poke k 4 (widx + run)).noteCoherent ateIdx none .system k (.rmw .add)
    | (s, _) => s

/-- QUEUE_SLOT_POLL (R354, R451): the poll position of slot n, one in each frame, in the order of the slots. -/
def execQueueSlotPoll (n : Nat) (s : State) : Host.Outcome State Fault Refusal :=
  if 32 ≤ n then .fault (.noUnit "queue slot")
  else
    let q := s.qslots.getD n .reset
    if !tbit q.qa 63 then notNow "the slot maps no queue"
    else if n < s.ate.poll ∨ !s.noSlots s.ate.poll n then notNow "another poll position comes first"
    else s.outside ({ s with qslots := s.qslots.set n q.wait, ate := { s.ate with poll := n + 1 } }.reserve n q.wait)

/-- ATELIER_FAULT (R450): a fault that no word of the Atelier raises, such as an error in its SRAM, stops it too. -/
def execAtelierFault (s : State) : Host.Outcome State Fault Refusal :=
  if s.ate.life ≠ .running then notNow "the Atelier does not run" else .next s.stopAtelier

/-- The Atelier starts at PC 0 with its registers at reset; its data SRAM stands (R450). -/
def State.startAtelier (s : State) : State :=
  { s.setRec ateIdx { Rec.reset with life := .ready, priv := true } with ate := { s.ate with life := .running } }

/-- ATELIER_RELOAD_COMPLETE (R450): its verified image is loaded again, the restart is counted. -/
def execAtelierReloadComplete (s : State) : Host.Outcome State Fault Refusal :=
  if s.ate.life ≠ .stopped then notNow "the Atelier is not being reloaded"
  else
    let s := { s with health := { s.health with hatrst := s.health.hatrst + 1 } }
    let s := { s with ate := { s.ate with restarts := s.ate.restarts ++ [s.clk] } }
    .next s.refreshHealth.startAtelier

end Sys2Proof.Machine
end

