-- ==== Sys2Proof/Machine/Power.lean ====
section
/-! DEFINITION. Power states (R465 to R468), loss of power and boot (R417, R418, R462, R463). -/

namespace Sys2Proof.Machine

/-! ## Power states -/

/-- The depth of a power state. -/
def Power.depth : Power → Nat
  | .run => 0 | .hush => 1 | .nap => 2 | .rest => 3 | .vault => 4

/-- The state one deeper. -/
def Power.deeper : Power → Option Power
  | .run => some .hush | .hush => some .nap | .nap => some .rest | .rest => some .vault | .vault => none

/-- Wake time in nanoseconds, and idle entry delay in cycles of the main clock (R465). -/
def Power.wakeNs : Power → Nat
  | .run => 0 | .hush => 1000 | .nap => 50000 | .rest => 2000000 | .vault => 400000000
def Power.delay : Power → Nat
  | .run => 0 | .hush => 3000 | .nap => 150000 | .rest => 15000000 | .vault => 1500000000

/-- Every resident context stands frozen for the checkpoint (R434, R468). -/
def State.allFrozen (s : State) : Bool :=
  (List.range 16).all (fun c => let r := s.rc c; r.slot.isNone || r.life == .frozen (.preempt none true) || r.life == .frozen .dead)

/-- Every resident context is asked to freeze. -/
def State.freezeAll (s : State) : State :=
  (List.range 16).foldl (fun (s : State) c =>
    let r := s.rc c
    if r.slot.isSome && r.life.preemptible && r.life != .frozen .dead then s.setRec c (r.freeze none) else s) s

/-- POWER_STATE_ENTRY (R466): the device has been idle for the delay of the next deeper state, and LTOL allows it. VAULT
starts its checkpoint. -/
def execPowerStateEntry (s : State) : Host.Outcome State Fault Refusal :=
  match s.power.deeper with
  | none => notNow "there is no deeper state"
  | some p =>
    if s.waking then notNow "the device wakes"
    else if s.ckptRun.isSome then notNow "a checkpoint is being written"
    else if s.ltol.toNat < p.wakeNs then notNow "the latency tolerance forbids it"
    else if s.idleNs < p.delay ∨ !(s.power != .run || s.isIdle) then notNow "the device has not been idle long enough"
    else if p = .vault then .next { s.freezeAll with power := p, ckptRun := some true }
    else .next { s with power := p }

/-- WAKE_EVENT (R467): the device begins to return to RUN; a VAULT checkpoint that has begun completes first. -/
def execWakeEvent (s : State) : Host.Outcome State Fault Refusal :=
  if s.power = .run then notNow "the device is in RUN" else .next { s with waking := true }

/-- Memory of the device, as against the host's and the peers'. -/
def isDeviceKey (k : Nat) : Bool := decide (k < 2 ^ 80 ∨ 2 ^ 82 ≤ k)

/-- The writes of a checkpoint count: the flash of every die in service erases blocks for it, which ones is free (R414, R468).
(Log entry 39: DESIGN CHOICE.) -/
def State.wearCheckpoint (s : State) : State :=
  (s.inService.foldl (fun (s : State) d => s.updPdie d (fun x => (x.eraseBlocks (Config.ckptBlocks s.freeCtr d)).1.gauge))
    { s with freeCtr := s.freeCtr + 1 }).refreshHealth

/-- CHECKPOINT_COMPLETE (R468): the memories and the forwarding tables stand in the checkpoint reserve. A CHECKPOINT
command ends; at VAULT everything stops. (Log entry 49: DEDUCED.) -/
def execCheckpointComplete (s : State) : Host.Outcome State Fault Refusal :=
  match s.ckptRun with
  | none => notNow "no checkpoint is being written"
  | some vault =>
    let keep := { s with ckpt := s.mem.filter (fun x => isDeviceKey x.1), ckptFwd := s.fwd, ckptRun := none }.wearCheckpoint
    if vault then (if s.allFrozen then .next keep else notNow "a context is not frozen")
    else .next (keep.fwDone 0)

/-- The contexts that a VAULT checkpoint froze go on. -/
def State.thaw (s : State) : State :=
  (List.range 16).foldl (fun (s : State) c => if (s.rc c).life = .frozen (.preempt none true) then s.goOn c else s) s

/-- WAKE_COMPLETE (R467, R468): the device is in RUN; from VAULT the checkpoint is reloaded and the contexts resume. -/
def execWakeComplete (s : State) : Host.Outcome State Fault Refusal :=
  if !s.waking then notNow "the device does not wake"
  else if s.ckptRun.isSome then notNow "the checkpoint is being written"
  else
    let back := { s with power := .run, waking := false, idleNs := 0 }
    if s.power = .vault then
      .next { back with mem := memPutCells (s.mem.filter (fun x => !isDeviceKey x.1)) s.ckpt, fwd := s.ckptFwd, trans := [] }.thaw
    else .next back

/-! ## Loss of power -/

/-- The part of memory that keeps its contents: the weight flash, and what lies outside the device. -/
def survives (k : Nat) : Bool :=
  !isDeviceKey k || (isDieKey k && decide (flashBase ≤ k % 2 ^ 48 ∧ k % 2 ^ 48 < 0x018000000000))

/-- POWER_LOSS (R417, R418): everything but the flash, its checkpoint reserve, the fuses and the boot image is at reset.
A commit of fuses that was under way has left the value between. -/
def execPowerLoss (s : State) : Host.Outcome State Fault Refusal :=
  .next { State.reset with
    agenda := s.agenda, sel := s.sel, selDie := s.selDie, freeCtr := s.freeCtr, grant := s.grant, hostReads := s.hostReads
    mem := s.mem.filter (fun x => survives x.1), poison := s.poison.filter (fun p => survives (p.1 * 128))
    dies := s.dies.map (fun x => { Die.reset with
      retired := x.retired, repair := x.repair, wear := x.wear, spares := x.spares, wearg := x.wearg, badUnits := x.badUnits })
    health := { s.health with hatrst := 0 }, bootImage := s.bootImage, bootRecovery := s.bootRecovery, fuses := s.fuses
    leafRes := s.leafRes, ckpt := s.ckpt, ckptFwd := s.ckptFwd, loads := s.loads, loaded := s.loaded }

/-! ## Boot (R462) -/

/-- The value of the SVN fuse counter (R417). -/
def State.svnValue (s : State) : Nat := match s.fuses with | [] => 0 | f :: fs => fs.foldl max f + 1

/-- A little-endian number of an image. -/
def imgNum (img : List (BitVec 8)) (o n : Nat) : Nat := ((List.range n).map (fun i => (img.getD (o + i) 0).toNat * 256 ^ i)).sum

/-- Bytes of a header and of a signature (R462; the header's layout is presumed, log entry 20). -/
def imgHeader : Nat := 16
def imgSignature : Nat := 2668

/-- The ROM accepts an image: its magic, its length, its signature, its SVN. -/
def State.imageOk (s : State) (img : List (BitVec 8)) : Bool :=
  imgNum img 0 4 == 0x4B474649 && decide (imgHeader + imgNum img 12 4 + imgSignature ≤ img.length)
  && Config.lmsVerifies (img.take (imgHeader + imgNum img 12 4)) ((img.drop (imgHeader + imgNum img 12 4)).take imgSignature)
  && decide (s.svnValue ≤ imgNum img 4 1)

/-- A measurement register is extended by a digest (R463). -/
def State.extend (s : State) (n : Nat) (d : List (BitVec 8)) : State :=
  { s with meas := s.meas.modify n (fun x => sha256 (x ++ d)) }

/-- LEAFRES of a level: the larger of its copies but one that cannot be read, none for 0 (R418). -/
def State.leafReserved (s : State) (level bad : Nat) : Nat :=
  (((s.leafRes.getD level []).zipIdx.filter (fun x => x.2 + 1 ≠ bad)).map (fun x => x.1.2)).foldl max 0

/-- LEAFRES is written: both copies, at their next sequence number (R418). -/
def State.setLeafReserved (s : State) (level v : Nat) : State :=
  { s with leafRes := s.leafRes.modify level (fun cs => cs.map (fun x => (x.1 + 1, v))) }

/-- The leaf counters at boot (R418). -/
def State.leavesAtBoot (s : State) : State :=
  let n := s.freeCtr
  [0, 1].foldl (fun (s : State) level =>
    let v := s.leafReserved level (Config.leafCopyBad n level)
    { s with leafNext := s.leafNext.set level v }.setLeafReserved level (min (v + 1024) 32768)) { s with freeCtr := n + 1 }

/-- What a boot sets up beside the firmware: STAGE and FWDSZ as the host driver chooses them (R229, R382), the secret and an
empty translation cache (R388, R390), and the repair tables, whose master retires a die where it fails its read (R386,
R387). (Log entries 69 and 81.) -/
def State.bootTables (s : State) : State :=
  let n := s.freeCtr
  let s := { s with freeCtr := n + 1, stageGib := 4 + (Config.bootStage n).val, fwdMib := (Config.bootFwdsz n).val
                    secret := Config.bootSecret n, translator := Config.translatorVersion s.bootImage, trans := [] }
  ((List.range 32).foldl (fun (s : State) d =>
    if Config.masterFails n d then s.updPdie d (fun x => { x with retired := true }) else s) s).refreshHealth

/-- The words of an image's body, for the Atelier's instruction SRAM. -/
def imgWords (img : List (BitVec 8)) : Map Nat :=
  ((List.range (min 65536 (imgNum img 12 4 / 16))).map (fun i => (i, imgNum img (imgHeader + 16 * i) 16))).filter (fun p => p.2 ≠ 0)

/-- The ROM looks at the image: it starts the Atelier with it, or enters recovery mode. What the firmware measures
itself is free. -/
def State.tryBoot (s : State) : State :=
  let img := s.bootImage
  if s.imageOk img then
    let s := { s.leavesAtBoot.bootTables with aram := imgWords img, imageSvn := imgNum img 4 1 }
    let s := s.extend 0 (sha256 img)
    let s := s.extend 1 (Config.setupDigest (s.dies.map (fun x => x.repair)) s.stageGib s.fwdMib)
    ((s.extend 2 (Config.translatorDigest s.translator)).extend 3 (Config.softwareDigest img)).startAtelier
  else { s with ate := { s.ate with life := .recovery } }

/-- BOOT (R462): the ROM checks the image; the recovery strap enters recovery mode. -/
def execBoot (s : State) : Host.Outcome State Fault Refusal :=
  if s.ate.life ≠ .boot then notNow "the boot ROM has run"
  else if s.bootRecovery then .next { s with ate := { s.ate with life := .recovery } }
  else .next s.tryBoot

/-- RECOVERY_IMAGE (R462): the doorbell of recovery mode: the image that the host has written is checked. -/
def execRecoveryImage (s : State) : Host.Outcome State Fault Refusal :=
  if s.ate.life ≠ .recovery then notNow "the device is not in recovery mode" else .next s.tryBoot

end Sys2Proof.Machine
end

