-- ==== Sys2Proof/Machine/Firmware.lean ====
section
/-! DEFINITION. The commands of the firmware interface (R458, R459): tenants (R378), heaps (R277, R382), MAPINV (R380),
budgets (R416), LAUNCH (R454), PREEMPT, CHECKPOINT (R468), SVN_COMMIT (R417), ATTEST (R464), MEAS_EXTEND (R463) and
LTOL_SET (R466). The spec gives the commands no argument layout: argument i is the little-endian doubleword at byte
8 + 8·i of CMD (log entry 9). -/

namespace Sys2Proof.Machine

/-- Statuses (R459). -/
def fwOK : Nat := 0
def fwVERSION : Nat := 1
def fwBADARG : Nat := 2
def fwBUSY : Nat := 3
def fwNOSPACE : Nat := 4
def fwDENIED : Nat := 5
def fwFAILED : Nat := 6

/-- Argument i of the command. -/
def State.arg (s : State) (i : Nat) : Nat := imgNum s.fw.cmd (8 + 8 * i) 8

/-- A command of an opcode runs: the doorbell has been rung, the Atelier runs, and a version has been agreed. -/
def State.command (s : State) (op : Nat) (run : State → Host.Outcome State Fault Refusal) : Host.Outcome State Fault Refusal :=
  if s.asleep = true ∨ s.power ≠ .run then notNow "the device is not in RUN"
  else if !s.fw.busy ∨ imgNum s.fw.cmd 0 1 ≠ op then notNow "the command has not been given"
  else if s.ate.life ≠ .running then notNow "the Atelier does not run"
  else if op ≠ 1 ∧ (s.fw.negFw = 0 ∨ s.fw.negHost = 0) then .next (s.fwDone fwVERSION)
  else run s

/-- NEGOTIATE (R458): the offered ranges of the host protocol and of the firmware interface. -/
def execNegotiate (s : State) : Host.Outcome State Fault Refusal :=
  s.command 1 (fun s =>
    let f := fun (i : Nat) => s.arg 0 / 2 ^ (16 * i) % 2 ^ 16
    let h := agreed (f 0) (f 1)
    let w := agreed (f 2) (f 3)
    .next ({ s with fw := { s.fw with negHost := BitVec.ofNat 16 h, negFw := BitVec.ofNat 16 w } }.fwDone
      (if h = 0 ∨ w = 0 then fwVERSION else fwOK)))

/-! ## Tenants, heaps, budgets -/

/-- TENANT_SET (R378): the record is written, its generation rises and with it its tenant key (R388). -/
def execTenantSet (s : State) : Host.Outcome State Fault Refusal :=
  s.command 2 (fun s =>
    let p := s.arg 0
    let root := s.arg 1
    let hwb := s.arg 2
    let old := mapFind s.tenants p
    if 2 ^ 20 ≤ p ∨ 2 ^ 53 ≤ root ∨ root % 2 ^ 16 ≠ 0 ∨ hwb % 2 ^ 40 ≠ 0 ∨ 2 ^ 52 ≤ hwb then .next (s.fwDone fwBADARG)
    else if old.isNone ∧ 256 ≤ s.tenants.length then .next (s.fwDone fwNOSPACE)
    else
      let gen := mapGet 0 s.gens p + 1
      let t : Tenant := old.getD { rootDie := 0, rootPa := 0, heap := [], heapAt := [], gen := 0, tk := [], budget := 0, resv := 0
                                   cacheBase := 0, cacheQuota := 0, hwb := 0 }
      let t := { t with rootDie := root / 2 ^ 48, rootPa := root % 2 ^ 48, gen := gen, tk := s.tenantKey p gen, cacheBase := s.arg 3
                        cacheQuota := s.arg 4, hwb := hwb }
      .next (({ s with tenants := mapPut s.tenants p t, gens := mapPut s.gens p gen }.dropTrans p).fwDone fwOK))

/-- A tenant has contexts, resident or saved. -/
def State.hasContexts (s : State) (pasid : Nat) : Bool :=
  (List.range 16).any (fun c => (s.rc c).life != .free && (s.rc c).pasid.toNat == pasid)

/-- Forwarding entries outside a key range. -/
def dropFwd (m : Map FwdEntry) (lo n : Nat) : Map FwdEntry := m.filter (fun e => decide (e.1 < lo ∨ lo + n ≤ e.1))

/-- TENANT_REMOVE (R378): refused while contexts of the tenant exist. -/
def execTenantRemove (s : State) : Host.Outcome State Fault Refusal :=
  s.command 3 (fun s =>
    let p := s.arg 0
    if (mapFind s.tenants p).isNone then .next (s.fwDone fwBADARG)
    else if s.hasContexts p then .next (s.fwDone fwBUSY)
    else
      .next (({ s with tenants := s.tenants.filter (fun e => e.1 != p), fwd := dropFwd s.fwd (p * 2 ^ 44) (2 ^ 44) }.dropTrans p).fwDone fwOK))

/-- The entries that heaps take of the forwarding space of a die, but for one heap: (first, one past the last) (R382). -/
def State.fwdTaken (s : State) (d pasid hid : Nat) : List (Nat × Nat) :=
  s.tenants.flatMap (fun (e : Nat × Tenant) => (List.range 16).filterMap (fun h =>
    let w := mapGet 0 e.2.heap (4 * h)
    let a := mapGet 0 e.2.heapAt h
    if (e.1 = pasid ∧ h = hid) ∨ !tbit w 63 ∨ bitsOf w 40 5 ≠ d then none else some (a, a + bitsOf w 0 40)))

/-- The lowest place for n entries in the forwarding space of a die (R382). (Log entry 50: DEDUCED.) -/
def State.fwdPlace (s : State) (d pasid hid n : Nat) : Option Nat :=
  let taken := s.fwdTaken d pasid hid
  match (0 :: taken.map Prod.snd).filter (fun a => decide (a + n ≤ s.fwdSpace) && taken.all (fun t => decide (a + n ≤ t.1 ∨ t.2 ≤ a))) with
  | [] => none
  | a :: as => some (as.foldl min a)

/-- The address of the page of a TLB entry. -/
def tlbVa (k : Nat) : Nat := if k % 2 ^ 37 < 2 ^ 36 then k % 2 ^ 37 * 2 ^ 16 else (k % 2 ^ 37 - 2 ^ 36) * 2 ^ 28

/-- A context of a tenant is resident on a die that uses the heap: whose TLB holds a page of its arena. (Log entry 50:
DEDUCED.) -/
def State.heapInUse (s : State) (pasid hid : Nat) : Bool :=
  let lo := s.heapArena pasid hid
  let hi := lo + s.heapSize pasid hid
  s.heapValid pasid hid && (List.range 32).any (fun d =>
    (s.pdie d).tlb.any (fun e =>
      e.1 / 2 ^ 37 == pasid && decide (tlbVa e.1 < hi) && decide (lo < tlbVa e.1 + (if e.2.level = 2 then 2 ^ 28 else 2 ^ 16)))
    && (List.range 16).any (fun c => (s.rc c).slot.isSome && (s.rc c).pasid.toNat == pasid && (s.rc c).field.dies.contains d))

/-- HEAP_SET (R277, R381, R382): one descriptor, while no context of the tenant is resident on a die that uses the heap. A
table that finds no space is refused. -/
def execHeapSet (s : State) : Host.Outcome State Fault Refusal :=
  s.command 4 (fun s =>
    let p := s.arg 0 % 2 ^ 32
    let hid := s.arg 0 / 2 ^ 32
    let h := fun (i : Nat) => s.arg (1 + i)
    let hv := h 0 / 2 ^ 63 == 1
    let d := h 0 / 2 ^ 40 % 32
    match mapFind s.tenants p with
    | none => .next (s.fwDone fwBADARG)
    | some t =>
      if 16 ≤ hid ∨ h 0 / 2 ^ 45 % 2 ^ 18 ≠ 0 ∨ h 1 % 65536 ≠ 0 ∨ h 2 % 65536 ≠ 0 ∨ h 3 % 65536 ≠ 0 ∨ 2 ^ 52 ≤ h 1 ∨ 2 ^ 52 ≤ h 2 ∨ 2 ^ 52 ≤ h 3
        ∨ (hv && (s.pdie d).retired) then .next (s.fwDone fwBADARG)
      else if s.heapInUse p hid then .next (s.fwDone fwBUSY)
      else
        match (if hv then s.fwdPlace d p hid (h 0 % 2 ^ 40) else some 0) with
        | none => .next (s.fwDone fwNOSPACE)
        | some place =>
          let heap := (List.range 4).foldl (fun (m : Map Word) i => mapSet 0 m (4 * hid + i) (BitVec.ofNat 64 (h i))) t.heap
          .next ({ s with tenants := mapPut s.tenants p { t with heap := heap, heapAt := mapSet 0 t.heapAt hid place }
                          fwd := dropFwd s.fwd ((p * 16 + hid) * 2 ^ 40) (2 ^ 40) }.fwDone fwOK))

/-- BUDGET_SET (R416). -/
def execBudgetSet (s : State) : Host.Outcome State Fault Refusal :=
  s.command 6 (fun s =>
    if (mapFind s.tenants (s.arg 0)).isNone ∨ 2 ^ 32 ≤ s.arg 1 then .next (s.fwDone fwBADARG)
    else .next ((s.updTenant (s.arg 0) (fun t => { t with budget := BitVec.ofNat 32 (s.arg 1) })).fwDone fwOK))

/-! ## MAPINV (R380) -/

/-- An invalidation goes to a die, or to a pod port, numbered from 32 on. -/
def State.sendInv (s : State) (d : Nat) (x : Nat × Option Nat) : State :=
  if d < 32 then s.updPdie d (fun y => { y with tlbInv := y.tlbInv ++ [x] })
  else { s with pods := s.pods.modify (d - 32) (fun y => { y with inv := y.inv ++ [x] }) }

/-- MAPINV: the PASID, bit 63 for all of it; the leaf's key; the page's address; its level. The companion word is
swapped for 0, and the dies and the pod ports, numbered from 32 on, whose bits it held take an invalidation; for a whole
PASID all dies do, and the ports that hold an agreed version. -/
def execMapinv (s : State) : Host.Outcome State Fault Refusal :=
  s.command 5 (fun s =>
    let p := s.arg 0 % 2 ^ 63
    let whole := s.arg 0 / 2 ^ 63 == 1
    let leaf := s.arg 1
    let level := s.arg 3
    if s.mapinv.isSome then notNow "the command is under way"
    else if (mapFind s.tenants p).isNone ∨ (!whole && decide (2 ^ 53 ≤ leaf ∨ leaf % 16 ≠ 0 ∨ 2 ^ 52 ≤ s.arg 2 ∨ (level ≠ 2 ∧ level ≠ 3)))
      then .next (s.fwDone fwBADARG)
    else
      let page : Option Nat := if whole then none else some (tlbKey p (s.arg 2) level)
      let old := memRead s.mem (leaf + 8) 8
      let agreed := fun (n : Nat) => (s.pods.getD (n - 32) .reset).version != 0
      let ds := (List.range 40).filter (fun d => if whole then decide (d < 32) || agreed d else tbit (BitVec.ofNat 64 old) d)
      let s := if whole then s
        else ((s.noteRead leaf 0 false false).poke (leaf + 8) 8 0).noteCoherent ateIdx none .device leaf (.rmw .swap)
      let s := ds.foldl (fun (s : State) d => s.sendInv d (p, page)) s
      if ds.isEmpty then .next (s.fwDone fwOK) else .next { s with mapinv := some (p, page, ds) })

/-! ## LAUNCH (R454) -/

/-- A template's word E0 as LAUNCH gives it: RESTORE 0, HOLD 1, for the PASID the command names.
(Log entry 45: DEDUCED.) -/
def launchE0 (e pasid : Nat) : Nat := e % 16 + e / 2 ^ 5 % 2 * 2 ^ 5 + 2 ^ 6 + e / 2 ^ 8 % 8 * 2 ^ 8 + pasid * 2 ^ 20

/-- The contexts of the templates are placed, held. Where one fails, those already placed are gone: their records are
FREE. -/
def State.launchAll (s : State) (pasid : Nat) (placed : List Nat) : List (List Nat) → Except (State × Nat) State
  | [] => .ok s
  | t :: ts =>
    let fail := fun (k : Nat) => Except.error (placed.foldl State.endContext s, k)
    if e0Bad (t.headD 0) then fail kRANGE
    else
      match s.launchCtx (t.headD 0 % 16) (launchE0 (t.headD 0) pasid) (t.getD 1 0) (t.getD 2 0) t true with
      | .ok s => State.launchAll s pasid (placed ++ [t.headD 0 % 16]) ts
      | .error k => fail k

/-- The control-store words of an image are loaded from its base PC on. -/
def State.loadStore (s : State) (pc : Nat) (ws : List Nat) : State :=
  { s with cstore := (List.range (ws.length / 2)).foldl (fun (m : Map Nat) i =>
      mapSet 0 m (pc + i) (ws.getD (2 * i) 0 + ws.getD (2 * i + 1) 0 * 2 ^ 64)) s.cstore }

/-- A failing launch ends with FAILED, its response the code that failed. -/
def State.launchFailed (s : State) (k : Nat) : State :=
  { s with fw := { s.fw with resp := [BitVec.ofNat 8 k] } }.fwDone fwFAILED

/-- LAUNCH: the control store, then every template, then all leave together. Contexts already placed by a launch that
fails are gone; the control store stays loaded, but a launch that ends with RANGE loads nothing (R453). A page that is not
present holds the command. (Log entry 45: DEDUCED.) -/
def execLaunch (s : State) : Host.Outcome State Fault Refusal :=
  s.command 7 (fun s =>
    let p := s.arg 0
    let va := s.arg 1
    if (mapFind s.tenants p).isNone then .next (s.fwDone fwBADARG)
    else if va % 4096 = 0 ∧ s.rangeMissing p (va, 4096) then notNow "a page is not present"
    else
      match s.linked p va with
      | none => .next (s.launchFailed kRANGE)
      | some (n, off, words, pc) =>
        let ts := (List.range n).filterMap (fun i => s.template p va i)
        if s.rangeMissing p (va, 64 + 128 * n) ∨ s.rangeMissing p (va + off, min (16 * words) (2 ^ 22))
            ∨ ts.any (fun t => (s.launchRanges p (t.headD 0 % 16) va).any (s.rangeMissing p)) then notNow "a page is not present"
        else if 2 ^ 18 < pc + words then .next (s.launchFailed kRANGE)
        else
          match s.vaWords p (va + off) (2 * words) with
          | none => .next (s.launchFailed kRANGE)
          | some ws =>
            if ts.length ≠ n then .next (s.launchFailed kRANGE)
            else
              match s.launchAll p [] ts with
              | .error (s', k) => .next (if k = kRANGE then s.launchFailed k else (s'.loadStore pc ws).launchFailed k)
              | .ok s' =>
                .next (((s'.loadStore pc ws).goMask p ((ts.map (fun t => 2 ^ (t.headD 0 % 16))).foldl (· ||| ·) 0)).fwDone fwOK))

/-! ## PREEMPT, CHECKPOINT -/

/-- The command of PREEMPT is queued or runs. -/
def State.preempting (s : State) : Bool :=
  (s.armq.getD 7 []).any (fun m => m.req == cmdFirmware) || (match s.armRun.getD 7 none with | some m => m.req == cmdFirmware | none => false)

/-- PREEMPT: a CTXSAVE of a context (FREEREC in bit 4) to an image address and space, which the Armature runs. -/
def execPreempt (s : State) : Host.Outcome State Fault Refusal :=
  s.command 8 (fun s =>
    if s.preempting then notNow "the command is under way"
    else if armDepth ≤ (s.armq.getD 7 []).length then notNow "the queue is full"
    else
      let m : Cmd := { cls := 7, e := [s.arg 0, s.arg 1, s.arg 2, 0, 0, 0, 0, 0].map (BitVec.ofNat 64), items := [], acq := false, rel := false }
      let q : QCmd := { c := 16, req := cmdFirmware, org := none, pasid := 0, home := 0, sc := .system, cmd := m, prog := 0
                        code := 0, page := false, ended := false, lost := false, no := 0 }
      .next { s with armq := s.armq.modify 7 (fun l => l ++ [q]) })

/-- CHECKPOINT (R468): the same data as VAULT's, without powering down. -/
def execCheckpoint (s : State) : Host.Outcome State Fault Refusal :=
  s.command 9 (fun s => if s.ckptRun.isSome then notNow "the checkpoint is being written" else .next { s with ckptRun := some false })

/-! ## Security -/

/-- SVN_COMMIT (R417): one fuse a step, in ascending order; the last must blow. -/
def execSvnCommit (s : State) : Host.Outcome State Fault Refusal :=
  s.command 10 (fun s =>
    let n := s.arg 0
    let i := s.svnTry.getD s.svnValue
    if 255 < n then .next (s.fwDone fwBADARG)
    else if n ≤ s.svnValue then .next ({ s with svnTry := none }.fwDone fwOK)
    else
      let blown := Config.fuseBlows i s.freeCtr
      let s := { s with freeCtr := s.freeCtr + 1, fuses := if blown then s.fuses ++ [i] else s.fuses }
      if i + 1 < n then .next { s with svnTry := some (i + 1) }
      else .next ({ s with svnTry := none }.fwDone (if blown then fwOK else fwFAILED)))

/-- The next leaf of a level (R418): none where its tree is spent. -/
def State.takeLeaf (s : State) (level : Nat) : Option (State × Nat) :=
  let n := s.leafNext.getD level 0
  if n = 32768 then none
  else
    let s := if n = s.leafReserved level 0 then s.setLeafReserved level (min (n + 1024) 32768) else s
    some ({ s with leafNext := s.leafNext.set level (n + 1) }, n)

/-- A leaf of the bottom level; a spent bottom tree is made anew and signed with the next leaf above (R418). -/
def State.signLeaf (s : State) : Option (State × List Nat) :=
  match s.takeLeaf 1 with
  | some (s, n) => some (s, [s.leafNext.getD 0 0, n])
  | none =>
    match s.takeLeaf 0 with
    | none => none
    | some (s, top) =>
      let s := { s with leafNext := s.leafNext.set 1 0 }.setLeafReserved 1 0
      (s.takeLeaf 1).map (fun p => (p.1, [top, p.2]))

/-- The signature of a quote: 5,396 bytes (R464). -/
def quoteSignature (leaves : List Nat) (quote : List (BitVec 8)) : List (BitVec 8) := (List.range 5396).map (Config.hssSign leaves quote)

/-- ATTEST (R464): the quote of a 32-byte nonce, with its signature. -/
def execAttest (s : State) : Host.Outcome State Fault Refusal :=
  s.command 11 (fun s =>
    match s.signLeaf with
    | none => .next (s.fwDone fwFAILED)
    | some (s, leaves) =>
      let quote := (s.fw.cmd.drop 8).take 32 ++ s.meas.flatten ++ leBytes 1 s.imageSvn ++ leBytes 1 s.svnValue
        ++ leBytes 8 (s.featWord 0).toNat ++ leBytes 8 s.negv
      .next ({ s with fw := { s.fw with resp := quote ++ quoteSignature leaves quote } }.fwDone fwOK))

/-- MEAS_EXTEND (R463): MEAS4 to MEAS7 only; the digest is the 32 bytes from byte 16 of CMD on. -/
def execMeasExtend (s : State) : Host.Outcome State Fault Refusal :=
  s.command 12 (fun s =>
    if s.arg 0 < 4 ∨ 7 < s.arg 0 then .next (s.fwDone fwBADARG)
    else .next ((s.extend (s.arg 0) ((s.fw.cmd.drop 16).take 32)).fwDone fwOK))

/-- LTOL_SET (R466). -/
def execLtolSet (s : State) : Host.Outcome State Fault Refusal :=
  s.command 13 (fun s =>
    if 2 ^ 32 ≤ s.arg 0 then .next (s.fwDone fwBADARG) else .next ({ s with ltol := BitVec.ofNat 32 (s.arg 0) }.fwDone fwOK))

end Sys2Proof.Machine
end

