-- ==== Sys2Proof/Machine/Dispatch.lean ====
section
/-! DEFINITION. The step that each constructor of `Instr` is, one arm each. -/

namespace Sys2Proof.Machine

/-- The meaning of a step. -/
def exec (i : Instr) (s : State) : Host.Outcome State Fault Refusal :=
  match i with
  | .wordIssue x0 => Sys2Proof.Machine.execWordIssue x0 s
  | .bundleIssue x0 x1 => Sys2Proof.Machine.execBundleIssue x0 x1 s
  | .mergeCycle => Sys2Proof.Machine.execMergeCycle s
  | .broadcastFrameArrival x0 x1 => Sys2Proof.Machine.execBroadcastFrameArrival x0 x1 s
  | .occupancyReport x0 => Sys2Proof.Machine.execOccupancyReport x0 s
  | .accessStreamIssue x0 x1 => Sys2Proof.Machine.execAccessStreamIssue x0 x1 s
  | .fixedLatencyLand x0 x1 => Sys2Proof.Machine.execFixedLatencyLand x0 x1 s
  | .loadResultLands x0 => Sys2Proof.Machine.execLoadResultLands x0 s
  | .tokPost x0 => Sys2Proof.Machine.execTokPost x0 s
  | .waitSatisfied x0 x1 => Sys2Proof.Machine.execWaitSatisfied x0 x1 s
  | .waitsSatisfied x0 => Sys2Proof.Machine.execWaitsSatisfied x0 s
  | .waitfSatisfied x0 x1 => Sys2Proof.Machine.execWaitfSatisfied x0 x1 s
  | .idleResume x0 => Sys2Proof.Machine.execIdleResume x0 s
  | .mailboxDelivery x0 x1 x2 => Sys2Proof.Machine.execMailboxDelivery x0 x1 x2 s
  | .redSample x0 x1 x2 => Sys2Proof.Machine.execRedSample x0 x1 x2 s
  | .redValueArrival x0 x1 x2 => Sys2Proof.Machine.execRedValueArrival x0 x1 x2 s
  | .barReport x0 x1 => Sys2Proof.Machine.execBarReport x0 x1 s
  | .barRelease x0 x1 => Sys2Proof.Machine.execBarRelease x0 x1 s
  | .phaseRelease x0 => Sys2Proof.Machine.execPhaseRelease x0 s
  | .markPass x0 x1 => Sys2Proof.Machine.execMarkPass x0 x1 s
  | .markCommit x0 => Sys2Proof.Machine.execMarkCommit x0 s
  | .commitArrival x0 x1 => Sys2Proof.Machine.execCommitArrival x0 x1 s
  | .faultFlag x0 x1 => Sys2Proof.Machine.execFaultFlag x0 x1 s
  | .rollback x0 => Sys2Proof.Machine.execRollback x0 s
  | .preemptionRequest x0 => Sys2Proof.Machine.execPreemptionRequest x0 s
  | .preemptHalt x0 => Sys2Proof.Machine.execPreemptHalt x0 s
  | .pageRequestAnswer x0 x1 => Sys2Proof.Machine.execPageRequestAnswer x0 x1 s
  | .dieRetirement x0 => Sys2Proof.Machine.execDieRetirement x0 s
  | .dictEntryRewrite x0 x1 x2 x3 => Sys2Proof.Machine.execDictEntryRewrite x0 x1 x2 x3 s
  | .armatureCommandForward x0 => Sys2Proof.Machine.execArmatureCommandForward x0 s
  | .engineCommandStart x0 => Sys2Proof.Machine.execEngineCommandStart x0 s
  | .engineCommandComplete x0 => Sys2Proof.Machine.execEngineCommandComplete x0 s
  | .installUnitCommit x0 x1 => Sys2Proof.Machine.execInstallUnitCommit x0 x1 s
  | .relocLineCopy x0 => Sys2Proof.Machine.execRelocLineCopy x0 s
  | .fwdInvalidation x0 => Sys2Proof.Machine.execFwdInvalidation x0 s
  | .fwdInvalidationAck x0 => Sys2Proof.Machine.execFwdInvalidationAck x0 s
  | .tlbInvalidation x0 => Sys2Proof.Machine.execTlbInvalidation x0 s
  | .tlbInvalidationAck x0 => Sys2Proof.Machine.execTlbInvalidationAck x0 s
  | .atsInvalidation x0 x1 => Sys2Proof.Machine.execAtsInvalidation x0 x1 s
  | .tableWalk x0 x1 x2 => Sys2Proof.Machine.execTableWalk x0 x1 x2 s
  | .streamFetch x0 x1 x2 x3 => Sys2Proof.Machine.execStreamFetch x0 x1 x2 x3 s
  | .matrixOpStart x0 x1 x2 => Sys2Proof.Machine.execMatrixOpStart x0 x1 x2 s
  | .matrixRowComplete x0 x1 x2 => Sys2Proof.Machine.execMatrixRowComplete x0 x1 x2 s
  | .rbqRefill x0 x1 x2 => Sys2Proof.Machine.execRbqRefill x0 x1 x2 s
  | .ownershipReturn x0 => Sys2Proof.Machine.execOwnershipReturn x0 s
  | .bankSnapshot x0 x1 => Sys2Proof.Machine.execBankSnapshot x0 x1 s
  | .breakTaken x0 => Sys2Proof.Machine.execBreakTaken x0 s
  | .stepTaken x0 => Sys2Proof.Machine.execStepTaken x0 s
  | .watchEngine x0 => Sys2Proof.Machine.execWatchEngine x0 s
  | .atelierFrameTick => Sys2Proof.Machine.execAtelierFrameTick s
  | .queueSlotPoll x0 => Sys2Proof.Machine.execQueueSlotPoll x0 s
  | .kick x0 x1 => Sys2Proof.Machine.execKick x0 x1 s
  | .mbxstatStore x0 x1 => Sys2Proof.Machine.execMbxstatStore x0 x1 s
  | .ticketBlockStore x0 x1 x2 x3 => Sys2Proof.Machine.execTicketBlockStore x0 x1 x2 x3 s
  | .hostPostedWrite x0 x1 x2 x3 => Sys2Proof.Machine.execHostPostedWrite x0 x1 x2 x3 s
  | .hostRead x0 x1 x2 => Sys2Proof.Machine.execHostRead x0 x1 x2 s
  | .podArrival x0 x1 x2 x3 => Sys2Proof.Machine.execPodArrival x0 x1 x2 x3 s
  | .podLinkUp x0 x1 x2 x3 => Sys2Proof.Machine.execPodLinkUp x0 x1 x2 x3 s
  | .podLinkLoss x0 => Sys2Proof.Machine.execPodLinkLoss x0 s
  | .atelierFault => Sys2Proof.Machine.execAtelierFault s
  | .atelierReloadComplete => Sys2Proof.Machine.execAtelierReloadComplete s
  | .powerStateEntry => Sys2Proof.Machine.execPowerStateEntry s
  | .wakeEvent => Sys2Proof.Machine.execWakeEvent s
  | .wakeComplete => Sys2Proof.Machine.execWakeComplete s
  | .checkpointComplete => Sys2Proof.Machine.execCheckpointComplete s
  | .boot => Sys2Proof.Machine.execBoot s
  | .recoveryImage => Sys2Proof.Machine.execRecoveryImage s
  | .heapAllocate x0 x1 x2 x3 x4 => Sys2Proof.Machine.execHeapAllocate x0 x1 x2 x3 x4 s
  | .heapFree x0 x1 x2 => Sys2Proof.Machine.execHeapFree x0 x1 x2 s
  | .repairDecision x0 x1 x2 => Sys2Proof.Machine.execRepairDecision x0 x1 x2 s
  | .registerWrite x0 x1 x2 x3 => Sys2Proof.Machine.execRegisterWrite x0 x1 x2 x3 s
  | .negotiate => Sys2Proof.Machine.execNegotiate s
  | .tenantSet => Sys2Proof.Machine.execTenantSet s
  | .tenantRemove => Sys2Proof.Machine.execTenantRemove s
  | .heapSet => Sys2Proof.Machine.execHeapSet s
  | .mapinv => Sys2Proof.Machine.execMapinv s
  | .budgetSet => Sys2Proof.Machine.execBudgetSet s
  | .launch => Sys2Proof.Machine.execLaunch s
  | .preempt => Sys2Proof.Machine.execPreempt s
  | .checkpoint => Sys2Proof.Machine.execCheckpoint s
  | .svnCommit => Sys2Proof.Machine.execSvnCommit s
  | .attest => Sys2Proof.Machine.execAttest s
  | .measExtend => Sys2Proof.Machine.execMeasExtend s
  | .ltolSet => Sys2Proof.Machine.execLtolSet s
  | .powerLoss => Sys2Proof.Machine.execPowerLoss s
  | .dieCycle x0 => Sys2Proof.Machine.execDieCycle x0 s
  | .nop => Sys2Proof.Machine.execNop s
  | .mov x0 x1 x2 => Sys2Proof.Machine.execMov x0 x1 x2 s
  | .movi x0 x1 x2 => Sys2Proof.Machine.execMovi x0 x1 x2 s
  | .movl x0 x1 x2 => Sys2Proof.Machine.execMovl x0 x1 x2 s
  | .movlh x0 x1 x2 => Sys2Proof.Machine.execMovlh x0 x1 x2 s
  | .movlt x0 x1 x2 => Sys2Proof.Machine.execMovlt x0 x1 x2 s
  | .addi x0 x1 x2 => Sys2Proof.Machine.execAddi x0 x1 x2 s
  | .add x0 x1 x2 x3 => Sys2Proof.Machine.execAdd x0 x1 x2 x3 s
  | .sub x0 x1 x2 x3 => Sys2Proof.Machine.execSub x0 x1 x2 x3 s
  | .and x0 x1 x2 x3 => Sys2Proof.Machine.execAnd x0 x1 x2 x3 s
  | .or x0 x1 x2 x3 => Sys2Proof.Machine.execOr x0 x1 x2 x3 s
  | .xor x0 x1 x2 x3 => Sys2Proof.Machine.execXor x0 x1 x2 x3 s
  | .andn x0 x1 x2 x3 => Sys2Proof.Machine.execAndn x0 x1 x2 x3 s
  | .shl x0 x1 x2 x3 => Sys2Proof.Machine.execShl x0 x1 x2 x3 s
  | .shr x0 x1 x2 x3 => Sys2Proof.Machine.execShr x0 x1 x2 x3 s
  | .sar x0 x1 x2 x3 => Sys2Proof.Machine.execSar x0 x1 x2 x3 s
  | .shli x0 x1 x2 x3 => Sys2Proof.Machine.execShli x0 x1 x2 x3 s
  | .shri x0 x1 x2 x3 => Sys2Proof.Machine.execShri x0 x1 x2 x3 s
  | .sari x0 x1 x2 x3 => Sys2Proof.Machine.execSari x0 x1 x2 x3 s
  | .mul x0 x1 x2 x3 => Sys2Proof.Machine.execMul x0 x1 x2 x3 s
  | .mulhu x0 x1 x2 x3 => Sys2Proof.Machine.execMulhu x0 x1 x2 x3 s
  | .mulhs x0 x1 x2 x3 => Sys2Proof.Machine.execMulhs x0 x1 x2 x3 s
  | .divu x0 x1 x2 x3 => Sys2Proof.Machine.execDivu x0 x1 x2 x3 s
  | .remu x0 x1 x2 x3 => Sys2Proof.Machine.execRemu x0 x1 x2 x3 s
  | .min x0 x1 x2 x3 => Sys2Proof.Machine.execMin x0 x1 x2 x3 s
  | .max x0 x1 x2 x3 => Sys2Proof.Machine.execMax x0 x1 x2 x3 s
  | .minu x0 x1 x2 x3 => Sys2Proof.Machine.execMinu x0 x1 x2 x3 s
  | .maxu x0 x1 x2 x3 => Sys2Proof.Machine.execMaxu x0 x1 x2 x3 s
  | .clz x0 x1 x2 => Sys2Proof.Machine.execClz x0 x1 x2 s
  | .popc x0 x1 x2 => Sys2Proof.Machine.execPopc x0 x1 x2 s
  | .sel x0 x1 x2 x3 => Sys2Proof.Machine.execSel x0 x1 x2 x3 s
  | .cmpEq x0 x1 x2 x3 => Sys2Proof.Machine.execCmpEq x0 x1 x2 x3 s
  | .cmpNe x0 x1 x2 x3 => Sys2Proof.Machine.execCmpNe x0 x1 x2 x3 s
  | .cmpLt x0 x1 x2 x3 => Sys2Proof.Machine.execCmpLt x0 x1 x2 x3 s
  | .cmpLe x0 x1 x2 x3 => Sys2Proof.Machine.execCmpLe x0 x1 x2 x3 s
  | .cmpLtu x0 x1 x2 x3 => Sys2Proof.Machine.execCmpLtu x0 x1 x2 x3 s
  | .cmpLeu x0 x1 x2 x3 => Sys2Proof.Machine.execCmpLeu x0 x1 x2 x3 s
  | .tstb x0 x1 x2 x3 => Sys2Proof.Machine.execTstb x0 x1 x2 x3 s
  | .pmov x0 x1 x2 => Sys2Proof.Machine.execPmov x0 x1 x2 s
  | .pand x0 x1 x2 x3 => Sys2Proof.Machine.execPand x0 x1 x2 x3 s
  | .por x0 x1 x2 x3 => Sys2Proof.Machine.execPor x0 x1 x2 x3 s
  | .pxor x0 x1 x2 x3 => Sys2Proof.Machine.execPxor x0 x1 x2 x3 s
  | .pandn x0 x1 x2 x3 => Sys2Proof.Machine.execPandn x0 x1 x2 x3 s
  | .ptos x0 x1 => Sys2Proof.Machine.execPtos x0 x1 s
  | .stop x0 x1 => Sys2Proof.Machine.execStop x0 x1 s
  | .lsetup x0 x1 x2 x3 => Sys2Proof.Machine.execLsetup x0 x1 x2 x3 s
  | .ldB x0 x1 x2 x3 => Sys2Proof.Machine.execLdB x0 x1 x2 x3 s
  | .ldH x0 x1 x2 x3 => Sys2Proof.Machine.execLdH x0 x1 x2 x3 s
  | .ldW x0 x1 x2 x3 => Sys2Proof.Machine.execLdW x0 x1 x2 x3 s
  | .ldD x0 x1 x2 x3 => Sys2Proof.Machine.execLdD x0 x1 x2 x3 s
  | .ldsW x0 x1 x2 x3 => Sys2Proof.Machine.execLdsW x0 x1 x2 x3 s
  | .stB x0 x1 x2 x3 => Sys2Proof.Machine.execStB x0 x1 x2 x3 s
  | .stH x0 x1 x2 x3 => Sys2Proof.Machine.execStH x0 x1 x2 x3 s
  | .stW x0 x1 x2 x3 => Sys2Proof.Machine.execStW x0 x1 x2 x3 s
  | .stD x0 x1 x2 x3 => Sys2Proof.Machine.execStD x0 x1 x2 x3 s
  | .seq => Sys2Proof.Machine.execSeq s
  | .jmp x0 => Sys2Proof.Machine.execJmp x0 s
  | .br x0 x1 x2 => Sys2Proof.Machine.execBr x0 x1 x2 s
  | .call x0 => Sys2Proof.Machine.execCall x0 s
  | .ret => Sys2Proof.Machine.execRet s
  | .lend x0 x1 => Sys2Proof.Machine.execLend x0 x1 s
  | .trap x0 => Sys2Proof.Machine.execTrap x0 s
  | .rft => Sys2Proof.Machine.execRft s
  | .halt => Sys2Proof.Machine.execHalt s
  | .idle x0 => Sys2Proof.Machine.execIdle x0 s
  | .xnop => Sys2Proof.Machine.execXnop s
  | .bcast x0 x1 => Sys2Proof.Machine.execBcast x0 x1 s
  | .lit => Sys2Proof.Machine.execLit s
  | .k28 x0 => Sys2Proof.Machine.execK28 x0 s
  | .waits x0 x1 => Sys2Proof.Machine.execWaits x0 x1 s
  | .red x0 x1 x2 x3 x4 x5 => Sys2Proof.Machine.execRed x0 x1 x2 x3 x4 x5 s
  | .csrr x0 x1 => Sys2Proof.Machine.execCsrr x0 x1 s
  | .csrw x0 x1 => Sys2Proof.Machine.execCsrw x0 x1 s
  | .csrs x0 x1 x2 => Sys2Proof.Machine.execCsrs x0 x1 x2 s
  | .csrc x0 x1 x2 => Sys2Proof.Machine.execCsrc x0 x1 x2 s
  | .dmset x0 => Sys2Proof.Machine.execDmset x0 s
  | .dmget x0 => Sys2Proof.Machine.execDmget x0 s
  | .cmset x0 => Sys2Proof.Machine.execCmset x0 s
  | .cmget x0 => Sys2Proof.Machine.execCmget x0 s
  | .tmand x0 => Sys2Proof.Machine.execTmand x0 s
  | .tmget x0 => Sys2Proof.Machine.execTmget x0 s
  | .prio x0 => Sys2Proof.Machine.execPrio x0 s
  | .feat x0 x1 => Sys2Proof.Machine.execFeat x0 x1 s
  | .ldgB x0 x1 x2 x3 x4 => Sys2Proof.Machine.execLdgB x0 x1 x2 x3 x4 s
  | .ldgH x0 x1 x2 x3 x4 => Sys2Proof.Machine.execLdgH x0 x1 x2 x3 x4 s
  | .ldgW x0 x1 x2 x3 x4 => Sys2Proof.Machine.execLdgW x0 x1 x2 x3 x4 s
  | .ldgD x0 x1 x2 x3 x4 => Sys2Proof.Machine.execLdgD x0 x1 x2 x3 x4 s
  | .stgB x0 x1 x2 x3 x4 => Sys2Proof.Machine.execStgB x0 x1 x2 x3 x4 s
  | .stgH x0 x1 x2 x3 x4 => Sys2Proof.Machine.execStgH x0 x1 x2 x3 x4 s
  | .stgW x0 x1 x2 x3 x4 => Sys2Proof.Machine.execStgW x0 x1 x2 x3 x4 s
  | .stgD x0 x1 x2 x3 x4 => Sys2Proof.Machine.execStgD x0 x1 x2 x3 x4 s
  | .afadd x0 x1 x2 x3 x4 x5 => Sys2Proof.Machine.execAfadd x0 x1 x2 x3 x4 x5 s
  | .amin x0 x1 x2 x3 x4 x5 => Sys2Proof.Machine.execAmin x0 x1 x2 x3 x4 x5 s
  | .amax x0 x1 x2 x3 x4 x5 => Sys2Proof.Machine.execAmax x0 x1 x2 x3 x4 x5 s
  | .aand x0 x1 x2 x3 x4 x5 => Sys2Proof.Machine.execAand x0 x1 x2 x3 x4 x5 s
  | .aor x0 x1 x2 x3 x4 x5 => Sys2Proof.Machine.execAor x0 x1 x2 x3 x4 x5 s
  | .axor x0 x1 x2 x3 x4 x5 => Sys2Proof.Machine.execAxor x0 x1 x2 x3 x4 x5 s
  | .aswap x0 x1 x2 x3 x4 x5 => Sys2Proof.Machine.execAswap x0 x1 x2 x3 x4 x5 s
  | .acas x0 x1 x2 x3 x4 x5 => Sys2Proof.Machine.execAcas x0 x1 x2 x3 x4 x5 s
  | .amaxf x0 x1 x2 x3 x4 => Sys2Proof.Machine.execAmaxf x0 x1 x2 x3 x4 s
  | .memAmaxrr x0 x1 x2 x3 x4 => Sys2Proof.Machine.execMemAmaxrr x0 x1 x2 x3 x4 s
  | .memFence x0 x1 x2 => Sys2Proof.Machine.execMemFence x0 x1 x2 s
  | .memLdref x0 x1 x2 x3 x4 x5 => Sys2Proof.Machine.execMemLdref x0 x1 x2 x3 x4 x5 s
  | .memStref x0 x1 x2 x3 x4 x5 => Sys2Proof.Machine.execMemStref x0 x1 x2 x3 x4 x5 s
  | .memPin x0 x1 x2 x3 x4 => Sys2Proof.Machine.execMemPin x0 x1 x2 x3 x4 s
  | .memUnpin x0 x1 x2 x3 => Sys2Proof.Machine.execMemUnpin x0 x1 x2 x3 s
  | .memLdr x0 x1 x2 x3 x4 x5 => Sys2Proof.Machine.execMemLdr x0 x1 x2 x3 x4 x5 s
  | .memStr x0 x1 x2 x3 x4 x5 => Sys2Proof.Machine.execMemStr x0 x1 x2 x3 x4 x5 s
  | .memJraise x0 x1 x2 x3 x4 => Sys2Proof.Machine.execMemJraise x0 x1 x2 x3 x4 s
  | .memJdone x0 x1 x2 x3 => Sys2Proof.Machine.execMemJdone x0 x1 x2 x3 s
  | .engCpy x0 x1 x2 x3 x4 x5 => Sys2Proof.Machine.execEngCpy x0 x1 x2 x3 x4 x5 s
  | .engInstall x0 x1 x2 x3 x4 x5 => Sys2Proof.Machine.execEngInstall x0 x1 x2 x3 x4 x5 s
  | .engReloc x0 x1 x2 x3 x4 x5 => Sys2Proof.Machine.execEngReloc x0 x1 x2 x3 x4 x5 s
  | .mbxsend x0 x1 x2 x3 x4 x5 => Sys2Proof.Machine.execMbxsend x0 x1 x2 x3 x4 x5 s
  | .enq x0 x1 x2 x3 x4 x5 => Sys2Proof.Machine.execEnq x0 x1 x2 x3 x4 x5 s
  | .podsend x0 x1 x2 x3 x4 x5 => Sys2Proof.Machine.execPodsend x0 x1 x2 x3 x4 x5 s
  | .ctxstart x0 x1 x2 x3 x4 x5 => Sys2Proof.Machine.execCtxstart x0 x1 x2 x3 x4 x5 s
  | .ctxstartRestore x0 x1 x2 x3 x4 x5 => Sys2Proof.Machine.execCtxstartRestore x0 x1 x2 x3 x4 x5 s
  | .ctxstartGo x0 x1 x2 x3 x4 x5 => Sys2Proof.Machine.execCtxstartGo x0 x1 x2 x3 x4 x5 s
  | .ctxsave x0 x1 x2 x3 x4 x5 => Sys2Proof.Machine.execCtxsave x0 x1 x2 x3 x4 x5 s
  | .vmov x0 x1 x2 => Sys2Proof.Machine.execVmov x0 x1 x2 s
  | .vmovi x0 x1 x2 x3 => Sys2Proof.Machine.execVmovi x0 x1 x2 x3 s
  | .vbcst x0 x1 x2 => Sys2Proof.Machine.execVbcst x0 x1 x2 s
  | .vlane x0 x1 => Sys2Proof.Machine.execVlane x0 x1 s
  | .vcoord x0 x1 x2 => Sys2Proof.Machine.execVcoord x0 x1 x2 s
  | .vadd x0 x1 x2 x3 x4 => Sys2Proof.Machine.execVadd x0 x1 x2 x3 x4 s
  | .vsub x0 x1 x2 x3 x4 => Sys2Proof.Machine.execVsub x0 x1 x2 x3 x4 s
  | .vmullo x0 x1 x2 x3 x4 => Sys2Proof.Machine.execVmullo x0 x1 x2 x3 x4 s
  | .vmulhi x0 x1 x2 x3 x4 => Sys2Proof.Machine.execVmulhi x0 x1 x2 x3 x4 s
  | .vmin x0 x1 x2 x3 x4 => Sys2Proof.Machine.execVmin x0 x1 x2 x3 x4 s
  | .vmax x0 x1 x2 x3 x4 => Sys2Proof.Machine.execVmax x0 x1 x2 x3 x4 s
  | .vabsd x0 x1 x2 x3 x4 => Sys2Proof.Machine.execVabsd x0 x1 x2 x3 x4 s
  | .vaddsat x0 x1 x2 x3 x4 => Sys2Proof.Machine.execVaddsat x0 x1 x2 x3 x4 s
  | .vand x0 x1 x2 x3 => Sys2Proof.Machine.execVand x0 x1 x2 x3 s
  | .vor x0 x1 x2 x3 => Sys2Proof.Machine.execVor x0 x1 x2 x3 s
  | .vxor x0 x1 x2 x3 => Sys2Proof.Machine.execVxor x0 x1 x2 x3 s
  | .vandn x0 x1 x2 x3 => Sys2Proof.Machine.execVandn x0 x1 x2 x3 s
  | .vshl x0 x1 x2 x3 x4 => Sys2Proof.Machine.execVshl x0 x1 x2 x3 x4 s
  | .vshr x0 x1 x2 x3 x4 => Sys2Proof.Machine.execVshr x0 x1 x2 x3 x4 s
  | .vsar x0 x1 x2 x3 x4 => Sys2Proof.Machine.execVsar x0 x1 x2 x3 x4 s
  | .vshli x0 x1 x2 x3 x4 => Sys2Proof.Machine.execVshli x0 x1 x2 x3 x4 s
  | .vpopc x0 x1 x2 x3 => Sys2Proof.Machine.execVpopc x0 x1 x2 x3 s
  | .vclz x0 x1 x2 x3 => Sys2Proof.Machine.execVclz x0 x1 x2 x3 s
  | .vsel x0 x1 x2 x3 x4 => Sys2Proof.Machine.execVsel x0 x1 x2 x3 x4 s
  | .vshf x0 x1 x2 x3 => Sys2Proof.Machine.execVshf x0 x1 x2 x3 s
  | .vrot x0 x1 x2 x3 => Sys2Proof.Machine.execVrot x0 x1 x2 x3 s
  | .vcmpEq x0 x1 x2 x3 x4 => Sys2Proof.Machine.execVcmpEq x0 x1 x2 x3 x4 s
  | .vcmpNe x0 x1 x2 x3 x4 => Sys2Proof.Machine.execVcmpNe x0 x1 x2 x3 x4 s
  | .vcmpLt x0 x1 x2 x3 x4 => Sys2Proof.Machine.execVcmpLt x0 x1 x2 x3 x4 s
  | .vcmpLe x0 x1 x2 x3 x4 => Sys2Proof.Machine.execVcmpLe x0 x1 x2 x3 x4 s
  | .vcmpLtu x0 x1 x2 x3 x4 => Sys2Proof.Machine.execVcmpLtu x0 x1 x2 x3 x4 s
  | .vcmpLeu x0 x1 x2 x3 x4 => Sys2Proof.Machine.execVcmpLeu x0 x1 x2 x3 x4 s
  | .vfcmpEq x0 x1 x2 x3 => Sys2Proof.Machine.execVfcmpEq x0 x1 x2 x3 s
  | .vfcmpLt x0 x1 x2 x3 => Sys2Proof.Machine.execVfcmpLt x0 x1 x2 x3 s
  | .vfcmpLe x0 x1 x2 x3 => Sys2Proof.Machine.execVfcmpLe x0 x1 x2 x3 s
  | .vfcmpUn x0 x1 x2 x3 => Sys2Proof.Machine.execVfcmpUn x0 x1 x2 x3 s
  | .vfadd x0 x1 x2 x3 x4 => Sys2Proof.Machine.execVfadd x0 x1 x2 x3 x4 s
  | .vfsub x0 x1 x2 x3 x4 => Sys2Proof.Machine.execVfsub x0 x1 x2 x3 x4 s
  | .vfmul x0 x1 x2 x3 x4 => Sys2Proof.Machine.execVfmul x0 x1 x2 x3 x4 s
  | .vfma x0 x1 x2 x3 x4 x5 => Sys2Proof.Machine.execVfma x0 x1 x2 x3 x4 x5 s
  | .vfms x0 x1 x2 x3 x4 x5 => Sys2Proof.Machine.execVfms x0 x1 x2 x3 x4 x5 s
  | .vfnma x0 x1 x2 x3 x4 x5 => Sys2Proof.Machine.execVfnma x0 x1 x2 x3 x4 x5 s
  | .vfmin x0 x1 x2 x3 => Sys2Proof.Machine.execVfmin x0 x1 x2 x3 s
  | .vfmax x0 x1 x2 x3 => Sys2Proof.Machine.execVfmax x0 x1 x2 x3 s
  | .vfabs x0 x1 x2 => Sys2Proof.Machine.execVfabs x0 x1 x2 s
  | .vfneg x0 x1 x2 => Sys2Proof.Machine.execVfneg x0 x1 x2 s
  | .vfdiv x0 x1 x2 x3 x4 => Sys2Proof.Machine.execVfdiv x0 x1 x2 x3 x4 s
  | .vfsqrt x0 x1 x2 x3 => Sys2Proof.Machine.execVfsqrt x0 x1 x2 x3 s
  | .vfrsqrt x0 x1 x2 x3 => Sys2Proof.Machine.execVfrsqrt x0 x1 x2 x3 s
  | .vfexp2 x0 x1 x2 x3 => Sys2Proof.Machine.execVfexp2 x0 x1 x2 x3 s
  | .vflog2 x0 x1 x2 x3 => Sys2Proof.Machine.execVflog2 x0 x1 x2 x3 s
  | .vfclass x0 x1 x2 => Sys2Proof.Machine.execVfclass x0 x1 x2 s
  | .vrsumF32 x0 x1 x2 x3 => Sys2Proof.Machine.execVrsumF32 x0 x1 x2 x3 s
  | .vrmaxF32 x0 x1 x2 => Sys2Proof.Machine.execVrmaxF32 x0 x1 x2 s
  | .vramax x0 x1 x2 => Sys2Proof.Machine.execVramax x0 x1 x2 s
  | .vrsumI x0 x1 x2 x3 => Sys2Proof.Machine.execVrsumI x0 x1 x2 x3 s
  | .vrmaxI x0 x1 x2 x3 => Sys2Proof.Machine.execVrmaxI x0 x1 x2 x3 s
  | .xmov x0 x1 x2 => Sys2Proof.Machine.execXmov x0 x1 x2 s
  | .xmovi x0 x1 x2 => Sys2Proof.Machine.execXmovi x0 x1 x2 s
  | .xadd x0 x1 x2 x3 => Sys2Proof.Machine.execXadd x0 x1 x2 x3 s
  | .xsub x0 x1 x2 x3 => Sys2Proof.Machine.execXsub x0 x1 x2 x3 s
  | .xmul x0 x1 x2 x3 => Sys2Proof.Machine.execXmul x0 x1 x2 x3 s
  | .xand x0 x1 x2 x3 => Sys2Proof.Machine.execXand x0 x1 x2 x3 s
  | .cellXor x0 x1 x2 x3 => Sys2Proof.Machine.execCellXor x0 x1 x2 x3 s
  | .xshl x0 x1 x2 x3 => Sys2Proof.Machine.execXshl x0 x1 x2 x3 s
  | .xshr x0 x1 x2 x3 => Sys2Proof.Machine.execXshr x0 x1 x2 x3 s
  | .xcmp x0 x1 x2 x3 x4 => Sys2Proof.Machine.execXcmp x0 x1 x2 x3 x4 s
  | .xfromv x0 x1 x2 x3 => Sys2Proof.Machine.execXfromv x0 x1 x2 x3 s
  | .xtok x0 x1 x2 => Sys2Proof.Machine.execXtok x0 x1 x2 s
  | .vcvtF32I32 x0 x1 x2 x3 => Sys2Proof.Machine.execVcvtF32I32 x0 x1 x2 x3 s
  | .vcvtI32F32 x0 x1 x2 x3 => Sys2Proof.Machine.execVcvtI32F32 x0 x1 x2 x3 s
  | .vcvtBf16F32 x0 x1 x2 x3 => Sys2Proof.Machine.execVcvtBf16F32 x0 x1 x2 x3 s
  | .vcvtF32Bf16 x0 x1 x2 => Sys2Proof.Machine.execVcvtF32Bf16 x0 x1 x2 s
  | .vsplit3 x0 x1 x2 => Sys2Proof.Machine.execVsplit3 x0 x1 x2 s
  | .vamaxb x0 x1 x2 x3 => Sys2Proof.Machine.execVamaxb x0 x1 x2 x3 s
  | .vscale x0 x1 x2 x3 x4 => Sys2Proof.Machine.execVscale x0 x1 x2 x3 x4 s
  | .qbfp x0 x1 x2 x3 x4 x5 => Sys2Proof.Machine.execQbfp x0 x1 x2 x3 x4 x5 s
  | .dqbfp x0 x1 x2 x3 x4 x5 => Sys2Proof.Machine.execDqbfp x0 x1 x2 x3 x4 x5 s
  | .vcvtI8F32 x0 x1 x2 x3 x4 => Sys2Proof.Machine.execVcvtI8F32 x0 x1 x2 x3 x4 s
  | .vrng x0 x1 => Sys2Proof.Machine.execVrng x0 x1 s
  | .vcvtF32I8 x0 x1 x2 x3 => Sys2Proof.Machine.execVcvtF32I8 x0 x1 x2 x3 s
  | .mma x0 x1 x2 x3 x4 x5 x6 x7 x8 x9 => Sys2Proof.Machine.execMma x0 x1 x2 x3 x4 x5 x6 x7 x8 x9 s
  | .mmaNest x0 x1 x2 x3 x4 x5 x6 x7 x8 x9 => Sys2Proof.Machine.execMmaNest x0 x1 x2 x3 x4 x5 x6 x7 x8 x9 s
  | .mmaGrp x0 x1 x2 x3 x4 x5 x6 x7 x8 x9 x10 => Sys2Proof.Machine.execMmaGrp x0 x1 x2 x3 x4 x5 x6 x7 x8 x9 x10 s
  | .accz x0 x1 x2 x3 x4 => Sys2Proof.Machine.execAccz x0 x1 x2 x3 x4 s
  | .accrd x0 x1 x2 x3 => Sys2Proof.Machine.execAccrd x0 x1 x2 x3 s
  | .accwr x0 x1 x2 x3 => Sys2Proof.Machine.execAccwr x0 x1 x2 x3 s
  | .accout x0 x1 x2 x3 x4 x5 => Sys2Proof.Machine.execAccout x0 x1 x2 x3 x4 x5 s
  | .wswap => Sys2Proof.Machine.execWswap s
  | .mxprog x0 x1 => Sys2Proof.Machine.execMxprog x0 x1 s
  | .ldv x0 x1 x2 x3 x4 => Sys2Proof.Machine.execLdv x0 x1 x2 x3 x4 s
  | .stv x0 x1 x2 x3 => Sys2Proof.Machine.execStv x0 x1 x2 x3 s
  | .ldvn x0 x1 x2 x3 x4 x5 => Sys2Proof.Machine.execLdvn x0 x1 x2 x3 x4 x5 s
  | .stvn x0 x1 x2 x3 x4 => Sys2Proof.Machine.execStvn x0 x1 x2 x3 x4 s
  | .gather x0 x1 x2 x3 x4 x5 => Sys2Proof.Machine.execGather x0 x1 x2 x3 x4 x5 s
  | .scatter x0 x1 x2 x3 x4 => Sys2Proof.Machine.execScatter x0 x1 x2 x3 x4 s
  | .ldx x0 x1 x2 x3 x4 x5 x6 => Sys2Proof.Machine.execLdx x0 x1 x2 x3 x4 x5 x6 s
  | .stx x0 x1 x2 x3 x4 x5 => Sys2Proof.Machine.execStx x0 x1 x2 x3 x4 x5 s
  | .ldxAcq x0 x1 x2 x3 x4 x5 x6 => Sys2Proof.Machine.execLdxAcq x0 x1 x2 x3 x4 x5 x6 s
  | .stxRel x0 x1 x2 x3 x4 x5 x6 => Sys2Proof.Machine.execStxRel x0 x1 x2 x3 x4 x5 x6 s
  | .lsFence x0 x1 x2 x3 => Sys2Proof.Machine.execLsFence x0 x1 x2 x3 s
  | .xafadd x0 x1 x2 x3 x4 x5 => Sys2Proof.Machine.execXafadd x0 x1 x2 x3 x4 x5 s
  | .xamax x0 x1 x2 x3 x4 x5 => Sys2Proof.Machine.execXamax x0 x1 x2 x3 x4 x5 s
  | .xacas x0 x1 x2 x3 x4 x5 x6 => Sys2Proof.Machine.execXacas x0 x1 x2 x3 x4 x5 x6 s
  | .xaswap x0 x1 x2 x3 x4 x5 => Sys2Proof.Machine.execXaswap x0 x1 x2 x3 x4 x5 s
  | .vafadd x0 x1 x2 x3 x4 x5 => Sys2Proof.Machine.execVafadd x0 x1 x2 x3 x4 x5 s
  | .vamaxf x0 x1 x2 x3 x4 x5 => Sys2Proof.Machine.execVamaxf x0 x1 x2 x3 x4 x5 s
  | .lsAmaxrr x0 x1 x2 x3 x4 => Sys2Proof.Machine.execLsAmaxrr x0 x1 x2 x3 x4 s
  | .stset x0 x1 x2 => Sys2Proof.Machine.execStset x0 x1 x2 s
  | .stget x0 x1 x2 => Sys2Proof.Machine.execStget x0 x1 x2 s
  | .stgo x0 x1 x2 => Sys2Proof.Machine.execStgo x0 x1 x2 s
  | .stsave x0 x1 x2 x3 => Sys2Proof.Machine.execStsave x0 x1 x2 x3 s
  | .stload x0 x1 x2 x3 => Sys2Proof.Machine.execStload x0 x1 x2 x3 s
  | .resize x0 x1 x2 => Sys2Proof.Machine.execResize x0 x1 x2 s
  | .sete x0 x1 x2 x3 => Sys2Proof.Machine.execSete x0 x1 x2 x3 s
  | .setf x0 x1 x2 x3 => Sys2Proof.Machine.execSetf x0 x1 x2 x3 s
  | .nsflush x0 x1 => Sys2Proof.Machine.execNsflush x0 x1 s
  | .lsLdr x0 x1 x2 x3 x4 x5 x6 => Sys2Proof.Machine.execLsLdr x0 x1 x2 x3 x4 x5 x6 s
  | .lsStr x0 x1 x2 x3 x4 x5 => Sys2Proof.Machine.execLsStr x0 x1 x2 x3 x4 x5 s
  | .ldrv x0 x1 x2 x3 x4 x5 => Sys2Proof.Machine.execLdrv x0 x1 x2 x3 x4 x5 s
  | .strv x0 x1 x2 x3 x4 => Sys2Proof.Machine.execStrv x0 x1 x2 x3 x4 s
  | .lsLdref x0 x1 x2 x3 x4 x5 => Sys2Proof.Machine.execLsLdref x0 x1 x2 x3 x4 x5 s
  | .lsStref x0 x1 x2 x3 x4 => Sys2Proof.Machine.execLsStref x0 x1 x2 x3 x4 s
  | .lsPin x0 x1 x2 x3 => Sys2Proof.Machine.execLsPin x0 x1 x2 x3 s
  | .lsUnpin x0 x1 x2 => Sys2Proof.Machine.execLsUnpin x0 x1 x2 s
  | .refmov x0 x1 x2 => Sys2Proof.Machine.execRefmov x0 x1 x2 s
  | .reftag x0 x1 x2 => Sys2Proof.Machine.execReftag x0 x1 x2 s
  | .take x0 x1 x2 x3 => Sys2Proof.Machine.execTake x0 x1 x2 x3 s
  | .lsJraise x0 x1 x2 x3 x4 => Sys2Proof.Machine.execLsJraise x0 x1 x2 x3 x4 s
  | .lsJdone x0 x1 x2 x3 => Sys2Proof.Machine.execLsJdone x0 x1 x2 x3 s
  | .perm x0 x1 x2 x3 x4 => Sys2Proof.Machine.execPerm x0 x1 x2 x3 x4 s
  | .xmit x0 x1 x2 x3 x4 => Sys2Proof.Machine.execXmit x0 x1 x2 x3 x4 s
  | .recv x0 x1 x2 x3 => Sys2Proof.Machine.execRecv x0 x1 x2 x3 s
  | .cshuf x0 x1 x2 x3 x4 => Sys2Proof.Machine.execCshuf x0 x1 x2 x3 x4 s
  | .xfCpy x0 x1 x2 x3 x4 x5 x6 => Sys2Proof.Machine.execXfCpy x0 x1 x2 x3 x4 x5 x6 s
  | .binscat x0 x1 x2 x3 x4 x5 x6 => Sys2Proof.Machine.execBinscat x0 x1 x2 x3 x4 x5 x6 s
  | .xfReloc x0 x1 x2 x3 x4 x5 x6 => Sys2Proof.Machine.execXfReloc x0 x1 x2 x3 x4 x5 x6 s
  | .xfInstall x0 x1 x2 x3 x4 x5 x6 => Sys2Proof.Machine.execXfInstall x0 x1 x2 x3 x4 x5 x6 s
  | .rbseed x0 => Sys2Proof.Machine.execRbseed x0 s
  | .wait x0 x1 => Sys2Proof.Machine.execWait x0 x1 s
  | .waitf x0 x1 => Sys2Proof.Machine.execWaitf x0 x1 s
  | .dly x0 => Sys2Proof.Machine.execDly x0 s
  | .mark => Sys2Proof.Machine.execMark s
  | .tokadd x0 x1 x2 => Sys2Proof.Machine.execTokadd x0 x1 x2 s
  | .tokrd x0 x1 x2 => Sys2Proof.Machine.execTokrd x0 x1 x2 s
  | .setc x0 x1 x2 x3 => Sys2Proof.Machine.execSetc x0 x1 x2 x3 s
  | .bar x0 => Sys2Proof.Machine.execBar x0 s
  | .phaseX => Sys2Proof.Machine.execPhaseX s
  | .phaseC => Sys2Proof.Machine.execPhaseC s
  | .abar => Sys2Proof.Machine.execAbar s
  | .trapc x0 x1 => Sys2Proof.Machine.execTrapc x0 x1 s
  | .kand x0 x1 x2 x3 => Sys2Proof.Machine.execKand x0 x1 x2 x3 s
  | .kor x0 x1 x2 x3 => Sys2Proof.Machine.execKor x0 x1 x2 x3 s
  | .kxor x0 x1 x2 x3 => Sys2Proof.Machine.execKxor x0 x1 x2 x3 s
  | .kandn x0 x1 x2 x3 => Sys2Proof.Machine.execKandn x0 x1 x2 x3 s
  | .knot x0 x1 x2 => Sys2Proof.Machine.execKnot x0 x1 x2 s
  | .kmov x0 x1 x2 => Sys2Proof.Machine.execKmov x0 x1 x2 s
  | .kset x0 x1 x2 x3 => Sys2Proof.Machine.execKset x0 x1 x2 x3 s
  | .kfromx x0 x1 x2 => Sys2Proof.Machine.execKfromx x0 x1 x2 s
  | .ktox x0 x1 x2 => Sys2Proof.Machine.execKtox x0 x1 x2 s
  | .kpopc x0 x1 x2 => Sys2Proof.Machine.execKpopc x0 x1 x2 s

end Sys2Proof.Machine
end

