-- ==== Sys2Proof/Machine/Place.lean ====
section
/-! DEFINITION. Placing an instruction where the next step fetches it, and the context that runs it: a program comes to
run from reset by LAUNCH or CTXSTART, for which this stands (log entry 2). -/

namespace Sys2Proof.Machine

/-- A context of record c resident on die 0 with one cell, its windows whole, at a start vector without presets. -/
def placedAlone (s : State) (c : Nat) : Rec :=
  let r : Rec :=
    { Rec.reset with life := .ready, slot := some 0, field := ⟨0, 0, 1, 1⟩, group := ⟨0, 0, 1, 1⟩, win := .full, priv := true }
  placedRec r { core := .reset, cell := .reset, dc := [], tc := [] } 0
    (s.rc c).core.pc.toNat s.nextId

/-- Record 0 holds a context that can issue: as it stands, if it does, else one placed alone. -/
def State.withContext (s : State) : State :=
  let r := s.rc 0
  { s with recs := if r.slot.isSome ∧ r.life = .ready ∧ r.field.dies.contains 0 then s.recs else s.recs.set 0 (placedAlone s 0)
           sel := 0, selDie := 0 }

/-- A sequencer word at the PC of record 0, issued next. -/
def State.placeWord (s : State) (w : Nat) : State :=
  let s := s.withContext
  { s with cstore := mapSet 0 s.cstore (s.rc 0).core.pc.toNat w, agenda := [.wordIssue 0] }

/-- A bundle, as a literal, at the head of the decode queue of record 0 on die 0, issued next. -/
def State.placeBundle (s : State) (w : Nat) : State :=
  let s := s.withContext
  let s := s.updDctx 0 0 (fun x => { x with q :=
    [{ idx := litIdx, lit := some w, reps := 1, inn := x.e, diemask := BitVec.allOnes 32, cellmask := BitVec.allOnes 64
       no := s.bcastNo }] })
  { s with agenda := [.bundleIssue 0 0] }

/-- An instruction placed by its width: up to 128 bits a sequencer word, more a bundle. -/
def State.place (s : State) (nbits w : Nat) : State := if nbits ≤ 128 then s.placeWord w else s.placeBundle w

/-- The step the agenda names next: its head, with the rest of the agenda, or a cycle of the merge stage.
(Log entry 5: DESIGN CHOICE.) -/
def State.nextStep (s : State) : Instr × State :=
  match s.agenda with
  | [] => (.mergeCycle, s)
  | i :: rest => (i, { s with agenda := rest })

end Sys2Proof.Machine
end

