-- ==== Sys2Proof/Machine/Step.lean ====
section
/-! DEFINITION. One step of the machine. -/

namespace Sys2Proof.Machine

/-- The step that the agenda names next, on the state with the rest of the agenda; with an empty agenda, a cycle of the
merge stage. -/
def step (s : State) : Host.Outcome State Fault Refusal := exec s.nextStep.1 s.nextStep.2

/-- The state with an instruction placed so that the next step runs it. -/
def State.withFetchWord (s : State) (nbits w : Nat) : State := s.place nbits w

end Sys2Proof.Machine
end

