-- ==== Sys2Proof/Safety.lean ====
section
/-! DEFINITION. The terms in which statements about the machine are made: the invariant of the state, when a word or a
bundle that holds one instruction can issue, and the parts of the state that stay as they are. -/

namespace Sys2Proof.Machine

/-! ## The invariant -/

/-- What every state that a step gives has, if the state before had it: the memory is in its canonical form. -/
def Inv (s : State) : Prop := Memory.wf s.mem = true

/-! ## A word that holds one instruction -/

/-- The record that issues an instruction of the sequencer executed alone. -/
def State.me (s : State) : Rec := s.rc s.sel

/-- Its sequencer registers. -/
def State.core (s : State) : SeqCore := s.me.core

/-- The guard of a scalar slot holds (R46): predicate `g % 64`, negated by bit 6. -/
def SeqCore.holds (q : SeqCore) (g : Nat) : Bool := q.rP (g % 64) != decide (64 ≤ g)

/-- The selected context can issue a word (R18, R36): it is resident, READY and awake, and no operation of an earlier
word has met a fault. -/
def State.canIssue (s : State) : Prop :=
  s.sel < 16 ∧ s.me.slot.isSome = true ∧ s.me.life = .ready ∧ s.asleep = false ∧ s.me.seqFlag = none

/-- No check of R42 that precedes the slots' own stops a word with slot r alone: its operands fit their fields, a
privileged encoding is issued by a privileged context, the token it names is owned (R112), and where UWTRAP is set it
reads no pending register (R109). -/
def State.passes (s : State) (r : Raw) : Prop :=
  r.legal = true
  ∧ (privileged r = true → s.me.priv = true)
  ∧ (∀ n, r.ts = some n → s.core.tokmask.getLsbD n = true)
  ∧ (tbit s.core.sstat 8 = true → readsPending s.core r = false)

/-- The state after a word whose slot r changed the issuing record by `f`: the PC moves to `npc`, the word is counted
(R117), and a read of a pending register sets SSTAT.UW (R109) and is annotated (R439). -/
def State.wordDone (s : State) (r : Raw) (f : Rec → Rec) (npc : BitVec 18) : State :=
  s.updRec s.sel (fun x =>
    let y := f x
    { y with core := { y.core with pc := npc
                                   sstat := if readsPending x.core r then wbit y.core.sstat 0 true else y.core.sstat }
             wordcnt := y.wordcnt + 1
             notes := if readsPending x.core r then (y.note (.underwait x.core.inn none)).notes else y.notes })

/-- Fixed-latency results issue, and the position ends: what is due lands (R82). -/
def Rec.issued (r : Rec) (ws : List Write) : Rec := { r with core := (ws.foldl SeqCore.issue r.core).endPos }

/-- The next word in sequence. -/
def State.nextPc (s : State) : BitVec 18 := s.core.pc + 1

/-- The word at a distance (R125). -/
def State.pcPlus (s : State) (off n : Nat) : BitVec 18 := s.core.pc + BitVec.ofInt 18 (sext off n)

/-- The trap registers of a trap entry of the sequencer (R429), taken in state s with HACT = 0, where `b` is the record as
the word left it: results in flight land first (R85), the registers take the cause, HACT is set, the PC is the vector,
and nothing else of the record changes but the trace buffer. Memory changes only where that buffer is enabled. -/
def State.traps (s t : State) (b : Rec) (code detail slot : Nat) (xpc : BitVec 18) (info : Option Nat) : Prop :=
  t.me = { b with core := { b.core.drained with pc := s.me.xvec }, life := .ready, hact := true, xpcWritten := false
                  xcause := BitVec.ofNat 32 (code + detail * 2 ^ 8 + slot * 2 ^ 16 + 0xFF * 2 ^ 24)
                  xin := s.core.inn, xpc := xpc, xinfo := t.me.xinfo, bufs := t.me.bufs }
  ∧ (∀ n, info = some n → t.me.xinfo = BitVec.ofNat 64 n)
  ∧ (∀ k, k ≠ s.sel → t.rc k = s.rc k)
  ∧ ((s.me.bufs.getD 0 .reset).ctl.getLsbD 0 = false → t.mem = s.mem ∧ t.me.bufs = s.me.bufs)

/-- An outcome that is a precise fault of the word at the PC (R42): no slot has effect, XPC records the PC; with HACT = 1
the context is left FROZEN and the Atelier is notified (R431). -/
def State.faultsWith (s : State) (o : Host.Outcome State Fault Refusal) (code detail slot : Nat) (info : Option Nat) : Prop :=
  (s.me.hact = false → ∃ t, o = .next t ∧ s.traps t s.me code detail slot s.core.pc info)
  ∧ (s.me.hact = true → o = .next { s.setRec s.sel { s.me with life := .frozen .dead } with reports := s.reports ++ [.handler s.sel] })

/-! ## What a step leaves alone -/

/-- Everything but the context records is the same. -/
def SameOutside (s t : State) : Prop := t = { s with recs := t.recs }

/-- Every context record but c is the same. -/
def SameRecords (s t : State) (c : Nat) : Prop := ∀ k, k ≠ c → t.rc k = s.rc k

/-- Every byte of memory outside [a, a + n) reads as before. -/
def SameBytes (s t : State) (a n : Nat) : Prop := ∀ x, (x < a ∨ a + n ≤ x) → memGet t.mem x = memGet s.mem x

/-- Every byte of memory reads as before. -/
def SameMemory (s t : State) : Prop := ∀ x, memGet t.mem x = memGet s.mem x

/-! ## A bundle that holds one instruction -/

/-- The die that issues an instruction of a bundle executed alone. -/
def State.myDie (s : State) : DieCtx := s.dctx s.sel s.selDie

/-- The cells that the bundle reaches (R7): those of the group whose CELLMASK bit is set, on a die whose DIEMASK bit is
set. -/
def State.myCells (s : State) : List Nat := activeCells s.me s.selDie s.core.diemask s.core.cellmask

/-- A cell of the issuing die. -/
def State.at (s : State) (l : Nat) : Cell := s.cell s.sel s.selDie l

/-- The lanes in which slot r acts in a cell. -/
def State.lanesOf (s : State) (r : Raw) (l : Nat) : List Nat := guardLanes (s.at l).core r.guard

/-- Slot r reads a pending unit in a cell (R143). -/
def State.underwaits (s : State) (r : Raw) (l : Nat) : Bool :=
  cellReadsPending s.me s.selDie l (s.at l).core r (s.lanesOf r l)

/-- The selected die can issue, as the next bundle of the selected context, the bundle that holds slot r and nothing
else: the die can issue; the operands fit their fields and the windows (R24, R63) and the superstep (R339); the bundle
is a mark or one is not overdue (R427); the tracker, the store buffer and the matrix queue have room (R25, R207, R426);
and no cell whose UWTRAP is set reads a pending unit (R143). -/
def State.canBundle (s : State) (r : Raw) : Prop :=
  s.cannotBundle s.sel s.selDie = none
  ∧ r.legal = true
  ∧ bundleIllegal s.me s.myDie [r] = false
  ∧ (markOp r.kind r.op = true ∨ s.myDie.markAsk.contains s.myDie.e = true ∨ s.myDie.sinceMark < 1024)
  ∧ s.myDie.sinceStores + gatedCount s s.sel s.selDie s.myCells [r] ≤ 128
  ∧ roomFor s.me s.selDie s.myDie.e s.myCells [r] = true
  ∧ s.mxRoom s.sel s.selDie s.myCells [r] = true
  ∧ ∀ l ∈ s.myCells, tbit (s.at l).core.cctl 8 = true → s.underwaits r l = false

/-- A cell's registers after a bundle of slot r that issues results: they issue, the position ends, a read of a pending
unit sets CST.UW (R143), and an entry of random bits is popped where the slot takes one (R177). -/
def CellCore.after (q : CellCore) (ws : List Write) (uw pop : Bool) : CellCore :=
  let q := (ws.foldl CellCore.issue q).endPos
  let q := if uw then q.orCst 0x100 else q
  if pop then { q with rbTaken := q.rbTaken + 1 } else q

/-- The die goes on to its next bundle. -/
def State.advanced (s t : State) : Prop := t.myDie.e = s.myDie.e + 1 ∧ t.sel = s.sel ∧ t.selDie = s.selDie

/-- The context's cells after a bundle: an active cell's registers are what `f` says, and the rest of it stands; a cell
of the die that the bundle does not reach passes the position; cells of other dies stand. -/
def State.cellsAfter (s t : State) (f : Nat → CellCore) : Prop :=
  (∀ l ∈ s.myCells, t.at l = { s.at l with core := f l })
  ∧ (∀ l, l ∉ s.myCells → t.at l = { s.at l with core := (s.at l).core.endPos })
  ∧ (∀ d l, d ≠ s.selDie → t.cell s.sel d l = s.cell s.sel d l)

/-- What a bundle of results alone leaves as it is: memory, the dies of the package, the sequencer registers and
operations of its context, and every other context. -/
def State.quiet (s t : State) : Prop :=
  t.mem = s.mem ∧ t.dies = s.dies ∧ t.core = s.core ∧ t.me.reqs = s.me.reqs ∧ SameRecords s t s.sel
  ∧ t.nextId = s.nextId

/-- Operation q of the selected context entered with the step. -/
def State.entered (t : State) (q : Req) : Prop := q ∈ t.me.reqs

/-- The environment in which slot r runs in cell l. -/
def State.env (s : State) (r : Raw) (l : Nat) : CellEnv :=
  cellEnv s s.sel s.selDie s.me s.myDie s.myDie.e l ⟨r, slotNo r.kind, {}⟩ [r]

/-- The environment of slot r for the die. -/
def State.genv (s : State) (r : Raw) : GroupEnv :=
  groupEnv s s.sel s.selDie s.me s.myDie s.myDie.e (s.core.diemask.getLsbD s.selDie) s.myCells ⟨r, slotNo r.kind, {}⟩

end Sys2Proof.Machine
end

