-- ==== Sys2Proof/Certificates/Slice0/Obligations.lean ====
section
/-! DEFINITION. The statements about the machine, in the order of the spec: encodings, the step, memory and the state
after reset, the sequencer, traps, the cells, the operations they share, and the events. -/

open Sys2Proof Sys2Proof.Machine

/-! ## Encodings -/

/-- R41 to R61, R62 to R78: decoding the bits of any legal slot gives the slot back, with every operand at every value
its field admits. MOVL, MOVLH and MOVLT read their literal from the X slot of the word. -/
def Obligations.SlotRoundTrip : Prop :=
  ∀ r : Raw, r.legal = true → decodeRaw r.kind r.litNeeded r.encode = .ok r

/-- The instruction that the word or bundle of a lone instruction decodes to. NOP, XNOP and SEQ are one word of zeros, and the three rows
of CTXSTART are one encoding (R363). -/
noncomputable def Sys2Proof.Instr.read : Instr → Instr
  | .nop => .seq
  | .xnop => .seq
  | .ctxstartRestore desc ts acq rel sc bp => .ctxstart desc ts acq rel sc bp
  | .ctxstartGo desc ts acq rel sc bp => .ctxstart desc ts acq rel sc bp
  | i => i

/-- Encoding any well-formed instruction and decoding the container gives the instruction. -/
def Obligations.InstructionRoundTrip : Prop :=
  ∀ (i : Instr) (n w : Nat), i.wf = true → encode i = some (n, w) → decodeTableWord n w = some i.read

/-- A slot's bits have one meaning: what decodes encodes to the same bits, and is legal. No two rows of one kind of slot share an operation code (R44, R47, R48, R53, R56, R58, R59, R72, R74 to R78). -/
def Obligations.SlotBitsUnique : Prop :=
  (∀ (k : SlotKind) (k28 : Option Nat) (w : Nat) (r : Raw), decodeRaw k k28 w = .ok r →
     r.kind = k ∧ r.legal = true ∧ r.encode = w)
  ∧ (∀ k : SlotKind, (k.rows.map Row.op).Nodup)

/-- Words written out from the encodings of the spec decode to the instructions they stand for: SETC and the LDV and WAIT slots (R75,
R78), STX.D (R76, R487), a CPY of a cell (R77), MBXSEND (R56), AFADD.W (R52), CSRR (R58), SEQ with every slot empty (R41), a
bundle of NOPs (R62). -/
def Obligations.WordsOfTheSpec : Prop :=
  decodeRaw .ct none 0x0700507000000000 = .ok ⟨.ct, 7, [0, 2, 2, 7]⟩
  ∧ decodeRaw .ls none 0x01011C000E800000 = .ok ⟨.ls, 1, [0, 1, 7, 3, 20]⟩
  ∧ decodeRaw .ct none 0x0100A00018000000 = .ok ⟨.ct, 1, [20, 3]⟩
  ∧ decodeRaw .ls none 0x0800081000230000 = .ok ⟨.ls, 8, [0, 2, 1, 1, 3, 0]⟩
  ∧ decodeRaw .xf none 0x050000000048F080 = .ok ⟨.xf, 5, [0, 1, 4, 3, 1, 1, 2]⟩
  ∧ decodeX 0x76958480 = .ok ⟨.eng, 0x3B, [2, 5, 0, 1, 4, 9]⟩
  ∧ decodeX 0x440C4586 = .ok ⟨.mem, 0x88, [0, 3, 1, 5, 2, 6]⟩
  ∧ decodeX 0x8008E800 = .ok ⟨.csr, 0x20, [0x23, 40]⟩
  ∧ decodeTableWord 128 0 = some .seq
  ∧ decodeBundle 0 = .ok {}

/-! ## The step -/

/-- The head of the agenda is the next step, in the state with the rest of the agenda; an empty agenda gives a cycle of the
merge stage (the agenda is the model's own). The issue of a word that holds one instruction is that instruction: where the 128 bits at the PC of the selected context
decode to one slot beside empty ones (R41, R42), the step runs the decoded instruction. So for a bundle (R62, R63): where the head bundle of the selected die's decode queue decodes to one slot beside empty
ones, and no bundle of another context goes before it in this cycle of the die (R28), the step runs the decoded instruction, and the bundle leaves the queue unless it waits there. A step that cannot
happen in one cannot happen in the other. -/
def Obligations.StepRunsTheDecodedInstruction : Prop :=
  ((∀ (s : State) (i : Instr) (rest : List Instr), s.agenda = i :: rest → step s = exec i { s with agenda := rest })
   ∧ (∀ s : State, s.agenda = [] → step s = exec .mergeCycle s))
  ∧ (∀ (s : State) (rest : List Instr) (w : SWord) (r : Raw) (i : Instr), s.agenda = .wordIssue s.sel :: rest → s.sel < 16 →
     decodeWord (s.wordBits s.sel) = .ok w → w.single = some r → instrOf r = some i →
     step s = exec i { s with agenda := rest })
  ∧ (∀ (s : State) (rest : List Instr) (e : QEntry) (es : List QEntry) (b : Bundle) (r : Raw) (i : Instr),
     s.agenda = .bundleIssue s.sel s.selDie :: rest → s.sel < 16 → s.selDie < 32 → s.myDie.q = e :: es →
     e.diemask = s.core.diemask → e.cellmask = s.core.cellmask → s.mustYield s.sel s.selDie e = none →
     decodeBundle (s.me.bundleBits e.idx e.lit) = .ok b → b.single = some r → instrOf r = some i →
     (∀ t, exec i { s with agenda := rest } = .next t → t.myDie.hold ≠ some .wait → t.myDie.hold ≠ some .waitf →
       step s = .next (t.takenHead s.sel s.selDie (s.me.entryUsed e)))
     ∧ (∀ why, exec i { s with agenda := rest } = .refused why → step s = .refused why))

/-! ## Scalar slots -/

namespace Sys2Proof.Machine

/-- What a scalar operation writes, with its latency (R118 to R123; latencies R83). -/
def scalarWrites (q : SeqCore) : Instr → Option (List Write)
  | .mov _ d a => some (one (.s d) (q.rS a).toNat 1)
  | .movi _ d imm => some (one (.s d) (BitVec.ofInt 64 (sext imm 12)).toNat 1)
  | .addi _ d imm => some (one (.s d) (q.rS d + BitVec.ofInt 64 (sext imm 12)).toNat 1)
  | .movl _ d k => some (one (.s d) (k % 2 ^ 28) 1)
  | .movlh _ d k => some (one (.s d) (q.rS d &&& 0x0FFFFFFF ||| BitVec.ofNat 64 (k % 2 ^ 28) <<< 28).toNat 1)
  | .movlt _ d k => some (one (.s d) (q.rS d &&& 0x00FFFFFFFFFFFFFF ||| BitVec.ofNat 64 (k % 2 ^ 8) <<< 56).toNat 1)
  | .add _ d a b => some (one (.s d) (((q.rS a).toNat + (q.rS b).toNat) % 2 ^ 64) 1)
  | .sub _ d a b => some (one (.s d) (((q.rS a).toNat + (2 ^ 64 - (q.rS b).toNat)) % 2 ^ 64) 1)
  | .and _ d a b => some (one (.s d) (q.rS a &&& q.rS b).toNat 1)
  | .or _ d a b => some (one (.s d) (q.rS a ||| q.rS b).toNat 1)
  | .xor _ d a b => some (one (.s d) (q.rS a ^^^ q.rS b).toNat 1)
  | .andn _ d a b => some (one (.s d) (q.rS a &&& ~~~(q.rS b)).toNat 1)
  | .shl _ d a b => some (one (.s d) ((q.rS a).toNat * 2 ^ ((q.rS b).toNat % 64) % 2 ^ 64) 1)
  | .shr _ d a b => some (one (.s d) ((q.rS a).toNat / 2 ^ ((q.rS b).toNat % 64)) 1)
  | .sar _ d a b => some (one (.s d) (BitVec.ofInt 64 ((q.rS a).toInt / 2 ^ ((q.rS b).toNat % 64))).toNat 1)
  | .shli _ d a n => some (one (.s d) ((q.rS a).toNat * 2 ^ n % 2 ^ 64) 1)
  | .shri _ d a n => some (one (.s d) ((q.rS a).toNat / 2 ^ n) 1)
  | .sari _ d a n => some (one (.s d) (BitVec.ofInt 64 ((q.rS a).toInt / 2 ^ n)).toNat 1)
  | .min _ d a b => some (one (.s d) (BitVec.ofInt 64 (min (q.rS a).toInt (q.rS b).toInt)).toNat 1)
  | .max _ d a b => some (one (.s d) (BitVec.ofInt 64 (max (q.rS a).toInt (q.rS b).toInt)).toNat 1)
  | .minu _ d a b => some (one (.s d) (min (q.rS a).toNat (q.rS b).toNat) 1)
  | .maxu _ d a b => some (one (.s d) (max (q.rS a).toNat (q.rS b).toNat) 1)
  | .clz _ d a => some (one (.s d) (clz64 (q.rS a)) 1)
  | .popc _ d a => some (one (.s d) (popcount 64 (q.rS a).toNat) 1)
  | .sel g d a b => some (one (.s d) (if q.holds g then q.rS a else q.rS b).toNat 1)
  | .mul _ d a b => some (one (.s d) ((q.rS a).toNat * (q.rS b).toNat % 2 ^ 64) 3)
  | .mulhu _ d a b => some (one (.s d) ((q.rS a).toNat * (q.rS b).toNat / 2 ^ 64) 4)
  | .mulhs _ d a b => some (one (.s d) (((q.rS a).toInt * (q.rS b).toInt / 2 ^ 64) % 2 ^ 64).toNat 4)
  | .divu _ d a b => some (one (.s d) (if q.rS b = 0 then 2 ^ 64 - 1 else (q.rS a).toNat / (q.rS b).toNat) 24)
  | .remu _ d a b => some (one (.s d) (if q.rS b = 0 then (q.rS a).toNat else (q.rS a).toNat % (q.rS b).toNat) 24)
  | .cmpEq _ d a b => some (one (.p d) (if q.rS a = q.rS b then 1 else 0) 1)
  | .cmpNe _ d a b => some (one (.p d) (if q.rS a = q.rS b then 0 else 1) 1)
  | .cmpLt _ d a b => some (one (.p d) (if (q.rS a).toInt < (q.rS b).toInt then 1 else 0) 1)
  | .cmpLe _ d a b => some (one (.p d) (if (q.rS a).toInt ≤ (q.rS b).toInt then 1 else 0) 1)
  | .cmpLtu _ d a b => some (one (.p d) (if (q.rS a).toNat < (q.rS b).toNat then 1 else 0) 1)
  | .cmpLeu _ d a b => some (one (.p d) (if (q.rS a).toNat ≤ (q.rS b).toNat then 1 else 0) 1)
  | .tstb _ d a n => some (one (.p d) (if (q.rS a).getLsbD n then 1 else 0) 1)
  | .pmov _ d a => some (one (.p d) (if q.rP a then 1 else 0) 1)
  | .pand _ d a b => some (one (.p d) (if q.rP a && q.rP b then 1 else 0) 1)
  | .por _ d a b => some (one (.p d) (if q.rP a || q.rP b then 1 else 0) 1)
  | .pxor _ d a b => some (one (.p d) (if q.rP a ^^ q.rP b then 1 else 0) 1)
  | .pandn _ d a b => some (one (.p d) (if q.rP a && !q.rP b then 1 else 0) 1)
  | .ptos _ d => some (one (.s d) (q.p ||| 1).toNat 1)
  | .stop _ a => some ((List.range 63).flatMap (fun i => one (.p (i + 1)) (if (q.rS a).getLsbD (i + 1) then 1 else 0) 1))
  | _ => none

/-- The same for the words of the other kinds that only read a register of the context (R132, R133). -/
def readWrites (s : State) : Instr → Option (List Write)
  | .dmget d => some (one (.s d) s.core.diemask.toNat 1)
  | .cmget d => some (one (.s d) s.core.cellmask.toNat 1)
  | .tmget d => some (one (.s d) s.core.tokmask.toNat 1)
  | .feat d n => some (one (.s d) (s.featWord n).toNat 1)
  | i => scalarWrites s.core i

end Sys2Proof.Machine

/-- Every scalar operation, and DMGET, CMGET, TMGET and FEAT (R118 to R123, R132, R133): where its guard holds (SEL always executes), the word issues
its results and moves the PC to the next word, and the machine goes on. CLZ and POPC count what R119 names: the bit after the leading zeros is 1 and every bit
above it 0, 64 for a word of zeros; POPC of a word with one more bit set is one more. FEAT's words are those of R133: the dies retired in word 3, a number not
defined gives 0 (R60). -/
def Obligations.ScalarResults : Prop :=
  (∀ (i : Instr) (s : State) (r : Raw) (ws : List Write), i.raw = some r → readWrites s i = some ws → s.canIssue → s.passes r →
     (s.core.holds r.guard = true ∨ (r.kind = .scalar ∧ r.op = 0x1F)) →
     exec i s = .next (s.wordDone r (fun x => x.issued ws) s.nextPc))
  ∧ (clz64 0 = 64 ∧ popcount 64 0 = 0)
  ∧ (∀ w : Word, w ≠ 0 → clz64 w < 64 ∧ w.getLsbD (63 - clz64 w) = true ∧ ∀ i, 63 - clz64 w < i → w.getLsbD i = false)
  ∧ (∀ (w : Word) (i : Nat), i < 64 → w.getLsbD i = false →
      popcount 64 (w ||| BitVec.ofNat 64 (2 ^ i)).toNat = popcount 64 w.toNat + 1)
  ∧ (∀ s : State, s.featWord 0 = 0x0100073201074D48 ∧ s.featWord 1 = 0x7FFF ∧ s.featWord 2 = 0x0410401004040820 ∧ s.featWord 4 = 0x02000020004000C0
      ∧ s.featWord 5 = 0x1010102010204040 ∧ s.featWord 6 = 0x0400020000800200 ∧ s.featWord 7 = 0x0024002403E805DC ∧ s.featWord 8 = 0x0100010001000100
      ∧ (∀ n, 8 < n → s.featWord n = 0) ∧ (∀ d, d < 32 → (s.featWord 3).getLsbD d = (s.pdie d).retired)
      ∧ (s.featWord 3).toNat / 2 ^ 32 = ((List.range 32).filter (fun d => (s.pdie d).retired)).length)

/-- Guards (R46): g7 is a predicate index in bits 18 to 23 of the slot and its negation in bit 24, and p0 reads true, so that g7 = 0 executes always. A
slot whose guard is false has no effect but that the position passes and the PC moves on; SEL always executes, and writes s(a) where its guard holds,
else s(b) (R121). A write to p0 is ignored. -/
def Obligations.GuardsAndSel : Prop :=
  (∀ r : Raw, r.legal = true → r.kind = .scalar → r.guard = r.encode / 2 ^ 18 % 128)
  ∧ (∀ (q : SeqCore) (g : Nat), q.rP 0 = true ∧ q.holds 0 = true ∧ (g < 64 → q.holds g = q.rP g ∧ q.holds (64 + g) = !q.rP g))
  ∧ (∀ (i : Instr) (s : State) (r : Raw), i.raw = some r → r.kind = .scalar → r.op ≠ 0x1F → s.canIssue → s.passes r →
     s.core.holds r.guard = false → exec i s = .next (s.wordDone r (fun x => x.issued []) s.nextPc))
  ∧ (∀ (g d a b : Nat) (s : State) (r : Raw), (Instr.sel g d a b).raw = some r → s.canIssue → s.passes r →
     exec (.sel g d a b) s = .next (s.wordDone r (fun x => x.issued (one (.s d) (if s.core.holds g then s.core.rS a else s.core.rS b).toNat 1)) s.nextPc))
  ∧ (∀ (q : SeqCore) (v : Bool) (n : Nat), (q.wP 0 v).rP n = q.rP n)

/-- What those words leave unchanged: memory and everything beside the record; every other record; of the record,
everything but the registers, the PC, WORDCNT, SSTAT.UW and the annotation of that underwait (R439). A register that the word does not write holds what it held,
or what an earlier word's result in flight to it brings at this position (R82). -/
def Obligations.ScalarFrame : Prop :=
  ∀ (i : Instr) (s t : State) (r : Raw) (ws : List Write), i.raw = some r → readWrites s i = some ws → s.canIssue → s.passes r →
    exec i s = .next t →
    SameOutside s t ∧ SameMemory s t ∧ SameRecords s t s.sel
    ∧ t.me = { s.me with core := t.core, wordcnt := s.me.wordcnt + 1, notes := t.me.notes }
    ∧ t.core = { s.core with s := t.core.s, p := t.core.p, h := t.core.h, pend := t.core.pend, fly := t.core.fly, pc := s.nextPc, sstat := t.core.sstat }
    ∧ t.core.sstat = (if readsPending s.core r then s.core.sstat ||| 1 else s.core.sstat)
    ∧ (∀ n, (∀ w ∈ ws, w.reg ≠ .s n) → t.core.rS n = s.core.endPos.rS n)
    ∧ (∀ n, (∀ w ∈ ws, w.reg ≠ .p n) → t.core.rP n = s.core.endPos.rP n)
    ∧ (∀ n, t.core.rH n = s.core.endPos.rH n)

/-- A result of latency L issued at position p is read from position p + L on, and not before (R82, R84); p0 discards
it (R122), so a predicate reads what was written only for d ≠ 0. Results in flight to the register that were to land later are gone. The register ends with the value of its last-issued writer (R84): a second result issued k positions after the first
stands, whichever of the two lands later. -/
def Obligations.ResultsLandOnTime : Prop :=
  (∀ (q : SeqCore) (d v L k : Nat), d < 64 → 1 ≤ L → v < 2 ^ 64 → (∀ f ∈ q.fly, f.reg = .s d → f.vals = []) → (∀ f ∈ q.fly, f.reg = .p d → f.vals = []) →
     (Nat.repeat SeqCore.endPos k (q.issue { reg := .s d, vals := [(0, v)], lat := L })).rS d
       = (if L ≤ k then BitVec.ofNat 64 v else q.rS d)
     ∧ (Nat.repeat SeqCore.endPos k (q.issue { reg := .p d, vals := [(0, v % 2)], lat := L })).rP d
       = (if d = 0 then true else if L ≤ k then decide (v % 2 = 1) else q.rP d))
  ∧ (∀ (q : SeqCore) (d v1 v2 L1 L2 k n : Nat), 1 ≤ L1 → 1 ≤ L2 → (∀ f ∈ q.fly, f.reg = .s d → f.vals = []) → L2 ≤ n →
     (Nat.repeat SeqCore.endPos n ((Nat.repeat SeqCore.endPos k (q.issue { reg := .s d, vals := [(0, v1)], lat := L1 })).issue
       { reg := .s d, vals := [(0, v2)], lat := L2 })).rS d = BitVec.ofNat 64 v2)

/-! ## The local data store -/

namespace Sys2Proof.Machine

/-- A load of the local data store: size, sign extension, destination, base, offset. -/
def ldsForm : Instr → Option (Nat × Bool × Nat × Nat × Nat)
  | .ldB _ d a off => some (1, false, d, a, off)
  | .ldH _ d a off => some (2, false, d, a, off)
  | .ldW _ d a off => some (4, false, d, a, off)
  | .ldD _ d a off => some (8, false, d, a, off)
  | .ldsW _ d a off => some (4, true, d, a, off)
  | _ => none

/-- A store of the local data store: size, source, base, offset. -/
def stsForm : Instr → Option (Nat × Nat × Nat × Nat)
  | .stB _ v a off => some (1, v, a, off)
  | .stH _ v a off => some (2, v, a, off)
  | .stW _ v a off => some (4, v, a, off)
  | .stD _ v a off => some (8, v, a, off)
  | _ => none

/-- ea of R124. -/
def ldsEa (s : State) (a off n : Nat) : Nat := ((s.core.rS a).toNat + off * n) % 2 ^ 64

end Sys2Proof.Machine

/-- The loads of the local data store at an aligned address inside it (R124): the bytes, little-endian, zero-extended, or
sign-extended for LDS.W, land after 3 positions. The stores of the local data store (R124): the low bytes of the register are read back at the address, every byte of
memory outside them reads as before, and no register is written. A misaligned address raises PROTECT with detail 0x00, one whose bytes end beyond 128 KiB PROTECT with detail 0x04; XINFO
receives the address (R124). The scalar slot is S0. -/
def Obligations.LocalDataStore : Prop :=
  (∀ (i : Instr) (s : State) (r : Raw) (n d a off : Nat) (sg : Bool), i.raw = some r → ldsForm i = some (n, sg, d, a, off) →
     s.canIssue → s.passes r → s.core.holds r.guard = true → ldsEa s a off n % n = 0 → ldsEa s a off n + n ≤ 0x20000 →
     exec i s = .next (s.wordDone r (fun x => x.issued (one (.s d)
       (let v := memRead s.mem (ldsKey s.sel + ldsEa s a off n) n
        if sg then (BitVec.ofInt 64 (sext v (8 * n))).toNat else v) 3)) s.nextPc))
  ∧ (∀ (i : Instr) (s : State) (r : Raw) (n v a off : Nat), i.raw = some r → stsForm i = some (n, v, a, off) →
     s.canIssue → s.passes r → s.core.holds r.guard = true → ldsEa s a off n % n = 0 → ldsEa s a off n + n ≤ 0x20000 →
     ∃ t, exec i s = .next t ∧ memRead t.mem (ldsKey s.sel + ldsEa s a off n) n = (s.core.rS v).toNat % 2 ^ (8 * n)
       ∧ SameBytes s t (ldsKey s.sel + ldsEa s a off n) n
       ∧ t = { s.wordDone r (fun x => x.issued []) s.nextPc with mem := t.mem })
  ∧ (∀ (i : Instr) (s : State) (r : Raw) (n a off : Nat), i.raw = some r →
     ((∃ d sg, ldsForm i = some (n, sg, d, a, off)) ∨ ∃ v, stsForm i = some (n, v, a, off)) →
     s.canIssue → s.passes r → s.core.holds r.guard = true →
     (ldsEa s a off n % n ≠ 0 → s.faultsWith (exec i s) 0x11 0x00 0 (some (ldsEa s a off n)))
     ∧ (ldsEa s a off n % n = 0 → 0x20000 < ldsEa s a off n + n → s.faultsWith (exec i s) 0x11 0x04 0 (some (ldsEa s a off n))))

/-! ## The sequencer -/

namespace Sys2Proof.Machine

/-- The next PC of the kinds that only move it, and of the empty slots (R125). -/
def nextAddress (s : State) : Instr → Option (BitVec 18)
  | .nop | .xnop | .seq => some s.nextPc
  | .k28 _ => some s.nextPc
  | .jmp off => some (s.pcPlus off 21)
  | .br p neg off => some (if s.core.rP p != neg then s.pcPlus off 21 else s.nextPc)
  | _ => none

/-- A change of the issuing record's sequencer registers at the end of the word, once results have issued. -/
def Rec.thenCore (f : SeqCore → SeqCore) (x : Rec) : Rec := { x.issued [] with core := f (x.issued []).core }

/-- The selected context records no inputs and replays none (R439, R440). -/
def State.noLog (s : State) : Prop := s.me.replaying = false ∧ (s.me.bufs.getD 2 .reset).ctl.getLsbD 0 = false

/-- The items fs, sent in the present cycle, stand last on the way to every die of the selected context's field, and no die else received one. (The dies of
a rectangle are distinct as long as it lies in the mesh.) -/
def State.sentDown (s t : State) (fs : List Frame) : Prop :=
  s.me.field.dies.Nodup → ∀ d, (t.dctx s.sel d).frames = (s.dctx s.sel d).frames ++ (if d ∈ s.me.field.dies then fs.map (fun f => (s.clk, f)) else [])

/-- What a broadcast of n repetitions sends down (R7, R8, R327): the IN and the masks of the word. -/
def State.bundleItem (s : State) (idx : Nat) (lit : Option Nat) (n : Nat) : Frame :=
  .bundle { idx := idx, lit := lit, reps := n, inn := s.core.inn, diemask := s.core.diemask, cellmask := s.core.cellmask, no := s.bcastNo }

end Sys2Proof.Machine

/-- SEQ, JMP and BR move the PC as R125 says, and nothing but the PC, WORDCNT and what is due at the position's end changes. The empty
slots and K28, which holds a literal for another slot (R51), go on to the next word. -/
def Obligations.NextAddress : Prop :=
  ∀ (i : Instr) (s : State) (r : Raw) (npc : BitVec 18), i.raw = some r → nextAddress s i = some npc → s.canIssue → s.passes r →
    exec i s = .next (s.wordDone r (fun x => x.issued []) npc)

/-- CALL and RET (R126): CALL pushes the next address and the TOKMASK as it stood, RET pops both; CALL with 16 entries
and RET with none raise ILLEGAL_WORD with details 0x01 and 0x02 in slot NA, precisely. -/
def Obligations.CallAndReturn : Prop :=
  (∀ (off : Nat) (s : State) (r : Raw), (Instr.call off).raw = some r → s.canIssue → s.passes r →
    (s.core.stack.length < 16 → exec (.call off) s = .next (s.wordDone r (Rec.thenCore (fun q =>
      { q with stack := s.core.stack ++ [{ rpc := s.nextPc, rmask := s.core.tokmask }] })) (s.pcPlus off 21)))
    ∧ (16 ≤ s.core.stack.length → s.faultsWith (exec (.call off) s) 0x01 0x01 3 none))
  ∧ (∀ (s : State) (r : Raw), Instr.ret.raw = some r → s.canIssue → s.passes r →
    (∀ st e, s.core.stack = st ++ [e] →
      exec .ret s = .next (s.wordDone r (Rec.thenCore (fun q => { q with stack := st, tokmask := e.rmask })) e.rpc))
    ∧ (s.core.stack = [] → s.faultsWith (exec .ret s) 0x01 0x02 3 none))

/-- DMSET, CMSET, TMAND and PRIO (R113, R132): the masks take only bits of dies of the field and of cells of the cell group,
TOKMASK only narrows, the priority goes no lower than the floor. -/
def Obligations.ContextRegisters : Prop :=
  (∀ (a : Nat) (s : State) (r : Raw), s.canIssue → s.passes r →
    ((Instr.dmset a).raw = some r → ∃ m, exec (.dmset a) s = .next (s.wordDone r (Rec.thenCore (fun q => { q with diemask := m })) s.nextPc)
      ∧ ∀ d, d < 32 → m.getLsbD d = ((s.core.rS a).getLsbD d && s.me.field.dies.contains d))
    ∧ ((Instr.cmset a).raw = some r → ∃ m, exec (.cmset a) s = .next (s.wordDone r (Rec.thenCore (fun q => { q with cellmask := m })) s.nextPc)
      ∧ ∀ l, l < 64 → m.getLsbD l = ((s.core.rS a).getLsbD l && s.me.group.cells.contains l))
    ∧ ((Instr.tmand a).raw = some r → exec (.tmand a) s = .next (s.wordDone r
        (Rec.thenCore (fun q => { q with tokmask := s.core.tokmask &&& (s.core.rS a).setWidth 48 })) s.nextPc))
    ∧ ((Instr.prio a).raw = some r → exec (.prio a) s = .next (s.wordDone r
        (Rec.thenCore (fun q => { q with prio := BitVec.ofNat 3 (max ((s.core.rS a).toNat % 8) s.me.floor.toNat) })) s.nextPc)))

/-- CSRR, CSRW, CSRS and CSRC of a number the context has (R117, R131): the read returns the CSR as it stood at the
start of the word, the write lands at its end. The context neither records nor replays, which only the reads that R439 logs look at. What a CSR write leaves (R4, R117, R131): the CSR reads back its writable bits, and every other CSR reads as before. -/
def Obligations.CsrAccess : Prop :=
  (∀ (s : State) (num d a : Nat) (r : Raw), s.canIssue → s.passes r → csrDefined num = true → (csrLogged num = true → s.noLog) →
     ((Instr.csrr num d).raw = some r →
       exec (.csrr num d) s = .next (s.wordDone r (fun x => x.issued (one (.s d) (s.csrRead s.sel num).toNat 1)) s.nextPc))
     ∧ ((Instr.csrw num a).raw = some r → csrWritable num = true →
       exec (.csrw num a) s = .next (s.wordDone r (fun x => (x.issued []).csrWrite num (s.core.rS a)) s.nextPc))
     ∧ ((Instr.csrs num d a).raw = some r → csrWritable num = true →
       exec (.csrs num d a) s = .next (s.wordDone r (fun x => (x.issued (one (.s d) (s.csrRead s.sel num).toNat 1)).csrWrite num
         (s.csrRead s.sel num ||| s.core.rS a)) s.nextPc))
     ∧ ((Instr.csrc num d a).raw = some r → csrWritable num = true →
       exec (.csrc num d a) s = .next (s.wordDone r (fun x => (x.issued (one (.s d) (s.csrRead s.sel num).toNat 1)).csrWrite num
         (s.csrRead s.sel num &&& ~~~(s.core.rS a))) s.nextPc)))
  ∧ (∀ (s : State) (c num n : Nat) (v : Word), c < 16 → c < s.recs.length → csrWritable num = true →
     (s.updRec c (fun r => r.csrWrite num v)).csrRead c n
       = (if n = num then v &&& (match num with | 0x006 => 0x101 | 0x025 => BitVec.allOnes 64 | _ => 0x3FFFF) else s.csrRead c n))

/-- A CSR that the context lacks, or a write to a read-only one, raises ILLEGAL_WORD with detail 0x00 (R58); a privileged encoding of
a context without the attribute raises detail 0x03 (R43), and RFT outside a handler detail 0x00 (R127). Slots: X 2, NA 3. Naming a token that TOKMASK does not own raises TOKOWN (R112), before the slot has effect, in WAITS (once its condition
holds, R36) and RED as in every other slot that names one; reading a pending register
raises UNDERWAIT where SSTAT[8] is set (R109), in a scalar slot, an X slot and NA alike. Slots: scalar 0, X 2, NA 3.
Which slot is recorded where several are illegal is the model's reading (log entry 54). -/
def Obligations.WordChecks : Prop :=
  ((∀ (i : Instr) (s : State) (r : Raw) (num : Nat), i.raw = some r → r.kind = .csr → r.ops.head? = some num → s.canIssue →
     r.legal = true → (csrDefined num = false ∨ (r.op ≠ 0x20 ∧ csrWritable num = false)) → s.faultsWith (exec i s) 0x01 0x00 2 none)
   ∧ (∀ (i : Instr) (s : State) (r : Raw), i.raw = some r → s.canIssue → r.legal = true → s.me.priv = false → privileged r = true →
     s.faultsWith (exec i s) 0x01 0x03 (if r.kind = .na then 3 else 2) none)
   ∧ (∀ (s : State), s.canIssue → s.me.priv = true → s.me.hact = false → s.faultsWith (exec .rft s) 0x01 0x00 3 none))
  ∧ ((∀ (i : Instr) (s : State) (r : Raw) (n : Nat), i.raw = some r → s.canIssue → r.legal = true → waitsHolds s.core r = true →
     (privileged r = true → s.me.priv = true) → r.ts = some n → s.core.tokmask.getLsbD n = false → s.faultsWith (exec i s) 0x04 0x00 2 none)
   ∧ (∀ (i : Instr) (s : State) (r : Raw), i.raw = some r → s.canIssue → r.legal = true → waitsHolds s.core r = true →
     (privileged r = true → s.me.priv = true) → csrBad s.sel r = false → (∀ n, r.ts = some n → s.core.tokmask.getLsbD n = true) →
     readsPending s.core r = true → tbit s.core.sstat 8 = true →
     s.faultsWith (exec i s) 0x03 0x00 (if r.kind = .scalar then 0 else if r.kind = .na then 3 else 2) none))

/-- LSETUP (R128), where its guard holds: COUNT, PASS, HEAD and STAGES of its loop; for S > 1 the other loops become
single-stage, STAGEOWN names the loop, and p56 to p63 are set up. `stages` is the field S − 1. LEND (R129), where no debug stop is set at its loop (R441): one more pass; a single-stage loop goes round while COUNT
exceeds 1; a pipelined one rotates p56 to p63 and goes round while one of its stage predicates is set. -/
def Obligations.HardwareLoops : Prop :=
  (∀ (g loop stages a : Nat) (s : State) (r : Raw), (Instr.lsetup g loop stages a).raw = some r → s.canIssue → s.passes r →
     s.core.holds g = true → ∃ t, exec (.lsetup g loop stages a) s = .next t
       ∧ t.core.loop loop = { count := (s.core.rS a).setWidth 32, pass := 0, head := s.nextPc, stages := BitVec.ofNat 3 stages }
       ∧ (∀ m, m < 4 → m ≠ loop → t.core.loop m = if stages = 0 then s.core.loop m else { s.core.loop m with stages := 0 })
       ∧ t.core.stageOwn = (if stages = 0 then s.core.stageOwn else BitVec.ofNat 3 (4 + loop))
       ∧ t.core.pc = s.nextPc ∧ (∀ n, t.core.rS n = s.core.endPos.rS n)
       ∧ (∀ n, n < 56 → t.core.rP n = s.core.endPos.rP n)
       ∧ (∀ n, 56 ≤ n → n < 64 → t.core.rP n
           = (if stages = 0 then s.core.endPos.rP n else n == 56 && decide (0 < (s.core.rS a).toNat % 2 ^ 32)))
       ∧ SameOutside s t ∧ SameRecords s t s.sel ∧ SameMemory s t)
  ∧ (∀ (loop off : Nat) (s : State) (r : Raw), (Instr.lend loop off).raw = some r → s.canIssue → s.passes r →
     s.me.bps.all (fun b => !tbit b 63) = true → s.me.dbgctl.getLsbD 2 = false → ∃ t, exec (.lend loop off) s = .next t
       ∧ (t.core.loop loop).pass = (s.core.loop loop).pass + 1
       ∧ (t.core.loop loop).count = (s.core.loop loop).count - (if (s.core.loop loop).count = 0 then 0 else 1)
       ∧ (t.core.loop loop).head = (s.core.loop loop).head ∧ (t.core.loop loop).stages = (s.core.loop loop).stages
       ∧ (∀ m, m < 4 → m ≠ loop → t.core.loop m = s.core.loop m)
       ∧ (∀ n, t.core.rS n = s.core.endPos.rS n) ∧ (∀ n, n < 56 → t.core.rP n = s.core.endPos.rP n)
       ∧ ((s.core.loop loop).stages = 0 → (∀ n, n < 64 → t.core.rP n = s.core.endPos.rP n)
           ∧ t.core.pc = if 1 < (s.core.loop loop).count.toNat then s.pcPlus off 18 else s.nextPc)
       ∧ ((s.core.loop loop).stages ≠ 0 →
           t.core.rP 56 = decide (1 < (s.core.loop loop).count.toNat)
           ∧ (∀ n, 57 ≤ n → n < 64 → t.core.rP n = s.core.rP (n - 1))
           ∧ t.core.pc = if (List.range ((s.core.loop loop).stages.toNat + 1)).any (fun k => t.core.rP (56 + k))
               then s.pcPlus off 18 else s.nextPc)
       ∧ SameMemory s t ∧ SameRecords s t s.sel)

/-- TRAP (R127): the word's slots take effect, then SWTRAP is raised: XPC is the next word, XCAUSE holds 0x3F, XINFO the
code, and the context goes on at its trap vector with HACT set. A TRAP while HACT = 1 leaves the context FROZEN and is reported to the host (R431). -/
def Obligations.TrapEnters : Prop :=
  ∀ (code : Nat) (s : State) (r : Raw), (Instr.trap code).raw = some r → s.canIssue → s.passes r →
    (s.me.hact = false → ∃ t, exec (.trap code) s = .next t
      ∧ s.traps t (s.wordDone r (fun x => x.issued []) s.nextPc).me 0x3F 0x00 3 s.nextPc (some code))
    ∧ (s.me.hact = true → exec (.trap code) s = .next ((s.wordDone r (fun x => x.issued []) s.nextPc).updRec s.sel
        (fun x => { x with life := .frozen .dead })
        |> fun t => { t with reports := s.reports ++ [.handler s.sel] }))

/-- RFT in a handler, with no die fault held back (R430): HACT and RV are cleared and the context goes on at XPC. Where
RV is set and XPC stands as the entry left it, the RCNT repetitions still due of bundle RIDX are broadcast first. A die fault held while the handler ran is taken at RFT instead of the resume (R431): one with rollback freezes the
context until its dies stand at the mark. -/
def Obligations.ReturnFromTrap : Prop :=
  (∀ (s : State) (r : Raw), Instr.rft.raw = some r → s.canIssue → s.passes r → s.me.hact = true → s.me.heldF = none → s.me.nextF = none →
     ∃ t, exec .rft s = .next t
       ∧ t.me.hact = false ∧ t.me.rv = false ∧ t.me.rcnt = 0 ∧ t.me.diesStop = false ∧ t.me.life = .ready
       ∧ t.core = { s.core.endPos with pc := s.me.xpc, inn := t.core.inn }
       ∧ t.core.inn = s.core.inn + (if s.me.rv ∧ !s.me.xpcWritten then BitVec.ofNat 48 s.me.rcnt else 0)
       ∧ ((s.me.rv = false ∨ s.me.xpcWritten = true ∨ s.me.rcnt = 0) → ∀ d, (t.dctx s.sel d).frames = (s.dctx s.sel d).frames)
       ∧ (s.me.rv = true → s.me.xpcWritten = false → 0 < s.me.rcnt → s.sentDown t [s.bundleItem s.me.ridx none s.me.rcnt])
       ∧ SameMemory s t ∧ SameRecords s t s.sel)
  ∧ (∀ (s : State) (r : Raw) (f : Flag), Instr.rft.raw = some r → s.canIssue → s.passes r → s.me.hact = true → s.me.heldF = some f →
     (f.noRollback = false → ∃ t, exec .rft s = .next t ∧ t.me.life = .frozen (.rollback f) ∧ t.me.heldF = none
       ∧ t.me.hact = false ∧ t.me.rv = false ∧ ∀ d, (t.dctx s.sel d).frames = (s.dctx s.sel d).frames)
     ∧ (f.noRollback = true → ∃ t, exec .rft s = .next t ∧ t.me.heldF = none ∧ t.me.hact = true ∧ t.core.pc = s.me.xvec
       ∧ t.me.xpc = s.me.xpc ∧ t.me.xin = f.ein ∧ t.me.diesStop = true
       ∧ t.me.xcause = BitVec.ofNat 32 (f.code % 256 + f.detail % 256 * 2 ^ 8 + (if f.die = 0xFF ∧ f.code ≠ 0x20 then 2 else 4) * 2 ^ 16 + f.die % 256 * 2 ^ 24)))

/-- HALT (R125, R85): the results in flight land, the context enters HALTED with the next PC recorded and no result in
flight. IDLE m (R125): the context waits, the next PC recorded, until mailbox m of its record holds a message; where it holds
one at the end of the word, the context goes on, an acquire (R322). The context neither records nor replays (R359, R439). -/
def Obligations.HaltAndIdle : Prop :=
  (∀ (s : State) (r : Raw), Instr.halt.raw = some r → s.canIssue → s.passes r → (∀ f ∈ s.core.fly, f.rest < 24) →
     ∃ t, exec .halt s = .next t
       ∧ t = (s.wordDone r (fun x => x.issued []) s.nextPc).updRec s.sel (fun x => { x with life := .halted, core := t.core })
       ∧ t.core.fly = [] ∧ t.core.pc = s.nextPc ∧ t.core.inn = s.core.inn
       ∧ (∀ n, t.core.rS n = (Nat.repeat SeqCore.endPos 24 s.core).rS n ∧ t.core.rP n = (Nat.repeat SeqCore.endPos 24 s.core).rP n))
  ∧ (∀ (m : Nat) (s : State) (r : Raw), (Instr.idle m).raw = some r → s.canIssue → s.passes r →
     ((s.mbx.getD s.sel 0).getLsbD m = false → exec (.idle m) s
       = .next ((s.wordDone r (fun x => x.issued []) s.nextPc).updRec s.sel (fun x => { x with life := .waiting (.idle m) })))
     ∧ ((s.mbx.getD s.sel 0).getLsbD m = true → s.noLog → ∃ t, exec (.idle m) s = .next t ∧ SameMemory s t
       ∧ t = { s.wordDone r (fun x => x.issued []) s.nextPc with mem := t.mem, poison := t.poison, pts := t.pts }))

/-! ## Broadcasts, reductions, long-latency operations of the sequencer -/

namespace Sys2Proof.Machine

/-- The lists of units of the package have the lengths of the part (R1, R17, R342, R353, R358, R460). -/
def Shape (s : State) : Prop :=
  s.recs.length = 17 ∧ s.dies.length = 32 ∧ s.armq.length = 8 ∧ s.armRun.length = 8 ∧ s.mbx.length = 16
  ∧ s.qslots.length = 32 ∧ s.pods.length = 8

/-- What a word that enters an operation or broadcasts leaves of the sequencer registers: results `ws` have issued and the position has ended,
the destination `dest` of the operation holds its old value (R109), the PC is `npc`. -/
def State.wordLeaves (s t : State) (r : Raw) (ws : List Write) (dest : Option RegId) (npc : BitVec 18) : Prop :=
  t.core = { s.core with s := t.core.s, p := t.core.p, h := t.core.h, pend := t.core.pend, fly := t.core.fly, pc := npc, inn := t.core.inn
                         sstat := if readsPending s.core r then wbit s.core.sstat 0 true else s.core.sstat }
  ∧ t.me.wordcnt = s.me.wordcnt + 1 ∧ t.me.life = .ready
  ∧ (∀ n, dest ≠ some (.s n) → t.core.rS n = s.core.endPos.rS n)
  ∧ (∀ n, dest ≠ some (.h n) → t.core.rH n = s.core.endPos.rH n)
  ∧ (∀ n, (∀ w ∈ ws, w.reg ≠ .p n) → t.core.rP n = s.core.endPos.rP n)
  ∧ (∀ n, dest = some (.s n) → t.core.rS n = s.core.rS n)
  ∧ (∀ n, dest = some (.h n) → t.core.rH n = s.core.rH n)
  ∧ SameRecords s t s.sel

/-- Die d of a context stands at a barrier. -/
def Rec.standsAtBar (r : Rec) (d : Nat) : Bool := match (r.die d).hold with | some (.bar ..) => true | _ => false

/-- Operation q has entered and holds its destination pending (R81, R395). -/
def State.opEntered (s t : State) (q : Req) : Prop :=
  q ∈ t.me.reqs ∧ q.id = s.nextId ∧ t.nextId = s.nextId + 1
  ∧ ∀ d, q.dest = some d → 0 ∈ pendUnits d t.core.pend ∧ 0 ∈ pendLive q.id d t.core.pend

/-- The word's mark, at the end of the bundle before it (R373, R422), is in the restart-mark map and on its way to every
die, with `fs` after it. -/
def State.effectMarked (s t : State) (fs : List Frame) : Prop :=
  (∃ m : MarkEntry, t.me.marks = s.me.marks.filter (fun x => !(x.kind && x.first == s.core.inn - 1)) ++ [m]
    ∧ m.kind = true ∧ m.first = s.core.inn - 1 ∧ m.count = 1 ∧ m.wpc = s.core.pc ∧ m.npc = s.nextPc)
  ∧ s.sentDown t (.mark (s.core.inn - 1) :: fs)

/-- An operation of the sequencer as its word enters it. -/
def State.seqOp (s : State) (ord : Ord) (sc : Scope) (ts : Nat) (dest : Option RegId) (body : Body) : Req :=
  { id := s.nextId, org := none, ein := s.core.inn, pc := s.core.pc, slot := 2, tok := some ts, ord := ord, sc := sc, dest := dest
    body := body, stage := .out, gated := false, flags := 0, again := false }

/-- The same for an effect on other agents: held until the field has committed its mark (R426). -/
def State.heldOp (s : State) (ord : Ord) (sc : Scope) (ts : Nat) (dest : Option RegId) (body : Body) : Req :=
  { s.seqOp ord sc ts dest body with gated := true, stage := if 0 ≤ inDiff s.me.cf (s.core.inn - 1) then .out else .held }

/-- The word of an instruction executed alone. -/
def State.senv (s : State) : SeqEnv := { c := s.sel, rc := s.me, lit := false }

/-- The checks of an access of n bytes at va (R235), with the operation's effect. -/
def State.seqPart (s : State) (va : Word) (n : Nat) (kind : AccKind) (op : AccOp) (v : Nat) : Except FInfo (State × Body) :=
  (s.seqTarget s.senv va.toNat n kind).map (fun p => (p.1, onePart p.2 n op v))

/-- What R228's table, the permission bits and the rules of the MMIO pages say of a coherent access or an atomic of a word at a page whose entry is w: the
code and detail of steps 5 to 7 of R235. -/
def seqPageFault (k : AccKind) (n : Nat) (w : Word) (t : Target) : Option (Nat × Nat) :=
  let atomic := k = .atomic true ∨ k = .atomic false
  if t.cls = clsWEIGHT ∧ k ≠ .cohLoad then some (0x12, 3)
  else if atomic ∧ t.cls ≠ clsDRAM ∧ t.cls ≠ clsSRAMT ∧ ¬ (t.cls = clsHOST ∧ k = .atomic true) then some (0x11, 3)
  else if t.cls = clsPEER ∨ t.cls = clsHEAP ∨ (t.cls = clsMMIO ∧ n ≠ 4 ∧ n ≠ 8) then some (0x11, 3)
  else if (k ≠ .cohStore ∧ w.getLsbD 2 = false) ∨ (k ≠ .cohLoad ∧ w.getLsbD 3 = false) then some (0x11, 1)
  else if t.cls = clsMMIO ∧ mmioRefused (k = .cohStore) (t.key % 2 ^ 48) n then some (0x11, 1)
  else none

/-- The checks of a reference access of n bytes (R281, R302), with the operation's effect. -/
def State.seqRefPart (s : State) (h off n : Nat) (write : Bool) (v : Nat) : Except FInfo (State × Body) :=
  (s.seqRef s.senv h (s.core.rS off).toNat n write).map (fun p => (p.1, onePart p.2 n (if write then .store else .load) v))

/-- The MEM loads: order, scope, token, destination, checks and effect (R269, R302). -/
def seqLoad (s : State) : Instr → Option (Ord × Scope × Nat × RegId × Except FInfo (State × Body))
  | .ldgB ord sc ts d a => some (ord, sc, ts, .s d, s.seqPart (s.core.rS a) 1 .cohLoad .load 0)
  | .ldgH ord sc ts d a => some (ord, sc, ts, .s d, s.seqPart (s.core.rS a) 2 .cohLoad .load 0)
  | .ldgW ord sc ts d a => some (ord, sc, ts, .s d, s.seqPart (s.core.rS a) 4 .cohLoad .load 0)
  | .ldgD ord sc ts d a => some (ord, sc, ts, .s d, s.seqPart (s.core.rS a) 8 .cohLoad .load 0)
  | .memLdref ord sc ts d h h2 => some (ord, sc, ts, .h h2, s.seqRefPart h d 8 false 0)
  | .memLdr ord sc ts d e2 h => some (ord, sc, ts, .s d, s.seqRefPart h d (2 ^ e2) false 0)
  | _ => none

/-- PIN and UNPIN at issue (R494). -/
def State.pinPart (s : State) (h : Nat) (b : Body) : Except FInfo (State × Body) :=
  match s.refIssueFault s.me.pasid.toNat (s.core.rH h).toNat with
  | some f => .error f
  | none => .ok (s, b)

/-- The MEM operations whose effect is held: stores, atomics, FENCE but FENCE.ACQ, reference stores, PIN, UNPIN, JRAISE
and JDONE (R269 to R271, R302, R409). -/
def seqHeld (s : State) : Instr → Option (Ord × Scope × Nat × Option RegId × Except FInfo (State × Body))
  | .stgB ord sc ts d a => some (ord, sc, ts, none, s.seqPart (s.core.rS a) 1 .cohStore .store (s.core.rS d).toNat)
  | .stgH ord sc ts d a => some (ord, sc, ts, none, s.seqPart (s.core.rS a) 2 .cohStore .store (s.core.rS d).toNat)
  | .stgW ord sc ts d a => some (ord, sc, ts, none, s.seqPart (s.core.rS a) 4 .cohStore .store (s.core.rS d).toNat)
  | .stgD ord sc ts d a => some (ord, sc, ts, none, s.seqPart (s.core.rS a) 8 .cohStore .store (s.core.rS d).toNat)
  | .afadd ord sc ts d e2 a => some (ord, sc, ts, some (.s d), s.seqPart (s.core.rS a) (2 ^ e2) (.atomic true) (.rmw .add) (s.core.rS d).toNat)
  | .amin ord sc ts d e2 a => some (ord, sc, ts, some (.s d), s.seqPart (s.core.rS a) (2 ^ e2) (.atomic false) (.rmw .min) (s.core.rS d).toNat)
  | .amax ord sc ts d e2 a => some (ord, sc, ts, some (.s d), s.seqPart (s.core.rS a) (2 ^ e2) (.atomic false) (.rmw .max) (s.core.rS d).toNat)
  | .aand ord sc ts d e2 a => some (ord, sc, ts, some (.s d), s.seqPart (s.core.rS a) (2 ^ e2) (.atomic false) (.rmw .and) (s.core.rS d).toNat)
  | .aor ord sc ts d e2 a => some (ord, sc, ts, some (.s d), s.seqPart (s.core.rS a) (2 ^ e2) (.atomic false) (.rmw .or) (s.core.rS d).toNat)
  | .axor ord sc ts d e2 a => some (ord, sc, ts, some (.s d), s.seqPart (s.core.rS a) (2 ^ e2) (.atomic false) (.rmw .xor) (s.core.rS d).toNat)
  | .aswap ord sc ts d e2 a => some (ord, sc, ts, some (.s d), s.seqPart (s.core.rS a) (2 ^ e2) (.atomic true) (.rmw .swap) (s.core.rS d).toNat)
  | .acas ord sc ts d e2 a => some (ord, sc, ts, some (.s d), s.seqPart (s.core.rS a) (2 ^ e2) (.atomic true)
      (.rmw (.cas (s.core.rS (d + 1)).toNat)) (s.core.rS d).toNat)
  | .amaxf ord sc ts d a => some (ord, sc, ts, some (.s d), s.seqPart (s.core.rS a) 4 (.atomic false) (.rmw .amaxf) (s.core.rS d).toNat)
  | .memAmaxrr ord sc ts d a => some (ord, sc, ts, some (.s d), s.seqPart (s.core.rS a) 4 (.atomic false) (.rmw .amaxrr) 0)
  | .memFence ord sc ts => if ord = .acquire then none else some (ord, sc, ts, none, .ok (s, .fence false))
  | .memStref ord sc ts d h h2 => some (ord, sc, ts, none, s.seqRefPart h d 8 true (s.core.rH h2).toNat)
  | .memStr ord sc ts d e2 h => some (ord, sc, ts, none, s.seqRefPart h d (2 ^ e2) true (s.core.rS (d + 1)).toNat)
  | .memPin ord sc ts d h => some (ord, sc, ts, some (.s d), s.pinPart h (.pin (s.core.rH h)))
  | .memUnpin ord sc ts h => some (ord, sc, ts, none, s.pinPart h (.unpin (s.core.rH h)))
  | .memJraise ord sc ts d a => some (ord, sc, ts, none, s.seqPart (s.core.rS a) 16 (.atomic false) (.rmw .jraise) (s.core.rS d).toNat)
  | .memJdone ord sc ts a => some (ord, sc, ts, none, s.seqPart (s.core.rS a) 16 (.atomic false) (.rmw .jdone) 0)
  | _ => none

/-- What an ENG word of a class other than ENQ holds: class, descriptor, token, acquire, release, scope, predicate. -/
def engForm : Instr → Option (Nat × Nat × Nat × Bool × Bool × Scope × Nat)
  | .engCpy desc ts acq rel sc bp => some (0, desc, ts, acq, rel, sc, bp)
  | .engInstall desc ts acq rel sc bp => some (1, desc, ts, acq, rel, sc, bp)
  | .engReloc desc ts acq rel sc bp => some (2, desc, ts, acq, rel, sc, bp)
  | .mbxsend desc ts acq rel sc bp => some (3, desc, ts, acq, rel, sc, bp)
  | .podsend desc ts acq rel sc bp => some (5, desc, ts, acq, rel, sc, bp)
  | .ctxstart desc ts acq rel sc bp => some (6, desc, ts, acq, rel, sc, bp)
  | .ctxstartRestore desc ts acq rel sc bp => some (6, desc, ts, acq, rel, sc, bp)
  | .ctxstartGo desc ts acq rel sc bp => some (6, desc, ts, acq, rel, sc, bp)
  | .ctxsave desc ts acq rel sc bp => some (7, desc, ts, acq, rel, sc, bp)
  | _ => none

/-- Command m of the selected context as it enters its queue. -/
def State.queued (s : State) (sc : Scope) (m : Cmd) : QCmd :=
  { c := s.sel, req := s.nextId, org := none, pasid := s.me.pasid.toNat, home := s.me.field.origin, sc := sc, cmd := m
    prog := 0, code := 0, page := false, ended := false, lost := false, no := 0 }

/-- Command m has been accepted (R57): it stands last in its queue, its operation is held, bp reads false. -/
def State.accepted (s t : State) (r : Raw) (cls ts : Nat) (sc : Scope) (bp : Nat) (m : Cmd) : Prop :=
  t.armq.getD cls [] = s.armq.getD cls [] ++ [s.queued sc m] ∧ (∀ k, k ≠ cls → t.armq.getD k [] = s.armq.getD k [])
  ∧ s.opEntered t (s.heldOp .relaxed sc ts none (.cmd m)) ∧ t.core.rP bp = (bp == 0)
  ∧ s.wordLeaves t r (one (.p bp) 0 1) none s.nextPc ∧ s.effectMarked t [] ∧ t.core.inn = s.core.inn ∧ t.mem = s.mem

/-- A command has been refused (R57): no queue and no operation has changed, bp reads true, no token is posted. -/
def State.turnedAway (s t : State) (r : Raw) (bp : Nat) : Prop :=
  t.armq = s.armq ∧ t.nextId = s.nextId ∧ t.me.reqs.map Req.id = s.me.reqs.map Req.id ∧ t.core.rP bp = true ∧ t.core.ts = s.core.ts
  ∧ s.wordLeaves t r (one (.p bp) 1 1) none s.nextPc ∧ s.effectMarked t [] ∧ t.core.inn = s.core.inn ∧ t.mem = s.mem

end Sys2Proof.Machine

/-- BCAST (R7, R8, R29, R329, R373): one item with the word's IN and masks goes down to every die of the field, IN advances by the
repetitions, and a mark bundle enters the restart-mark map with its shadow. LIT (R50, R330): the three words after it are the literal, which goes down as one bundle; the next word is PC + 4, and
the literal's frames keep other broadcasts from the tree. -/
def Obligations.BcastSends : Prop :=
  (∀ (rep idx : Nat) (s : State) (r : Raw), (Instr.bcast rep idx).raw = some r → s.canIssue → s.passes r → s.litBusy = 0 →
     s.me.credit s.clk = true → (idx < s.me.dictSize ∨ idx = 0xFFFE) →
     tokenUse (s.me.bundleBits idx none) &&& ~~~(s.core.tokmask.extractLsb' 16 32) = 0 →
     ∃ t, exec (.bcast rep idx) s = .next t ∧ s.wordLeaves t r [] none s.nextPc
       ∧ t.core.inn = s.core.inn + BitVec.ofNat 48 (rep + 1) ∧ s.sentDown t [s.bundleItem idx none (rep + 1)]
       ∧ t.me.sent = s.me.sent ++ [(s.clk, 1)] ∧ t.me.reqs = s.me.reqs ∧ t.nextId = s.nextId ∧ t.mem = s.mem
       ∧ (markBit (s.me.bundleBits idx none) = false → t.me.marks = s.me.marks)
       ∧ (markBit (s.me.bundleBits idx none) = true → ∃ m, t.me.marks = s.me.marks ++ [m] ∧ m.wpc = s.core.pc ∧ m.npc = s.nextPc
           ∧ m.idx = idx ∧ m.count = rep + 1 ∧ m.kind = false ∧ m.first = s.core.inn ∧ m.shd = t.core))
  ∧ (∀ (s : State) (r : Raw), Instr.lit.raw = some r → s.canIssue → s.passes r → s.litBusy = 0 → s.me.credit s.clk = true →
     tokenUse (s.literalAt s.core.pc) &&& ~~~(s.core.tokmask.extractLsb' 16 32) = 0 →
     ∃ t, exec .lit s = .next t ∧ s.wordLeaves t r [] none (s.core.pc + 4)
       ∧ t.core.inn = s.core.inn + 1 ∧ s.sentDown t [s.bundleItem 0xFFFF (some (s.literalAt s.core.pc)) 1]
       ∧ t.me.sent = s.me.sent ++ [(s.clk, 1)] ∧ 0 < t.litBusy ∧ t.mem = s.mem
       ∧ (markBit (s.literalAt s.core.pc) = false → t.me.marks = s.me.marks))

/-- A broadcast, a BCAST as a LIT, without credit leaves its context WAITING and sends nothing (R18, R29): on credit, or, while dies of it stand at
a barrier, on that barrier's release (which of the two is the model's reading, log entry 87). While a literal's frames are on the tree no broadcast
issues (R29, R50): the step cannot happen now. A bundle index outside the dictionary raises
ILLEGAL_BUNDLE (R67), a bundle or a literal that uses a token outside TOKMASK raises TOKOWN (R112), both in slot X. -/
def Obligations.BcastHeldOrFaults : Prop :=
  (∀ (i : Instr) (s : State) (r : Raw), (i = .lit ∨ ∃ rep idx, i = .bcast rep idx) → i.raw = some r → s.canIssue → r.legal = true →
    (s.me.credit s.clk = false → 
      exec i s = .next (s.setRec s.sel { s.me with life := .waiting (if s.me.field.dies.any s.me.standsAtBar then .bar else .credit) }))
    ∧ (s.me.credit s.clk = true → 0 < s.litBusy → ∃ why, exec i s = .refused (.notEnabled why)))
  ∧ (∀ (rep idx : Nat) (s : State) (r : Raw), (Instr.bcast rep idx).raw = some r → s.canIssue → r.legal = true → s.litBusy = 0 →
    s.me.credit s.clk = true →
    (s.me.dictSize ≤ idx → idx ≠ 0xFFFE → s.faultsWith (exec (.bcast rep idx) s) 0x02 0x00 2 none)
    ∧ ((idx < s.me.dictSize ∨ idx = 0xFFFE) →
        tokenUse (s.me.bundleBits idx none) &&& ~~~(s.core.tokmask.extractLsb' 16 32) ≠ 0 →
        s.faultsWith (exec (.bcast rep idx) s) 0x04 0x00 2 none))
  ∧ (∀ (s : State) (r : Raw), Instr.lit.raw = some r → s.canIssue → r.legal = true → s.litBusy = 0 → s.me.credit s.clk = true →
    tokenUse (s.literalAt s.core.pc) &&& ~~~(s.core.tokmask.extractLsb' 16 32) ≠ 0 → s.faultsWith (exec .lit s) 0x04 0x00 2 none)

/-- RED (R332, R333, R335): the request goes down the tree after the word's mark, samples the dies of the field whose DIEMASK
bit is set, and holds the destination pending; a group that is busy raises GRPBUSY with the group as detail. -/
def Obligations.ReductionStarts : Prop :=
  ∀ (grp op ty dc ts d : Nat) (s : State) (r : Raw), (Instr.red grp op ty dc ts d).raw = some r → s.canIssue → s.passes r →
    (grp ∉ s.me.redBusy → ∃ t, exec (.red grp op ty dc ts d) s = .next t
      ∧ s.opEntered t (s.seqOp .relaxed .device ts (some (.s d)) (.red grp op ty dc s.core.inn
          (s.me.field.dies.filter (fun x => s.core.diemask.getLsbD x)) [] []))
      ∧ s.wordLeaves t r [] (some (.s d)) s.nextPc ∧ s.effectMarked t [.red s.nextId]
      ∧ t.me.redBusy = s.me.redBusy ++ [grp] ∧ t.core.inn = s.core.inn ∧ t.mem = s.mem)
    ∧ (grp ∈ s.me.redBusy → s.faultsWith (exec (.red grp op ty dc ts d) s) 0x05 grp 2 none)

/-- The MEM operations with an effect on other agents: the operation is held until the mark of its word has committed (R426),
with its destination pending where it has one; its mark is entered and sent. Nothing is stored yet. -/
def Obligations.SeqEffectsAreHeld : Prop :=
  ∀ (i : Instr) (s s' : State) (r : Raw) (ord : Ord) (sc : Scope) (ts : Nat) (dest : Option RegId) (b : Body), i.raw = some r →
    seqHeld s i = some (ord, sc, ts, dest, .ok (s', b)) → s.canIssue → s.passes r →
    ∃ t, exec i s = .next t ∧ s.opEntered t (s.heldOp ord sc ts dest b) ∧ s.wordLeaves t r [] dest s.nextPc
      ∧ s.effectMarked t [] ∧ t.core.inn = s.core.inn ∧ t.mem = s'.mem ∧ t.dies = s'.dies

/-- The MEM loads (R109, R269, R302): an access that passes its checks enters as an operation whose result will land in the
destination; only the translations the checks made change memory, and no mark is sent. FENCE.ACQ of the sequencer (R271) exposes nothing: it enters without a mark. -/
def Obligations.SeqLoadsEnter : Prop :=
  (∀ (i : Instr) (s s' : State) (r : Raw) (ord : Ord) (sc : Scope) (ts : Nat) (dest : RegId) (b : Body), i.raw = some r →
     seqLoad s i = some (ord, sc, ts, dest, .ok (s', b)) → s.canIssue → s.passes r →
     ∃ t, exec i s = .next t ∧ s.opEntered t (s.seqOp ord sc ts (some dest) b) ∧ s.wordLeaves t r [] (some dest) s.nextPc
       ∧ t.me.marks = s.me.marks ∧ s.sentDown t [] ∧ t.core.inn = s.core.inn ∧ t.mem = s'.mem ∧ t.dies = s'.dies)
  ∧ (∀ (sc : Scope) (ts : Nat) (s : State) (r : Raw), (Instr.memFence .acquire sc ts).raw = some r → s.canIssue → s.passes r →
     ∃ t, exec (.memFence .acquire sc ts) s = .next t ∧ s.opEntered t (s.seqOp .acquire sc ts none (.fence false))
       ∧ s.wordLeaves t r [] none s.nextPc ∧ t.me.marks = s.me.marks ∧ s.sentDown t [] ∧ t.mem = s.mem)

/-- A MEM word whose access fails a check (R235, R268): a fault other than PAGE is precise, with the code, detail and value of the check in
slot X; a PAGE fault freezes the context until its page request is answered (R437), which a context that records annotates (R439).
The checks of a coherent access or an atomic are those of R235, the first failing step deciding: bits [63:52], the cell control page, alignment, the
walk (that of the origin die's TLB stands), a refused HOST page, then class (R228), RD and W, and the offsets of an MMIO page; an access that passes them
all reaches its page. That bits [63:52] go before the control page is the model's reading (log entry 61). -/
def Obligations.SeqAccessFaults : Prop :=
  (∀ (s : State) (va n : Nat) (k : AccKind), s.sel < 16 → 0 < n → k ∈ [AccKind.cohLoad, .cohStore, .atomic true, .atomic false] →
    let o := s.seqTarget s.senv va n k
    let pas := s.me.pasid.toNat
    let tlb := s.tlbFind s.me.field.origin pas va
    (2 ^ 52 ≤ va → o = .error (0x11, 4, va))
    ∧ (0xFFFFFFFFF0000 ≤ va → va < 2 ^ 52 → o = .error (0x11, 5, va))
    ∧ (va < 0xFFFFFFFFF0000 → va % n ≠ 0 → o = .error (0x11, 0, va))
    ∧ (va < 0xFFFFFFFFF0000 → va % n = 0 →
        (∀ lev, tlb = none → (s.walkReads (s.sel, none) (s.walkKeys pas va)).2 = true → s.walk pas va = .error lev → o = .error (0x10, lev, va))
        ∧ (∀ e, tlb = some e → let t := pageTarget pas va e.word e.level
            (t.cls = clsHOST → s.ats.contains (pas, va / 2 ^ 16) = false → Config.atsRefuses s.clk pas (va / 2 ^ 16) = true → o = .error (0x10, 4, va))
            ∧ ((t.cls = clsHOST → s.ats.contains (pas, va / 2 ^ 16) = true) →
                (∀ code det, seqPageFault k n e.word t = some (code, det) → o = .error (code, det, va))
                ∧ (seqPageFault k n e.word t = none → o = .ok (s, t))))))
  ∧ ∀ (i : Instr) (s : State) (r : Raw) (f : FInfo), i.raw = some r →
    ((∃ ord sc ts dest, seqLoad s i = some (ord, sc, ts, dest, .error f)) ∨ ∃ ord sc ts dest, seqHeld s i = some (ord, sc, ts, dest, .error f)) →
    s.canIssue → s.passes r →
    (f.1 ≠ 0x10 → s.faultsWith (exec i s) (f.1 % 256) (f.2.1 % 256) 2 (if f.2.2 = noInfo then none else some f.2.2))
    ∧ (f.1 = 0x10 → exec i s = .next (s.setRec s.sel { s.me.note (.page s.core.inn 0xFF) with life := .frozen (.page
        { code := 0x10, detail := f.2.1, info := f.2.2, ein := s.core.inn, at_ := s.core.inn, noRollback := false, die := 0xFF
          xpc := s.core.pc } true) }))

/-- The ENG words but ENQ (R56, R57, R342): a command enters a queue that has room at issue, and is refused where the queue is
full; either way the word is over. -/
def Obligations.EngineCommands : Prop :=
  ∀ (i : Instr) (s : State) (r : Raw) (cls desc ts : Nat) (acq rel : Bool) (sc : Scope) (bp : Nat), i.raw = some r →
    engForm i = some (cls, desc, ts, acq, rel, sc, bp) → Shape s → s.canIssue → s.passes r →
    ((s.armq.getD cls []).length < 16 → ∃ t, exec i s = .next t ∧ s.accepted t r cls ts sc bp
      { cls := cls, e := s.core.desc desc, items := [], acq := acq, rel := rel })
    ∧ (16 ≤ (s.armq.getD cls []).length → ∃ t, exec i s = .next t ∧ s.turnedAway t r bp)

/-- ENQ (R355, R357): accepted, it takes RNEXT of its queue slot and one reserved index, and keeps the header address and the ring size of the
slot as they stand (that it keeps these two is the model's choice, log entry 80: R355 and R357 say it of neither); refused where the Armature queue is full, no slot maps
the queue (which records a kick) or no index is reserved. The context neither records nor replays. -/
def Obligations.EnqTakesAnIndex : Prop :=
  ∀ (desc ts : Nat) (acq rel : Bool) (sc : Scope) (bp : Nat) (s : State) (r : Raw), (Instr.enq desc ts acq rel sc bp).raw = some r →
    Shape s → s.canIssue → s.passes r → s.noLog →
    let qid := ((s.core.desc desc).headD 0).toNat % 2 ^ 16
    let full := 16 ≤ (s.armq.getD 4 []).length
    (∀ k, s.slotOf s.me.pasid.toNat qid = some k → ¬ full → bitsOf (s.qslots.getD k .reset).qa 41 4 ≠ 0 →
      ∃ t, exec (.enq desc ts acq rel sc bp) s = .next t
        ∧ s.accepted t r 4 ts sc bp { cls := 4, e := s.core.desc desc, acq := false, rel := rel
                                      items := [(bitsOf (s.qslots.getD k .reset).qb 6 46 * 64, bitsOf (s.qslots.getD k .reset).qc 0 32,
                                                 bitsOf (s.qslots.getD k .reset).qb 0 5)] }
        ∧ bitsOf (t.qslots.getD k .reset).qa 41 4 = bitsOf (s.qslots.getD k .reset).qa 41 4 - 1
        ∧ bitsOf (t.qslots.getD k .reset).qc 0 32 = (bitsOf (s.qslots.getD k .reset).qc 0 32 + 1) % 2 ^ 32
        ∧ bitsOf (t.qslots.getD k .reset).qc 32 32 = bitsOf (s.qslots.getD k .reset).qc 32 32
        ∧ ∀ j, j ≠ k → t.qslots.getD j .reset = s.qslots.getD j .reset)
    ∧ (∀ k, s.slotOf s.me.pasid.toNat qid = some k → (full ∨ bitsOf (s.qslots.getD k .reset).qa 41 4 = 0) →
      ∃ t, exec (.enq desc ts acq rel sc bp) s = .next t ∧ s.turnedAway t r bp ∧ t.qslots = s.qslots ∧ t.kickFifo = s.kickFifo)
    ∧ (s.slotOf s.me.pasid.toNat qid = none →
      ∃ t, exec (.enq desc ts acq rel sc bp) s = .next t ∧ s.turnedAway t r bp ∧ t.qslots = s.qslots
        ∧ t.kickFifo = (s.kick s.me.pasid.toNat qid).kickFifo ∧ t.kickOver = (s.kick s.me.pasid.toNat qid).kickOver)

/-! ## The cells: results -/

namespace Sys2Proof.Machine

/-- Element j of lane i of v(n), read by the signedness of the type, and read unsigned (R145). -/
def el (ty : Ty) (q : CellCore) (n i j : Nat) : Int := elemVal (tySigned ty) ty.width (elem ty.width j (q.rV n i))
def eu (ty : Ty) (q : CellCore) (n i j : Nat) : Nat := elem ty.width j (q.rV n i)

/-- The element-wise integer operations: type, destination, element j of lane i before it is cut to the width (R150, R151). -/
def elemForm : Instr → Option (Ty × Nat × Nat × (CellCore → Nat → Nat → Int))
  | .vadd _ ty d a b => some (ty, d, 2, fun q i j => el ty q a i j + el ty q b i j)
  | .vsub _ ty d a b => some (ty, d, 2, fun q i j => el ty q a i j - el ty q b i j)
  | .vmullo _ ty d a b => some (ty, d, 3, fun q i j => el ty q a i j * el ty q b i j)
  | .vmulhi _ ty d a b => some (ty, d, 3, fun q i j => el ty q a i j * el ty q b i j / 2 ^ ty.width)
  | .vmin _ ty d a b => some (ty, d, 2, fun q i j => min (el ty q a i j) (el ty q b i j))
  | .vmax _ ty d a b => some (ty, d, 2, fun q i j => max (el ty q a i j) (el ty q b i j))
  | .vabsd _ ty d a b => some (ty, d, 2, fun q i j => ((el ty q a i j - el ty q b i j).natAbs : Int))
  | .vaddsat _ ty d a b => some (ty, d, 2, fun q i j => max (tyMin ty) (min (tyMax ty) (el ty q a i j + el ty q b i j)))
  | .vshl _ ty d a b => some (ty, d, 2, fun q i j => if eu ty q b i j < ty.width then ((eu ty q a i j * 2 ^ eu ty q b i j : Nat) : Int) else 0)
  | .vshr _ ty d a b => some (ty, d, 2, fun q i j => if eu ty q b i j < ty.width then ((eu ty q a i j / 2 ^ eu ty q b i j : Nat) : Int) else 0)
  | .vsar _ ty d a b => some (ty, d, 2, fun q i j => sext (eu ty q a i j) ty.width / 2 ^ min (eu ty q b i j) (ty.width - 1))
  | .vshli _ ty d a n => some (ty, d, 2, fun q i j => ((eu ty q a i j * 2 ^ n : Nat) : Int))
  | .vpopc _ ty d a => some (ty, d, 2, fun q i j => ((List.range ty.width).countP (fun b => (eu ty q a i j).testBit b) : Int))
  | .vclz _ ty d a => some (ty, d, 2, fun q i j => ((ty.width - bitLen (eu ty q a i j) : Nat) : Int))
  | _ => none

/-- The vector results by whole lanes: destination, latency, value and flags of lane i (R149, R152 to R159, R182 to R190, R177). -/
def laneForm : Instr → Option (Nat × Nat × (CellCore → Nat → Nat × Nat))
  | .vmov _ d a => some (d, 2, fun q i => ((q.rV a i).toNat, 0))
  | .vmovi _ ty d imm20 => some (d, 2, fun _ _ => (match ty with
      | .n32 => imm20 % 2 ^ 20
      | .f32 => imm20 % 2 ^ 20 * 2 ^ 12
      | _ => (BitVec.ofInt 32 (sext imm20 20)).toNat, 0))
  | .vbcst _ d a => some (d, 2, fun q _ => ((q.rX a).toNat % 2 ^ 32, 0))
  | .vlane _ d => some (d, 2, fun _ i => (i, 0))
  | .vand _ d a b => some (d, 2, fun q i => ((q.rV a i &&& q.rV b i).toNat, 0))
  | .vor _ d a b => some (d, 2, fun q i => ((q.rV a i ||| q.rV b i).toNat, 0))
  | .vxor _ d a b => some (d, 2, fun q i => ((q.rV a i ^^^ q.rV b i).toNat, 0))
  | .vandn _ d a b => some (d, 2, fun q i => ((q.rV a i &&& ~~~(q.rV b i)).toNat, 0))
  | .vsel _ d a b m => some (d, 2, fun q i => ((if (q.rK m).getLsbD i then q.rV a i else q.rV b i).toNat, 0))
  | .vshf _ d a b => some (d, 3, fun q i => ((q.rV a ((q.rV b i).toNat % 64)).toNat, 0))
  | .vrot _ d a n => some (d, 2, fun q i => ((q.rV a ((i + n) % 64)).toNat, 0))
  | .vfadd _ rm d a b => some (d, 4, fun q i => rnd (q.mode rm) (addExact (q.mode rm) (f32Val (q.rV a i).toNat) (f32Val (q.rV b i).toNat)))
  | .vfsub _ rm d a b => some (d, 4, fun q i => rnd (q.mode rm) (addExact (q.mode rm) (f32Val (q.rV a i).toNat) (f32Val (q.rV b i).toNat).negate))
  | .vfmul _ rm d a b => some (d, 4, fun q i => rnd (q.mode rm) (mulExact (f32Val (q.rV a i).toNat) (f32Val (q.rV b i).toNat)))
  | .vfma _ rm d a b c => some (d, 4, fun q i => rnd (q.mode rm)
      (fmaExact (q.mode rm) false (f32Val (q.rV a i).toNat) (f32Val (q.rV b i).toNat) (f32Val (q.rV c i).toNat)))
  | .vfms _ rm d a b c => some (d, 4, fun q i => rnd (q.mode rm)
      (fmaExact (q.mode rm) false (f32Val (q.rV a i).toNat) (f32Val (q.rV b i).toNat) (f32Val (q.rV c i).toNat).negate))
  | .vfnma _ rm d a b c => some (d, 4, fun q i => rnd (q.mode rm)
      (fmaExact (q.mode rm) true (f32Val (q.rV a i).toNat) (f32Val (q.rV b i).toNat) (f32Val (q.rV c i).toNat)))
  | .vfmin _ d a b => some (d, 4, fun q i => f32MinMax false (q.rV a i).toNat (q.rV b i).toNat)
  | .vfmax _ d a b => some (d, 4, fun q i => f32MinMax true (q.rV a i).toNat (q.rV b i).toNat)
  | .vfabs _ d a => some (d, 2, fun q i => ((q.rV a i &&& 0x7FFFFFFF).toNat, 0))
  | .vfneg _ d a => some (d, 2, fun q i => ((q.rV a i ^^^ 0x80000000).toNat, 0))
  | .vfdiv _ rm d a b => some (d, 14, fun q i => rnd (q.mode rm) (divExact (f32Val (q.rV a i).toNat) (f32Val (q.rV b i).toNat)))
  | .vfsqrt _ rm d a => some (d, 14, fun q i => rnd (q.mode rm) (sqrtExact (f32Val (q.rV a i).toNat)))
  | .vfrsqrt _ rm d a => some (d, 10, fun q i => rnd (q.mode rm) (rsqrtExact (f32Val (q.rV a i).toNat)))
  | .vfexp2 _ rm d a => some (d, 10, fun q i => rnd (q.mode rm) (exp2Exact (f32Val (q.rV a i).toNat)))
  | .vflog2 _ rm d a => some (d, 10, fun q i => rnd (q.mode rm) (log2Exact (f32Val (q.rV a i).toNat)))
  | .vfclass _ d a => some (d, 2, fun q i => (f32Class (q.rV a i).toNat, 0))
  | .vcvtF32I32 _ rm d a => some (d, 3, fun q i => roundFloat 24 (q.mode rm) (q.rb i) (finOf (q.rV a i).toInt 0 false))
  | .vcvtI32F32 _ rm d a => some (d, 3, fun q i =>
      let y := roundSigned 32 (q.mode rm) (q.rb i) (f32Val (q.rV a i).toNat)
      ((BitVec.ofInt 32 y.1).toNat, y.2))
  | .vcvtBf16F32 _ rm d a => some (d, 3, fun q i =>
      let y := roundFloat 8 (q.mode rm) (q.rb i) (f32Val (q.rV a i).toNat)
      (y.1 * 2 ^ 16, y.2))
  | .vcvtF32Bf16 _ d a => some (d, 3, fun q i =>
      let w := ((q.rV a i) &&& 0xFFFF0000).toNat
      if (f32Val w).isSnan then (qNaN, fNV) else (w, 0))
  | .vcvtF32I8 _ j d a => some (d, 3, fun q i => roundF32 .rne (finOf (sext ((q.rV a i).toNat / 2 ^ (8 * j)) 8) 0 false))
  | .vcvtI8F32 _ rm j d a => some (d, 3, fun q i =>
      let y := roundSigned 8 (q.mode rm) (q.rb i) (f32Val (q.rV a i).toNat)
      (laneOf 8 4 (fun k => if k = j then (BitVec.ofInt 8 y.1).toNat else (q.rV d i).toNat / 2 ^ (8 * k)), y.2))
  | .vscale _ rm d a b => some (d, 3, fun q i => roundF32 (q.mode rm) (match f32Val (q.rV a i).toNat with
      | .fin s m e => .fin s m (e + max (-600) (min 600 (q.rV b i).toInt))
      | x => x))
  | .dqbfp _ bs mb d a b => some (d, 4, fun q i =>
      let E := (q.rV b (i / blockSize bs * blockSize bs)).toNat % 256
      if E = 0xFF then (qNaN, 0) else roundF32 .rne (finOf (sext (q.rV a i).toNat mb) ((E : Int) - 127) false))
  | .vrng _ d => some (d, 2, fun q i => (q.rb i, 0))
  | _ => none

/-- All elements of lane i compare so. -/
def allElems (ty : Ty) (f : Nat → Bool) : Bool := (List.range (32 / ty.width)).all f

/-- An F32 compare's flag: invalid for a NaN, or for a signalling one only where the compare is quiet (R154). -/
def cmpFlag (quiet : Bool) (x y : Nat) : Nat :=
  if (if quiet then (f32Val x).isSnan || (f32Val y).isSnan else (f32Val x).isNan || (f32Val y).isNan) then 1 else 0

/-- The lane-mask results: destination, latency, bit and flags of lane i (R154, R163, R164). -/
def maskForm : Instr → Option (Nat × Nat × (CellCore → Nat → Bool × Nat))
  | .vcmpEq _ ty a b m => some (m, 2, fun q i => (allElems ty (fun j => eu ty q a i j == eu ty q b i j), 0))
  | .vcmpNe _ ty a b m => some (m, 2, fun q i => (allElems ty (fun j => eu ty q a i j != eu ty q b i j), 0))
  | .vcmpLt _ ty a b m => some (m, 2, fun q i => (allElems ty (fun j => decide (sext (eu ty q a i j) ty.width < sext (eu ty q b i j) ty.width)), 0))
  | .vcmpLe _ ty a b m => some (m, 2, fun q i => (allElems ty (fun j => decide (sext (eu ty q a i j) ty.width ≤ sext (eu ty q b i j) ty.width)), 0))
  | .vcmpLtu _ ty a b m => some (m, 2, fun q i => (allElems ty (fun j => decide (eu ty q a i j < eu ty q b i j)), 0))
  | .vcmpLeu _ ty a b m => some (m, 2, fun q i => (allElems ty (fun j => decide (eu ty q a i j ≤ eu ty q b i j)), 0))
  | .vfcmpEq _ a b m => some (m, 2, fun q i => (f32Eq (q.rV a i).toNat (q.rV b i).toNat, cmpFlag true (q.rV a i).toNat (q.rV b i).toNat))
  | .vfcmpLt _ a b m => some (m, 2, fun q i => (f32Lt (q.rV a i).toNat (q.rV b i).toNat, cmpFlag false (q.rV a i).toNat (q.rV b i).toNat))
  | .vfcmpLe _ a b m => some (m, 2, fun q i => (f32Lt (q.rV a i).toNat (q.rV b i).toNat || f32Eq (q.rV a i).toNat (q.rV b i).toNat,
      cmpFlag false (q.rV a i).toNat (q.rV b i).toNat))
  | .vfcmpUn _ a b m => some (m, 2, fun q i => ((f32Val (q.rV a i).toNat).isNan || (f32Val (q.rV b i).toNat).isNan,
      cmpFlag true (q.rV a i).toNat (q.rV b i).toNat))
  | .xcmp _ cc a b m => some (m, 1, fun q _ => (match cc with
      | .eq => decide (q.rX a = q.rX b)
      | .ne => decide (q.rX a ≠ q.rX b)
      | .lt => decide ((q.rX a).toInt < (q.rX b).toInt)
      | .le => decide ((q.rX a).toInt ≤ (q.rX b).toInt)
      | .ltu => decide ((q.rX a).toNat < (q.rX b).toNat)
      | .leu => decide ((q.rX a).toNat ≤ (q.rX b).toNat), 0))
  | .kand _ d a b => some (d, 1, fun q i => ((q.rK a).getLsbD i && (q.rK b).getLsbD i, 0))
  | .kor _ d a b => some (d, 1, fun q i => ((q.rK a).getLsbD i || (q.rK b).getLsbD i, 0))
  | .kxor _ d a b => some (d, 1, fun q i => ((q.rK a).getLsbD i ^^ (q.rK b).getLsbD i, 0))
  | .kandn _ d a b => some (d, 1, fun q i => ((q.rK a).getLsbD i && !(q.rK b).getLsbD i, 0))
  | .knot _ d a => some (d, 1, fun q i => (!(q.rK a).getLsbD i, 0))
  | .kmov _ d a => some (d, 1, fun q i => ((q.rK a).getLsbD i, 0))
  | .kset _ d hi lo => some (d, 1, fun _ i => (decide (lo ≤ i) && decide (i ≤ hi), 0))
  | .kfromx _ d a => some (d, 1, fun q i => ((q.rX a).getLsbD i, 0))
  | _ => none

/-- The cell-scalar results: destination, latency, value and flags, given the active lanes (R160 to R164). -/
def scalarForm : Instr → Option (Nat × Nat × (CellCore → List Nat → Nat × Nat))
  | .vrsumF32 _ rm d a => some (d, 10, fun q lanes => treeSum (q.mode rm) 6
      ((List.range 64).map (fun i => if i ∈ lanes then (q.rV a i).toNat else 0x80000000)))
  | .vrmaxF32 _ d a => some (d, 6, fun q lanes => f32Largest (lanes.map (fun i => (q.rV a i).toNat)))
  | .vramax _ d a => some (d, 6, fun q lanes => f32Largest (lanes.map (fun i => (q.rV a i &&& 0x7FFFFFFF).toNat)))
  | .vrsumI _ ty d a => some (d, 6, fun q lanes =>
      ((BitVec.ofInt 64 ((lanes.map (fun i => elemVal (tySigned ty) 32 (q.rV a i).toNat)).sum)).toNat, 0))
  | .vrmaxI _ ty d a => some (d, 6, fun q lanes =>
      let xs := lanes.map (fun i => elemVal (tySigned ty) 32 (q.rV a i).toNat)
      ((BitVec.ofInt 64 (xs.foldl max (xs.headD 0))).toNat, 0))
  | .xmov _ d a => some (d, 1, fun q _ => ((q.rX a).toNat, 0))
  | .xmovi _ d imm20 => some (d, 1, fun _ _ => ((BitVec.ofInt 64 (sext imm20 20)).toNat, 0))
  | .xadd _ d a b => some (d, 1, fun q _ => (((q.rX a).toNat + (q.rX b).toNat) % 2 ^ 64, 0))
  | .xsub _ d a b => some (d, 1, fun q _ => (((q.rX a).toNat + (2 ^ 64 - (q.rX b).toNat)) % 2 ^ 64, 0))
  | .xmul _ d a b => some (d, 3, fun q _ => ((q.rX a).toNat * (q.rX b).toNat % 2 ^ 64, 0))
  | .xand _ d a b => some (d, 1, fun q _ => ((q.rX a &&& q.rX b).toNat, 0))
  | .cellXor _ d a b => some (d, 1, fun q _ => ((q.rX a ^^^ q.rX b).toNat, 0))
  | .xshl _ d a b => some (d, 1, fun q _ => ((q.rX a).toNat * 2 ^ ((q.rX b).toNat % 64) % 2 ^ 64, 0))
  | .xshr _ d a b => some (d, 1, fun q _ => ((q.rX a).toNat / 2 ^ ((q.rX b).toNat % 64), 0))
  | .xfromv _ d a lane => some (d, 2, fun q _ => ((q.rV a lane).toNat, 0))
  | .xtok _ d a => some (d, 1, fun q _ => ((q.rK a).toNat, 0))
  | .ktox _ d a => some (d, 1, fun q _ => ((q.rK a).toNat, 0))
  | .kpopc _ d a => some (d, 1, fun q _ => (popcount 64 (q.rK a).toNat, 0))
  | .reftag _ d a => some (d, 2, fun q _ => ((q.rH a).toNat, 0))
  | _ => none

/-- One result of a slot in a cell: a register, the values of its units, its latency, its flags. -/
def CellEnv.result (e : CellEnv) (reg : RegId) (vals : List (Nat × Nat)) (lat flags : Nat) : Write :=
  { reg := reg, vals := vals, lat := lat, flags := flags, ein := e.ein.toNat }

/-- Every instruction of the cells that only writes fixed-latency results: what it writes in a cell with active lanes. -/
def cellWrites (i : Instr) : Option (CellEnv → List Write) :=
  match elemForm i, laneForm i, maskForm i, scalarForm i with
  | some (ty, d, lat, f), _, _, _ => some (fun e => [e.result (.v d)
      (e.lanes.map (fun l => (l, laneOf ty.width (32 / ty.width) (fun j => (f e.q l j % 2 ^ ty.width).toNat)))) lat 0])
  | _, some (d, lat, f), _, _ => some (fun e => [e.result (.v d) (e.lanes.map (fun l => (l, (f e.q l).1))) lat
      ((e.lanes.map (fun l => (f e.q l).2)).foldl (· ||| ·) 0)])
  | _, _, some (d, lat, f), _ => some (fun e => [e.result (.k d) (e.lanes.map (fun l => (l, if (f e.q l).1 then 1 else 0))) lat
      ((e.lanes.map (fun l => (f e.q l).2)).foldl (· ||| ·) 0)])
  | _, _, _, some (d, lat, f) => some (fun e => [e.result (.x d) [(0, (f e.q e.lanes).1)] lat (f e.q e.lanes).2])
  | _, _, _, _ =>
    match i with
    | .vcoord _ d which => some (fun e => [e.result (.v d) (e.lanes.map (fun l => (l, match which with
        | 0 => e.d % 8 | 1 => e.d / 8 | 2 => e.l % 16 | 3 => e.l / 16 | _ => l))) 2 0])
    | .vsplit3 _ d a => some (fun e =>
        let t := fun l => split3 (e.q.rV a l).toNat
        [e.result (.v d) (e.lanes.map (fun l => (l, (t l).1.1))) 4 ((e.lanes.map (fun l => (t l).2)).foldl (· ||| ·) 0),
         e.result (.v (d + 1)) (e.lanes.map (fun l => (l, (t l).1.2.1))) 4 0,
         e.result (.v (d + 2)) (e.lanes.map (fun l => (l, (t l).1.2.2))) 4 0])
    | .vamaxb _ bs d a => some (fun e =>
        let m := fun l => blockAmax e.q a (e.lanes.filter (fun j => j / blockSize bs == l / blockSize bs))
        [e.result (.v d) (e.lanes.map (fun l => (l, (m l).1))) 6 ((e.lanes.map (fun l => (m l).2)).foldl (· ||| ·) 0)])
    | .qbfp _ rm bs mb d a => some (fun e =>
        let blk := fun l => e.lanes.filter (fun j => j / blockSize bs == l / blockSize bs)
        let sc := fun l => qScale e.q a mb (blk l)
        let ms := fun l => qMant rm (e.q.rb l) mb (sc l).1 (e.q.rV a l).toNat
        let all := (List.range 64).filter (fun l => !(blk l).isEmpty)
        [e.result (.v d) (e.lanes.map (fun l => (l, (ms l).1))) 6
          ((e.lanes.map (fun l => (ms l).2)).foldl (· ||| ·) 0 ||| (if all.any (fun l => (sc l).2) then 0x200 else 0)),
         e.result (.v (d + 1)) (all.map (fun l => (l, (sc l).1))) 6 0])
    | .refmov _ d a => some (fun e => [e.result (.h d) [(0, (e.q.rH a).toNat)] 2 0])
    | _ => none

end Sys2Proof.Machine

/-- A result of latency L issued at a cell in unit u of v(n) or in x(n) is read from position p + L on and not before
(R82), where nothing older is in flight; its flags reach CST with it (R147). k0 reads all ones whatever a result writes to it (R136); a write to another mask changes the one lane. -/
def Obligations.CellResultsLand : Prop :=
  (∀ (q : CellCore) (n u v L k fl : Nat), u < 64 → 1 ≤ L → v < 2 ^ 32 → q.fly = [] →
     let a := Nat.repeat CellCore.endPos k (q.issue { reg := .v n, vals := [(u, v)], lat := L, flags := fl })
     let b := Nat.repeat CellCore.endPos k (q.issue { reg := .x n, vals := [(0, v)], lat := L, flags := fl })
     a.rV n u = (if L ≤ k then BitVec.ofNat 32 v else q.rV n u)
     ∧ (∀ m w, w < 64 → (m ≠ n ∨ w ≠ u) → a.rV m w = q.rV m w)
     ∧ b.rX n = (if L ≤ k then BitVec.ofNat 64 v else q.rX n) ∧ (∀ m, m ≠ n → b.rX m = q.rX m)
     ∧ a.cst = (if L ≤ k then q.cst ||| BitVec.ofNat 64 fl else q.cst) ∧ b.cst = a.cst)
  ∧ (∀ (q : CellCore) (n m i j : Nat) (b : Bool), i < 64 → j < 64 →
     (q.wK n i b).rK 0 = BitVec.allOnes 64
     ∧ ((q.wK n i b).rK m).getLsbD j = if m = n ∧ j = i ∧ n ≠ 0 then b else (q.rK m).getLsbD j)

/-- Every instruction of the cells whose effect is fixed-latency results: in each active cell with an active lane the
results issue, in every other active cell the position passes, and the die goes on to its next bundle; nothing else
changes. CST takes the flags where the results land (R147). Inactive cells and lanes leave their state unchanged (R7, R64): a bundle that reaches no cell changes no cell but for the position
that passes, in any slot that does nothing for the die as a whole.
XCMP's latency, the rounding of VFEXP2 and VFLOG2, and NV for an infinite element of a QBFP block are the model's readings (log entries 16, 17 and 63). -/
def Obligations.CellResults : Prop :=
  (∀ (i : Instr) (s : State) (r : Raw) (f : CellEnv → List Write), i.raw = some r → cellWrites i = some f → s.canBundle r →
     ∃ t, exec i s = .next t ∧ s.advanced t ∧ s.quiet t
       ∧ s.cellsAfter t (fun l => (s.at l).core.after (if s.lanesOf r l = [] then [] else f (s.env r l)) (s.underwaits r l) (popsEntry r)))
  ∧ (∀ (i : Instr) (s : State) (r : Raw), i.raw = some r → (r.kind = .v ∨ r.kind = .conv ∨ r.kind = .ls ∨ (r.kind = .mx ∧ r.op ≠ 8)) →
     s.canBundle r → s.myCells = [] → ∃ t, exec i s = .next t ∧ s.advanced t ∧ s.quiet t ∧ s.cellsAfter t (fun l => (s.at l).core.endPos))

/-! ## The cells: registers, waits, positions, barriers -/

namespace Sys2Proof.Machine

/-- The bundle does nothing in the cells but let the position pass (R82). -/
def State.passed (s t : State) (r : Raw) : Prop :=
  s.advanced t ∧ s.quiet t ∧ s.cellsAfter t (fun l => (s.at l).core.after [] (s.underwaits r l) false)

/-- Slot r waits at the head of the decode queue (R402): nothing but that has changed. -/
def State.waitsAtHead (s t : State) (r : Raw) (h : Hold) : Prop :=
  t = s.updDctx s.sel s.selDie (fun x => { x with hold := some h, q := { idx := litIdx, lit := some (encodeBundle (bundleOf r))
                                                                         reps := 1, inn := x.e, diemask := s.core.diemask, cellmask := s.core.cellmask
                                                                         no := s.bcastNo } :: x.q })

/-- What a die flags of a fault of its next bundle (R421). -/
def State.bundleFlag (s : State) (code detail info : Nat) (resumes : Bool) : Flag :=
  { code := code, detail := detail, info := info, ein := s.myDie.e, at_ := s.myDie.e, noRollback := resumes, die := s.selDie, xpc := 0 }

/-- The die has flagged a fault of the bundle, and no slot of it has had effect (R421). -/
def State.dieFaults (s : State) (o : Host.Outcome State Fault Refusal) (code detail info : Nat) : Prop :=
  o = .next (s.updDctx s.sel s.selDie (fun x => { x with flag := some (s.bundleFlag code detail info false) }))

end Sys2Proof.Machine

/-- ACCRD and ACCWR (R205, R206, R221): a row inside the accumulator window is read into the active lanes, with the cell's own writes
that are not committed, or written to the gated list; a row beyond it raises SHAPE with detail 2. -/
def Obligations.AccumulatorRows : Prop :=
  (∀ (g base v row : Nat) (s : State) (r : Raw), s.canBundle r → 1024 * base + 64 * row + 64 ≤ 8192 * s.me.win.acc →
    ((Instr.accrd g base v row).raw = some r → ∃ t, exec (.accrd g base v row) s = .next t ∧ s.advanced t ∧ s.quiet t
      ∧ s.cellsAfter t (fun l => (s.at l).core.after (if s.lanesOf r l = [] then [] else [(s.env r l).result (.v v)
          ((s.lanesOf r l).map (fun i => (i, ((s.at l).accSeen (1024 * base + 64 * row + i)).toNat))) 4 0]) (s.underwaits r l) false))
    ∧ ((Instr.accwr g base v row).raw = some r → ∃ t, exec (.accwr g base v row) s = .next t ∧ s.advanced t ∧ s.quiet t
      ∧ s.cellsAfter t (fun l => (s.at l).core.after (if s.lanesOf r l = [] then [] else [(s.env r l).result .acc
          ((s.lanesOf r l).map (fun i => (1024 * base + 64 * row + i, ((s.at l).core.rV v i).toNat))) 2 0]) (s.underwaits r l) false)))
  ∧ (∀ (i : Instr) (g base v row : Nat) (s : State) (r : Raw), (i = .accrd g base v row ∨ i = .accwr g base v row) → i.raw = some r →
    s.canBundle r → 8192 * s.me.win.acc < 1024 * base + 64 * row + 64 → (∃ l ∈ s.myCells, s.lanesOf r l ≠ []) →
    s.dieFaults (exec i s) 0x07 2 noInfo)

/-- The slots that change a register of the cell other than v, k, x and h at the end of the bundle: MXPROG the group table (R218), TOKADD a
token (R401), RBSEED the random-bit generator (R180). TOKRD reads a count as it stood (R401); the context neither records nor replays. -/
def Obligations.CellRegisters : Prop :=
  (∀ (g x : Nat) (s : State) (r : Raw), (Instr.mxprog g x).raw = some r → s.canBundle r → ∃ t, exec (.mxprog g x) s = .next t
    ∧ s.advanced t ∧ s.quiet t ∧ s.cellsAfter t (fun l =>
      let q := (s.at l).core.after [] (s.underwaits r l) false
      if s.lanesOf r l = [] then q else { q with gtab := (s.at l).core.rX (x + 1) ++ (s.at l).core.rX x }))
  ∧ (∀ (g tk amt : Nat) (s : State) (r : Raw), (Instr.tokadd g tk amt).raw = some r → s.canBundle r → ∃ t, exec (.tokadd g tk amt) s = .next t
    ∧ s.advanced t ∧ s.quiet t ∧ s.cellsAfter t (fun l =>
      let q := (s.at l).core.after [] (s.underwaits r l) false
      if s.lanesOf r l = [] then q else q.wTk tk (q.rTk tk + BitVec.ofNat 16 amt)))
  ∧ (∀ (a : Nat) (s : State) (r : Raw), (Instr.rbseed a).raw = some r → s.canBundle r → ∃ t, exec (.rbseed a) s = .next t
    ∧ s.advanced t ∧ s.quiet t ∧ s.cellsAfter t (fun l =>
      let q := (s.at l).core.after [] (s.underwaits r l) false
      if s.lanesOf r l = [] then q
      else q.reseed ((s.at l).core.rX a) (64 * s.me.field.fidx s.selDie + s.me.group.gidx l)))
  ∧ (∀ (g tk d : Nat) (s : State) (r : Raw), (Instr.tokrd g tk d).raw = some r → s.canBundle r → s.noLog → ∃ t, exec (.tokrd g tk d) s = .next t
    ∧ s.advanced t ∧ s.quiet t ∧ s.cellsAfter t (fun l => (s.at l).core.after (if s.lanesOf r l = [] then []
      else [(s.env r l).result (.x d) [(0, ((s.at l).core.rTk tk).toNat)] 1 0]) (s.underwaits r l) false))

/-- A token condition (t, thr) holds when the 16-bit difference, read as signed, is not negative (R393), so a count up to 2^15 − 1 above its threshold, or as
far ahead of it modulo 2^16, meets it. WAITS: a word whose condition holds issues and lowers the count of the context by the threshold; one whose condition does not hold
leaves the context WAITING and changes nothing else. WAIT: where the condition holds in every active cell the bundle issues and each active cell's count drops by
the threshold; else the die waits with the bundle at the head of its queue, and no cell has changed. -/
def Obligations.TokenCondition : Prop :=
  (∀ (count : BitVec 16) (thr : Nat), tokHolds count thr = true ↔ 0 ≤ sext ((count.toNat + (2 ^ 16 - thr % 2 ^ 16)) % 2 ^ 16) 16)
  ∧ (∀ (thr n : Nat), n < 2 ^ 15 → tokHolds (BitVec.ofNat 16 (thr + n)) thr = true)
  ∧ (∀ (thr n : Nat), n < 2 ^ 15 → tokHolds (BitVec.ofNat 16 thr) (thr + n + 1) = false)
  ∧ (∀ (ts thr : Nat) (s : State) (r : Raw), (Instr.waits ts thr).raw = some r → s.canIssue → s.passes r →
     (tokHolds (s.core.rTs ts) thr = true → ∃ t, exec (.waits ts thr) s = .next t
       ∧ t = s.wordDone r (Rec.thenCore (fun q => { q with ts := t.core.ts })) s.nextPc
       ∧ t.core.rTs ts = s.core.rTs ts - BitVec.ofNat 16 thr ∧ ∀ n, n ≠ ts → t.core.rTs n = s.core.rTs n)
     ∧ (tokHolds (s.core.rTs ts) thr = false → exec (.waits ts thr) s = .next (s.setRec s.sel { s.me with life := .waiting .waits })))
  ∧ (∀ (tk thr : Nat) (s : State) (r : Raw), (Instr.wait tk thr).raw = some r → s.canBundle r →
     ((∀ l ∈ s.myCells, tokHolds ((s.at l).core.rTk tk) thr = true) → ∃ t, exec (.wait tk thr) s = .next t ∧ s.advanced t ∧ s.quiet t
       ∧ t.myDie.hold = none ∧ s.cellsAfter t (fun l =>
         let q := (s.at l).core.after [] (s.underwaits r l) false
         q.wTk tk (q.rTk tk - BitVec.ofNat 16 thr)))
     ∧ ((∃ l ∈ s.myCells, tokHolds ((s.at l).core.rTk tk) thr = false) → ∃ t, exec (.wait tk thr) s = .next t ∧ s.waitsAtHead t r .wait))

/-- WAITF (R401 to R403): the bundle issues where the line is full in every active cell, else the die waits; a line at or beyond the
scratch size raises PROTECT with detail 0x04, an address that is no multiple of 128 detail 0x00. -/
def Obligations.WaitfHoldsTheDie : Prop :=
  ∀ (a imm : Nat) (s : State) (r : Raw), (Instr.waitf a imm).raw = some r → s.canBundle r →
     let ea := fun l => ((s.at l).core.rX a + BitVec.ofNat 64 (128 * imm)).toNat
     let size := fun l => (s.me.win.ways - (s.at l).core.cways) * 65536
     ((∀ l ∈ s.myCells, ea l < size l ∧ ea l % 128 = 0) →
       ((∀ l ∈ s.myCells, s.lineFull s.sel s.selDie l (ea l / 128) = true) → ∃ t, exec (.waitf a imm) s = .next t ∧ s.passed t r)
       ∧ ((∃ l ∈ s.myCells, s.lineFull s.sel s.selDie l (ea l / 128) = false) →
           ∃ t, exec (.waitf a imm) s = .next t ∧ s.waitsAtHead t r .waitf))
     ∧ (∀ l before rest, s.myCells = before ++ l :: rest → (∀ k ∈ before, ea k < size k ∧ ea k % 128 = 0) →
       (size l ≤ ea l → s.dieFaults (exec (.waitf a imm) s) 0x11 0x04 (ea l))
       ∧ (ea l < size l → ea l % 128 ≠ 0 → s.dieFaults (exec (.waitf a imm) s) 0x11 0x00 (ea l)))

/-- DLY, MARK and ABAR (R338, R404, R422, R427): nothing happens in the cells. A DLY of n + 1 positions leaves n to pass; a MARK leaves
the die at a mark, with the counts of R427 at 0. TRAPC (R432): a die with an acting cell flags SWTRAP with detail 1 and the code. -/
def Obligations.PositionsMarksAndEvents : Prop :=
  ((∀ (n : Nat) (s : State) (r : Raw), (Instr.dly n).raw = some r → s.canBundle r → ∃ t, exec (.dly n) s = .next t ∧ s.passed t r
     ∧ t.myDie.dly = n ∧ t.myDie.hold = none)
   ∧ (∀ (s : State) (r : Raw), Instr.mark.raw = some r → s.canBundle r → ∃ t, exec .mark s = .next t ∧ s.passed t r
     ∧ t.myDie.atMark = some s.myDie.e ∧ t.myDie.sinceMark = 0 ∧ t.myDie.sinceStores = 0 ∧ t.myDie.hold = none)
   ∧ (∀ (s : State) (r : Raw), Instr.abar.raw = some r → s.canBundle r → ∃ t, exec .abar s = .next t ∧ s.passed t r
     ∧ t.myDie.hold = none ∧ t.myDie.dly = 0 ∧ (s.myDie.e ∉ s.myDie.markAsk → t.myDie.atMark = none ∧ t.myDie.sinceMark = s.myDie.sinceMark + 1)))
  ∧ ((∀ (g code : Nat) (s : State) (r : Raw), (Instr.trapc g code).raw = some r → s.canBundle r → ∃ t, exec (.trapc g code) s = .next t
     ∧ s.passed t r
     ∧ t.myDie.fevents = s.myDie.fevents ++ (if ∃ l ∈ s.myCells, s.lanesOf r l ≠ [] then
         [s.bundleFlag 0x3F 1 code true] else [])))

/-- SETC (R433): CT 0x07, with dc, op and x at their places in the slot. In a die with an acting cell, x(a) of the acting cells, combined in ascending order by OR, AND,
a sum mod 2^64, or the unsigned maximum, goes to dc(n) at the end of the position; with no acting cell dc(n) stands. -/
def Obligations.SetcCombines : Prop :=
  (∀ r : Raw, r.legal = true → r.kind = .ct → r.op = 7 → ∃ g dc op a, r.ops = [g, dc, op, a] ∧ r.encode / 2 ^ 45 % 8 = dc
     ∧ r.encode / 2 ^ 43 % 4 = op ∧ r.encode / 2 ^ 36 % 64 = a ∧ r.encode / 2 ^ 56 % 256 = 7)
  ∧ decodeRaw .ct none 0x0700507000000000 = .ok ⟨.ct, 7, [0, 2, 2, 7]⟩
  ∧ (∀ (g dc op a : Nat) (s : State) (r : Raw), (Instr.setc g dc op a).raw = some r → s.canBundle r →
     let vals := (s.myCells.filter (fun l => !(s.lanesOf r l).isEmpty)).map (fun l => (s.at l).core.rX a)
     ∃ t, exec (.setc g dc op a) s = .next t ∧ s.passed t r
       ∧ (∀ n, n ≠ dc → mapGet 0 t.myDie.dc n = mapGet 0 s.myDie.dc n)
       ∧ (vals = [] → mapGet 0 t.myDie.dc dc = mapGet 0 s.myDie.dc dc)
       ∧ (∀ v vs, vals = v :: vs → mapGet 0 t.myDie.dc dc = vs.foldl (fun x y =>
           if op = 0 then x ||| y else if op = 1 then x &&& y else if op = 2 then x + y else if x.toNat < y.toNat then y else x) v))

/-- BAR and the phases (R336, R337, R339): a die that takes part waits after the bundle, with the cells that take part; a
FIELD barrier sends one report, or both where the die's DIEMASK bit is clear. PHASE.X opens the superstep, PHASE.C closes it. WSWAP (R224): a die whose DIEMASK bit is set swaps its weight banks once, however often a rollback executes the bundle
again; a bank whose read has not returned raises SWAPBUSY. That SWAPBUSY is raised for a WSWAP executed again after a rollback too is the model's choice (log
entry 79: R224 does not say it). -/
def Obligations.BarriersAndBanks : Prop :=
  ((∀ (sc : Scope) (s : State) (r : Raw), (Instr.bar sc).raw = some r → s.canBundle r → ∃ t, exec (.bar sc) s = .next t ∧ s.passed t r
     ∧ t.myDie.atMark = some s.myDie.e
     ∧ t.myDie.hold = (if s.core.diemask.getLsbD s.selDie then some (.bar (sc == .field) s.myCells) else none)
     ∧ t.myDie.barSeq = s.myDie.barSeq + (if sc = .field then 1 else 0)
     ∧ t.myDie.barPend = s.myDie.barPend + (if sc ≠ .field then 0 else if s.core.diemask.getLsbD s.selDie then 1 else 2))
   ∧ (∀ (s : State) (r : Raw), Instr.phaseX.raw = some r → s.canBundle r → ∃ t, exec .phaseX s = .next t ∧ s.passed t r
     ∧ t.myDie.hold = some .phase ∧ t.myDie.phaseOpen = true ∧ t.myDie.xfers = 0 ∧ t.myDie.perms = 0 ∧ t.myDie.atMark = some s.myDie.e)
   ∧ (∀ (s : State) (r : Raw), Instr.phaseC.raw = some r → s.canBundle r → ∃ t, exec .phaseC s = .next t ∧ s.passed t r
     ∧ t.myDie.hold = some .phase ∧ t.myDie.phaseOpen = false ∧ t.myDie.atMark = some s.myDie.e))
  ∧ (∀ (s : State) (r : Raw), Instr.wswap.raw = some r → s.canBundle r → Shape s → s.selDie < 32 →
     (s.core.diemask.getLsbD s.selDie = true → s.bankBusy s.selDie = true → s.dieFaults (exec .wswap s) 0x06 0 noInfo)
     ∧ ((s.core.diemask.getLsbD s.selDie = false ∨ s.bankBusy s.selDie = false) → ∃ t, exec .wswap s = .next t ∧ s.advanced t
       ∧ s.cellsAfter t (fun l => (s.at l).core.after [] (s.underwaits r l) false) ∧ t.mem = s.mem ∧ SameRecords s t s.sel
       ∧ (∀ d, (t.pdie d).absel = ((s.pdie d).absel ^^ (decide (d = s.selDie) && s.core.diemask.getLsbD d
           && !(match s.myDie.wswap with | some w => decide (inDiff s.myDie.e w ≤ 0) | none => false))))
       ∧ (s.core.diemask.getLsbD s.selDie = true → s.myDie.wswap = none → t.myDie.wswap = some s.myDie.e)))

/-! ## The cells: long-latency operations -/

namespace Sys2Proof.Machine

/-- A long-latency operation of a cell slot: its destination and the units it marks, its effect, whether it is held until
its mark commits and counts as a gated store (R426), its order and scope, the flags it raises where it lands. -/
structure CellOp where
  dest : Option RegId
  units : List Nat
  body : Body
  held : Bool
  gated : Bool
  ord : Ord := .relaxed
  sc : Scope := .device
  flags : Nat := 0

/-- The targets of accesses that pass every check of R235 with the translations the die holds. -/
def State.passing (s : State) (e : CellEnv) (as : List AccReq) : Option (List Target) :=
  match s.check e.agent e.d e.rc.pasid.toNat as with
  | .ok (s', ts) => if s' = s then some ts else none
  | .error _ => none

/-- One access that passes. -/
def State.passingOne (s : State) (e : CellEnv) (va n : Nat) (kind : AccKind) : Option Target :=
  (s.passing e [{ lane := 0, va := va, n := n, kind := kind }]).bind List.head?

/-- One access for each active lane, at x(b) + zext(v(a)[lane]). -/
def State.passingLanes (s : State) (e : CellEnv) (a b : Nat) (kind : AccKind) (op : AccOp) (v : Nat → Nat) : Option (List Part) :=
  let va := fun i => ((e.q.rX b).toNat + (e.q.rV a i).toNat) % 2 ^ 64
  (s.passing e (e.lanes.map (fun i => { lane := i, va := va i, n := 4, kind := kind }))).map (fun ts =>
    (e.lanes.zip ts).map (fun p => { lane := p.1, tgt := p.2, n := 4, op := op, val := v p.1 }))

/-- A reference access of a cell that passes the barrier and its checks: the target of each unit (R281, R299). -/
def State.passingRefs (s : State) (e : CellEnv) (h n : Nat) (write : Bool) (offs : List (Nat × Nat)) : Option (List (Nat × Target)) :=
  match s.refTargets e.agent e.d e.rc.pasid.toNat (e.q.rH h).toNat n write offs with
  | .ok (s', ts) => if s' = s then some ts else none
  | .error _ => none

/-- ea of a scalar access (R259). -/
def CellEnv.at12 (e : CellEnv) (a imm : Nat) : Nat := (e.q.rX a + BitVec.ofInt 64 (sext imm 12)).toNat

/-- A stored range meets no watchpoint of the die (R443). -/
def CellEnv.unwatched (e : CellEnv) (as : List (Nat × Nat)) : Bool := (e.watch as).isNone

/-- The operation of context c that a cell's slot enters: its place, its token, and what `CellOp` says of it. -/
def CellOp.req (o : CellOp) (d l : Nat) (ein : BitVec 48) (slot id : Nat) (tok : Option Nat) : Req :=
  { id := id, org := some (d, l), ein := ein, pc := 0, slot := slot, tok := tok, ord := o.ord, sc := o.sc, dest := o.dest, body := o.body
    stage := if o.held then .held else .out, gated := o.gated, flags := o.flags, again := false }

/-- A load without the A bit; one with it stands as it is only where the access stream has not issued it and an earlier access of the cell holds
it back (R35, R493). -/
def State.plain (s : State) (e : CellEnv) (acc : Bool) (tk : Nat) (o : CellOp) : Option CellOp :=
  if !acc || (e.dx.ahead.all (fun a => a.ein != e.ein || a.cell != e.l) && s.blocked e.c (o.req e.d e.l e.ein e.slot s.nextId (some tk))) then some o
  else none

/-- A load. -/
def loadOp (dest : RegId) (units : List Nat) (body : Body) : CellOp := { dest := dest, units := units, body := body, held := false, gated := false }
/-- A store. -/
def storeOp (body : Body) : CellOp := { dest := none, units := [], body := body, held := true, gated := true }
/-- A held operation that is no gated store. -/
def heldCellOp (dest : Option RegId) (body : Body) (sc : Scope) : CellOp :=
  { dest := dest, units := [0], body := body, held := true, gated := false, sc := sc }

/-- A scratch range that lies in the scratch ways, aligned (R238, R257). -/
def CellEnv.inScratch (e : CellEnv) (ea n : Nat) : Bool :=
  decide (ea + n ≤ (e.rc.win.ways - e.q.cways) * 65536) && decide (ea % n = 0)

/-- x(a) plus an unsigned multiple of k. -/
def CellEnv.off (e : CellEnv) (a k imm : Nat) : Nat := (e.q.rX a + BitVec.ofNat 64 (k * imm)).toNat

/-- The doublewords of STSAVE and STLOAD (R203). -/
def State.passingDesc (s : State) (e : CellEnv) (a : Nat) (kind : AccKind) : Option (List Target) :=
  if (e.q.rX a).toNat % 64 ≠ 0 then none
  else s.passing e ((List.range 8).map (fun i => { lane := i, va := (e.q.rX a).toNat + 8 * i, n := 8, kind := kind }))

/-- The operation that an LS slot enters in a cell with active lanes, where its checks pass, no watchpoint matches, and a load with the A bit
must wait its turn: for every LS instruction but those of the control page, of streams (but
STSAVE and STLOAD), FENCE and RESIZE. -/
def State.cellOp (s : State) (e : CellEnv) : Instr → Option CellOp
  | .ldx _ acc d a tk sz imm =>
    if inCtlPage (e.at12 a imm) then none
    else (s.passingOne e (e.at12 a imm) (2 ^ sz) .cohLoad).bind (fun t => s.plain e acc tk (loadOp (.x d) [0] (onePart t (2 ^ sz) .load 0)))
  | .ldxAcq _ d a _ sc sz imm =>
    (s.passingOne e (e.at12 a imm) (2 ^ sz) .cohLoad).map (fun t =>
      { loadOp (.x d) [0] (onePart t (2 ^ sz) .load 0) with ord := .acquire, sc := sc })
  | .stx _ d a _ sz imm =>
    if inCtlPage (e.at12 a imm) || !e.unwatched [(e.at12 a imm, 2 ^ sz)] then none
    else (s.passingOne e (e.at12 a imm) (2 ^ sz) .cohStore).map (fun t => storeOp (onePart t (2 ^ sz) .store (e.q.rX d).toNat))
  | .stxRel _ d a _ sc sz imm =>
    if !e.unwatched [(e.at12 a imm, 2 ^ sz)] then none
    else (s.passingOne e (e.at12 a imm) (2 ^ sz) .cohStore).map (fun t =>
      { storeOp (onePart t (2 ^ sz) .store (e.q.rX d).toNat) with ord := .release, sc := sc })
  | .ldvn _ acc d a tk imm =>
    if !e.inScratch (e.off a 256 imm) 256
      || e.lanes.any (fun i => (s.emptySeen e.c e.d e.l s.nextId).contains ((e.off a 256 imm + 4 * i) / 128)) then none
    else s.plain e acc tk (loadOp (.v d) e.lanes (.mem .scratch (e.lanes.map (fun i =>
      { lane := i, tgt := nearTarget e.c e.d e.l (e.off a 256 imm + 4 * i), n := 4, op := .load, val := 0 }))))
  | .stvn _ d a _ imm =>
    if !e.inScratch (e.off a 256 imm) 256 then none
    else some (storeOp (.mem .scratch (e.lanes.map (fun i =>
      { lane := i, tgt := nearTarget e.c e.d e.l (e.off a 256 imm + 4 * i), n := 4, op := .store, val := (e.q.rV d i).toNat }))))
  | .gather _ acc d a b tk =>
    (s.passingLanes e a b .strLoad .load (fun _ => 0)).bind (fun ps => s.plain e acc tk (loadOp (.v d) e.lanes (.mem e.gatherPath ps)))
  | .scatter _ d a b _ =>
    if !e.unwatched (e.lanes.map (fun i => (((e.q.rX b).toNat + (e.q.rV a i).toNat) % 2 ^ 64, 4))) then none
    else (s.passingLanes e a b .strStore .store (fun i => (e.q.rV d i).toNat)).map (fun ps =>
      { storeOp (.mem e.gatherPath ps) with sc := .cell })
  | .vafadd _ d a b _ sc =>
    if !e.unwatched (e.lanes.map (fun i => (((e.q.rX b).toNat + (e.q.rV a i).toNat) % 2 ^ 64, 4))) then none
    else (s.passingLanes e a b (.atomic false) (.rmw .add) (fun i => (e.q.rV d i).toNat)).map (fun ps =>
      { heldCellOp none (.mem .coherent ps) sc with units := [] })
  | .vamaxf _ d a b _ sc =>
    if !e.unwatched (e.lanes.map (fun i => (((e.q.rX b).toNat + (e.q.rV a i).toNat) % 2 ^ 64, 4))) then none
    else (s.passingLanes e a b (.atomic false) (.rmw .amaxf) (fun i => (e.q.rV d i).toNat)).map (fun ps =>
      { heldCellOp none (.mem .coherent ps) sc with units := [] })
  | .xafadd _ d a _ sc sz => atomic (2 ^ sz) true .add sc (some d) a (e.q.rX d).toNat
  | .xamax _ d a _ sc sz => atomic (2 ^ sz) false .max sc (some d) a (e.q.rX d).toNat
  | .xacas _ d a b _ sc sz => atomic (2 ^ sz) true (.cas (e.q.rX b).toNat) sc (some d) a (e.q.rX d).toNat
  | .xaswap _ d a _ sc sz => atomic (2 ^ sz) true .swap sc (some d) a (e.q.rX d).toNat
  | .lsAmaxrr _ d a _ sc => atomic 4 false .amaxrr sc (some d) a 0
  | .lsJraise _ a b _ sc => atomic 16 false .jraise sc none a (e.q.rX b).toNat
  | .lsJdone _ a _ sc => atomic 16 false .jdone sc none a 0
  | .lsLdr _ acc d a b tk sz =>
    (s.passingRefs e a (2 ^ sz) false [(0, (e.q.rX b).toNat)]).bind (fun ts =>
      s.plain e acc tk (loadOp (.x d) [0] (.mem .coherent (parts ts (2 ^ sz) .load (fun _ => 0)))))
  | .lsLdref _ acc d a b tk =>
    (s.passingRefs e a 8 false [(0, (e.q.rX b).toNat)]).bind (fun ts =>
      s.plain e acc tk (loadOp (.h d) [0] (.mem .coherent (parts ts 8 .load (fun _ => 0)))))
  | .ldrv _ acc d a b tk =>
    if (e.q.rX b).toNat % 4 ≠ 0 then none
    else (s.passingRefs e a 4 false (rows b)).bind (fun ts =>
      s.plain e acc tk (loadOp (.v d) e.lanes (.mem .coherent (parts ts 4 .load (fun _ => 0)))))
  | .lsStr _ d a b _ sz => refStore (s.passingRefs e a (2 ^ sz) true [(0, (e.q.rX b).toNat)]) (2 ^ sz) (fun _ => (e.q.rX d).toNat)
  | .lsStref _ d a b _ => refStore (s.passingRefs e a 8 true [(0, (e.q.rX b).toNat)]) 8 (fun _ => (e.q.rH d).toNat)
  | .strv _ d a b _ =>
    if (e.q.rX b).toNat % 4 ≠ 0 then none else refStore (s.passingRefs e a 4 true (rows b)) 4 (fun i => (e.q.rV d i).toNat)
  | .lsPin _ d a _ =>
    if (s.refIssueFault e.rc.pasid.toNat (e.q.rH a).toNat).isSome then none else some (heldCellOp (some (.x d)) (.pin (e.q.rH a)) .device)
  | .lsUnpin _ a _ =>
    if (s.refIssueFault e.rc.pasid.toNat (e.q.rH a).toNat).isSome then none else some (heldCellOp none (.unpin (e.q.rH a)) .device)
  | .take _ d _ imm => some (heldCellOp (some (.x d)) (.take imm) .device)
  | .sete _ a _ imm => if e.inScratch (e.off a 128 imm) 128 then some (storeOp (.fullEmpty (e.off a 128 imm / 128) false)) else none
  | .setf _ a _ imm => if e.inScratch (e.off a 128 imm) 128 then some (storeOp (.fullEmpty (e.off a 128 imm / 128) true)) else none
  | .nsflush .. => some (heldCellOp none .nsflush .device)
  | .stsave _ a st _ =>
    if e.rc.stHeld e.d e.l st || !e.unwatched [((e.q.rX a).toNat, 64)] then none
    else (s.passingDesc e a .strStore).map (fun ts => storeOp (.mem (.stream none) (ts.zipIdx.map (fun t =>
      { lane := t.2, tgt := t.1, n := 8, op := .store, val := (e.q.rSt st t.2).toNat }))))
  | .stload _ a st _ =>
    if e.rc.stHeld e.d e.l st then none
    else (s.passingDesc e a .strLoad).map (fun ts => loadOp (.st st) (List.range 8) (.stload st (ts.zipIdx.map (fun t =>
      { lane := t.2, tgt := t.1, n := 8, op := .load, val := 0 }))))
  | _ => none
where
  /-- Parts of a reference access. -/
  parts (ts : List (Nat × Target)) (n : Nat) (op : AccOp) (v : Nat → Nat) : List Part :=
    ts.map (fun t => { lane := t.1, tgt := t.2, n := n, op := op, val := v t.1 })
  /-- The offsets of LDRV and STRV, exact (R10). -/
  rows (b : Nat) : List (Nat × Nat) := e.lanes.map (fun i => (i, (e.q.rX b).toNat + 4 * i))
  /-- A reference store. -/
  refStore (o : Option (List (Nat × Target))) (n : Nat) (v : Nat → Nat) : Option CellOp :=
    o.bind (fun ts => if e.unwatched (ts.map (fun t => (t.2.va, n))) then some (storeOp (.mem .coherent (parts ts n .store v))) else none)
  /-- A scalar atomic. -/
  atomic (n : Nat) (hostOk : Bool) (f : Rmw) (sc : Scope) (dest : Option Nat) (a v : Nat) : Option CellOp :=
    if !e.unwatched [((e.q.rX a).toNat, n)] then none
    else (s.passingOne e (e.q.rX a).toNat n (.atomic hostOk)).map (fun t =>
      { heldCellOp (dest.map RegId.x) (onePart t n (.rmw f) v) sc with units := if dest.isSome then [0] else [] })

/-- The instructions that `cellOp` speaks of. -/
def isCellOp : Instr → Bool
  | .ldx .. | .ldxAcq .. | .stx .. | .stxRel .. | .ldvn .. | .stvn .. | .gather .. | .scatter .. | .vafadd .. | .vamaxf ..
  | .xafadd .. | .xamax .. | .xacas .. | .xaswap .. | .lsAmaxrr .. | .lsJraise .. | .lsJdone .. | .lsLdr .. | .lsLdref .. | .ldrv ..
  | .lsStr .. | .lsStref .. | .strv .. | .lsPin .. | .lsUnpin .. | .take .. | .sete .. | .setf .. | .nsflush .. | .stsave .. | .stload .. => true
  | _ => false

/-- Cell l has entered operation o of slot r: the operation stands among the context's with its token, its destination
is pending in the units it marks, and no other register has changed but by what was due. -/
def State.opStands (s t : State) (r : Raw) (l : Nat) (o : CellOp) : Prop :=
  ∃ q ∈ t.me.reqs, s.nextId ≤ q.id
    ∧ q = o.req s.selDie l s.myDie.e (slotNo r.kind) q.id r.tk
    ∧ (∀ d u, o.dest = some d → u ∈ o.units → (∀ f ∈ (s.at l).core.fly, f.op ≠ some q.id) →
        u ∈ pendUnits d (t.at l).core.pend ∧ u ∈ pendLive q.id d (t.at l).core.pend)

/-- The registers of cell l that slot r leaves alone, given the register and units of its destination. -/
def State.othersStand (s t : State) (l : Nat) (dest : Option RegId) (units : List Nat) : Prop :=
  let p := (s.at l).core.endPos
  let q := (t.at l).core
  (∀ n u, u < 64 → (dest = some (.v n) → u ∉ units) → q.rV n u = p.rV n u) ∧ (∀ n, q.rK n = p.rK n)
  ∧ (∀ n, dest ≠ some (.x n) → q.rX n = p.rX n) ∧ (∀ n, dest ≠ some (.h n) → q.rH n = p.rH n)
  ∧ (∀ n u, u < 8 → dest ≠ some (.st n) → q.rSt n u = p.rSt n u)
  ∧ q.tk = p.tk ∧ q.cctl = p.cctl ∧ q.gtab = p.gtab ∧ q.cways = p.cways ∧ q.mxq = p.mxq ∧ q.accw = p.accw
  ∧ (t.at l).acc = (s.at l).acc ∧ (t.at l).lines = (s.at l).lines ∧ (t.at l).empty = (s.at l).empty ∧ (t.at l).run = (s.at l).run

/-- What a bundle of operations leaves of everything but the cells it reaches and the operations of its context. -/
def State.quietOps (s t : State) : Prop :=
  s.advanced t ∧ t.mem = s.mem ∧ t.core = s.core ∧ SameRecords s t s.sel ∧ (∀ q ∈ s.me.reqs, q ∈ t.me.reqs) ∧ s.nextId ≤ t.nextId
  ∧ (∀ l, l ∉ s.myCells → t.at l = { s.at l with core := (s.at l).core.endPos })
  ∧ (∀ d l, d ≠ s.selDie → t.cell s.sel d l = s.cell s.sel d l)

/-- A slot that posts its token even where no lane is active (R64). -/
def State.postsIdle (s t : State) (r : Raw) (l : Nat) : Prop :=
  s.opStands t r l { dest := none, units := [], body := .vals [], held := false, gated := false }
  ∧ t.at l = { s.at l with core := (s.at l).core.endPos }

end Sys2Proof.Machine

/-- The memory instructions of a cell (R203, R255 to R267, R297 to R302, R407, R409): where the access of every acting cell passes its
checks, each acting cell enters its operation, each other active cell one that only posts the token (R64), and the die goes on. Loads and old values
are pending; stores, atomics and the rest are held, so memory has not changed. A load with the A bit that the access stream has issued ahead, and whose data stand (R31 to R33), gives what was read
then: the operation holds those values. One that it has not issued, and that no earlier access of the cell holds back, is performed at the execute point, and its
operation holds what is read there (R35; log entry 78: the model's reading). Both shown for LDX, in a context that neither records nor replays. -/
def Obligations.CellOperationsEnter : Prop :=
  (∀ (i : Instr) (s : State) (r : Raw) (o : Nat → CellOp), i.raw = some r → isCellOp i = true → s.canBundle r →
     (∀ l ∈ s.myCells, s.lanesOf r l ≠ [] → s.cellOp (s.env r l) i = some (o l)) →
     ∃ t, exec i s = .next t ∧ s.quietOps t ∧ t.dies = s.dies
       ∧ (∀ l ∈ s.myCells, s.lanesOf r l ≠ [] → s.opStands t r l (o l) ∧ s.othersStand t l (o l).dest (o l).units)
       ∧ (∀ l ∈ s.myCells, s.lanesOf r l = [] → s.postsIdle t r l))
  ∧ (∀ (g d a tk sz imm : Nat) (s : State) (r : Raw) (l : Nat) (x : Ahead) (t : Target), (Instr.ldx g true d a tk sz imm).raw = some r → s.canBundle r →
     s.noLog → s.myCells = [l] → s.lanesOf r l ≠ [] → inCtlPage ((s.env r l).at12 a imm) = false →
     s.passingOne (s.env r l) ((s.env r l).at12 a imm) (2 ^ sz) .cohLoad = some t →
     s.myDie.ahead.find? (fun y => decide (y.ein = s.myDie.e) && decide (y.cell = l)) = some x → x.done = true → x.fault = none →
     ∃ u, exec (.ldx g true d a tk sz imm) s = .next u ∧ s.quietOps u ∧ s.opStands u r l (loadOp (.x d) [0] (.vals x.vals)))
  ∧ (∀ (g d a tk sz imm : Nat) (s : State) (r : Raw) (l : Nat) (t : Target) (vs : List (Nat × Nat)), (Instr.ldx g true d a tk sz imm).raw = some r →
     s.canBundle r → s.noLog → s.myCells = [l] → s.lanesOf r l ≠ [] → inCtlPage ((s.env r l).at12 a imm) = false →
     s.passingOne (s.env r l) ((s.env r l).at12 a imm) (2 ^ sz) .cohLoad = some t →
     s.myDie.ahead.find? (fun y => decide (y.ein = s.myDie.e) && decide (y.cell = l)) = none →
     let q := (loadOp (.x d) [0] (onePart t (2 ^ sz) .load 0)).req s.selDie l s.myDie.e 3 s.nextId (some tk)
     s.blocked s.sel q = false → (s.readNow s.sel s.selDie l q).2 = some vs →
     ∃ u, exec (.ldx g true d a tk sz imm) s = .next u ∧ s.advanced u ∧ u.core = s.core ∧ SameRecords s u s.sel
       ∧ s.opStands u r l (loadOp (.x d) [0] (.vals vs)))

/-- The cell control page (R138 to R140): LDX reads a register as it stood, landing two positions on; STX writes CST or CCTL at the end of its
bundle, reserved bits staying 0; other offsets and sizes raise PROTECT with detail 0x05. -/
def Obligations.ControlPage : Prop :=
  (∀ (g d a tk imm : Nat) (acc : Bool) (s : State) (r : Raw) (l : Nat) (w : Word), (Instr.ldx g acc d a tk 3 imm).raw = some r → s.canBundle r →
    s.myCells = [l] → s.lanesOf r l ≠ [] → inCtlPage ((s.env r l).at12 a imm) = true →
    (s.env r l).ctlRead ((s.env r l).at12 a imm - ctlPage) = some w →
    ∃ t, exec (.ldx g acc d a tk 3 imm) s = .next t ∧ s.quietOps t ∧ (t.at l).core.rX d = (s.at l).core.rX d
      ∧ s.opStands t r l { dest := none, units := [], body := .vals [], held := false, gated := false }
      ∧ ((∀ f ∈ (s.at l).core.fly, f.op = none) → (t.at l).core.endPos.rX d = w))
  ∧ (∀ (g d a tk imm off : Nat) (s : State) (r : Raw) (l : Nat), (Instr.stx g d a tk 3 imm).raw = some r → s.canBundle r →
    s.myCells = [l] → s.lanesOf r l ≠ [] → (s.env r l).at12 a imm = ctlPage + off → (off = 0 ∨ off = 8) → s.underwaits r l = false →
    (∀ f ∈ (s.at l).core.fly, f.flags = 0) →
    ∃ t, exec (.stx g d a tk 3 imm) s = .next t ∧ s.quietOps t
      ∧ (t.at l).core.cst = (if off = 0 then (s.at l).core.rX d &&& 0x71F else (s.at l).core.cst)
      ∧ (t.at l).core.cctl = (if off = 8 then (s.at l).core.rX d &&& 0x303 else (s.at l).core.cctl))
  ∧ (∀ (i : Instr) (g d a tk sz imm : Nat) (acc : Bool) (s : State) (r : Raw) (l : Nat), i.raw = some r → s.canBundle r →
    s.myCells = [l] → s.lanesOf r l ≠ [] → inCtlPage ((s.env r l).at12 a imm) = true →
    ((i = .ldx g acc d a tk sz imm ∧ (sz ≠ 3 ∨ (s.env r l).ctlRead ((s.env r l).at12 a imm - ctlPage) = none))
      ∨ (i = .stx g d a tk sz imm ∧ (sz ≠ 3 ∨ (s.env r l).at12 a imm ≠ ctlPage ∧ (s.env r l).at12 a imm ≠ ctlPage + 8))) →
    s.dieFaults (exec i s) 0x11 0x05 ((s.env r l).at12 a imm))

/-- FENCE of a cell (R260, R316): the operation is held but for FENCE.ACQ; its acquire half is performed once the cell's earlier reads are, held or
not (R314), and leaves nothing of what streams have fetched ahead and, beyond scope CELL, no line in the cell's cache. RESIZE (R241) gives the cell its new count of cache ways at the end of the bundle. -/
def Obligations.FenceAndResize : Prop :=
  (∀ (g tk : Nat) (sc : Scope) (ord : Ord) (s : State) (r : Raw), (Instr.lsFence g tk sc ord).raw = some r → s.canBundle r →
    ∃ t, exec (.lsFence g tk sc ord) s = .next t ∧ s.quietOps t
      ∧ ∀ l ∈ s.myCells, s.lanesOf r l ≠ [] →
        s.opStands t r l { dest := none, units := [], body := .fence false, held := ord != .acquire, gated := false, ord := ord, sc := sc })
  ∧ (∀ (id c d l : Nat) (s : State) (q : Req), s.req id = some (c, q) → s.asleep = false → q.org = some (d, l) → q.body = .fence false →
    (q.ord = .acquire ∨ q.ord = .acqRel) → q.stage ≠ .performed →
    (∀ p ∈ (s.rc c).reqs, p.org = q.org → p.id < id → p.stage = .performed ∨ (p.reads = false ∧ p.acquiring = false)) →
    ∃ t, exec (.loadResultLands id) s = .next t ∧ (∀ i ∈ (t.cell c d l).items, i.vals = [] ∧ i.fault = none)
      ∧ (q.sc ≠ .cell → (t.cell c d l).lines = []) ∧ (t.cell c d l).core = (s.cell c d l).core
      ∧ ∃ x ∈ (t.rc c).reqs, x.id = id ∧ x.body = .fence true ∧ x.stage = (if q.ord = .acquire then .performed else q.stage))
  ∧ (∀ (g tk imm : Nat) (s : State) (r : Raw), (Instr.resize g tk imm).raw = some r → s.canBundle r →
    ∃ t, exec (.resize g tk imm) s = .next t ∧ s.quietOps t
      ∧ ∀ l ∈ s.myCells, s.lanesOf r l ≠ [] → (t.at l).core.cways = imm
        ∧ s.opStands t r l { dest := none, units := [], body := .resize (s.at l).core.cways imm, held := true, gated := false })

/-! ## The cells: streams, the matrix unit, transfers, engine commands -/

namespace Sys2Proof.Machine

/-- The descriptor in x(a) to x(a + 7). -/
def CellEnv.descAt (e : CellEnv) (a : Nat) : Desc := (List.range 8).map (fun i => e.q.rX (a + i))

/-- What the macro-operations hold: opcode and operand fields (R73, R207). -/
def macroForm : Instr → Option (Nat × Nat)
  | .mma _ base m n a b tk zero neg bt => some (1, tileOps base m n a b 0 tk zero neg bt 0)
  | .mmaNest _ base m n a b tk zero neg bt => some (2, tileOps base m n a b 0 tk zero neg bt 0)
  | .mmaGrp _ base m n a b tk zero neg bt gc => some (3, tileOps base m n a b 0 tk zero neg bt gc)
  | .accz _ base m n tk => some (4, tileOps base m n 0 0 0 tk false false false 0)
  | .accout _ base m n o tk => some (7, tileOps base m n 0 0 o tk false false false 0)
  | _ => none

/-- The rows of the groups of MMA.GRP overrun its tile (R217). -/
def groupsOverrun (q : CellCore) (op ops : Nat) : Bool := op == 3 && decide (tileRows ops < gtStart q.gtab (opsGroups ops))

/-- The conditions of R212 that a macro-operation of a cell can meet, by detail, with the operand rule of R210: M and n; the tile in the accumulator
window of `acc` units; direction and format; started streams with enough items left, counted from the cursors they will hold once every earlier
entry has run; formats and block sizes that match; whole steps of MMA.NEST (R216); distinct A and B. The items of groups are those of R217. -/
def shapeHolds (acc : Nat) (y : Cell) (op ops k : Nat) : Bool :=
  let q := y.core
  let M := 32 * 2 ^ fld ops 39 2
  let N := 16 * fld ops 33 6
  let A := q.desc (fld ops 29 4)
  let B := q.desc (fld ops 25 4)
  let O := q.desc (fld ops 21 4)
  let left := fun (D : Desc) (st : Nat) => dLen D - y.cursors.getD st 0
  let per := fun (D : Desc) => if 8 ≤ dFmt D ∧ dFmt D ≤ 14 then 128 / dBs D else if dFmt D = 1 then 64 else 32
  let bad := fun (D : Desc) => dStore D || !(dFmt D = 0 || dFmt D = 1 || (8 ≤ dFmt D && dFmt D ≤ 14))
  let la := left A (fld ops 29 4)
  let lb := left B (fld ops 25 4)
  let groups := fld ops 8 4 + 1
  let rows := min (((List.range groups).map (fun g => q.gtab.toNat / 2 ^ (8 * g) % 256)).sum) M
  let mul := op == 1 || op == 2 || op == 3
  match k with
  | 1 => fld ops 39 2 = 3 || fld ops 33 6 = 0
  | 2 => 8192 * acc < 1024 * fld ops 41 7 + M * N
  | 3 => mul && (bad A || bad B) || op == 7 && !(dStore O && (dFmt O = 0 || dFmt O = 1))
  | 4 => mul && (!dGo A || !dGo B) || op == 7 && (!dGo O || left O (fld ops 21 4) < M * N)
      || op == 1 && (la < M * per A || lb < N * per B)
      || op == 2 && la % (M * per A) = 0 && lb < la / (M * per A) * (N * per B)
      || op == 3 && (la < rows * per A || lb < groups * (N * per B))
  | 6 => mul && (if 8 ≤ dFmt A ∧ dFmt A ≤ 14 then !(8 ≤ dFmt B && dFmt B ≤ 14 && dBs A = dBs B && fld ops 13 1 = 1) else dFmt A ≠ dFmt B)
  | 8 => op == 2 && (la % (M * per A) ≠ 0 || la < M * per A)
  | 9 => mul && fld ops 29 4 = fld ops 25 4
  | _ => false

/-- The acting cells of slot r, ascending. -/
def State.acting (s : State) (r : Raw) : List Nat := s.myCells.filter (fun l => !(s.lanesOf r l).isEmpty)

/-- What the XF commands hold: class, descriptor, scope, acquire, release, back-pressure mask (R77). -/
def xfForm : Instr → Option (Nat × Nat × Scope × Bool × Bool × Nat)
  | .xfCpy _ xd _ sc acq rel bk => some (0, xd, sc, acq, rel, bk)
  | .xfInstall _ xd _ sc acq rel bk => some (1, xd, sc, acq, rel, bk)
  | .xfReloc _ xd _ sc acq rel bk => some (2, xd, sc, acq, rel, bk)
  | .binscat _ _ _ xd _ sc bk => some (8, xd, sc, false, false, bk)
  | _ => none

/-- The (lane, bin, item) triples of BINSCAT (R348). -/
def xfItems (e : CellEnv) : Instr → List (Nat × Nat × Nat)
  | .binscat _ d a _ _ _ _ => e.lanes.map (fun i => (i, (e.q.rV a i).toNat, (e.q.rV d i).toNat))
  | _ => []

end Sys2Proof.Machine

/-- STSET, STGET and STGO (R194, R196, R202, R203): STSET lands a legal descriptor two positions on and drops what was fetched ahead; STGET
reads the eight doublewords; STGO starts the stream at the end of the bundle, with fresh fetches (log entry 76: the model's reading for one that was
started already), and enters its operation. No macro-operation holds the stream. -/
def Obligations.StreamRegisters : Prop :=
  (∀ (g a st : Nat) (s : State) (r : Raw), (Instr.stset g a st).raw = some r → s.canBundle r →
    (∀ l ∈ s.acting r, s.me.stHeld s.selDie l st = false ∧ weightStore ((s.env r l).descAt a) = false ∧ badDesc ((s.env r l).descAt a) = false) →
    ∃ t, exec (.stset g a st) s = .next t ∧ s.advanced t ∧ s.quiet t
      ∧ ∀ l ∈ s.acting r, t.at l = { s.at l with
          items := (s.at l).items.filter (fun i => i.st != st),
          core := (s.at l).core.after [descWrite st (stsetDesc ((s.env r l).descAt a)) 2 s.myDie.e.toNat] (s.underwaits r l) false })
  ∧ (∀ (g d st : Nat) (s : State) (r : Raw), (Instr.stget g d st).raw = some r → s.canBundle r →
    (∀ l ∈ s.acting r, s.me.stHeld s.selDie l st = false) →
    ∃ t, exec (.stget g d st) s = .next t ∧ s.advanced t ∧ s.quiet t ∧ s.cellsAfter t (fun l => (s.at l).core.after
      (if s.lanesOf r l = [] then [] else (List.range 8).map (fun i =>
        (s.env r l).result (.x (d + i)) [(0, ((s.at l).core.rSt st i).toNat)] 2 0)) (s.underwaits r l) false))
  ∧ (∀ (g st tk : Nat) (s : State) (r : Raw), (Instr.stgo g st tk).raw = some r → s.canBundle r →
    (∀ l ∈ s.acting r, s.me.stHeld s.selDie l st = false ∧ dBad ((s.at l).core.desc st) = false) →
    ∃ t, exec (.stgo g st tk) s = .next t ∧ s.quietOps t ∧ ∀ l ∈ s.acting r,
      let D := (s.at l).core.desc st
      s.opStands t r l (loadOp (.st st) [] (.stgo st (dCur D)) |> fun o => { o with dest := none })
      ∧ (t.at l).items = (s.at l).items.filter (fun i => i.st != st)
      ∧ dGo ((t.at l).core.desc st) = true ∧ dCur ((t.at l).core.desc st) = dCur D ∧ dEnd ((t.at l).core.desc st) = dEnd D
      ∧ ∀ i, i < 7 → (t.at l).core.rSt st i = (s.at l).core.rSt st i)

/-- LDV and STV (R200, R256): where the checks of the stream and of its items pass, the stream advances past its items at once, in every active cell
whatever its lanes (R200; that this holds without an active lane, against R64, is log entry 74's reading), LDV holds its lanes pending for the items' values, and STV holds its stores; an item in an empty scratch line sets UW where the result
lands (R242; UWTRAP is clear). While an acquire or a release of the cell is outstanding, or an
operation whose effect the items must show (R198, R315, R316), LDV enters with its items still to be fetched (log entry 77: the model's reading of that order). -/
def Obligations.VectorTransfers : Prop :=
  (∀ (g v st tk : Nat) (acc : Bool) (s : State) (r : Raw) (l : Nat) (its : List Item), (Instr.ldv g acc v st tk).raw = some r → s.canBundle r →
    s.myCells = [l] →
    let D := (s.at l).core.desc st
    let want := transferItems D (s.lanesOf r l) false
    let empty := want.any (fun w => s.wantEmpty (s.env r l) st w.2)
    (empty = true → tbit (s.at l).core.cctl 8 = false) →
    transferFault (s.env r l) D st v false = none → s.me.acquireWaits s.selDie l s.nextId = false → s.me.releaseWaits s.selDie l s.nextId = false →
    s.itemsHeld s.sel s.selDie l D st s.nextId (want.map Prod.snd) = false →
    s.getItems s.sel s.selDie l D st s.nextId (want.map Prod.snd) = (s, its) → itemsFault D its = none →
    let vs := (want.zip its).flatMap (fun p => itemLanes D (s.lanesOf r l) p.1.1 p.2)
    ∃ t, exec (.ldv g acc v st tk) s = .next t ∧ s.quietOps t ∧ (t.at l).core.desc st = advance D (dItems D) (dfld D 7 48 8)
      ∧ s.opStands t r l { loadOp (.v v) ((vs.map Prod.fst).filter (fun u => u < 64)) (.vals vs) with flags := if empty then 0x100 else 0 })
  ∧ (∀ (g v st tk : Nat) (acc : Bool) (s : State) (r : Raw) (l : Nat) (tss : List (List Target)), (Instr.ldv g acc v st tk).raw = some r → s.canBundle r →
    s.myCells = [l] →
    let D := (s.at l).core.desc st
    let want := transferItems D (s.lanesOf r l) false
    let empty := want.any (fun w => s.wantEmpty (s.env r l) st w.2)
    (empty = true → tbit (s.at l).core.cctl 8 = false) →
    transferFault (s.env r l) D st v false = none →
    (s.me.acquireWaits s.selDie l s.nextId = true
      ∨ (s.me.releaseWaits s.selDie l s.nextId = true ∨ s.itemsHeld s.sel s.selDie l D st s.nextId (want.map Prod.snd) = true)
        ∧ ∀ i ∈ (s.at l).items, i.fault = none) →
    s.transferTargets s.sel s.selDie l D (want.map Prod.snd) = .ok (s, tss) →
    ∃ t, exec (.ldv g acc v st tk) s = .next t ∧ s.quietOps t ∧ (t.at l).core.desc st = advance D (dItems D) (dfld D 7 48 8)
      ∧ s.opStands t r l { loadOp (.v v) (((ldvUnits D (s.lanesOf r l) want).map Prod.fst).filter (fun u => u < 64)) (.ldv st D want (s.lanesOf r l)) with
          flags := if empty then 0x100 else 0 })
  ∧ (∀ (g v st tk : Nat) (s : State) (r : Raw) (l : Nat) (tss : List (List Target)), (Instr.stv g v st tk).raw = some r → s.canBundle r →
    s.myCells = [l] →
    let D := (s.at l).core.desc st
    let want := transferItems D (s.lanesOf r l) true
    transferFault (s.env r l) D st v true = none → s.transferTargets s.sel s.selDie l D (want.map Prod.snd) = .ok (s, tss) →
    (dClass D ≠ 6 → (s.env r l).unwatched (want.flatMap (fun p => itemBytes D p.2)) = true) →
    ∃ t, exec (.stv g v st tk) s = .next t ∧ s.quietOps t ∧ (t.at l).core.desc st = advance D (dItems D) (dfld D 7 48 8)
      ∧ s.opStands t r l (storeOp (.mem (dPath D) ((want.zip tss).flatMap (fun p => itemParts D p.1.2 p.2 (stvVals D (s.at l).core v p.1.1))))))

/-- The macro-operations (R207, R209, R210, R217): where the checks pass in every acting cell, each enters its matrix queue with the group table as it
stands, under the id of its held operation; nothing is computed yet. MMA.GRP whose groups overrun the tile sets GOVR. -/
def Obligations.MacroOperationsQueue : Prop :=
  ∀ (i : Instr) (s : State) (r : Raw) (op ops : Nat), i.raw = some r → macroForm i = some (op, ops) → s.canBundle r →
    (∀ l ∈ s.acting r, macroFault (s.env r l) op ops = none ∧ (groupsOverrun (s.at l).core op ops && tbit (s.at l).core.cctl 9) = false) →
    ∃ t, exec i s = .next t ∧ s.quietOps t ∧ t.dies = s.dies ∧ (∀ l ∈ s.acting r, (t.at l).acc = (s.at l).acc
      ∧ (groupsOverrun (s.at l).core op ops = true → tbit (t.at l).core.cst 10 = true)
      ∧ ∃ q ∈ t.me.reqs, s.nextId ≤ q.id ∧ q.body = .macro_ op ops [] ∧ q.tok = r.tk ∧ q.stage = .held ∧ q.org = some (s.selDie, l)
        ∧ (t.at l).core.mxq = (s.at l).core.mxq ++ [{
          ops := ops, op := op, ein := s.myDie.e, row := 0, step := 0, grp := 0,
          gt := (s.at l).core.gtab, req := q.id }])

/-- The checks of a stream instruction stop the bundle (R196, R208, R212): a stream that a macro-operation holds is SHAPE 5, an illegal
descriptor SHAPE 7, a store stream of class WEIGHT WEIGHTWR, a transfer of the wrong direction SHAPE 3, of a stream that is
not started or has ended SHAPE 4. Shown for one acting cell. A macro-operation whose tile or streams fail a check of R210 raises SHAPE, with the least
detail of R212 that holds, by the cursors as they stand where no entry is queued or running; MMA.GRP whose groups overrun the tile raises
GROUPOVR where CCTL[9] is set (R217). Shown for one acting cell.
The detail reported where several conditions fail, and WEIGHTWR before SHAPE, are the model's readings (log entries 18
and 62). -/
def Obligations.StreamAndMacroFaults : Prop :=
  (∀ (i : Instr) (g a v st tk : Nat) (acc : Bool) (s : State) (r : Raw) (l : Nat), i.raw = some r → s.canBundle r → s.myCells = [l] → s.lanesOf r l ≠ [] →
     ((i = .stset g a st ∨ i = .stget g a st ∨ i = .stgo g st tk ∨ i = .stsave g a st tk ∨ i = .stload g a st tk) →
       s.me.stHeld s.selDie l st = true → s.dieFaults (exec i s) 0x07 5 noInfo)
     ∧ (i = .stset g a st → s.me.stHeld s.selDie l st = false →
       (weightStore ((s.env r l).descAt a) = true → s.dieFaults (exec i s) 0x12 0 noInfo)
       ∧ (weightStore ((s.env r l).descAt a) = false → badDesc ((s.env r l).descAt a) = true → s.dieFaults (exec i s) 0x07 7 noInfo))
     ∧ ((i = .ldv g acc v st tk ∨ i = .stv g v st tk) → dStore ((s.at l).core.desc st) ≠ (decide (r.op = 2)) → s.dieFaults (exec i s) 0x07 3 noInfo)
     ∧ ((i = .ldv g acc v st tk ∨ i = .stv g v st tk) → dStore ((s.at l).core.desc st) = (decide (r.op = 2)) → dBfp ((s.at l).core.desc st) = false →
       (dEnd ((s.at l).core.desc st) = true ∨ dGo ((s.at l).core.desc st) = false) → s.dieFaults (exec i s) 0x07 4 noInfo))
  ∧ (∀ (i : Instr) (s : State) (r : Raw) (op ops l : Nat), i.raw = some r → macroForm i = some (op, ops) → s.canBundle r → s.myCells = [l] → s.lanesOf r l ≠ [] →
     (∀ f, macroFault (s.env r l) op ops = some f → s.dieFaults (exec i s) 0x07 f.2.1 noInfo)
     ∧ (macroFault (s.env r l) op ops = none → groupsOverrun (s.at l).core op ops = true → tbit (s.at l).core.cctl 9 = true →
         s.dieFaults (exec i s) 0x08 0 noInfo))
  ∧ (∀ (s : State) (r : Raw) (op ops l : Nat), op ∈ [1, 2, 3, 4, 7] →
     macroFault (s.env r l) op ops = ([1, 2, 3, 4, 6, 8, 9].find? (shapeHolds s.me.win.acc (s.at l) op ops)).map (fun k => (0x07, k, noInfo)))
  ∧ (∀ (y : Cell) (st : Nat), y.run = none → y.core.mxq = [] → st < 16 → y.cursors.getD st 0 = (dCur (y.core.desc st)))

/-- PERM, CSHUF, XMIT and RECV (R339 to R341): the die counts one transfer, each acting cell sends and enters the operation that will receive; XMIT
posts. The lanes of PERM and CSHUF are sent as they stood; the bytes of an XMIT are those of its scratch space once what the cell did before it
has been performed (R306). XMIT and RECV fault precisely on an address with a bit of [63:52] set, or bytes beyond the scratch space (PROTECT 4), and on an
address or a size that is not in whole lines, or a size above 65,536 (PROTECT 0); that the address goes first is the model's reading of R226 and
R235 (log entry 61). Shown for one acting cell where it faults. -/
def Obligations.TransfersSend : Prop :=
  (∀ (i : Instr) (g d a pat tk op : Nat) (s : State) (r : Raw), i.raw = some r → (i = .perm g d a pat tk ∧ op = 1 ∨ i = .cshuf g d a pat tk ∧ op = 4) →
    s.canBundle r → s.myDie.phaseOpen = true →
    ∃ t, exec i s = .next t ∧ s.quietOps t ∧ t.myDie.xfers = s.myDie.xfers + 1 ∧ t.myDie.perms = s.myDie.perms + (if op = 1 then 1 else 0)
      ∧ t.myDie.sent = s.myDie.sent ++ (s.acting r).map (fun l => {
          ein := s.myDie.e, op := op, pat := pat, ord := s.myDie.perms, cell := l, bytes := [],
          vals := (List.range 64).map (fun i => (i, ((s.at l).core.rV a i).toNat)) })
      ∧ ∀ l ∈ s.acting r, s.opStands t r l (loadOp (.v d) (s.lanesOf r l) (.xfer op pat s.myDie.perms (s.lanesOf r l) 0 0)))
  ∧ (∀ (g a b pat tk : Nat) (s : State) (r : Raw) (l : Nat), (Instr.xmit g a b pat tk).raw = some r → s.canBundle r → s.myCells = [l] → s.lanesOf r l ≠ [] →
    let ea := ((s.at l).core.rX a).toNat
    let n := ((s.at l).core.rX b).toNat
    let scratch := (s.me.win.ways - (s.at l).core.cways) * 65536
    (ea < 2 ^ 52 → ea + n ≤ scratch → ea % 128 = 0 → n % 128 = 0 → n ≤ 65536 →
      ∃ t, exec (.xmit g a b pat tk) s = .next t ∧ s.quietOps t ∧ t.myDie.xfers = s.myDie.xfers + 1
        ∧ s.opStands t r l { dest := none, units := [], body := .xfer 2 pat (s.myDie.cellOrd 2 pat l) [] ea n, held := false, gated := false }
        ∧ t.myDie.sent = s.myDie.sent ++ [{
          ein := s.myDie.e, op := 5, pat := pat, ord := s.myDie.cellOrd 2 pat l, cell := l, vals := [], bytes := [] }])
    ∧ (2 ^ 52 ≤ ea ∨ scratch < ea + n → s.dieFaults (exec (.xmit g a b pat tk) s) 0x11 0x04 ea)
    ∧ (ea < 2 ^ 52 → ea + n ≤ scratch → (ea % 128 ≠ 0 ∨ n % 128 ≠ 0 ∨ 65536 < n) → s.dieFaults (exec (.xmit g a b pat tk) s) 0x11 0x00 ea))
  ∧ (∀ (g a pat tk : Nat) (s : State) (r : Raw) (l : Nat), (Instr.recv g a pat tk).raw = some r → s.canBundle r → s.myCells = [l] → s.lanesOf r l ≠ [] →
    let ea := ((s.at l).core.rX a).toNat
    (ea < 2 ^ 52 → ea % 128 = 0 → ∃ t, exec (.recv g a pat tk) s = .next t ∧ s.quietOps t ∧ t.myDie.xfers = s.myDie.xfers + 1
      ∧ t.myDie.sent.length = s.myDie.sent.length + 1
      ∧ s.opStands t r l { dest := none, units := [], held := true, gated := false
                           body := .xfer 3 pat (s.myDie.cellOrd 3 pat l) [] ea ((s.me.win.ways - (s.at l).core.cways) * 65536) })
    ∧ (2 ^ 52 ≤ ea → s.dieFaults (exec (.recv g a pat tk) s) 0x11 0x04 ea)
    ∧ (ea < 2 ^ 52 → ea % 128 ≠ 0 → s.dieFaults (exec (.recv g a pat tk) s) 0x11 0x00 ea))

/-- The engine commands of a cell (R77, R342): accepted, the command stands last in its engine's queue under the id of its held operation and the
lanes' back-pressure bits read false; refused by a full queue, no operation is entered and they read true. Shown for one acting cell. -/
def Obligations.CellCommands : Prop :=
  ∀ (i : Instr) (s : State) (r : Raw) (cls xd bk l : Nat) (sc : Scope) (acq rel : Bool), i.raw = some r → xfForm i = some (cls, xd, sc, acq, rel, bk) →
    Shape s → s.selDie < 32 → s.canBundle r → s.myCells = [l] → s.lanesOf r l ≠ [] →
    let m : Cmd := { cls := cls, e := (List.range 8).map (fun k => (s.at l).core.rX (8 * xd + k)), items := xfItems (s.env r l) i, acq := acq, rel := rel }
    let x := if cls = 1 then 5 else if cls = 2 then 4 else l % 4
    let queue := fun (u : State) => ((u.pdie s.selDie).engine x).queue
    ((queue s).length < 32 → ∃ t, exec i s = .next t ∧ s.quietOps t ∧ (∀ k ∈ s.lanesOf r l, ((t.at l).core.rK bk).getLsbD k = (bk == 0))
      ∧ s.opStands t r l { dest := none, units := [], body := .cmd m, held := true, gated := false, sc := sc }
      ∧ (queue t).length = (queue s).length + 1 ∧ ∃ q ∈ t.me.reqs, q.body = .cmd m ∧ s.nextId ≤ q.id ∧ (queue t).getLast? = some
          {
            c := s.sel, req := q.id, org := some (s.selDie, l), pasid := s.me.pasid.toNat, home := s.selDie, sc := sc, cmd := m, prog := 0, code := 0,
            page := false, ended := false, lost := false, no := s.cmdNo })
    ∧ (32 ≤ (queue s).length → ∃ t, exec i s = .next t ∧ s.quietOps t ∧ (∀ k ∈ s.lanesOf r l, ((t.at l).core.rK bk).getLsbD k = true)
      ∧ t.me.reqs = s.me.reqs ∧ t.nextId = s.nextId ∧ queue t = queue s)

/-! ## Events: issue, waits, frames -/

namespace Sys2Proof.Machine

/-- Context c is ready in the cycle whose refreshed state is t (R36): resident and READY, and no literal occupies the frame where its word broadcasts. -/
def State.rdy (t : State) (c : Nat) : Prop :=
  c < 16 ∧ (t.rc c).slot.isSome = true ∧ (t.rc c).life = .ready ∧ ¬ (broadcasts (t.nextX c) = true ∧ 0 < t.litBusy)

/-- The order of R37 between two contexts, by the wait counts that stood before the cycle: effective priority, then wait count, then residency slot. -/
def State.goesBefore (s : State) (a b : Nat) : Prop :=
  let eff := fun c => if (s.rc c).waitCnt = 4096 then 0 else (s.rc c).core.prio.toNat
  let slot := fun c => (s.rc c).slot.getD 0
  eff a < eff b ∨ (eff a = eff b ∧ ((s.rc b).waitCnt < (s.rc a).waitCnt ∨ ((s.rc a).waitCnt = (s.rc b).waitCnt ∧ slot a < slot b)))

/-- The credit of R29 at a cycle. -/
def Rec.mayBroadcast (r : Rec) (clk : Nat) : Prop :=
  r.occ + ((r.sent.filter (fun p => decide (clk ≤ p.1 + 71 ∧ p.1 < clk))).map Prod.snd).sum < 256 * r.win.q - 64

/-- mergeable of R38, case by case. -/
def State.merges (s : State) (a b : Nat) : Prop :=
  let x := s.nextX a
  let y := s.nextX b
  (broadcasts x = false ∧ broadcasts y = false)
  ∨ (broadcasts x = true ∧ x.op ≠ 2 ∧ broadcasts y = false) ∨ (broadcasts x = false ∧ broadcasts y = true ∧ y.op ≠ 2)
  ∨ (broadcasts x = true ∧ broadcasts y = true ∧ x.op ≠ 2 ∧ y.op ≠ 2
      ∧ ((∀ d ∈ (s.rc a).field.dies, d ∉ (s.rc b).field.dies)
        ∨ slotsUsed ((s.rc a).bundleBits (x.ops.getD 1 0) none) &&& slotsUsed ((s.rc b).bundleBits (y.ops.getD 1 0) none) = 0))

end Sys2Proof.Machine

/-- The steps that issue words. WORD_ISSUE (R41, R42, R43): a word of zeros goes on to the next, an undecodable one traps in its first
illegal slot (NA first, then S0, S1, X: the model's reading, log entry 54). MERGE_CYCLE (R26, R36 to R38): the clock advances, no register changes; a
context that its WAITS, the credit of R29 or a barrier holds is READY exactly when its WAITS condition and its credit let its word go; the frames that are 36 cycles old come next, and
then the words of the first ready context in the order of R37 and of the first after it that merges with it, if there is one; a context that issues has wait count 0, one
that is ready and does not issue one more, up to 4,096, any other its old one.
WAITS_SATISFIED, IDLE_RESUME (R125, R401): the context goes on. OCCUPANCY_REPORT (R29). FIXED_LATENCY_LAND (R82, R85): a position ends.
When a cycle samples the occupancy is the model's choice (log entry 66). -/
def Obligations.IssueSteps : Prop :=
  (∀ (s : State), s.canIssue →
    (∀ r, Instr.seq.raw = some r → s.wordBits s.sel = 0 →
      exec (.wordIssue s.sel) s = .next (s.wordDone r (fun x => x.issued []) s.nextPc))
    ∧ (∀ e, decodeWord (s.wordBits s.sel) = .error e → waitsHolds s.core (s.nextX s.sel) = true → broadcasts (s.nextX s.sel) = false →
      s.faultsWith (exec (.wordIssue s.sel) s) 0x01 0x00 (illegalSlot (s.wordBits s.sel)) none))
  ∧ (∀ (s : State), (s.asleep = true ∨ s.frameDue = false) → ∃ t, exec .mergeCycle s = .next t ∧ t.clk = s.clk + 1 ∧ t.litBusy = s.litBusy - 1 ∧ t.mem = s.mem ∧ t.dies = s.dies
    ∧ (∀ c, (t.rc c).core = (s.rc c).core ∧ (t.rc c).reqs = (s.rc c).reqs ∧ ((s.rc c).slot = none → t.rc c = s.rc c))
    ∧ (s.asleep = true → t.recs = s.recs ∧ t.agenda = s.agenda)
    ∧ (s.asleep = false → ∃ now : List Nat, t.agenda = t.arrivals ++ now.map Instr.wordIssue ++ s.agenda
      ∧ (now = [] ↔ ∀ c, ¬ t.rdy c)
      ∧ (∀ a rest, now = a :: rest → t.rdy a ∧ (∀ c, t.rdy c → ¬ s.goesBefore c a)
          ∧ (rest = [] → ∀ c, t.rdy c → c ≠ a → ¬ t.merges a c)
          ∧ (∀ b more, rest = b :: more → more = [] ∧ t.rdy b ∧ b ≠ a ∧ t.merges a b
              ∧ ∀ c, t.rdy c → c ≠ a → t.merges a c → ¬ s.goesBefore c b))
      ∧ (∀ c, (t.rdy c → (t.rc c).waitCnt = if c ∈ now then 0 else min ((s.rc c).waitCnt + 1) 4096)
          ∧ (¬ t.rdy c → (t.rc c).waitCnt = (s.rc c).waitCnt))
      ∧ (∀ c, c < 16 → (s.rc c).slot.isSome = true →
          ((s.rc c).life ∈ [Life.ready, .waiting .waits, .waiting .credit, .waiting .bar] → (s.rc c).seqFlag = none →
            ((t.rc c).life = .ready ↔ waitsHolds (s.rc c).core (s.nextX c) = true ∧ (broadcasts (s.nextX c) = true → (t.rc c).mayBroadcast t.clk)))
          ∧ ((s.rc c).life ∉ [Life.ready, .waiting .waits, .waiting .credit, .waiting .bar] → (t.rc c).life = (s.rc c).life))))
  ∧ (∀ (ts thr : Nat) (s : State) (r : Raw) (w : SWord), (Instr.waits ts thr).raw = some r → s.sel < 16 → s.me.slot.isSome = true →
    s.me.life = .waiting .waits → s.asleep = false → s.me.seqFlag = none → decodeWord (s.wordBits s.sel) = .ok w → w.single = some r →
    s.passes r → tokHolds (s.core.rTs ts) thr = true →
    ∃ t, exec (.waitsSatisfied s.sel) s = .next t ∧ t.me.life = .ready ∧ t.core.pc = s.nextPc
      ∧ t.core.rTs ts = s.core.rTs ts - BitVec.ofNat 16 thr)
  ∧ (∀ (m : Nat) (s : State), s.sel < 16 → s.me.life = .waiting (.idle m) → (s.mbx.getD s.sel 0).getLsbD m = true → s.noLog →
    ∃ t, exec (.idleResume s.sel) s = .next t ∧ t.me.life = .ready ∧ t.core = s.core ∧ SameMemory s t ∧ SameRecords s t s.sel)
  ∧ (∀ (c : Nat) (s : State), c < 16 → s.asleep = false → 36 ≤ (s.rc c).occFlight.length → exec (.occupancyReport c) s
      = .next (s.updRec c (fun r => { r with occ := r.occFlight.headD 0, occFlight := r.occFlight.drop 1 })))
  ∧ (∀ (c : Nat) (s : State) (code detail : Nat) (pass : BitVec 32) (xin : BitVec 48), c < 16 → (s.rc c).life = .frozen (.brk code detail pass xin) →
    (s.rc c).core.fly ≠ [] → exec (.fixedLatencyLand c none) s = .next (s.updSeq c SeqCore.endPos))
  ∧ (∀ (s : State), s.selDie < 32 → s.myDie.dly ≠ 0 →
    (s.updDctx s.sel s.selDie (fun x => { x with dly := 0, e := x.e - 1, redAsk := [] })).cannotBundle s.sel s.selDie = none →
    ∃ t, exec (.fixedLatencyLand s.sel (some s.selDie)) s = .next t ∧ t.mem = s.mem ∧ t.myDie.dly = s.myDie.dly - 1 ∧ t.myDie.e = s.myDie.e
      ∧ ∀ l, t.at l = { s.at l with core := (s.at l).core.endPos })

/-- The steps of a decode queue. BROADCAST_FRAME_ARRIVAL (R26, R328): 36 cycles after it was sent, a bundle enters the queue, a reduction's request and a mark's notice
reach the die. BUNDLE_ISSUE (R28, R62, R63): where no other context has the cycle's slots, an empty bundle lets the position pass; one that does not decode raises ILLEGAL_BUNDLE. WAIT_SATISFIED,
WAITF_SATISFIED (R402, R403): the held bundle issues and leaves its queue. -/
def Obligations.DecodeQueueSteps : Prop :=
  (∀ (c d sent : Nat) (s : State) (f : Frame) (fs : List (Nat × Frame)), c < 16 → d < 32 → (s.dctx c d).frames = (sent, f) :: fs → s.asleep = false → sent + 36 ≤ s.clk →
    ∃ t, exec (.broadcastFrameArrival c d) s = .next t ∧ t.mem = s.mem ∧ (t.dctx c d).frames = fs ∧ (t.dctx c d).cells = (s.dctx c d).cells
      ∧ (t.dctx c d).e = (s.dctx c d).e
      ∧ (∀ e, f = .bundle e → (t.dctx c d).q = (s.dctx c d).q ++ [e]) ∧ ((∀ e, f ≠ .bundle e) → (t.dctx c d).q = (s.dctx c d).q)
      ∧ (∀ id, f = .red id → s.samples c d id = true → (t.dctx c d).redAsk = (s.dctx c d).redAsk ++ [id])
      ∧ (∀ m, f = .mark m → (s.dctx c d).passed ≠ m → (s.dctx c d).atMark ≠ some m →
          ((s.dctx c d).e - 1 = m → (s.dctx c d).dly = 0 → (t.dctx c d).atMark = some m)
          ∧ ((s.dctx c d).e - 1 ≠ m → (t.dctx c d).markAsk = (s.dctx c d).markAsk ++ [m])))
  ∧ (∀ (s : State) (e : QEntry) (es : List QEntry), s.cannotBundle s.sel s.selDie = none → s.selDie < 32 → s.myDie.q = e :: es →
    s.mustYield s.sel s.selDie e = none →
    (∀ why, decodeBundle (s.me.bundleBits e.idx e.lit) = .error why → ∃ t, exec (.bundleIssue s.sel s.selDie) s = .next t
      ∧ t.myDie.flag = some (s.bundleFlag 0x02 0 noInfo false) ∧ t.myDie.cells = s.myDie.cells ∧ t.mem = s.mem)
    ∧ (decodeBundle (s.me.bundleBits e.idx e.lit) = .ok {} → s.myDie.sinceMark < 1024 → s.myDie.sinceStores ≤ 128 →
      ∃ t, exec (.bundleIssue s.sel s.selDie) s = .next t ∧ s.advanced t ∧ s.quiet t ∧ t.myDie.q = popBundle (e :: es)
        ∧ ∀ l, t.at l = { s.at l with core := (s.at l).core.endPos }))
  ∧ (∀ (i : Instr) (s : State) (e : QEntry) (es : List QEntry) (b : Bundle) (r : Raw) (h : Hold), i.raw = some r → s.selDie < 32 →
    s.myDie.hold = some h → s.myDie.q = e :: es → e.diemask = s.core.diemask → e.cellmask = s.core.cellmask →
    decodeBundle (s.me.bundleBits e.idx e.lit) = .ok b → b.single = some r →
    (s.updDctx s.sel s.selDie (fun x => { x with hold := none })).canBundle r →
    (s.updDctx s.sel s.selDie (fun x => { x with hold := none })).mustYield s.sel s.selDie e = none →
    (∀ tk thr, i = .wait tk thr → h = .wait → (∀ l ∈ s.myCells, tokHolds ((s.at l).core.rTk tk) thr = true) →
      ∃ t, exec (.waitSatisfied s.sel s.selDie) s = .next t ∧ t.myDie.hold = none ∧ t.myDie.q = popBundle (e :: es) ∧ s.advanced t ∧ t.mem = s.mem)
    ∧ (∀ a imm, i = .waitf a imm → h = .waitf → (∀ l ∈ s.myCells,
        let ea := ((s.at l).core.rX a + BitVec.ofNat 64 (128 * imm)).toNat
        ea < (s.me.win.ways - (s.at l).core.cways) * 65536 ∧ ea % 128 = 0 ∧ s.lineFull s.sel s.selDie l (ea / 128) = true) →
      ∃ t, exec (.waitfSatisfied s.sel s.selDie) s = .next t ∧ t.myDie.hold = none ∧ t.myDie.q = popBundle (e :: es) ∧ s.advanced t ∧ t.mem = s.mem))

/-! ## Events: operations and cells -/

namespace Sys2Proof.Machine

/-- Operation `id` of context c has been performed (R396): only its posting is left. -/
def State.performed (t : State) (c id : Nat) : Prop := ∃ q ∈ (t.rc c).reqs, q.id = id ∧ q.stage = .performed

/-- Operation q of a sequencer is one coherent access of plain memory that nothing holds back, in a context that neither traces nor logs. -/
def State.plainAccess (s : State) (id c : Nat) (q : Req) (p : Part) : Prop :=
  s.req id = some (c, q) ∧ s.asleep = false ∧ q.stage = .out ∧ s.blocked c q = false ∧ q.org = none ∧ q.body = .mem .coherent [p]
  ∧ p.tgt.ref = none ∧ p.tgt.cls = clsDRAM ∧ p.lane = 0 ∧ s.l2 = [] ∧ c < 16
  ∧ ((s.rc c).bufs.getD 0 .reset).ctl.getLsbD 0 = false ∧ (s.rc c).replaying = false ∧ ((s.rc c).bufs.getD 2 .reset).ctl.getLsbD 0 = false

/-- Operation q of a cell can be performed now: nothing holds it back, the cell's cache holds no line, the L2 no count, and its context neither
traces, records nor replays. -/
def State.cellPerforms (s : State) (id c d l : Nat) (q : Req) : Prop :=
  s.req id = some (c, q) ∧ s.asleep = false ∧ q.stage = .out ∧ s.blocked c q = false ∧ q.org = some (d, l) ∧ q.ord = .relaxed ∧ q.flags = 0
  ∧ s.l2 = [] ∧ (s.cell c d l).lines = [] ∧ c < 16 ∧ d < 32 ∧ l < 64
  ∧ ((s.rc c).bufs.getD 0 .reset).ctl.getLsbD 0 = false ∧ (s.rc c).replaying = false ∧ ((s.rc c).bufs.getD 2 .reset).ctl.getLsbD 0 = false

/-- Cell l of a die runs entry x and can complete a row of it; no ACCWR has taken over entries of it. -/
def State.rowRuns (s : State) (c d l : Nat) (x : MxEntry) : Prop :=
  c < 16 ∧ d < 32 ∧ l < 64 ∧ (s.cell c d l).run = some x ∧ s.asleep = false ∧ (s.rc c).matrixStops x = false ∧ (s.dctx c d).flag = none
  ∧ s.skips c x.req = []

/-- The tile row that an entry completes next, and the rows of its step or group (R215, R217). -/
def MxEntry.tileRow (x : MxEntry) : Nat := if x.op = 3 then gtStart x.gt x.grp + x.row else x.row
def MxEntry.stepRows (x : MxEntry) : Nat := if x.op = 3 then gtRows x.gt (tileRows x.ops) x.grp else tileRows x.ops

/-- The entry after a row of a product: the next row, or the next step or group; `more` says that A holds another step (R216). -/
def MxEntry.next (x : MxEntry) (more : Bool) : Option MxEntry :=
  if x.row + 1 ≠ x.stepRows then some { x with row := x.row + 1 }
  else if x.op = 2 then (if more then some { x with row := 0, step := x.step + 1 } else none)
  else if x.op = 3 then (if x.grp + 1 = opsGroups x.ops then none else some { x with row := 0, grp := x.grp + 1 })
  else none

/-- The sum of R213 for one entry, in its order: blocks, chunks or elements ascending, each step rounded once. -/
def dotInOrder (A B : Desc) (neg bt : Bool) (N j : Nat) (as bs : List (List Nat)) (acc : Nat) : Nat :=
  let a := fun k => as.getD k []
  let b := fun k => bs.getD (if bt then j * rowItems A + k else k * N + j) []
  if 8 ≤ dFmt A ∧ dFmt A ≤ 14 then
    (List.range (128 / dBs A)).foldl (fun t q =>
      let S : Int := (((a q).dropLast.zip (b q).dropLast).map (fun p => sext p.1 (dMant A) * sext p.2 (dMant B))).foldl (· + ·) 0
      if (a q).getLastD 0 = 0xFF ∨ (b q).getLastD 0 = 0xFF then 0x7FC00000
      else (rnd .rne (addExact .rne (f32Val t)
        (finOf (if neg then -S else S) (((a q).getLastD 0 : Int) + (b q).getLastD 0 - 254) false))).1) acc
  else if dFmt A = 1 then
    (List.range 8).foldl (fun t ch => (bf16Chunk neg ((List.range 8).map (fun k => ((a (8 * ch + k)).headD 0, (b (8 * ch + k)).headD 0))) t).1) acc
  else (List.range 32).foldl (fun t k => (rnd .rne (fmaExact .rne neg (f32Val ((a k).headD 0)) (f32Val ((b k).headD 0)) (f32Val t))).1) acc

end Sys2Proof.Machine

/-- LOAD_RESULT_LANDS (R3, R254, R269, R270, R396) for an access of plain memory by a sequencer: the bytes take the stored or combined value and
no other byte changes, the value read lands in the destination where the operation is still live there; at an uncorrectable error the
operation ends in ECC. For values a cell has waiting: they land in the units still live. For a cell's held accesses: a coherent store or atomic as the sequencer's
(R259, R262); a store to scratch leaves its line full (R242, R257); SCATTER leaves its lanes in the cell's cache, which holds nothing else of the line, and
GATHER fills the line it reads (R239, R258); SETE and SETF move one full/empty bit (R266); XMIT reads its bytes out, RECV's arrive in
scratch, their lines full, those beyond it counted (R341). TOK_POST (R13, R400): the count rises by one, in the
shadows of later marks too, and the operation is gone. The steps of a cell beside its bundles. ACCESS_STREAM_ISSUE (R32): the access stream goes on past the bundle whose loads it has issued; no register
changes; it reads nothing ahead of a barrier at which a cell of the bundle stands (R316, R319). STREAM_FETCH (R198, R306): the next item is kept, once the earlier operations of the cell that it meets have been performed. MATRIX_OP_START (R207, R217): the head operation runs; MATRIX_ROW_COMPLETE (R211, R219, R223): a row of ACCZ
is zeroed, or a fault is flagged; that a fault of a row counts at the IN the die has reached is the model's reading (log entry 52). A row of MMA, MMA.NEST or MMA.GRP (R213, R215 to R217)
takes, in each of its N entries, the sum of R213 over the row of A and its column of B from the old entry, or from +0.0 where ZERO starts it, in
the order R213 gives; A moves past the row, B past its operand when the step or group ends. A row of ACCOUT (R220) of a W32 stream in scratch stores its
entries. RBQ_REFILL (R179): one entry more.
What an error leaves of the operation is the model's reading (log entry 53). -/
def Obligations.OperationAndCellSteps : Prop :=
  ((∀ (id c : Nat) (s : State) (q : Req) (p : Part), s.plainAccess id c q p →
     let old := memRead s.mem p.tgt.key p.n
     ((p.op = .store ∨ s.bad p.tgt.key = false) → ∃ t, exec (.loadResultLands id) s = .next t ∧ t.performed c id
       ∧ SameBytes s t p.tgt.key p.n
       ∧ memRead t.mem p.tgt.key p.n = (match p.op with | .load => old | .store => p.val % 2 ^ (8 * p.n) | .rmw f => f.new p.n old p.val % 2 ^ (8 * p.n))
       ∧ (∀ d, q.dest = some (.s d) → p.op ≠ .store → (t.rc c).core.rS d
           = if 0 ∈ pendLive id (.s d) (s.rc c).core.pend then BitVec.ofNat 64 old else (s.rc c).core.rS d)
       ∧ (∀ d, q.dest ≠ some (.s d) → (t.rc c).core.rS d = (s.rc c).core.rS d) ∧ (t.rc c).core.pc = (s.rc c).core.pc)
     ∧ (p.op ≠ .store → s.bad p.tgt.key = true → ∃ t, exec (.loadResultLands id) s = .next t ∧ t.mem = s.mem
       ∧ (∃ f, (t.rc c).seqFlag = some f ∧ f.code = 0x30 ∧ f.ein = q.ein ∧ f.xpc = q.pc) ∧ t.performed c id))
   ∧ (∀ (id c d l : Nat) (s : State) (q : Req), s.cellPerforms id c d l q →
     (∀ p, q.body = .mem .coherent [p] → p.tgt.ref = none → p.tgt.cls = clsDRAM → p.lane = 0 → p.op ≠ .load → (p.op = .store ∨ s.bad p.tgt.key = false) →
       let old := memRead s.mem p.tgt.key p.n
       ∃ t, exec (.loadResultLands id) s = .next t ∧ t.performed c id ∧ SameBytes s t p.tgt.key p.n
         ∧ memRead t.mem p.tgt.key p.n = (match p.op with | .rmw f => f.new p.n old p.val % 2 ^ (8 * p.n) | _ => p.val % 2 ^ (8 * p.n))
         ∧ (∀ n, q.dest = some (.x n) → p.op ≠ .store → (t.cell c d l).core.rX n
             = if 0 ∈ pendLive id (.x n) (s.cell c d l).core.pend then BitVec.ofNat 64 old else (s.cell c d l).core.rX n))
     ∧ (∀ a n v, q.body = .mem .scratch [{ lane := 0, tgt := nearTarget c d l a, n := n, op := .store, val := v }] → q.dest = none →
       ∃ t, exec (.loadResultLands id) s = .next t ∧ t.performed c id ∧ SameBytes s t (nearKey c d l + a) n
         ∧ memRead t.mem (nearKey c d l + a) n = v % 2 ^ (8 * n) ∧ a / 128 ∉ (t.cell c d l).empty)
     ∧ (∀ p, q.body = .mem .gather [p] → p.tgt.ref = none → cacheable p.tgt.cls = true → p.n = 4 → 0 < (s.cell c d l).core.cways →
       (p.op = .store → q.dest = none → ∃ t, exec (.loadResultLands id) s = .next t ∧ t.performed c id ∧ t.mem = s.mem
         ∧ mapFind (t.cell c d l).lines (p.tgt.key / 128)
             = some { fill := [], wr := (List.range 4).map (fun i => (p.tgt.key + i, BitVec.ofNat 8 (p.val / 256 ^ i))) })
       ∧ (∀ n, p.op = .load → q.dest = some (.v n) → p.lane < 64 → q.again = false → s.bad p.tgt.key = false → p.tgt.key % 4 = 0 →
         (s.rc c).ownBefore d l id = [] →
         ∃ t, exec (.loadResultLands id) s = .next t ∧ t.performed c id ∧ t.mem = s.mem
           ∧ mapFind (t.cell c d l).lines (p.tgt.key / 128) = some { fill := memBytes s.mem (p.tgt.key / 128 * 128) 128, wr := [] }
           ∧ (t.cell c d l).core.rV n p.lane = if p.lane ∈ pendLive id (.v n) (s.cell c d l).core.pend
               then BitVec.ofNat 32 (memRead s.mem p.tgt.key 4) else (s.cell c d l).core.rV n p.lane))
     ∧ (∀ line full, q.body = .fullEmpty line full → q.dest = none → ∃ t, exec (.loadResultLands id) s = .next t ∧ t.performed c id ∧ t.mem = s.mem
       ∧ (line ∈ (t.cell c d l).empty ↔ full = false) ∧ ∀ k, k ≠ line → (k ∈ (t.cell c d l).empty ↔ k ∈ (s.cell c d l).empty))
     ∧ (∀ pat ord a n, q.body = .xfer 2 pat ord [] a n → q.dest = none →
       (∀ i, i < n / 128 → s.bad (nearKey c d l + a + 128 * i) = false) → ∃ t, exec (.loadResultLands id) s = .next t ∧ t.performed c id ∧ t.mem = s.mem
       ∧ ∀ y ∈ (s.dctx c d).sent, y.op = 5 → y.ein = q.ein → y.cell = l → { y with op := 2, bytes := s.scratchBytes c d l id a n } ∈ (t.dctx c d).sent)
     ∧ (∀ pat ord a n g y, q.body = .xfer 3 pat ord [] a n → q.dest = none → (s.rc c).srcDie pat d = some g →
       ((s.rc c).die g).sent.find? (fun z => z.op == 2 && z.pat == pat && z.ord == ord && z.cell == l) = some y → y.bytes ≠ [] →
       ∃ t, exec (.loadResultLands id) s = .next t ∧ t.performed c id
         ∧ (∀ i, i < y.bytes.length → i < n - a → memGet t.mem (nearKey c d l + a + i) = y.bytes.getD i 0)
         ∧ SameBytes s t (nearKey c d l + a) (min y.bytes.length (n - a))
         ∧ (∀ i, i < y.bytes.length → i < n - a → (a / 128 + i / 128) ∉ (t.cell c d l).empty)
         ∧ (t.dctx c d).discards = (s.dctx c d).discards + (y.bytes.length - (n - a))))
   ∧ (∀ (id c d l n u v : Nat) (s : State) (q : Req), s.req id = some (c, q) → s.asleep = false → q.stage = .out → s.blocked c q = false →
     q.org = some (d, l) → q.ord = .relaxed → q.body = .vals [(u, v)] → q.dest = some (.v n) → u < 64 →
     ∃ t, exec (.loadResultLands id) s = .next t ∧ t.performed c id ∧ t.mem = s.mem
       ∧ ∀ m w, w < 64 → (t.cell c d l).core.rV m w
         = if m = n ∧ w = u ∧ u ∈ pendLive id (.v n) (s.cell c d l).core.pend then BitVec.ofNat 32 v else (s.cell c d l).core.rV m w)
   ∧ (∀ (id c n : Nat) (s : State) (q : Req), s.req id = some (c, q) → s.asleep = false → q.stage = .performed → q.tok = some n → (s.rc c).life ≠ .saved →
     ∃ t, exec (.tokPost id) s = .next t ∧ t.mem = s.mem ∧ (∀ x ∈ (t.rc c).reqs, x.id ≠ id) ∧ (∀ x ∈ (s.rc c).reqs, x.id ≠ id → x ∈ (t.rc c).reqs)
       ∧ (q.org = none → (∀ k, (t.rc c).core.rTs k = if k = n then (s.rc c).core.rTs n + 1 else (s.rc c).core.rTs k)
           ∧ (t.rc c).marks.map (fun m => m.shd.rTs n) = (s.rc c).marks.map (fun m => m.shd.rTs n + if id < m.opsTo then 1 else 0))
       ∧ (∀ d l, q.org = some (d, l) → ∀ k, (t.cell c d l).core.rTk k = if k = n then (s.cell c d l).core.rTk n + 1 else (s.cell c d l).core.rTk k)))
  ∧ ((∀ (c d : Nat) (s : State) (a : BitVec 48) (e : QEntry) (m : Raw), c < 16 → d < 32 → (s.rc c).slot.isSome = true → (s.rc c).field.dies.contains d = true →
     ((s.rc c).life = .ready ∨ (∃ w, (s.rc c).life = .waiting w) ∨ (s.rc c).life = .halted) → (s.rc c).diesStop = false → s.asleep = false →
     (s.dctx c d).flag = none → (s.rc c).nextAccess (s.dctx c d) = some (a, e, m) → inDiff a (s.dctx c d).e < 256 →
     (s.dctx c d).atBar (activeCells (s.rc c) d e.diemask e.cellmask) = false →
     (∀ l ∈ activeCells (s.rc c) d e.diemask e.cellmask, (s.rc c).acquireWaits d l s.nextId = false
       ∧ (s.rc c).tracked d l + ((s.dctx c d).ahead.filter (fun y => y.cell == l)).length < 64 * (s.rc c).win.trk) →
     ∃ t, exec (.accessStreamIssue c d) s = .next t ∧ (t.dctx c d).access = a + 1 ∧ (t.dctx c d).q = (s.dctx c d).q ∧ (t.rc c).core = (s.rc c).core
       ∧ ∀ l, (t.cell c d l).core = (s.cell c d l).core)
   ∧ (∀ (c d l st i : Nat) (s : State), c < 16 → d < 32 → l < 64 → st < 16 → (s.rc c).slot.isSome = true → s.asleep = false →
     (∀ f ∈ (s.cell c d l).core.fly, f.reg ≠ .st st) → (∀ p ∈ (s.cell c d l).core.pend, p.reg ≠ .st st) →
     (s.rc c).acquireWaits d l s.nextId = false → (s.cell c d l).nextItem st = some i →
     (s.rc c).releaseWaits d l (((s.cell c d l).consumer st i).getD s.nextId) = false →
     s.itemsHeld c d l ((s.cell c d l).core.desc st) st (((s.cell c d l).consumer st i).getD s.nextId) [i] = false →
     ∃ t, exec (.streamFetch c d l st) s = .next t ∧ (∃ x ∈ (t.cell c d l).items, x.st = st ∧ x.t = i)
       ∧ (t.cell c d l).core = (s.cell c d l).core)
   ∧ (∀ (c d l : Nat) (s : State) (x : MxEntry) (xs : List MxEntry) (q : Req), c < 16 → d < 32 → l < 64 → (s.cell c d l).run = none →
     (s.cell c d l).core.mxq = x :: xs → (s.rc c).reqs.find? (fun q => q.id == x.req) = some q → (s.rc c).slot.isSome = true → s.asleep = false →
     q.stage = .out → (s.rc c).matrixStops x = false → s.blocked c q = false →
     ∃ t, exec (.matrixOpStart c d l) s = .next t ∧ (t.cell c d l).run = some x ∧ (t.cell c d l).core = { (s.cell c d l).core with mxq := xs }
       ∧ t.mem = s.mem
       ∧ (¬ (x.op = 3 ∧ opsZero x.ops = true) → (t.cell c d l).acc = (s.cell c d l).acc)
       ∧ (x.op = 3 → opsZero x.ops = true → s.skips c x.req = [] → ∀ i, i < tileRows x.ops * tileCols x.ops →
           mapGet 0 (t.cell c d l).acc (tileBase x.ops + i) = 0))
   ∧ (∀ (c d l : Nat) (s : State) (x : MxEntry), c < 16 → d < 32 → l < 64 → (s.cell c d l).run = some x → s.asleep = false →
     (s.rc c).matrixStops x = false → (s.dctx c d).flag = none →
     (x.op = 4 → s.skips c x.req = [] → ∃ t, exec (.matrixRowComplete c d l) s = .next t ∧ t.mem = s.mem ∧ (t.cell c d l).core = (s.cell c d l).core
       ∧ (t.cell c d l).run = (if x.row + 1 = tileRows x.ops then none else some { x with row := x.row + 1 })
       ∧ ∀ i, mapGet 0 (t.cell c d l).acc i = if tileBase x.ops + tileCols x.ops * x.row ≤ i
           ∧ i < tileBase x.ops + tileCols x.ops * (x.row + 1) then 0 else mapGet 0 (s.cell c d l).acc i)
     ∧ (∀ s' f, s.macroRow c d l x = (s', .error f) → (s'.dctx c d).flag = none → c < s'.recs.length →
       ∃ t, exec (.matrixRowComplete c d l) s = .next t ∧ (t.dctx c d).flag = some
         { code := f.1, detail := f.2.1, info := f.2.2, ein := x.ein, at_ := (s'.dctx c d).e, noRollback := false, die := d, xpc := 0 }))
   ∧ (∀ (c d l : Nat) (s : State) (x : MxEntry) (as bs : List Item), s.rowRuns c d l x → (x.op = 1 ∨ x.op = 2 ∨ x.op = 3) →
     (x.op = 3 → x.grp < opsGroups x.ops ∧ gtRows x.gt (tileRows x.ops) x.grp ≠ 0) → opsA x.ops ≠ opsB x.ops →
     let y := s.cell c d l
     let A := y.core.desc (opsA x.ops)
     let B := y.core.desc (opsB x.ops)
     let N := tileCols x.ops
     let e0 := tileBase x.ops + N * x.tileRow
     let stepOver := x.row + 1 = x.stepRows
     dCur A + rowItems A ≤ dLen A → dLen A < 2 ^ 48 → dCur B + N * rowItems B ≤ dLen B → dLen B < 2 ^ 48 →
     s.getItems c d l A (opsA x.ops) x.req ((List.range (rowItems A)).map (fun k => dCur A + k)) = (s, as) →
     s.getItems c d l B (opsB x.ops) x.req ((List.range (N * rowItems B)).map (fun k => dCur B + k)) = (s, bs) →
     (∀ i ∈ as ++ bs, i.fault = none ∧ i.empty = false) →
     ∃ t, exec (.matrixRowComplete c d l) s = .next t ∧ t.mem = s.mem
       ∧ (∀ j, j < N → mapGet 0 (t.cell c d l).acc (e0 + j) = BitVec.ofNat 32 (dotInOrder A B (opsNeg x.ops) (opsBt x.ops) N j (as.map Item.vals) (bs.map Item.vals)
           (if x.op ≠ 3 ∧ opsZero x.ops = true ∧ x.step = 0 then 0 else (mapGet 0 y.acc (e0 + j)).toNat)))
       ∧ (∀ e, (e < e0 ∨ e0 + N ≤ e) → mapGet 0 (t.cell c d l).acc e = mapGet 0 y.acc e)
       ∧ dCur ((t.cell c d l).core.desc (opsA x.ops)) = dCur A + rowItems A
       ∧ dfld ((t.cell c d l).core.desc (opsA x.ops)) 7 48 8 = (if stepOver then 0 else (x.row + 1) % 256)
       ∧ dCur ((t.cell c d l).core.desc (opsB x.ops)) = (if stepOver then dCur B + N * rowItems B else dCur B)
       ∧ (t.cell c d l).run = x.next (decide (dCur A + rowItems A < dLen A)))
   ∧ (∀ (c d l : Nat) (s : State) (x : MxEntry), s.rowRuns c d l x → x.op = 7 →
     let O := (s.cell c d l).core.desc (opsO x.ops)
     let N := tileCols x.ops
     let e0 := tileBase x.ops + N * x.row
     let at_ := fun j => dAddr O (dCur O + j)
     dClass O = 6 → dFmt O = 0 → dCur O + N ≤ dLen O → dLen O < 2 ^ 48 →
     (∀ j, j < N → at_ j + 4 ≤ ((s.rc c).win.ways - (s.cell c d l).core.cways) * 65536) →
     (∀ j k, j < N → k < N → j ≠ k → at_ j + 4 ≤ at_ k ∨ at_ k + 4 ≤ at_ j) →
     ∃ t, exec (.matrixRowComplete c d l) s = .next t
       ∧ (∀ j, j < N → memRead t.mem (nearKey c d l + at_ j) 4 = (mapGet 0 (s.cell c d l).acc (e0 + j)).toNat
           ∧ at_ j / 128 ∉ (t.cell c d l).empty)
       ∧ (∀ a, (∀ j, j < N → a < nearKey c d l + at_ j ∨ nearKey c d l + at_ j + 4 ≤ a) → memGet t.mem a = memGet s.mem a)
       ∧ (t.cell c d l).acc = (s.cell c d l).acc ∧ dCur ((t.cell c d l).core.desc (opsO x.ops)) = dCur O + N
       ∧ (t.cell c d l).run = (if x.row + 1 = tileRows x.ops then none else some { x with row := x.row + 1 }))
   ∧ (bfpBlock false 4 4 ([7, 8] ++ List.replicate 14 0 ++ [0x7F]) ([7, 3] ++ List.replicate 14 0 ++ [0x7D]) 0x3F800000 = (0x40E80000, 0)
     ∧ (bfpBlock false 4 4 ([1] ++ List.replicate 15 0 ++ [0x67]) ([1] ++ List.replicate 15 0 ++ [0x7F]) 0x40E80000).1 = 0x40E80000)
   ∧ (∀ (c d l : Nat) (s : State), c < 16 → d < 32 → l < 64 → s.asleep = false → (s.cell c d l).core.rbMade < (s.cell c d l).core.rbTaken + 16 →
     ∃ t, exec (.rbqRefill c d l) s = .next t ∧ t.mem = s.mem
       ∧ t.cell c d l = { s.cell c d l with core := { (s.cell c d l).core with rbMade := (s.cell c d l).core.rbMade + 1 } }))

/-! ## Events: the field -/

/-- Reductions, barriers and phases at their reports. RED_SAMPLE (R333): the die's value leaves. RED_VALUE_ARRIVAL (R334, R335): the last value lands
the reduction of the field in the destination, frees the group and posts. BAR_REPORT, BAR_RELEASE (R336, R337): a report is counted; every die that stands at the same
FIELD barrier, the k-th of one die pairing with the k-th of every other, departs at once when all have reported, one at a later barrier stays; a die at a DIE
barrier departs when its own release steps have ended; a context that was held for a barrier goes on or waits for something else once no die of it stands at one (R18). PHASE_RELEASE (R339): every die goes on, and a PHASE.C ends the superstep. Restart marks. MARK_PASS (R423 to R425): a die that holds fewer than two shadows takes one more, of its event counters and the registers of its cells.
MARK_COMMIT (R424, R426): the oldest mark commits once every die has passed it, where no fault counts at or before it, releases the sequencer's effects up to it and goes down to the
dies. COMMIT_ARRIVAL (R206, R426): the effects of the die's cells up to it are released, its accumulator writes leave the gated list. -/
def Obligations.FieldAndMarkSteps : Prop :=
  ((∀ (c grp d : Nat) (s : State) (q : Req) (op ty dc : Nat) (inr : BitVec 48) (dies : List Nat) (air got : List (Nat × Word)), c < 16 → d < 32 → s.asleep = false →
     (s.rc c).redReq grp = some q → q.body = .red grp op ty dc inr dies air got →
     (q.id ∈ (s.dctx c d).redAsk → (s.dctx c d).dly = 0 → inDiff inr (s.dctx c d).e ≤ 0 →
       ∃ t, exec (.redSample c grp d) s = .next t ∧ t.mem = s.mem ∧ (∀ i ∈ (t.dctx c d).redAsk, i ≠ q.id)
         ∧ { q with body := .red grp op ty dc inr dies (air ++ [(d, mapGet 0 (s.dctx c d).dc dc)]) got } ∈ (t.rc c).reqs)
     ∧ (∀ v, air.find? (fun x => x.1 == d) = some v → dies ≠ [] → (∃ y ∈ dies, ∀ w ∈ got ++ [v], w.1 ≠ y) →
       ∃ t, exec (.redValueArrival c grp d) s = .next t ∧ t.mem = s.mem
         ∧ { q with body := .red grp op ty dc inr dies (air.filter (fun w => w.1 != d)) (got ++ [v]) } ∈ (t.rc c).reqs)
     ∧ (∀ n all, c = s.sel → s.noLog → q.org = none → q.dest = some (.s n) → (s.rc c).life ≠ .saved →
       ((dies = [] ∧ all = []) ∨ ∃ v, air.find? (fun x => x.1 == d) = some v ∧ dies ≠ [] ∧ all = got ++ [v] ∧ ∀ y ∈ dies, ∃ w ∈ all, w.1 = y) →
       ∃ t, exec (.redValueArrival c grp d) s = .next t ∧ t.mem = s.mem ∧ grp ∉ (t.rc c).redBusy ∧ (∀ x ∈ (t.rc c).reqs, x.id ≠ q.id)
         ∧ (t.rc c).core.rS n = (if 0 ∈ pendLive q.id (.s n) (s.rc c).core.pend then BitVec.ofNat 64 ((s.rc c).redValue op ty all) else (s.rc c).core.rS n)
         ∧ ∀ ts, q.tok = some ts → (t.rc c).core.rTs ts = (s.rc c).core.rTs ts + 1))
   ∧ (∀ (c d : Nat) (s : State), c < 16 → d < 32 → s.asleep = false →
     (0 < (s.dctx c d).barPend → ∃ t, exec (.barReport c d) s = .next t ∧ t.mem = s.mem ∧ t.dctx c d
       = { s.dctx c d with barPend := (s.dctx c d).barPend - 1, barGot := (s.dctx c d).barGot + 1 })
     ∧ (∀ cells, (s.dctx c d).barPend = 0 → (s.dctx c d).hold = some (.bar true cells) → (s.dctx c d).barSteps = false → s.releaseDone c d cells = true →
       ∃ t, exec (.barReport c d) s = .next t ∧ (t.dctx c d).barSteps = true ∧ (t.dctx c d).barGot = (s.dctx c d).barGot + 1
         ∧ (t.dctx c d).hold = (s.dctx c d).hold)
     ∧ (∀ cells, (s.dctx c d).hold = some (.bar true cells) → (s.rc c).allReported d = true →
       ∃ t, exec (.barRelease c d) s = .next t
         ∧ (∀ g cs, g ∈ (s.rc c).field.dies → (s.dctx c g).hold = some (.bar true cs) → (s.dctx c g).barSeq = (s.dctx c d).barSeq → (t.dctx c g).hold = none)
         ∧ ((∀ g ∈ (s.rc c).field.dies, (t.rc c).standsAtBar g = false) → (t.rc c).life ≠ .waiting .bar)
         ∧ ∀ g, (t.dctx c g).e = (s.dctx c g).e ∧ (t.dctx c g).q = (s.dctx c g).q
           ∧ ((g ∉ (s.rc c).field.dies ∨ (s.dctx c g).barSeq ≠ (s.dctx c d).barSeq ∨ ∀ cs, (s.dctx c g).hold ≠ some (.bar true cs)) → (t.dctx c g).hold = (s.dctx c g).hold))
     ∧ (∀ cells, (s.dctx c d).hold = some (.bar false cells) → s.releaseDone c d cells = true →
       ∃ t, exec (.barRelease c d) s = .next t ∧ (t.dctx c d).hold = none ∧ (t.dctx c d).e = (s.dctx c d).e ∧ (t.dctx c d).q = (s.dctx c d).q
         ∧ ((∀ g ∈ (s.rc c).field.dies, (t.rc c).standsAtBar g = false) → (t.rc c).life ≠ .waiting .bar)))
   ∧ (∀ (c : Nat) (s : State), c < 16 → s.asleep = false → (s.rc c).field.dies ≠ [] → (∀ d ∈ (s.rc c).field.dies, (s.rc c).phaseArrived d = true) →
     ∃ t, exec (.phaseRelease c) s = .next t ∧ t.mem = s.mem ∧ (t.rc c).core = (s.rc c).core
       ∧ ∀ d ∈ (s.rc c).field.dies, (t.dctx c d).hold = none ∧ (t.dctx c d).e = (s.dctx c d).e ∧ (t.dctx c d).cells = (s.dctx c d).cells
         ∧ (t.dctx c d).phaseOpen = (s.dctx c d).phaseOpen
         ∧ ((s.dctx c d).phaseOpen = false → (t.dctx c d).sent = [] ∧ (t.dctx c d).xfers = 0 ∧ (t.dctx c d).perms = 0)))
  ∧ ((∀ (c d : Nat) (s : State) (m : BitVec 48), c < 16 → d < 32 → s.asleep = false → (s.dctx c d).atMark = some m → (s.dctx c d).shadows.length < 2 →
     ((s.dctx c d).closing = false ∨ (s.rc c).xferOpen d m = false) →
     ∃ t, exec (.markPass c d) s = .next t ∧ t.mem = s.mem ∧ (t.rc c).core = (s.rc c).core ∧ (t.dctx c d).cells = (s.dctx c d).cells
       ∧ (t.dctx c d).passed = m ∧ (t.dctx c d).atMark = none ∧ ∃ sh, (t.dctx c d).shadows = (s.dctx c d).shadows ++ [sh] ∧ sh.mark = m
         ∧ sh.dc = (s.dctx c d).dc ∧ (∀ l, mapGet .reset sh.cells l = (s.cell c d l).core) ∧ sh.barSeq = (s.dctx c d).barSeq)
   ∧ (∀ (c : Nat) (s : State) (k : BitVec 48), c < 16 → (s.rc c).nextMark = some k → (s.rc c).slot.isSome = true → s.asleep = false → inDiff k (s.rc c).commonMark ≤ 0 →
     (∀ d ∈ (s.rc c).field.dies, ∀ f, (s.dctx c d).flag = some f → 0 < inDiff f.at_ k) →
     ∃ t, exec (.markCommit c) s = .next t ∧ t.mem = s.mem ∧ (t.rc c).core = (s.rc c).core ∧ (t.rc c).cf = k
       ∧ (t.rc c).marks = retireMarks k (s.rc c).marks
       ∧ (∀ q ∈ (s.rc c).reqs, q.org = none → q.stage = .held → 0 ≤ inDiff k (q.ein - 1) → { q with stage := .out } ∈ (t.rc c).reqs)
       ∧ (∀ q ∈ (s.rc c).reqs, (q.org ≠ none ∨ q.stage ≠ .held ∨ inDiff k (q.ein - 1) < 0) → q ∈ (t.rc c).reqs)
       ∧ ((s.rc c).field.dies.Nodup → ∀ d, (t.dctx c d).commits = (s.dctx c d).commits ++ (if d ∈ (s.rc c).field.dies then [k] else [])))
   ∧ (∀ (c d : Nat) (s : State) (k : BitVec 48) (ks : List (BitVec 48)), c < 16 → d < 32 → s.asleep = false → (s.dctx c d).commits = k :: ks →
     ∃ t, exec (.commitArrival c d) s = .next t ∧ t.mem = s.mem ∧ (t.dctx c d).commits = ks
       ∧ (∀ sh ∈ (t.dctx c d).shadows, 0 ≤ inDiff sh.mark k)
       ∧ (∀ q ∈ (s.rc c).reqs, ∀ l, q.org = some (d, l) → ∃ x ∈ (t.rc c).reqs, x.id = q.id
           ∧ x.stage = (if q.stage = .held ∧ inDiff q.ein k ≤ 0 then .out else q.stage))
       ∧ ∀ l ∈ (s.rc c).group.cells, (∀ w ∈ (t.cell c d l).core.accw, 0 < inDiff (BitVec.ofNat 48 w.1) k)
         ∧ (∀ w ∈ (s.cell c d l).core.accw, 0 < inDiff (BitVec.ofNat 48 w.1) k → w ∈ (t.cell c d l).core.accw)
         ∧ (∀ i, (∀ w ∈ (s.cell c d l).core.accw, inDiff (BitVec.ofNat 48 w.1) k ≤ 0 → w.2.1 ≠ i) → mapGet 0 (t.cell c d l).acc i = mapGet 0 (s.cell c d l).acc i)
         ∧ ∀ w before after, (s.cell c d l).core.accw = before ++ w :: after → inDiff (BitVec.ofNat 48 w.1) k ≤ 0 →
             (∀ v ∈ after, inDiff (BitVec.ofNat 48 v.1) k ≤ 0 → v.2.1 ≠ w.2.1) → mapGet 0 (t.cell c d l).acc w.2.1 = w.2.2))

/-! ## Events: faults, stops, saves -/

namespace Sys2Proof.Machine

/-- The entry of context c into its handler for an event of the dies, slot 4, or for a fault of a sequencer's word, slot X (R117, R429, R432): the
registers `q`, the trap registers of flag f, the PC recorded in XPC. -/
def Rec.inHandler (r : Rec) (q : SeqCore) (vec xpc : BitVec 18) (f : Flag) (slot : Nat) : Prop :=
  r.life = .ready ∧ r.hact = true ∧ r.core = { q with pc := vec } ∧ r.xpc = xpc ∧ r.xin = f.ein
  ∧ r.xcause = BitVec.ofNat 32 (f.code % 256 + f.detail % 256 * 2 ^ 8 + slot * 2 ^ 16 + f.die % 256 * 2 ^ 24)
  ∧ (f.info ≠ noInfo → r.xinfo = BitVec.ofNat 64 f.info)

/-- The context runs or waits (R18): a flag freezes it. -/
def Life.runs (l : Life) : Prop := l = .ready ∨ (∃ w, l = .waiting w) ∨ l = .halted

end Sys2Proof.Machine

/-- How a context is stopped for its dies. FAULT_FLAG (R421, R428, R432): a fault freezes the context until its dies stand at the mark, the earliest of several counts,
one met in a handler is held; an event without rollback enters the handler at once, with slot 4, or slot X for
a home fault of a PIN or UNPIN word (R494). ROLLBACK (R428, R429): sequencer and dies take the shadows of the mark, what was
issued after it is gone, and the handler is entered with the repetitions still due in RIDX and RCNT; a page fault waits for its answer.
BREAK, STEP (R441): the drained context traps. Pre-emption and page requests. PREEMPTION_REQUEST (R434): the context freezes. PREEMPT_HALT: the field rolls back to a mark; a CTXSAVE then ends with the record
SAVED or FREE, at no residency slot. PAGE_REQUEST_ANSWER (R437, R438): success lets the context go on, with the repetitions still due; an invalid request traps at
the word or mark; failure ends the context; an engine goes on, or ends with PAGEFAIL (R345).
The state a save leaves, the mark of a fault and whose request an answer meets are the model's readings (log entries
26, 33 and 52). -/
def Obligations.StopAndSaveSteps : Prop :=
  ((∀ (c d : Nat) (s : State) (f : Flag), c < 16 → d < 32 → s.asleep = false → (s.rc c).slot.isSome = true → (s.dctx c d).flag = some f → (s.dctx c d).flagSent = false →
     ((s.rc c).hact = false → (s.rc c).life.runs → ∃ t, exec (.faultFlag c d) s = .next t ∧ (t.rc c).life = .frozen (.rollback f)
       ∧ (t.dctx c d).flagSent = true ∧ (t.rc c).core = (s.rc c).core ∧ t.mem = s.mem)
     ∧ (∀ g, (s.rc c).hact = false → (s.rc c).life = .frozen (.rollback g) → ∃ t, exec (.faultFlag c d) s = .next t
       ∧ (t.rc c).life = .frozen (.rollback (if inDiff f.ein g.ein < 0 ∨ (f.ein = g.ein ∧ f.die < g.die) then f else g)))
     ∧ ((s.rc c).hact = true → (s.rc c).heldF = none → ∃ t, exec (.faultFlag c d) s = .next t ∧ (t.rc c).heldF = some f
       ∧ (t.rc c).life = (s.rc c).life ∧ (t.rc c).core = (s.rc c).core))
   ∧ (∀ (c d : Nat) (s : State) (f : Flag), c < 16 → d < 32 → s.asleep = false → (s.rc c).slot.isSome = true → (s.dctx c d).flag = none → (s.dctx c d).fevents ≠ [] →
     firstFlag (s.rc c).events = some f → (∀ p ∈ (s.rc c).dies, p.2.flag = none) → (s.rc c).hact = false → (s.rc c).life.runs →
     ∃ t, exec (.faultFlag c d) s = .next t ∧ (t.rc c).inHandler (s.rc c).core (s.rc c).xvec (s.rc c).core.pc f (if f.die = 0xFF ∧ f.code ≠ 0x20 then 2 else 4) ∧ (t.rc c).diesStop = true
       ∧ (t.rc c).rv = (s.rc c).rv ∧ ∀ g, (t.dctx c g).fevents = [])
   ∧ (∀ (c : Nat) (s : State) (f : Flag) (m : MarkEntry), c < 16 → (s.rc c).life = .frozen (.rollback f) →
     let k := (s.rc c).rollbackMark f.at_
     let left := if m.kind then 0 else m.count - 1 - (inDiff k m.first).toNat
     (s.rc c).standsAt k = true → (s.rc c).entryOf k = some m → (s.rc c).hact = false → ∃ t, exec (.rollback c) s = .next t
       ∧ (f.code ≠ 0x10 → (t.rc c).inHandler { m.shd with inn := k + 1 } (s.rc c).xvec m.npc f 4)
       ∧ (f.code = 0x10 → (t.rc c).life = .frozen (.page f false) ∧ (t.rc c).core = { m.shd with pc := m.npc, inn := k + 1 })
       ∧ (t.rc c).rv = true ∧ (t.rc c).ridx = m.idx ∧ (t.rc c).rcnt = left
       ∧ (∀ q ∈ (t.rc c).reqs, q ∈ (s.rc c).reqs ∧ ((∃ o, q.org = some o) → inDiff q.ein k ≤ 0) ∧ (q.org = none → q.id < m.opsTo))
       ∧ (∀ d ∈ (s.rc c).field.dies, (t.dctx c d).e = k + 1 ∧ (t.dctx c d).q = [] ∧ (t.dctx c d).frames = [] ∧ (t.dctx c d).flag = none
         ∧ (t.dctx c d).passed = k ∧ ∃ sh ∈ (s.dctx c d).shadows, sh.mark = k ∧ (t.dctx c d).dc = sh.dc)
       ∧ (((s.rc c).bufs.getD 0 .reset).ctl.getLsbD 0 = false → t.mem = s.mem))
   ∧ (∀ (i : Instr) (c detail : Nat) (s : State) (code : Nat) (pass : BitVec 32) (xin : BitVec 48), c < 16 →
     (i = .breakTaken c ∧ code = 0x21 ∨ i = .stepTaken c ∧ code = 0x22) → (s.rc c).life = .frozen (.brk code detail pass xin) → (s.rc c).drained = true →
     (s.rc c).hact = false → ∃ t, exec i s = .next t ∧ (t.rc c).life = .ready ∧ (t.rc c).hact = true
       ∧ (t.rc c).core = { (s.rc c).core.drained with pc := (s.rc c).xvec } ∧ (t.rc c).xpc = (s.rc c).core.pc ∧ (t.rc c).xin = xin
       ∧ (t.rc c).xcause = BitVec.ofNat 32 (code + detail % 256 * 2 ^ 8 + 3 * 2 ^ 16 + 0xFF * 2 ^ 24) ∧ (t.rc c).xinfo = pass.setWidth 64))
  ∧ ((∀ (c : Nat) (s : State), c < 16 → (s.rc c).slot.isSome = true → (s.rc c).life.runs →
     ((s.rc c).life ≠ .waiting .start → exec (.preemptionRequest c) s
       = .next (s.setRec c { s.rc c with resumeLife := (s.rc c).life, life := .frozen (.preempt none false) }))
     ∧ ((s.rc c).life = .waiting .start → exec (.preemptionRequest c) s
       = .next (s.setRec c { s.rc c with held := true, life := .frozen (.preempt none false) })))
   ∧ (∀ (c : Nat) (s : State) (cmd : Option Nat), c < 16 → (s.rc c).life = .frozen (.preempt cmd false) →
     let k := (s.rc c).commonMark
     (s.rc c).standsAt k = true → (s.rc c).unsettled k = false →
     (cmd = none → ∃ t, exec (.preemptHalt c) s = .next t ∧ t.mem = s.mem ∧ (t.rc c).life = .frozen (.preempt none true) ∧ (t.rc c).core.inn = k + 1
       ∧ ∀ d ∈ (s.rc c).field.dies, (t.dctx c d).e = k + 1 ∧ (t.dctx c d).passed = k ∧ (t.dctx c d).q = [])
     ∧ (∀ id m, cmd = some id → (s.rollForSave c).saveCmd id = some m → ((s.rollForSave c).rc c).imageSize ≤ (m.cmd.e.getD 2 0).toNat →
       ∃ t, exec (.preemptHalt c) s = .next t ∧ (t.rc c).slot = none
         ∧ (t.rc c).life = (if tbit (m.cmd.e.headD 0) 4 then .free else .saved)
         ∧ t.armRun.getD 7 none = some { m with code := 0, prog := 0, ended := true }))
   ∧ (∀ (c : Nat) (s : State) (f : Flag) (seq : Bool), c < 16 → (s.rc c).life = .frozen (.page f seq) →
     (seq = true → exec (.pageRequestAnswer c .success) s = .next (s.setRec c { s.rc c with life := .ready }))
     ∧ (seq = false → ∃ t, exec (.pageRequestAnswer c .success) s = .next t ∧ t.mem = s.mem ∧ (t.rc c).life = .ready ∧ (t.rc c).rv = false ∧ (t.rc c).rcnt = 0
       ∧ (t.rc c).core.inn = (s.rc c).core.inn + BitVec.ofNat 48 (s.rc c).rcnt ∧ (t.rc c).core.pc = (s.rc c).core.pc
       ∧ (c = s.sel → 0 < s.me.rcnt → s.sentDown t [s.bundleItem s.me.ridx none s.me.rcnt]))
     ∧ (seq = false → (s.rc c).hact = false → ∃ t, exec (.pageRequestAnswer c .invalid) s = .next t
       ∧ (t.rc c).inHandler (s.rc c).core (s.rc c).xvec (s.rc c).core.pc f 4)
     ∧ (seq = true → (s.rc c).hact = false → ∃ t, exec (.pageRequestAnswer c .invalid) s = .next t ∧ (t.rc c).hact = true
       ∧ (t.rc c).xpc = (s.rc c).core.pc ∧ (t.rc c).xcause = BitVec.ofNat 32 (f.code % 256 + f.detail % 256 * 2 ^ 8 + 2 * 2 ^ 16 + f.die % 256 * 2 ^ 24))
     ∧ (∃ t, exec (.pageRequestAnswer c .failure) s = .next t ∧ (t.rc c).life = .free ∧ (t.rc c).slot = none ∧ (t.rc c).reqs = []
       ∧ t.reports = s.reports ++ [.ended (s.rc c).pasid.toNat 0x13 f.ein.toNat f.info]))
   ∧ (∀ (c : Nat) (s : State) (e : EngineId) (m : QCmd), c < 17 → (∀ f seq, (s.rc c).life ≠ .frozen (.page f seq)) → s.pageWaiter c = some (e, m) →
     exec (.pageRequestAnswer c .success) s = .next (s.setRunning e (some { m with page := false }))
     ∧ (m.ended = false → exec (.pageRequestAnswer c .failure) s = .next ((s.release m).setRunning e (some { m with code := 8, ended := true, page := false })))))

/-! ## Events: engines, heap -/

namespace Sys2Proof.Machine

/-- No context's trace buffer takes records, and none records. -/
def State.untraced (s : State) : Prop := ∀ r ∈ s.recs, (r.bufs.getD 0 .reset).ctl.getLsbD 0 = false ∧ r.recording = false

/-- The engine e runs command m and can go on. -/
def State.engineRuns (s : State) (e : EngineId) (m : QCmd) : Prop :=
  Shape s ∧ engineOk e = true ∧ s.asleep = false ∧ s.running e = some m ∧ s.isPaused e = false

/-- The engine e runs command m of a class, without completion record, whose work is still to be done. -/
def State.works (s : State) (e : EngineId) (m : QCmd) (cls : Nat) : Prop :=
  s.engineRuns e m ∧ m.ended = false ∧ m.cmd.cls = cls ∧ m.status = 0

/-- The step that completes the work of engine e leaves t: the engine is free, and the operation, which stands in u, has posted and is gone. -/
def State.completes (s u t : State) (e : EngineId) (m : QCmd) : Prop :=
  exec (.engineCommandComplete e) s = .next t ∧ t.running e = none ∧ ∀ c q, u.req m.req = some (c, q) → ∀ x ∈ (t.rc c).reqs, x.id ≠ m.req

end Sys2Proof.Machine

/-- Engines and their queues. ARMATURE_COMMAND_FORWARD, ENGINE_COMMAND_START (R342): a released command moves to the die queue of its engine, then to the engine.
ENGINE_COMMAND_COMPLETE (R13, R344, R345, R359): a command without completion record whose work is over frees the engine and posts its token; a page that is not present keeps
it waiting; MBXSEND delivers 64 bytes at once, or ends with FULL or DENIED. CPY (R347) of a row within one line at both ends puts the bytes of the source at the
destination. BINSCAT (R348) of one item: AFADD.W counts its bin, or the overflow, and the item goes to the place the old count names; past both capacities it
is dropped and counted. PODSEND (R361): the bytes go to the peer's window, or nothing does where the link is down or the peer refuses. ENQ (R355): the packet,
with SEQ one above its index, goes to its slot of the ring, and the queue is kicked. CTXSTART (R363): a code other than DONE leaves every context as it was;
a launch takes a FREE or HALTED record, a restore a SAVED one; GO sends on the held contexts of its mask; a descriptor that names the cell control page
ends with RANGE (R139). WATCH_ENGINE (R443): a copy that would write a watched line pauses the
engine.
That a command's work is one step, which request an answer meets, and FAILED for a PREEMPT that fails are the model's
(log entries 32, 33 and 45). -/
def Obligations.EngineSteps : Prop :=
  (∀ (cls d i : Nat) (s : State) (m : QCmd) (rest : List QCmd), Shape s → cls < 3 → d < 32 → i < 6 → s.asleep = false →
    s.armq.getD cls [] = m :: rest → enginePlace (s.engineFor m) = some (d, i) → s.released m = true → ((s.pdie d).engine i).queue.length < 32 →
    ∃ t, exec (.armatureCommandForward cls) s = .next t ∧ t.mem = s.mem ∧ t.recs = s.recs ∧ t.armq.getD cls [] = rest
      ∧ ((t.pdie d).engine i).queue = ((s.pdie d).engine i).queue ++ [{ m with no := s.cmdNo }] ∧ t.cmdNo = s.cmdNo + 1)
  ∧ (∀ (e : EngineId) (s s' : State) (m : QCmd), Shape s → engineOk e = true → s.asleep = false → s.running e = none → s.takeHead e = some (m, s') →
    (m.cmd.acq = true → s'.acquirePoint m = true) → s'.nearMoves m = false →
    ∃ t, exec (.engineCommandStart e) s = .next t ∧ t.running e = some (if m.badStatus = true then m.finish (if m.cmd.cls = 2 then 4 else 6) else m))
  ∧ (∀ (e : EngineId) (s : State) (m : QCmd), s.engineRuns e m → m.ended = true → m.status = 0 →
    (∀ c q, m.req ≠ cmdFirmware → s.req m.req = some (c, q) → ∃ t, exec (.engineCommandComplete e) s = .next t ∧ t.running e = none ∧ t.mem = s.mem
      ∧ (∀ x ∈ (t.rc c).reqs, x.id ≠ m.req)
      ∧ (∀ n, q.tok = some n → q.org = none → (t.rc c).core.rTs n = (s.rc c).core.rTs n + 1)
      ∧ (∀ n d l, q.tok = some n → q.org = some (d, l) → (t.cell c d l).core.rTk n = (s.cell c d l).core.rTk n + 1))
    ∧ (m.req = cmdFirmware → ∃ t, exec (.engineCommandComplete e) s = .next t ∧ t.running e = none ∧ t.mem = s.mem
      ∧ t.fw.busy = false ∧ t.fw.status = (if m.code = 0 then 0 else 6)))
  ∧ (∀ (e : EngineId) (s s' : State) (m m' : QCmd), s.engineRuns e m → m.ended = false → m.page = false → s.runCmd e m = some (.page s' m') → Shape s' →
    ∃ t, exec (.engineCommandComplete e) s = .next t ∧ t.running e = some { m' with page := true })
  ∧ (∀ (s s' : State) (m : QCmd) (bs : List (BitVec 8)), s.engineRuns (.armature 3) m → m.ended = false → m.cmd.cls = 3 →
    let c := m.w 0 % 16
    let b := m.w 0 / 16 % 4
    m.w 0 < 64 → m.w 1 % 64 = 0 → m.w 1 < 2 ^ 52 → touchesCtl (m.w 1) 64 = false → m.zeroFrom 3 = true → m.status = 0 → (∃ q, s.req m.req = some q) →
    (s.mbxDenied m.pasid c = true → ∃ t, exec (.engineCommandComplete (.armature 3)) s = .next t ∧ t.running (.armature 3) = none ∧ t.mem = s.mem ∧ t.mbx = s.mbx)
    ∧ (s.mbxDenied m.pasid c = false → s.engBytes m (m.w 1) 1 = (s', .bytes bs) → Shape s' → (∃ q, s'.req m.req = some q) → bs.length = 64 →
      ∃ t, exec (.engineCommandComplete (.armature 3)) s = .next t ∧ t.running (.armature 3) = none
        ∧ (s'.mbxFull c b = true → t.mem = s'.mem ∧ t.mbx = s'.mbx)
        ∧ (s'.mbxFull c b = false → SameBytes s' t (mbxMsg c b) 64 ∧ memBytes t.mem (mbxMsg c b) 64 = bs ∧ t.mbxFull c b = true)))
  ∧ (∀ (d i va : Nat) (s s' : State) (m m' : QCmd), s.engineRuns (.copy d i) m → m.ended = false → m.cmd.cls = 0 →
    s.runCpy (.copy d i) m = .watch s' m' va → ∃ t, exec (.watchEngine (.copy d i)) s = .next t ∧ t.isPaused (.copy d i) = true)
  ∧ (∀ (d i k k' n : Nat) (s s1 s2 : State) (m : QCmd), s.works (.copy d i) m 0 → m.prog = 0 → m.code = 0 → (∃ p, s2.req m.req = some p) →
    let x := m.cpy
    x.rows = 1 → x.rb = n → 0 < n → x.snear = false → x.dnear = false → x.uc = 0 → x.disc = false → x.src % 128 + n ≤ 128 → x.dst % 128 + n ≤ 128 →
    x.refused m (s.cmdScratch m) = false → s.watched (.copy d i) m x.dst n = none →
    s.engAt m.agent (some d) m.pasid x.src .engRead = (s1, .val k) → s1.engAt m.agent (some d) m.pasid x.dst .engWrite = (s2, .val k') →
    Shape s2 → s2.l2 = [] → s2.bad k = false →
    ∃ t, s.completes s2 t (.copy d i) m ∧ memBytes t.mem k' n = memBytes s2.mem k n ∧ SameBytes s2 t k' n)
  ∧ (∀ (e : EngineId) (s s1 : State) (m : QCmd) (va k : Nat), s.engAt m.agent (engineDie e) m.pasid va (.atomic true) = (s1, .val k) → s1.bad k = false →
    s1.l2 = [] → s1.untraced → ∃ s2, s.engCount e m va = (s2, .val (memRead s1.mem k 4)) ∧ memRead s2.mem k 4 = (memRead s1.mem k 4 + 1) % 2 ^ 32 ∧ SameBytes s1 s2 k 4)
  ∧ (∀ (d i l b item n k : Nat) (s s2 s3 : State) (m : QCmd), s.works (.copy d i) m 8 → m.cmd.items = [(l, b, item)] → l < 64 → b < 2 ^ 32 → item < 2 ^ 32 →
    m.binRefused = false → n < 2 ^ 32 → (∀ va w, s.watched (.copy d i) m va w = none ∧ s2.watched (.copy d i) m va w = none) →
    Shape s3 → s3.l2 = [] → (∃ p, s3.req m.req = some p) →
    let bins := m.w 2 % 2 ^ 32
    let cap := m.w 2 / 2 ^ 32
    (b < bins → n < cap → s.engCount (.copy d i) m (m.w 1 + 4 * b) = (s2, .val n) →
      s2.engAt m.agent (some d) m.pasid (m.w 0 + 4 * (b * cap + n)) .engWrite = (s3, .val k) →
      ∃ t, s.completes s3 t (.copy d i) m ∧ memRead t.mem k 4 = item ∧ SameBytes s3 t k 4)
    ∧ (bins ≤ b → n < m.w 4 → s.engCount (.copy d i) m (m.w 5) = (s2, .val n) →
      s2.engAt m.agent (some d) m.pasid (m.w 3 + 8 * n) .engWrite = (s3, .val k) →
      ∃ t, s.completes s3 t (.copy d i) m ∧ memRead t.mem k 8 = b * 2 ^ 32 + item ∧ SameBytes s3 t k 8)
    ∧ (bins ≤ b → m.w 4 ≤ n → s.engCount (.copy d i) m (m.w 5) = (s2, .val n) → s2.engCount (.copy d i) m (m.w 5 + 4) = (s3, .val k) →
      ∃ t, s.completes s3 t (.copy d i) m ∧ t.mem = s3.mem))
  ∧ (∀ (s s' : State) (m : QCmd) (bs : List (BitVec 8)), s.works (.armature 5) m 5 → m.code = 0 → (∃ p, s.req m.req = some p) →
    let port := m.w 1 % 8
    let n := m.w 3
    m.w 0 % 64 = 0 → m.w 0 + n ≤ 2 ^ 52 → m.w 1 < 8 → n % 64 = 0 → n < 2 ^ 32 → touchesCtl (m.w 0) n = false → m.zeroFrom 5 = true →
    (((s.pods.getD port .reset).up = false ∨ (s.pods.getD port .reset).version = 0) → ∃ t, s.completes s t (.armature 5) m ∧ t.mem = s.mem)
    ∧ ((s.pods.getD port .reset).up = true → (s.pods.getD port .reset).version ≠ 0 → s.engBytes m (m.w 0) (n / 64) = (s', .bytes bs) →
      Shape s' → (∃ p, s'.req m.req = some p) →
      ((Config.podRefuses port s'.freeCtr = true ∨ 2 ^ 52 < m.w 2 + n) → ∃ t, s.completes s' t (.armature 5) m ∧ t.mem = s'.mem)
      ∧ (Config.podRefuses port s'.freeCtr = false → m.w 2 + n ≤ 2 ^ 52 → ∃ t, s.completes s' t (.armature 5) m
          ∧ memBytes t.mem (podKey port (m.w 2)) bs.length = bs ∧ SameBytes s' t (podKey port (m.w 2)) bs.length)))
  ∧ (∀ (s s1 s2 : State) (m : QCmd) (hdr ix log2 k k' : Nat), s.works (.armature 4) m 4 → m.cmd.items = [(hdr, ix, log2)] →
    s.engAt m.agent none m.pasid hdr .engRead = (s1, .val k) →
    (s1.noteRead k 0 false false).engAt m.agent none m.pasid (memRead s1.mem k 8 % 2 ^ 52 + 64 * (ix % 2 ^ log2)) .engWrite = (s2, .val k') →
    s1.l2 = [] → Shape s2 → (∃ p, s2.req m.req = some p) →
    ∃ t, s.completes s2 t (.armature 4) m ∧ memRead t.mem k' 8 = (ix + 1) % 2 ^ 32 * 2 ^ 32 + m.w 0 % 2 ^ 32
      ∧ (∀ i, 1 ≤ i → i < 8 → memRead t.mem (k' + 8 * i) 8 = m.w i) ∧ SameBytes s2 t k' 64
      ∧ t.qslots = (s2.kick m.pasid (m.w 0 % 2 ^ 16)).qslots ∧ t.kickFifo = (s2.kick m.pasid (m.w 0 % 2 ^ 16)).kickFifo)
  ∧ (∀ (s s' : State) (m : QCmd) (code : Nat), s.works (.armature 6) m 6 → (∃ p, s.req m.req = some p) →
    (s.startRefused m = true → ∃ t, s.completes s t (.armature 6) m ∧ t.mem = s.mem ∧ ∀ c, (t.rc c).life = (s.rc c).life ∧ (t.rc c).slot = (s.rc c).slot)
    ∧ (s.startRefused m = false → s.startMissing m = false → s.ctxstart m.pasid m.cmd.e = (s', code) → Shape s' → (∃ p, s'.req m.req = some p) →
      ∃ t, s.completes s' t (.armature 6) m ∧ t.mem = s'.mem ∧ ∀ c, (t.rc c).life = (s'.rc c).life ∧ (t.rc c).slot = (s'.rc c).slot
        ∧ (t.rc c).core.pc = (s'.rc c).core.pc))
  ∧ (∀ (s s' : State) (pasid : Nat) (e : List Word) (code : Nat), Shape s → s.ctxstart pasid e = (s', code) →
    let e0 := (e.headD 0)
    let c := e0.toNat % 16
    (code ≠ 0 → s' = s)
    ∧ (code = 0 → e0.getLsbD 7 = false → (s'.rc c).slot.isSome = true
      ∧ (e0.getLsbD 4 = false → ((s.rc c).life = .free ∨ (s.rc c).life = .halted)
        ∧ (s'.rc c).life = (if e0.getLsbD 6 then .waiting .start else .ready) ∧ (s'.rc c).pasid = e0.extractLsb' 20 20 ∧ (s'.rc c).priv = e0.getLsbD 5
        ∧ (s'.rc c).floor = e0.extractLsb' 8 3 ∧ (s'.rc c).field = rectOf ((e.getD 1 0).toNat % 2 ^ 32) ∧ (s'.rc c).group = rectOf ((e.getD 1 0).toNat / 2 ^ 32))
      ∧ (e0.getLsbD 4 = true → (s.rc c).life = .saved ∧ (s.rc c).pasid = e0.extractLsb' 20 20
        ∧ (e0.getLsbD 6 = true → (s'.rc c).life = .waiting .start)
        ∧ (e0.getLsbD 6 = false → (s'.rc c).life = .ready ∨ (s'.rc c).life = .halted ∨ ∃ n, (s'.rc c).life = .waiting (.idle n))))
    ∧ (code = 0 → e0.getLsbD 7 = true → ∀ k, k < 16 →
      ((s.rc k).life = .waiting .start → (s.rc k).held = false → (s.rc k).pasid.toNat = pasid → (e.getD 5 0).getLsbD k = true →
        ((s.rc k).resumeLife = .ready → (s'.rc k).life = .ready) ∧ ((s.rc k).resumeLife = .halted → (s'.rc k).life = .halted)
        ∧ ∀ n, (s.rc k).resumeLife = .waiting (.idle n) → (s'.rc k).life = .waiting (.idle n))
      ∧ (((s.rc k).life ≠ .waiting .start ∨ (s.rc k).pasid.toNat ≠ pasid ∨ (e.getD 5 0).getLsbD k = false) → s'.rc k = s.rc k)))

/-- Installs, moves and the managed heap. INSTALL_UNIT_COMMIT (R350, R416): a unit that a stream still reads ends the command with READERS and releases its reservation;
a unit read, programmed and verified is counted in the command, and takes one unit of the tenant's budget and reservation.
RELOC_LINE_COPY (R286, R287): a line before the last is copied, by the translations that the engine holds, and the cursor moves. FWD_INVALIDATION,
FWD_INVALIDATION_ACK (R289, R292): the die's copies of the entry go, then it acknowledges. HEAP_ALLOCATE, HEAP_FREE (R280, R292): the entry becomes HOME
with the object, where no invalidation guards its space, or FREE at its next version, its space guarded.
Which streams count as readers, the count of a spare block, and what a forwarding cache holds are the model's (log entries 38, 39 and 67). -/
def Obligations.HeapSteps : Prop :=
  (∀ (d key : Nat) (out : InstallOutcome) (s s' : State) (m : QCmd) (t0 : Tenant), s.engineRuns (.kiln d) m → m.ended = false → m.cmd.cls = 1 → m.accepted = true →
    s.health.hstate ≠ 2 → s.engAt m.agent (some d) m.pasid (m.w 1 + m.prog * unitBytes) .kiln = (s', .val key) → Shape s' → s'.readers d (flashUnit key) = true →
    mapFind s'.tenants m.pasid = some t0 → ∃ t, exec (.installUnitCommit d out) s = .next t ∧ t.running (.kiln d) = some (m.finish 7) ∧ t.mem = s'.mem
      ∧ (mapFind t.tenants m.pasid).map (fun x => (x.resv, x.budget)) = some (t0.resv - BitVec.ofNat 32 m.left, t0.budget))
  ∧ (∀ (d key : Nat) (s s' s2 : State) (m : QCmd) (t0 : Tenant) (x : Die) (remap : Bool), s.engineRuns (.kiln d) m → m.ended = false → m.cmd.cls = 1 → m.accepted = true →
    s.health.hstate ≠ 2 → s.engAt m.agent (some d) m.pasid (m.w 1 + m.prog * unitBytes) .kiln = (s', .val key) → s'.readers d (flashUnit key) = false →
    s'.unitPages d m (m.w 0 + m.prog * unitBytes) key 8192 = (s2, some none) → Shape s2 → mapFind s2.tenants m.pasid = some t0 →
    (s2.pdie d).program (flashUnit key) false s2.freeCtr = (x, remap, false) →
    ∃ t m', exec (.installUnitCommit d .done) s = .next t ∧ t.running (.kiln d) = some m' ∧ m'.prog = m.prog + 1
      ∧ (m.left = 1 → m'.ended = true ∧ m'.code = (if m.remapped = true ∨ remap = true then 1 else 0)) ∧ (1 < m.left → m'.ended = false ∧ m'.left = m.left - 1)
      ∧ (mapFind t.tenants m.pasid).map (fun x => (x.resv, x.budget)) = some (t0.resv - 1, BitVec.ofNat 32 (t0.budget.toNat - 1)))
  ∧ (∀ (d : Nat) (s : State) (m : QCmd) (x : Move), s.engineRuns (.pointing d) m → ((s.pdie d).engine 4).move = some x → x.acks = none →
    s.watchedLine d x m = none → x.done + 1 < x.lines → x.lines < 2 ^ 18 → s.l2 = [] → s.untraced →
    let k := pageKey x.oldPages x.old (128 * x.done)
    let k' := pageKey x.newPages x.new (128 * x.done)
    ∃ t, exec (.relocLineCopy d) s = .next t ∧ t.running (.pointing d) = some { m with prog := x.done + 1 }
      ∧ ((t.pdie d).engine 4).move = some { x with done := x.done + 1, poisoned := x.poisoned || s.bad k }
      ∧ memBytes t.mem k' 128 = memBytes s.mem k 128 ∧ SameBytes s t k' 128
      ∧ (t.fwdEntry x.pasid x.hid x.obj).state = 2 ∧ (t.fwdEntry x.pasid x.hid x.obj).cursor = x.done + 1
      ∧ (t.fwdEntry x.pasid x.hid x.obj).version = (s.fwdEntry x.pasid x.hid x.obj).version)
  ∧ (∀ (d pasid hid obj no : Nat) (s : State) (xs : List (Nat × Nat × Nat × Nat)), Shape s → s.asleep = false → d < 32 →
    ((s.pdie d).fwdInv = (pasid, hid, obj, no) :: xs → ∃ t, exec (.fwdInvalidation d) s = .next t ∧ t.mem = s.mem ∧ (t.pdie d).fwdInv = xs
      ∧ (t.pdie d).fwdAck = (s.pdie d).fwdAck ++ [(pasid, hid, obj, no)]
      ∧ ∀ c, (t.rc c).pasid.toNat = pasid → (∀ l, mapFind (t.cell c d l).fwdc (fwdKey pasid hid obj) = none)
        ∧ ((t.rc c).field.origin = d → mapFind (t.rc c).fwdc (fwdKey pasid hid obj) = none))
    ∧ ((s.pdie d).fwdAck = (pasid, hid, obj, no) :: xs → s.refInFlight d (pasid, hid, obj, no) = false →
      (∀ g v, ((s.pdie g).engine 4).move = some v → v.no ≠ no) →
      exec (.fwdInvalidationAck d) s = .next { s.updPdie d (fun y => { y with fwdAck := xs }) with
        freed := (s.freed.map (fun f => if f.no = no then { f with dies := f.dies.filter (fun y => y != d) } else f)).filter (fun f => !f.dies.isEmpty) })
    ∧ (∀ g v ds, (s.pdie d).fwdAck = (pasid, hid, obj, no) :: xs → s.refInFlight d (pasid, hid, obj, no) = false → g < 32 →
      ((s.pdie g).engine 4).move = some v → v.no = no →
      v.acks = some ds → (∃ y ∈ ds, y ≠ d) → (∀ h u, h ≠ g → ((s.pdie h).engine 4).move = some u → u.no ≠ no) →
      ∃ t, exec (.fwdInvalidationAck d) s = .next t ∧ t.mem = s.mem ∧ (t.pdie d).fwdAck = xs
        ∧ ((t.pdie g).engine 4).move = some { v with acks := some (ds.filter (fun y => y != d)) }))
  ∧ (∀ (pasid hid obj base size : Nat) (s : State), s.heapValid pasid hid = true → obj < s.heapCount pasid hid →
    (s.fwdEntry pasid hid obj).state = 0 → 0 < size → size ≤ 2 ^ 24 → base % 128 = 0 → s.heapArena pasid hid ≤ base → base < 2 ^ 52 →
    base + size ≤ s.heapArena pasid hid + s.heapSize pasid hid → s.guarded pasid base size = false →
    ∃ t, exec (.heapAllocate pasid hid obj base size) s = .next t ∧ t.mem = s.mem
      ∧ (let f := t.fwdEntry pasid hid obj
         f.state = 1 ∧ f.base = base ∧ f.size = size ∧ f.pins = 0 ∧ f.version = (s.fwdEntry pasid hid obj).version)
      ∧ ∀ p h o, fwdKey p h o ≠ fwdKey pasid hid obj → t.fwdEntry p h o = s.fwdEntry p h o)
  ∧ (∀ (pasid hid obj : Nat) (s : State), (s.fwdEntry pasid hid obj).state = 1 → (s.fwdEntry pasid hid obj).pins = 0 →
    ∃ t, exec (.heapFree pasid hid obj) s = .next t ∧ t.mem = s.mem ∧ (t.fwdEntry pasid hid obj).state = 0
      ∧ (t.fwdEntry pasid hid obj).version = ((s.fwdEntry pasid hid obj).version + 1) % 2 ^ 16
      ∧ (Shape s → ∀ d, d < 32 → (t.pdie d).fwdInv = (s.pdie d).fwdInv ++ (if d ∈ s.accessed pasid (s.fwdEntry pasid hid obj).base (s.fwdEntry pasid hid obj).size
          then [(pasid, hid, obj, s.invNo)] else []))
      ∧ (let ds := s.accessed pasid (s.fwdEntry pasid hid obj).base (s.fwdEntry pasid hid obj).size
         t.freed = if ds = [] then s.freed else s.freed ++
           [{ pasid := pasid, base := (s.fwdEntry pasid hid obj).base, size := (s.fwdEntry pasid hid obj).size, no := s.invNo, dies := ds }]))

/-! ## Events: tables and dies -/

/-- Tables and dies. DIE_RETIREMENT (R384, R387): the die is retired; no heap keeps its table there and no line its ownership. DICT_ENTRY_REWRITE
(R371): it holds issue for at most 64 cycles and is logged; a sibling changes no value; where all four copies are bad the entry is read again from its block, or the die retires. TLB_INVALIDATION and its
acknowledgement (R380): the die drops its entries at once, and answers once no access through the old translation is under way; the last answer ends the
command. ATS_INVALIDATION (R236): the port drops the page. TABLE_WALK (R40, R379): for an address that an access names, the companion bit of the die is set, and its TLB is filled. REPAIR_DECISION (R386, R469): the entry is
in force, and SPCOLS is the number of the entries of KIND 4 in force.
OWNERSHIP_RETURN (R325). BANK_SNAPSHOT (R413): the counters of the group's cells are cleared. DIE_CYCLE (R243, R410 to R412): of the requesters at a bank one is served, the refused are counted.
Which step charges the stall counters, which requesters ask and where a counter stands, and what a refetched dictionary entry changes are the model's choices (log
entries 40, 41, 85 and 86). -/
def Obligations.TableSteps : Prop :=
  (∀ (d : Nat) (s : State), Shape s → d < 32 → (s.pdie d).retired = false →
    ∃ t, exec (.dieRetirement d) s = .next t ∧ (t.pdie d).retired = true ∧ (t.pdie d).tenant = none
      ∧ (∀ line, (mapGet .reset t.leases line).owner.toNat ≠ d)
      ∧ (∀ p T h, mapFind t.tenants p = some T → h < 16 → tbit (mapGet 0 T.heap (4 * h)) 63 = true → bitsOf (mapGet 0 T.heap (4 * h)) 40 5 ≠ d))
  ∧ (∀ (c d hub x : Nat) (s : State), Shape s → c < 16 → d < 32 → hub < 5 → (s.rc c).slot.isSome = true → d ∈ (s.rc c).field.dies →
    x < (s.rc c).dictSize →
    let u := s.noteRewrite c d
    (hub < 4 → ∃ n, n ≤ 64 ∧ exec (.dictEntryRewrite c d hub x) s = .next
      { (s.noteDie d).updDctx c d (fun y => { y with sc := mapSet 0 y.sc 11 (mapGet 0 y.sc 11 + BitVec.ofNat 64 n) }) with
        freeCtr := s.freeCtr + 1, reports := s.reports ++ [.dictionary d] })
    ∧ (∀ w, hub = 4 → u.blockEntry (s.rc c) x = some w → ∃ t, exec (.dictEntryRewrite c d hub x) s = .next t ∧ t.mem = s.mem
        ∧ (t.rc c).dict = (s.rc c).dict.set x w ∧ SameRecords u t c)
    ∧ (hub = 4 → u.blockEntry (s.rc c) x = none → ∃ t, exec (.dictEntryRewrite c d hub x) s = .next t ∧ (t.pdie d).retired = true))
  ∧ (∀ (d pasid : Nat) (page : Option Nat) (rest : List (Nat × Option Nat)) (s : State), Shape s → d < 32 → s.asleep = false →
    ((s.pdie d).tlbInv = (pasid, page) :: rest → ∃ t, exec (.tlbInvalidation d) s = .next t ∧ t.mem = s.mem ∧ (t.pdie d).tlbInv = rest
      ∧ (t.pdie d).tlbAck = (s.pdie d).tlbAck ++ [(pasid, page)] ∧ (∀ k, page = some k → mapFind (t.pdie d).tlb k = none)
      ∧ (∀ va level, page = none → va < 2 ^ 52 → mapFind (t.pdie d).tlb (tlbKey pasid va level) = none))
    ∧ ((s.pdie d).tlbAck = (pasid, page) :: rest → s.pageInUse d pasid page = false →
      ∃ t, exec (.tlbInvalidationAck d) s = .next t ∧ t.mem = s.mem ∧ (t.pdie d).tlbAck = rest
        ∧ (s.mapinv = none → t.mapinv = none ∧ t.fw = s.fw)
        ∧ (∀ ds, s.mapinv = some (pasid, page, ds) → (∀ y ∈ ds, y = d) → t.mapinv = none ∧ t.fw.busy = false ∧ t.fw.status = 0)
        ∧ (∀ ds, s.mapinv = some (pasid, page, ds) → (∃ y ∈ ds, y ≠ d) →
            t.mapinv = some (pasid, page, ds.filter (fun y => y != d)) ∧ t.fw = s.fw)))
  ∧ (∀ (port pasid : Nat) (page : Option Nat) (rest : List (Nat × Option Nat)) (s : State), Shape s → port < 8 → s.asleep = false →
    ((s.pods.getD port .reset).inv = (pasid, page) :: rest → ∃ t, exec (.tlbInvalidation (32 + port)) s = .next t ∧ t.mem = s.mem
      ∧ (t.pods.getD port .reset).inv = rest ∧ (t.pods.getD port .reset).ack = (s.pods.getD port .reset).ack ++ [(pasid, page)]
      ∧ (∀ k, page = some k → mapFind (t.pods.getD port .reset).tlb k = none))
    ∧ ((s.pods.getD port .reset).ack = (pasid, page) :: rest → ∃ t, exec (.tlbInvalidationAck (32 + port)) s = .next t ∧ t.mem = s.mem
      ∧ (t.pods.getD port .reset).ack = rest
      ∧ (∀ ds, s.mapinv = some (pasid, page, ds) → (∀ y ∈ ds, y = 32 + port) → t.mapinv = none ∧ t.fw.busy = false ∧ t.fw.status = 0)))
  ∧ (∀ (pasid page : Nat) (s : State), (∀ r ∈ s.recs, r.pasid.toNat = pasid → ∀ q ∈ r.reqs, q.stage ≠ .performed → ∀ p ∈ q.parts,
      p.tgt.cls = clsHOST → p.tgt.va / 2 ^ 16 ≠ page) →
    exec (.atsInvalidation pasid page) s = .next { s with ats := s.ats.filter (fun p => p ≠ (pasid, page)) })
  ∧ (∀ (d pasid va leaf level : Nat) (w : Word) (s : State), Shape s → d < 32 → s.asleep = false → s.walkNamed d pasid (va % 2 ^ 52) = true →
    s.walk pasid (va % 2 ^ 52) = .ok (leaf, w, level) → (∀ k ∈ s.walkKeys pasid (va % 2 ^ 52), s.bad k = false) → s.l2 = [] →
    ∃ t, exec (.tableWalk d pasid va) s = .next t ∧ t.recs = s.recs
      ∧ mapFind (t.pdie d).tlb (tlbKey pasid (va % 2 ^ 52) level) = some { word := w, level := level }
      ∧ SameBytes s t (leaf + 8) 8 ∧ memRead t.mem (leaf + 8) 8 = (BitVec.ofNat 64 (memRead s.mem (leaf + 8) 8) ||| BitVec.ofNat 64 (2 ^ d)).toNat)
  ∧ (∀ (d ix : Nat) (ent : Word) (s : State), Shape s → d < 32 → ix < 4096 → bitsOf ent 60 3 < 5 → bitsOf ent 56 4 = 0 →
    (bitsOf ent 60 3 = 4 → tbit ent 63 = true → ∀ c, c < 16 → (s.rc c).slot.isSome = true → d ∉ (s.rc c).field.dies) →
    ∃ t, exec (.repairDecision d ix ent) s = .next t ∧ t.mem = s.mem ∧ t.recs = s.recs ∧ mapGet 0 (t.pdie d).repair ix = ent
      ∧ t.health.spcols = BitVec.ofNat 16 ((t.dies.map (fun x => (x.repair.filter (fun p => tbit p.2 63 && bitsOf p.2 60 3 == 4)).length)).sum))
  ∧ (∀ (line : Nat) (s : State), s.asleep = false → (mapGet .reset s.leases line).owner ≠ 0x3F →
    ∃ t, exec (.ownershipReturn line) s = .next t ∧ (mapGet .reset t.leases line).owner = 0x3F
      ∧ (((mapGet .reset s.leases line).grantee = none ∨ s.untraced) → t = { s with leases := t.leases })
      ∧ ∀ l, l ≠ line → mapGet .reset t.leases l = mapGet .reset s.leases l)
  ∧ (∀ (c d : Nat) (s : State) (x : BitVec 48 × Nat × BitVec 32 × Nat) (rest : List (BitVec 48 × Nat × BitVec 32 × Nat)), Shape s → c < 16 → d < 32 →
    s.asleep = false →
    (s.dctx c d).snapAt = x :: rest → 0 ≤ inDiff (s.dctx c d).e x.1 →
    ∃ t, exec (.bankSnapshot c d) s = .next t ∧ (t.dctx c d).snapAt = rest ∧ SameRecords s t c
      ∧ (((s.rc c).bufs.getD 1 .reset).ctl.getLsbD 0 = false → t.mem = s.mem)
      ∧ (∀ l i, l ∈ (s.rc c).group.cells → l < 64 → i < 128 → t.bankOf d l i = 0))
  ∧ (∀ (d : Nat) (s : State), Shape s → d < 32 → s.asleep = false →
    ∃ t, exec (.dieCycle d) s = .next t ∧ t.mem = s.mem
      ∧ (∀ c k, c < 16 → (s.rc c).slot.isSome = true → d ∈ (s.rc c).field.dies → s.stallCause c d = some k →
          mapGet 0 (t.dctx c d).sc k = mapGet 0 (s.dctx c d).sc k + 1)
      ∧ (∀ i, i < 6 → ((t.pdie d).engine i).busy = ((s.pdie d).engine i).busy + (if ((s.pdie d).engine i).running.isSome then 1 else 0))
      ∧ ∀ l b q, l < 64 → b < 16 → q < 8 →
        let key := fun (q : Nat) => (d * 64 + l) * 128 + 16 * q + b
        let asks := fun (q : Nat) => decide (mapGet 0 s.bankWait (key q) ≠ 0) || Config.bankAsks s.clk ((d * 64 + l) * 16 + b) q
        mapGet 0 t.bankConf (key q) = if asks q = true ∧ bankTurn asks (fun q => mapGet 0 s.bankWait (key q)) ≠ some q
          then satInc (mapGet 0 s.bankConf (key q)) else mapGet 0 s.bankConf (key q))

/-! ## Events: the outside -/

/-- The host and the peers. What the host carries ends the idle time (R466). MAILBOX_DELIVERY (R359): 64 bytes and FULL at once; refused whole at a full
mailbox. MBXSTAT_STORE (R358): a bit written as 1 clears. KICK (R356): KICKED of the slot that maps the queue is set, else the kick is recorded once, or the
overflow. TICKET_BLOCK_STORE (R406): the counter takes the value where the context is resident. HOST_POSTED_WRITE, HOST_READ (R457): through the window of the
tenant, the atomics with the old value as their answer; of the control window FSTAT, NEGV and RESP (R459), and a register of an Armature page (R455). Without an agreed
version nothing is carried (R458), and in recovery mode no register page is exposed (R462). POD_ARRIVAL (R233, R461): into a mailbox, or through
the pages of the port's window, whose base and size are multiples of 64 KiB. POD_LINK_UP, POD_LINK_LOSS (R458, R460): the agreed version and the peer's translations go with the link, and
an accepted command for the port ends with LINK. REGISTER_WRITE (R455, R459, R462): CMD; the doorbell, which sets BUSY, or CMDLOST where BUSY is set; FSTAT, where
a 1 clears CMDLOST. ATELIER_FRAME_TICK (R327, R389, R451): the frame's poll positions are past, kicks are read, and the slice of the tenant that follows in turn passes, whatever the others
ask. ATELIER_FAULT, ATELIER_RELOAD_COMPLETE (R450). QUEUE_SLOT_POLL (R354, R451): at its one position of the frame a kicked slot waits one frame more; a slot without
reserved indices takes a run of them from WIDX.
What a refused access of the host leaves, a FREE record's mailbox, and the image buffer's place are the model's (log
entries 46, 47 and 48), and so are the window of a pod port (37), how many kicks the management cores read (84), what they translate (50) and the forms of the host's atomics (71). -/
def Obligations.OutsideSteps : Prop :=
  (∀ (c m : Nat) (msg : List (BitVec 64)) (s : State), Shape s → c < 16 → m < 4 → s.power = .run →
    ((s.carries = false ∨ s.mbxFull c m = true ∨ (s.rc c).life = .free) → exec (.mailboxDelivery c m msg) s = .next { s with idleNs := 0 })
    ∧ (s.carries = true → s.mbxFull c m = false → (s.rc c).life ≠ .free → ∃ t, exec (.mailboxDelivery c m msg) s = .next t ∧ t.mbxFull c m = true
      ∧ memBytes t.mem (mbxMsg c m) 64 = wordsBytes (msg.map BitVec.toNat) 64 ∧ SameBytes s t (mbxMsg c m) 64
      ∧ ∀ b k, b < 16 → (b, k) ≠ (c, m) → t.mbxFull b k = s.mbxFull b k))
  ∧ (∀ (c v : Nat) (s : State), Shape s → c < 16 → s.power = .run → s.ate.life ≠ .recovery → ∃ t, exec (.mbxstatStore c v) s = .next t ∧ t = { s with mbx := t.mbx, idleNs := 0 }
      ∧ (∀ m, m < 4 → t.mbxFull c m = (s.mbxFull c m && !v.testBit m)) ∧ ∀ b m, b ≠ c → t.mbxFull b m = s.mbxFull b m)
  ∧ (∀ (pasid qid : Nat) (s : State), qid < 8192 → s.power = .run →
    let maps := fun (q : QSlot) => tbit q.qa 63 && bitsOf q.qa 20 20 == pasid && bitsOf q.qa 0 16 == qid
    (s.carries = false → exec (.kick pasid qid) s = .next { s with idleNs := 0 })
    ∧ (s.carries = true → ∃ t, exec (.kick pasid qid) s = .next t ∧ t.mem = s.mem ∧ t.recs = s.recs
      ∧ (s.qslots.any maps = true → t.kickFifo = s.kickFifo ∧ t.kickOver = s.kickOver ∧ ∃ q ∈ t.qslots, maps q = true ∧ tbit q.qa 62 = true)
      ∧ (s.qslots.any maps = false → t.qslots = s.qslots ∧
          (if (pasid, qid) ∈ s.kickFifo then t.kickFifo = s.kickFifo ∧ t.kickOver = s.kickOver
           else if s.kickFifo.length < 256 then t.kickFifo = s.kickFifo ++ [(pasid, qid)] ∧ t.kickOver = s.kickOver
           else t.kickFifo = s.kickFifo ∧ t.kickOver = true))))
  ∧ (∀ (c d n : Nat) (v : Word) (s : State), Shape s → c < 16 → d < 32 → n < 8 → s.power = .run →
    (((s.rc c).slot.isNone = true ∨ d ∉ (s.rc c).field.dies) → exec (.ticketBlockStore c d n v) s = .next { s with idleNs := 0 })
    ∧ ((s.rc c).slot.isSome = true → d ∈ (s.rc c).field.dies → ∃ t, exec (.ticketBlockStore c d n v) s = .next t ∧ t = { s with recs := t.recs, idleNs := 0 } ∧ SameRecords s t c
      ∧ mapGet 0 (t.dctx c d).tc n = v ∧ (∀ k, k ≠ n → mapGet 0 (t.dctx c d).tc k = mapGet 0 (s.dctx c d).tc k)))
  ∧ (∀ (pasid off : Nat) (bytes : List (BitVec 8)) (rx : Bool) (s : State), s.power = .run →
    (s.windowKeys pasid off bytes.length true = none → exec (.hostPostedWrite pasid off bytes rx) s = .next { s with idleNs := 0 })
    ∧ (∀ ks, s.windowKeys pasid off bytes.length true = some ks → ∃ t, exec (.hostPostedWrite pasid off bytes rx) s = .next t ∧ t = { s with mem := t.mem, poison := t.poison, idleNs := 0 }
      ∧ (∀ k, k ∉ ks → memGet t.mem k = memGet s.mem k)
      ∧ (∀ i, ks.Nodup → i < bytes.length → memGet t.mem (ks.getD i 0) = bytes.getD i 0)))
  ∧ (∀ (pasid off n : Nat) (s : State), s.power = .run → ∃ t, exec (.hostRead pasid off (.read n)) s = .next t ∧ t.recs = s.recs ∧ t.idleNs = 0
      ∧ (s.windowKeys pasid off n false = none → t.hostReads = s.hostReads ++ [[]] ∧ t.mem = s.mem)
      ∧ (∀ ks, s.windowKeys pasid off n false = some ks → t.hostReads = s.hostReads ++ [if ks.any s.bad then [] else ks.map (memGet s.mem)]))
  ∧ (∀ (pasid off n v old new : Nat) (s : State), Shape s → s.power = .run → s.l2 = [] → (n = 4 ∨ n = 8) → off % n = 0 →
    ∀ f ∈ [(HostAccess.fetchAdd n v, fun (x : Nat) => x + v), (.swap n v, fun _ => v), (.cas n old new, fun x => if x = old % 2 ^ (8 * n) then new else x)],
      (s.windowAt pasid off (.atomic true) = none →
        exec (.hostRead pasid off f.1) s = .next { s with hostReads := s.hostReads ++ [[]], idleNs := 0 })
      ∧ (∀ k, s.windowAt pasid off (.atomic true) = some k → s.bad k = false →
        ∃ t, exec (.hostRead pasid off f.1) s = .next t ∧ t.recs = s.recs ∧ t.hostReads = s.hostReads ++ [leBytes n (memRead s.mem k n)]
          ∧ memRead t.mem k n = f.2 (memRead s.mem k n) % 2 ^ (8 * n) ∧ SameBytes s t k n))
  ∧ (∀ (pasid off n i d : Nat) (s : State), s.power = .run →
    let answers := fun (x : Instr) (bs : List (BitVec 8)) => exec x s = .next { s with hostReads := s.hostReads ++ [bs], idleNs := 0 }
    (s.ate.life ≠ .recovery →
      answers (.hostRead pasid 0x48 (.control 8)) (leBytes 8 ((if s.fw.busy then 2 ^ 63 else 0) + (if s.fw.cmdlost then 2 ^ 62 else 0) + s.fw.status.toNat))
      ∧ answers (.hostRead pasid 0x50 (.control 8))
          (leBytes 8 ((s.pods.getD 0 .reset).version.toNat * 2 ^ 32 + s.fw.negHost.toNat * 2 ^ 16 + s.fw.negFw.toNat))
      ∧ (i < 128 → answers (.hostRead pasid (0x80 + i) (.control 1)) [s.fw.resp.getD i 0]))
    ∧ (d < 32 → 0x0F0000000000 ≤ off → mmioPage off < 7 → (n = 4 ∨ n = 8) → off % n = 0 →
      answers (.hostRead pasid off (.register n d)) (if s.ate.life = .recovery then [] else leBytes n (s.mmioRead 0 true (dieKey d off) n))))
  ∧ (∀ (port c m off : Nat) (bytes : List (BitVec 8)) (s : State), Shape s → port < 8 → (s.pods.getD port .reset).up = true → s.power = .run →
    let p := s.pods.getD port .reset
    (c < 16 → m < 4 → bytes.length = 64 → s.mbxFull c m = false → (s.rc c).life ≠ .free →
      ∃ t, exec (.podArrival port (some (c, m)) off bytes) s = .next t ∧ t.mbxFull c m = true ∧ memBytes t.mem (mbxMsg c m) 64 = bytes ∧ SameBytes s t (mbxMsg c m) 64)
    ∧ (c < 16 → m < 4 → (bytes.length ≠ 64 ∨ s.mbxFull c m = true ∨ (s.rc c).life = .free) → exec (.podArrival port (some (c, m)) off bytes) s = .next s)
    ∧ (∀ s' ks, off + bytes.length ≤ p.size →
      s.podPages port p.pasid (pageBase (p.base + off)) (pageCount (p.base + off) bytes.length) = (s', some ks) →
      let key := pageKey ks (p.base + off)
      ∃ t, exec (.podArrival port none off bytes) s = .next t ∧ t = { s' with mem := t.mem, poison := t.poison }
        ∧ (∀ k, (∀ i, i < bytes.length → key i ≠ k) → memGet t.mem k = memGet s'.mem k)
        ∧ ((∀ i j, i < bytes.length → j < bytes.length → key i = key j → i = j) → ∀ i, i < bytes.length → memGet t.mem (key i) = bytes.getD i 0))
    ∧ (∀ s', off + bytes.length ≤ p.size →
      s.podPages port p.pasid (pageBase (p.base + off)) (pageCount (p.base + off) bytes.length) = (s', none) →
      exec (.podArrival port none off bytes) s = .next s')
    ∧ (p.size < off + bytes.length → exec (.podArrival port none off bytes) s = .next s))
  ∧ (∀ (port lo hi peer : Nat) (s : State), Shape s → port < 8 →
    ((s.pods.getD port .reset).up = false → ¬(lo ≤ 0x0100 ∧ 0x0100 ≤ hi) → exec (.podLinkUp port lo hi peer) s = .next s)
    ∧ ((s.pods.getD port .reset).up = false → lo ≤ 0x0100 → 0x0100 ≤ hi →
      ∃ t, exec (.podLinkUp port lo hi peer) s = .next t ∧ t = { s with pods := t.pods, freeCtr := s.freeCtr + 1 }
        ∧ (t.pods.getD port .reset).up = true ∧ (t.pods.getD port .reset).version = 0x0100 ∧ (t.pods.getD port .reset).peer = BitVec.ofNat 32 peer
        ∧ (t.pods.getD port .reset).base % 65536 = 0 ∧ (t.pods.getD port .reset).size % 65536 = 0
        ∧ (t.pods.getD port .reset).base + (t.pods.getD port .reset).size ≤ 2 ^ 52
        ∧ ∀ k, k ≠ port → t.pods.getD k .reset = s.pods.getD k .reset)
    ∧ ((s.pods.getD port .reset).up = true → ∃ t, exec (.podLinkLoss port) s = .next t
      ∧ t = { s with pods := t.pods, mapinv := t.mapinv, fw := t.fw, armq := t.armq, armRun := t.armRun }
      ∧ (let sent := fun (m : QCmd) => if m.w 1 % 8 = port ∧ m.ended = false then { m with code := kLINK } else m
         t.armq = s.armq.set 5 ((s.armq.getD 5 []).map sent) ∧ t.armRun = s.armRun.set 5 ((s.armRun.getD 5 none).map sent))
      ∧ t.pods.getD port .reset = { s.pods.getD port .reset with up := false, version := 0, tlb := [], inv := [], ack := [] }
      ∧ ((s.pods.getD port .reset).inv = [] → (s.pods.getD port .reset).ack = [] → t.mapinv = s.mapinv ∧ t.fw = s.fw)))
  ∧ (∀ (pa d n : Nat) (v : Word) (s : State), s.power = .run → n ∈ [1, 2, 4, 8] → pa % n = 0 →
    (d < 32 → 0x0F0000000000 ≤ pa → mmioPage pa < 7 → s.ate.life = .recovery → exec (.registerWrite pa d n v) s = .next { s with idleNs := 0 })
    ∧ (d < 32 → 0x0F0000000000 ≤ pa → mmioPage pa < 7 → mmioPage pa ≠ 4 → s.ate.life ≠ .recovery →
        exec (.registerWrite pa d n v) s = .next { s.mmioWrite 0 true (dieKey d pa) n v.toNat with idleNs := 0 })
    ∧ (s.ate.life ≠ .recovery → pa = 0x40 → exec (.registerWrite pa 32 n v) s = .next
        { s with idleNs := 0, fw := { s.fw with busy := true, cmdlost := s.fw.cmdlost || s.fw.busy } })
    ∧ (s.ate.life ≠ .recovery → pa = 0x48 → n = 8 → exec (.registerWrite pa 32 n v) s = .next
        { s with idleNs := 0, fw := { s.fw with cmdlost := s.fw.cmdlost && !v.getLsbD 62 } })
    ∧ (s.ate.life ≠ .recovery → pa + n ≤ 0x40 → s.fw.cmd.length = 64 → ∃ t, exec (.registerWrite pa 32 n v) s = .next t
        ∧ t = { s with idleNs := 0, fw := { s.fw with cmd := t.fw.cmd } }
        ∧ ∀ i, i < 64 → t.fw.cmd.getD i 0 = (if pa ≤ i ∧ i < pa + n then BitVec.ofNat 8 (v.toNat / 256 ^ (i - pa)) else s.fw.cmd.getD i 0)))
  ∧ (∀ s : State, (s.ate.life = .running → s.power ≠ .vault → (∀ k, s.ate.poll ≤ k → k < 32 → tbit (s.qslots.getD k .reset).qa 63 = false) →
      ∃ t n, exec .atelierFrameTick s = .next t
        ∧ t = { s with
                ate := { s.ate with framecnt := s.ate.framecnt + 1, poll := 0 }
                kickFifo := s.kickFifo.drop n, kickOver := s.kickOver && !(s.kickFifo.drop n).isEmpty
                trans := t.trans, loads := t.loads, loaded := t.loaded, loadTurn := t.loadTurn }
        ∧ (s.tenants = [] → t.loadTurn = s.loadTurn)
        ∧ (s.tenants ≠ [] → (∃ T, (t.loadTurn, T) ∈ s.tenants)
            ∧ ∀ p T, (p, T) ∈ s.tenants → (t.loadTurn + 2 ^ 20 - 1 - s.loadTurn) % 2 ^ 20 ≤ (p + 2 ^ 20 - 1 - s.loadTurn) % 2 ^ 20)
        ∧ (∀ x ∈ s.loads, mapFind s.tenants x.1 = none → x ∉ t.loads ∧ (x.1, none) ∈ t.loaded)
        ∧ (s.tenants ≠ [] → (∀ x ∈ s.loads, (mapFind s.tenants x.1).isSome = true) →
            match s.loads.find? (fun x => x.1 == t.loadTurn) with
            | none => t.trans = s.trans ∧ t.loads = s.loads ∧ t.loaded = s.loaded
            | some x => t.loads = s.loads.erase x ∧ t.loaded = s.loaded ++ [(x.1, (s.translateFor x.1 x.2).2)]))
    ∧ (Shape s → s.ate.life = .running → ∃ t, exec .atelierFault s = .next t ∧ t.mem = s.mem ∧ t.ate.life = .stopped ∧ (t.rc 16).life = .halted
        ∧ (∀ c, c < 16 → t.rc c = s.rc c) ∧ ∀ q ∈ t.qslots, tbit q.qa 63 = false)
    ∧ (Shape s → s.ate.life = .stopped → ∃ t, exec .atelierReloadComplete s = .next t ∧ t.mem = s.mem ∧ t.ate.life = .running
        ∧ t.rc 16 = { Rec.reset with life := .ready, priv := true } ∧ (∀ c, c < 16 → t.rc c = s.rc c) ∧ t.health.hatrst = s.health.hatrst + 1))
  ∧ (∀ (n : Nat) (s : State), Shape s → n < 32 → s.power = .run → s.untraced → s.l2 = [] → tbit (s.qslots.getD n .reset).qa 63 = true →
    s.ate.poll ≤ n → (∀ k, s.ate.poll ≤ k → k < n → tbit (s.qslots.getD k .reset).qa 63 = false) →
    let q := s.qslots.getD n .reset
    ∃ t, exec (.queueSlotPoll n) s = .next t ∧ t.recs = s.recs ∧ t.ate = { s.ate with poll := n + 1 } ∧ (∀ k, k ≠ n → t.qslots.getD k .reset = s.qslots.getD k .reset)
      ∧ bitsOf (t.qslots.getD n .reset).qa 45 12 = (if tbit q.qa 62 ∧ bitsOf q.qa 45 12 < 4095 then bitsOf q.qa 45 12 + 1 else bitsOf q.qa 45 12)
      ∧ (bitsOf q.qa 41 4 ≠ 0 → t.mem = s.mem ∧ bitsOf (t.qslots.getD n .reset).qa 41 4 = bitsOf q.qa 41 4)
      ∧ (∀ k, bitsOf q.qa 41 4 = 0 → (s.engAt (ateIdx, none) none (bitsOf q.qa 20 20) (bitsOf q.qb 6 46 * 64 + 16) (.atomic true)).2 = .val k →
          let widx := memRead s.mem k 4
          let run := min 8 (2 ^ bitsOf q.qb 0 5 - (widx + 2 ^ 32 - bitsOf q.qc 32 32) % 2 ^ 32)
          bitsOf (t.qslots.getD n .reset).qa 41 4 = run ∧ memRead t.mem k 4 = (widx + run) % 2 ^ 32 ∧ SameBytes s t k 4
          ∧ (0 < run → bitsOf (t.qslots.getD n .reset).qc 0 32 = widx ∧ bitsOf (t.qslots.getD n .reset).qc 32 32 = bitsOf q.qc 32 32)))

/-! ## Events: power, boot, firmware -/

/-- Power and boot: for each of powerStateEntry, wakeEvent, wakeComplete, checkpointComplete, boot, recoveryImage and powerLoss, exec answers a next state
under conditions on the state alone. POWER_STATE_ENTRY (R465, R466): after the idle entry delay of the next deeper state, where LTOL allows its wake time; VAULT begins its
checkpoint. WAKE_EVENT, WAKE_COMPLETE (R467), CHECKPOINT_COMPLETE (R468): the checkpoint holds the memories and the forwarding entries, and a wake
from VAULT brings them back. BOOT, RECOVERY_IMAGE (R450, R462): an accepted image starts the Atelier at PC 0, privileged, with STAGE and FWDSZ in their ranges (R229, R382); another, or the strap, leads to recovery mode.
POWER_LOSS (R417, R418): the flash and the fuses stand, other memory of the device is lost. That memory without contents reads as 0 is the
model's choice (log entry 1).
The image's layout, the strap and what a checkpoint holds are the model's (log entries 20, 48 and 49). -/
def Obligations.PowerSteps : Prop :=
  (∀ (s : State) (p : Power), s.power.deeper = some p → s.waking = false → s.ckptRun = none → p.wakeNs ≤ s.ltol.toNat → p.delay ≤ s.idleNs →
    (s.power ≠ .run ∨ s.isIdle = true) →
    (p ≠ .vault → exec .powerStateEntry s = .next { s with power := p })
    ∧ (p = .vault → ∃ t, exec .powerStateEntry s = .next t ∧ t.power = .vault ∧ t.ckptRun = some true ∧ t.mem = s.mem))
  ∧ (∀ s : State, s.power ≠ .run → exec .wakeEvent s = .next { s with waking := true })
  ∧ (∀ s : State, Inv s → s.waking = true → s.ckptRun = none →
    (s.power ≠ .vault → exec .wakeComplete s = .next { s with power := .run, waking := false, idleNs := 0 })
    ∧ (s.power = .vault → ∃ t, exec .wakeComplete s = .next t ∧ t.power = .run ∧ t.waking = false ∧ t.fwd = s.ckptFwd
      ∧ (∀ x, isDeviceKey x = false → (∀ y ∈ s.ckpt, y.1 ≠ x) → memGet t.mem x = memGet s.mem x)
      ∧ (∀ x, isDeviceKey x = true → Memory.wf s.ckpt = true → memGet t.mem x = memGet s.ckpt x)))
  ∧ (∀ s : State, Inv s →
    (s.ckptRun = some false → ∃ t, exec .checkpointComplete s = .next t ∧ t.mem = s.mem ∧ t.ckptRun = none ∧ t.ckptFwd = s.fwd ∧ t.fw.busy = false
      ∧ t.fw.status = 0 ∧ ∀ x, isDeviceKey x = true → memGet t.ckpt x = memGet s.mem x)
    ∧ (s.ckptRun = some true → s.allFrozen = true → ∃ t, exec .checkpointComplete s = .next t ∧ t.mem = s.mem ∧ t.ckptRun = none ∧ t.ckptFwd = s.fwd
      ∧ t.power = s.power ∧ t.fw = s.fw ∧ ∀ x, isDeviceKey x = true → memGet t.ckpt x = memGet s.mem x))
  ∧ (∀ (s : State) (i : Instr), Shape s → (i = .boot ∧ s.ate.life = .boot ∧ s.bootRecovery = false) ∨ (i = .recoveryImage ∧ s.ate.life = .recovery) →
    (s.imageOk s.bootImage = true → ∃ t, exec i s = .next t ∧ t.mem = s.mem ∧ t.ate.life = .running ∧ t.rc 16 = { Rec.reset with life := .ready, priv := true }
      ∧ t.aram = imgWords s.bootImage ∧ t.imageSvn = imgNum s.bootImage 4 1 ∧ 4 ≤ t.stageGib ∧ t.stageGib ≤ 24 ∧ t.fwdMib ≤ 8 ∧ t.trans = []
      ∧ (∀ d, (s.pdie d).retired = true → (t.pdie d).retired = true) ∧ ∀ c, c < 16 → t.rc c = s.rc c)
    ∧ (s.imageOk s.bootImage = false → exec i s = .next { s with ate := { s.ate with life := .recovery } }))
  ∧ (∀ s : State, s.ate.life = .boot → s.bootRecovery = true → exec .boot s = .next { s with ate := { s.ate with life := .recovery } })
  ∧ (∀ s : State, Inv s → ∃ t, exec .powerLoss s = .next t ∧ t.recs = State.reset.recs ∧ t.ate.life = .boot ∧ t.fuses = s.fuses ∧ t.ckpt = s.ckpt
      ∧ (∀ x, survives x = true → memGet t.mem x = memGet s.mem x) ∧ (∀ x, survives x = false → memGet t.mem x = 0))

namespace Sys2Proof.Machine

/-- A command of opcode op has been given, and runs (R458, R459). -/
def State.given (s : State) (op : Nat) : Prop :=
  s.power = .run ∧ s.fw.busy = true ∧ imgNum s.fw.cmd 0 1 = op ∧ s.ate.life = .running

/-- Versions have been agreed (R458). -/
def State.negotiated (s : State) : Prop := s.fw.negFw ≠ 0 ∧ s.fw.negHost ≠ 0

/-- The command has ended with a status; the firmware interface is otherwise as it was, but for the response. -/
def State.endedWith (s t : State) (k : Nat) : Prop :=
  t.fw = { s.fw with busy := false, status := BitVec.ofNat 8 k, resp := t.fw.resp, negHost := t.fw.negHost, negFw := t.fw.negFw }

end Sys2Proof.Machine

/-- The commands of the firmware interface (R458, R459): for each of negotiate, tenantSet, tenantRemove, heapSet, mapinv, budgetSet, launch, preempt,
checkpoint, svnCommit, attest, measExtend and ltolSet, exec answers a next state under conditions on the state alone: tenants, heaps, budgets (R277, R378, R380, R382, R416), LAUNCH (R453, R454: one that ends with RANGE loads nothing), PREEMPT, CHECKPOINT (R468), SVN_COMMIT
(R417), ATTEST (R464: the quote, and a signature of 5,396 bytes), MEAS_EXTEND (R463), LTOL_SET (R466). Before a version is agreed every command but NEGOTIATE ends with VERSION. The places of the
arguments in CMD, what a failing command returns and the fuses' answers are the model's (log entries 9, 14, 45 and 50). -/
def Obligations.FirmwareSteps : Prop :=
  (∀ (s : State) (op : Nat) (i : Instr), s.given op → ¬ s.negotiated → (op, i) ∈ [(2, Instr.tenantSet), (3, .tenantRemove), (4, .heapSet), (5, .mapinv),
      (6, .budgetSet), (7, .launch), (8, .preempt), (9, .checkpoint), (10, .svnCommit), (11, .attest), (12, .measExtend), (13, .ltolSet)] →
    ∃ t, exec i s = .next t ∧ s.endedWith t 1 ∧ t.mem = s.mem ∧ t.recs = s.recs)
  ∧ (∀ s : State, s.given 1 →
    let f := fun (i : Nat) => s.arg 0 / 2 ^ (16 * i) % 2 ^ 16
    ∃ t, exec .negotiate s = .next t ∧ t.mem = s.mem ∧ t.recs = s.recs
      ∧ (f 0 ≤ 0x0100 ∧ 0x0100 ≤ f 1 ∧ f 2 ≤ 0x0100 ∧ 0x0100 ≤ f 3 → s.endedWith t 0 ∧ t.fw.negHost = 0x0100 ∧ t.fw.negFw = 0x0100)
      ∧ (¬ (f 0 ≤ 0x0100 ∧ 0x0100 ≤ f 1 ∧ f 2 ≤ 0x0100 ∧ 0x0100 ≤ f 3) → s.endedWith t 1))
  ∧ (∀ s : State, s.given 2 → s.negotiated → s.arg 0 < 2 ^ 20 → s.arg 1 < 2 ^ 53 → s.arg 1 % 2 ^ 16 = 0 → s.arg 2 % 2 ^ 40 = 0 → s.arg 2 < 2 ^ 52 →
    ((mapFind s.tenants (s.arg 0)).isSome = true ∨ s.tenants.length < 256) →
    ∃ t T, exec .tenantSet s = .next t ∧ s.endedWith t 0 ∧ t.mem = s.mem ∧ t.recs = s.recs ∧ mapFind t.tenants (s.arg 0) = some T
      ∧ T.rootDie = s.arg 1 / 2 ^ 48 ∧ T.rootPa = s.arg 1 % 2 ^ 48 ∧ T.hwb = s.arg 2 ∧ T.gen = mapGet 0 s.gens (s.arg 0) + 1
      ∧ T.tk = s.tenantKey (s.arg 0) T.gen ∧ (∀ x ∈ t.trans, x.pasid ≠ s.arg 0)
      ∧ (∀ T0, mapFind s.tenants (s.arg 0) = some T0 → T.budget = T0.budget ∧ T.heap = T0.heap)
      ∧ ∀ p, p ≠ s.arg 0 → mapFind t.tenants p = mapFind s.tenants p)
  ∧ (∀ s : State, s.given 3 → s.negotiated → s.tenants.Pairwise (fun a b => a.1 < b.1) → (mapFind s.tenants (s.arg 0)).isSome = true →
    (s.hasContexts (s.arg 0) = true → ∃ t, exec .tenantRemove s = .next t ∧ s.endedWith t 3 ∧ t.tenants = s.tenants ∧ t.mem = s.mem)
    ∧ (s.hasContexts (s.arg 0) = false → ∃ t, exec .tenantRemove s = .next t ∧ s.endedWith t 0 ∧ t.mem = s.mem ∧ mapFind t.tenants (s.arg 0) = none
      ∧ ∀ p, p ≠ s.arg 0 → mapFind t.tenants p = mapFind s.tenants p))
  ∧ (∀ s : State, s.given 4 → s.negotiated →
    let p := s.arg 0 % 2 ^ 32
    let hid := s.arg 0 / 2 ^ 32
    let h := fun (i : Nat) => s.arg (1 + i)
    (mapFind s.tenants p).isSome = true → hid < 16 → h 0 / 2 ^ 45 % 2 ^ 18 = 0 → (∀ i, 0 < i → i < 4 → h i % 65536 = 0 ∧ h i < 2 ^ 52) →
    (h 0 / 2 ^ 63 = 1 → (s.pdie (h 0 / 2 ^ 40 % 32)).retired = false) →
    let place := s.fwdPlace (h 0 / 2 ^ 40 % 32) p hid (h 0 % 2 ^ 40)
    (s.heapInUse p hid = true → ∃ t, exec .heapSet s = .next t ∧ s.endedWith t 3 ∧ t.tenants = s.tenants ∧ t.fwd = s.fwd)
    ∧ (s.heapInUse p hid = false → h 0 / 2 ^ 63 = 1 → place = none →
      ∃ t, exec .heapSet s = .next t ∧ s.endedWith t 4 ∧ t.tenants = s.tenants ∧ t.fwd = s.fwd)
    ∧ (s.heapInUse p hid = false → (h 0 / 2 ^ 63 = 0 ∨ place.isSome = true) →
      ∃ t, exec .heapSet s = .next t ∧ s.endedWith t 0 ∧ t.mem = s.mem ∧ t.recs = s.recs ∧ (∀ i, i < 4 → t.heapWord p hid i = BitVec.ofNat 64 (h i))
        ∧ (∀ k i, k ≠ hid → i < 4 → t.heapWord p k i = s.heapWord p k i) ∧ (∀ o, o < 2 ^ 40 → t.fwdEntry p hid o = .reset)))
  ∧ (∀ (s : State) (T : Tenant), s.given 6 → s.negotiated → mapFind s.tenants (s.arg 0) = some T → s.arg 1 < 2 ^ 32 →
    ∃ t, exec .budgetSet s = .next t ∧ s.endedWith t 0 ∧ t.mem = s.mem ∧ mapFind t.tenants (s.arg 0) = some { T with budget := BitVec.ofNat 32 (s.arg 1) })
  ∧ (∀ s : State, Shape s → s.given 5 → s.negotiated → s.mapinv = none → (mapFind s.tenants (s.arg 0 - 2 ^ 63)).isSome = true → 2 ^ 63 ≤ s.arg 0 →
    let port := fun (n : Nat) => (s.pods.getD n .reset).version ≠ 0
    ∃ t ds, exec .mapinv s = .next t ∧ t.mem = s.mem ∧ t.fw = s.fw ∧ t.mapinv = some (s.arg 0 - 2 ^ 63, none, ds)
      ∧ (∀ d, d ∈ ds ↔ d < 32 ∨ (d < 40 ∧ port (d - 32)))
      ∧ (∀ d, d < 32 → (t.pdie d).tlbInv = (s.pdie d).tlbInv ++ [(s.arg 0 - 2 ^ 63, none)])
      ∧ ∀ n, n < 8 → port n → (t.pods.getD n .reset).inv = (s.pods.getD n .reset).inv ++ [(s.arg 0 - 2 ^ 63, none)])
  ∧ (∀ s : State, Shape s → s.given 5 → s.negotiated → s.mapinv = none → (mapFind s.tenants (s.arg 0)).isSome = true → s.arg 0 < 2 ^ 63 →
    s.l2 = [] → s.untraced → s.arg 1 < 2 ^ 53 → s.arg 1 % 16 = 0 → s.arg 2 < 2 ^ 52 → (s.arg 3 = 2 ∨ s.arg 3 = 3) →
    let page := tlbKey (s.arg 0) (s.arg 2) (s.arg 3)
    let bit := fun (d : Nat) => (memRead s.mem (s.arg 1 + 8) 8).testBit d
    ∃ t, exec .mapinv s = .next t ∧ memRead t.mem (s.arg 1 + 8) 8 = 0 ∧ SameBytes s t (s.arg 1 + 8) 8
      ∧ (∀ d, d < 32 → (t.pdie d).tlbInv = (s.pdie d).tlbInv ++ (if bit d then [(s.arg 0, some page)] else []))
      ∧ (∀ n, n < 8 → (t.pods.getD n .reset).inv = (s.pods.getD n .reset).inv ++ (if bit (32 + n) then [(s.arg 0, some page)] else []))
      ∧ ((∀ d, d < 40 → bit d = false) → s.endedWith t 0 ∧ t.mapinv = none)
      ∧ ((∃ d, d < 40 ∧ bit d = true) → t.fw = s.fw ∧ ∃ ds, t.mapinv = some (s.arg 0, some page, ds) ∧ ∀ d, d ∈ ds ↔ d < 40 ∧ bit d = true))
  ∧ (∀ s : State, s.given 7 → s.negotiated → (mapFind s.tenants (s.arg 0)).isSome = true →
    (s.arg 1 % 4096 = 0 → s.rangeMissing (s.arg 0) (s.arg 1, 4096) = false) →
    (s.linked (s.arg 0) (s.arg 1) = none → ∃ t, exec .launch s = .next t ∧ s.endedWith t 6 ∧ t.mem = s.mem ∧ t.recs = s.recs)
    ∧ (∀ n off words pc ws s', s.linked (s.arg 0) (s.arg 1) = some (n, off, words, pc) →
      let ts := (List.range n).filterMap (fun i => s.template (s.arg 0) (s.arg 1) i)
      s.rangeMissing (s.arg 0) (s.arg 1, 64 + 128 * n) = false → s.rangeMissing (s.arg 0) (s.arg 1 + off, min (16 * words) (2 ^ 22)) = false →
      (∀ x ∈ ts, (s.launchRanges (s.arg 0) (x.headD 0 % 16) (s.arg 1)).any (s.rangeMissing (s.arg 0)) = false) → pc + words ≤ 2 ^ 18 →
      s.vaWords (s.arg 0) (s.arg 1 + off) (2 * words) = some ws → ts.length = n →
      (s.launchAll (s.arg 0) [] ts = .ok s' →
        ∃ t, exec .launch s = .next t ∧ t.fw.busy = false ∧ t.fw.status = 0 ∧ t.cstore = (s'.loadStore pc ws).cstore
          ∧ ∀ c, c < 16 → (s'.rc c).life ≠ .waiting .start → t.rc c = s'.rc c)
      ∧ (s.launchAll (s.arg 0) [] ts = .error (s', kRANGE) →
        ∃ t, exec .launch s = .next t ∧ s.endedWith t 6 ∧ t.cstore = s.cstore ∧ t.mem = s.mem ∧ t.recs = s.recs)))
  ∧ (∀ s : State, s.given 8 → s.negotiated → s.preempting = false → s.armq.length = 8 → (s.armq.getD 7 []).length < 16 →
    ∃ t q, exec .preempt s = .next t ∧ t = { s with armq := t.armq } ∧ t.armq.getD 7 [] = s.armq.getD 7 [] ++ [q] ∧ q.cmd.cls = 7 ∧ q.req = cmdFirmware
      ∧ q.w 0 = s.arg 0 ∧ q.w 1 = s.arg 1 ∧ q.w 2 = s.arg 2)
  ∧ (∀ s : State, s.given 9 → s.negotiated → s.ckptRun = none → exec .checkpoint s = .next { s with ckptRun := some false })
  ∧ (∀ s : State, s.given 10 → s.negotiated → s.arg 0 ≤ 255 →
    (s.arg 0 ≤ s.svnValue → ∃ t, exec .svnCommit s = .next t ∧ s.endedWith t 0 ∧ t.fuses = s.fuses ∧ t.mem = s.mem)
    ∧ (s.svnValue < s.arg 0 → ∃ t, exec .svnCommit s = .next t ∧ t.mem = s.mem
      ∧ (let i := s.svnTry.getD s.svnValue
         t.fuses = s.fuses ++ (if Config.fuseBlows i s.freeCtr = true then [i] else [])
         ∧ (i + 1 < s.arg 0 → t.svnTry = some (i + 1) ∧ t.fw = s.fw)
         ∧ (s.arg 0 ≤ i + 1 → s.endedWith t (if Config.fuseBlows i s.freeCtr = true then 0 else 6)))))
  ∧ (∀ s : State, s.given 11 → s.negotiated →
    (s.signLeaf = none → ∃ t, exec .attest s = .next t ∧ s.endedWith t 6)
    ∧ (∀ s' leaves, s.signLeaf = some (s', leaves) → ∃ t quote, exec .attest s = .next t ∧ s.endedWith t 0 ∧ t.mem = s.mem
      ∧ quote = (s.fw.cmd.drop 8).take 32 ++ s.meas.flatten ++ leBytes 1 s.imageSvn ++ leBytes 1 s.svnValue ++ leBytes 8 (s.featWord 0).toNat ++ leBytes 8 s.negv
      ∧ t.fw.resp = quote ++ (List.range 5396).map (Config.hssSign leaves quote)))
  ∧ (∀ s : State, s.given 12 → s.negotiated →
    (s.arg 0 < 4 ∨ 7 < s.arg 0 → ∃ t, exec .measExtend s = .next t ∧ s.endedWith t 2 ∧ t.meas = s.meas)
    ∧ (4 ≤ s.arg 0 → s.arg 0 ≤ 7 → s.meas.length = 8 → ∃ t, exec .measExtend s = .next t ∧ s.endedWith t 0
      ∧ t.meas.getD (s.arg 0) [] = sha256 (s.meas.getD (s.arg 0) [] ++ (s.fw.cmd.drop 16).take 32)
      ∧ ∀ n, n ≠ s.arg 0 → t.meas.getD n [] = s.meas.getD n []))
  ∧ (∀ s : State, s.given 13 → s.negotiated → s.arg 0 < 2 ^ 32 →
    ∃ t, exec .ltolSet s = .next t ∧ s.endedWith t 0 ∧ t.ltol = BitVec.ofNat 32 (s.arg 0) ∧ t.mem = s.mem)

/-! ## The machine as a whole -/

/-- Whatever the state, a step keeps the canonical form of memory (R1, R3). -/
def Obligations.StepsKeepMemoryCanonical : Prop :=
  ∀ s t : State, Inv s → step s = .next t → Inv t

/-- Whatever the state, a step keeps the lengths of the lists of units: context records, dies, queues, mailboxes, queue slots, pod ports (R1, R17, R342, R353, R358, R460). -/
def Obligations.StepsKeepTheUnits : Prop :=
  ∀ s t : State, Shape s → step s = .next t → Shape t

/-- What the spec says of the machine after reset: every context record is FREE with an empty return stack and depth 0 (R18, R108, R114), SSTAT is 0 (R117), LTOL is 0 (R466),
the measurement registers are 0 (R463), no mailbox holds a message (R358). Memory is canonical and the lists of units have
their lengths. Two clauses are the model's choice, for which the spec gives no reset value: that the device is in RUN and that the firmware interface is
not busy (log entry 3). -/
def Obligations.StateAfterReset : Prop :=
  Inv State.reset ∧ Shape State.reset
  ∧ (∀ c, c < 16 → (State.reset.rc c).life = .free ∧ (State.reset.rc c).slot = none ∧ (State.reset.rc c).hact = false
      ∧ (State.reset.rc c).core.sstat = 0 ∧ (∀ n, (State.reset.rc c).core.rS n = 0) ∧ (State.reset.rc c).core.stack = [])
  ∧ State.reset.ltol = 0 ∧ State.reset.meas = List.replicate 8 (List.replicate 32 0) ∧ (∀ c m, State.reset.mbxFull c m = false)
  ∧ State.reset.power = .run ∧ State.reset.fw.busy = false

/-- Memory is little-endian, byte-addressed (R3): a value of n bytes written at an address is read back, its byte i stands at address a + i, and no other byte changes. -/
def Obligations.MemoryReadsBack : Prop :=
  ∀ (m : List Host.Cell) (a n v : Nat),
    memRead (memWrite m a n v) a n = v % 2 ^ (8 * n)
    ∧ (∀ i, i < n → memGet (memWrite m a n v) (a + i) = BitVec.ofNat 8 (v / 256 ^ i))
    ∧ (∀ x, (x < a ∨ a + n ≤ x) → memGet (memWrite m a n v) x = memGet m x)
end

