-- ==== Sys2Proof/Laws/Mem.lean ====
section
/-! SUPPORT. Sparse maps and the memory: reading after writing, and the canonical form that every operation keeps. -/

namespace Sys2Proof.Machine

variable {α : Type} [DecidableEq α]

/-- A map in canonical form lists nothing below its bound. -/
theorem mapGet_below (d : α) : ∀ (m : Map α) (lo k : Nat), mapOk d lo m = true → k < lo → mapGet d m k = d
  | [], _, _, _, _ => rfl
  | (k0, v0) :: m, lo, k, h, hk => by
    simp only [mapOk, Bool.and_eq_true, decide_eq_true_eq] at h
    have h1 : k ≠ k0 := by omega
    have h2 : k < k0 := by omega
    simp [mapGet, h1, h2]

/-- A lower bound serves as well. -/
theorem mapOk_mono (d : α) (m : Map α) (lo lo' : Nat) (h : mapOk d lo m = true) (hl : lo' ≤ lo) : mapOk d lo' m = true := by
  cases m with
  | nil => rfl
  | cons p m =>
    obtain ⟨k, v⟩ := p
    simp only [mapOk, Bool.and_eq_true, decide_eq_true_eq] at h ⊢
    exact ⟨⟨by omega, h.1.2⟩, h.2⟩

/-- What is left of a map when its first entries go. -/
theorem mapOk_dropWhile (d : α) (p : Nat × α → Bool) : ∀ (m : Map α) (lo : Nat), mapOk d lo m = true →
    mapOk d lo (m.dropWhile p) = true
  | [], _, _ => rfl
  | (k0, v0) :: m, lo, h => by
    by_cases hp : p (k0, v0) = true
    · rw [List.dropWhile_cons_of_pos hp]
      simp only [mapOk, Bool.and_eq_true, decide_eq_true_eq] at h
      exact mapOk_mono d _ (k0 + 1) lo (mapOk_dropWhile d p m (k0 + 1) h.2) (by omega)
    · rw [List.dropWhile_cons_of_neg hp]; exact h

/-- Writing keeps the canonical form. -/
theorem mapSet_ok (d : α) (v : α) : ∀ (m : Map α) (lo k : Nat), mapOk d lo m = true → lo ≤ k → mapOk d lo (mapSet d m k v) = true
  | [], lo, k, _, hk => by
    by_cases hv : v = d <;> simp [mapSet, mapOk, hv, hk]
  | (k0, v0) :: m, lo, k, h, hk => by
    have h' := h
    simp only [mapOk, Bool.and_eq_true, decide_eq_true_eq] at h
    obtain ⟨⟨h0, hv0⟩, hm⟩ := h
    by_cases h1 : k < k0
    · by_cases hv : v = d
      · simpa [mapSet, h1, hv] using h'
      · have : mapOk d (k + 1) ((k0, v0) :: m) = true := by
          simp only [mapOk, Bool.and_eq_true, decide_eq_true_eq]; exact ⟨⟨h1, hv0⟩, hm⟩
        simp only [mapSet, h1, hv, if_true, if_false]
        simp only [mapOk, Bool.and_eq_true, decide_eq_true_eq] at this ⊢
        exact ⟨⟨hk, by simpa using hv⟩, this⟩
    · by_cases h2 : k = k0
      · subst h2
        by_cases hv : v = d
        · simpa [mapSet, hv] using mapOk_mono d _ (k + 1) lo (mapOk_dropWhile d _ m (k + 1) hm) (by omega)
        · simp [mapSet, mapOk, hv, hk, hm]
      · have hm' := mapSet_ok d v m (k0 + 1) k hm (by omega)
        simp only [mapSet, h1, h2, if_false, mapOk, Bool.and_eq_true, decide_eq_true_eq]
        exact ⟨⟨h0, hv0⟩, hm'⟩

omit [DecidableEq α] in
/-- Entries below a key that is not one of them do not matter to reading it. -/
theorem mapGet_dropWhile (d : α) (k k' : Nat) (h : k < k') : ∀ m : Map α,
    mapGet d (m.dropWhile (fun p => decide (p.1 ≤ k))) k' = mapGet d m k'
  | [] => rfl
  | (k0, v0) :: m => by
    by_cases h0 : k0 ≤ k
    · have h1 : k' ≠ k0 := by omega
      have h2 : ¬ k' < k0 := by omega
      rw [List.dropWhile_cons_of_pos (by simpa using h0), mapGet_dropWhile d k k' h m]
      simp [mapGet, h1, h2]
    · rw [List.dropWhile_cons_of_neg (by simpa using h0)]

omit [DecidableEq α] in
/-- Nothing stands at or below the bound once such entries are dropped. -/
theorem mapGet_dropWhile_le (d : α) (k k' : Nat) (h : k' ≤ k) : ∀ m : Map α,
    mapGet d (m.dropWhile (fun p => decide (p.1 ≤ k))) k' = d
  | [] => rfl
  | (k0, v0) :: m => by
    by_cases h0 : k0 ≤ k
    · rw [List.dropWhile_cons_of_pos (by simpa using h0)]
      exact mapGet_dropWhile_le d k k' h m
    · have h1 : k' ≠ k0 := by omega
      have h2 : k' < k0 := by omega
      rw [List.dropWhile_cons_of_neg (by simpa using h0)]
      simp [mapGet, h1, h2]

/-- Reading after writing. -/
theorem mapGet_mapSet (d : α) (v : α) (k k' : Nat) : ∀ m : Map α,
    mapGet d (mapSet d m k v) k' = if k' = k then v else mapGet d m k'
  | [] => by
    by_cases hv : v = d <;> by_cases hk : k' = k <;> simp [mapSet, mapGet, hv, hk]
  | (k0, v0) :: m => by
    by_cases h1 : k < k0
    · by_cases hv : v = d
      · simp only [mapSet, h1, hv, if_true]
        by_cases hk : k' = k
        · subst hk
          have h3 : k' ≠ k0 := by omega
          simp [mapGet, h1, h3]
        · simp [hk]
      · simp only [mapSet, h1, hv, if_true, if_false]
        by_cases hk : k' = k
        · simp [mapGet, hk]
        · by_cases h4 : k' < k
          · have h5 : k' ≠ k0 := by omega
            have h6 : k' < k0 := by omega
            simp [mapGet, hk, h4, h5, h6]
          · simp [mapGet, hk, h4]
    · by_cases h2 : k = k0
      · subst h2
        by_cases hv : v = d
        · simp only [mapSet, lt_irrefl, hv, if_true, if_false]
          by_cases hk : k' = k
          · rw [if_pos hk, mapGet_dropWhile_le d k k' (by omega)]
          · rw [if_neg hk]
            by_cases h4 : k' < k
            · simp [mapGet, hk, h4, mapGet_dropWhile_le d k k' (by omega)]
            · simp [mapGet, hk, h4, mapGet_dropWhile d k k' (by omega)]
        · by_cases hk : k' = k <;> simp [mapSet, mapGet, hv, hk]
      · have ih := mapGet_mapSet d v k k' m
        simp only [mapSet, h1, h2, if_false]
        by_cases hk0 : k' = k0
        · simp [mapGet, hk0]
          intro hh; omega
        · by_cases h4 : k' < k0
          · have : k' ≠ k := by omega
            simp [mapGet, hk0, h4, this]
          · simp only [mapGet, hk0, h4, if_false, ih]

/-- A part of a map in canonical form is in canonical form. -/
theorem mapOk_filter (d : α) (p : Nat × α → Bool) : ∀ (m : Map α) (lo : Nat), mapOk d lo m = true → mapOk d lo (m.filter p) = true
  | [], _, _ => rfl
  | (k0, v0) :: m, lo, h => by
    simp only [mapOk, Bool.and_eq_true, decide_eq_true_eq] at h
    obtain ⟨⟨h0, hv0⟩, hm⟩ := h
    have ih := mapOk_filter d p m (k0 + 1) hm
    by_cases hp : p (k0, v0) = true
    · rw [List.filter_cons_of_pos hp]
      simp only [mapOk, Bool.and_eq_true, decide_eq_true_eq]
      exact ⟨⟨h0, hv0⟩, ih⟩
    · rw [List.filter_cons_of_neg hp]
      exact mapOk_mono d _ (k0 + 1) lo ih (by omega)

/-- The value at a key that was just put in a map of records. -/
theorem mapGet_mapPut_self {β : Type} (d : β) (k : Nat) (v : β) : ∀ m : Map β, mapGet d (mapPut m k v) k = v
  | [] => by simp [mapPut, mapGet]
  | (k0, v0) :: m => by
    by_cases h1 : k < k0
    · simp [mapPut, mapGet, h1]
    · by_cases h2 : k = k0
      · simp [mapPut, mapGet, h2]
      · simp [mapPut, mapGet, h1, h2, mapGet_mapPut_self d k v m]

/-! ## Memory -/

@[simp] theorem memory_wf_nil : Memory.wf [] = true := rfl

theorem memSet_wf (m : List Host.Cell) (a : Nat) (b : BitVec 8) (h : Memory.wf m = true) : Memory.wf (memSet m a b) = true :=
  mapSet_ok unlisted b m 0 a h (Nat.zero_le _)

theorem memWrite_wf : ∀ (n : Nat) (m : List Host.Cell) (a v : Nat), Memory.wf m = true → Memory.wf (memWrite m a n v) = true
  | 0, _, _, _, h => h
  | n + 1, m, a, v, h => memWrite_wf n _ _ _ (memSet_wf m a _ h)

theorem memPutBytes_wf : ∀ (bs : List (BitVec 8)) (m : List Host.Cell) (a : Nat), Memory.wf m = true → Memory.wf (memPutBytes m a bs) = true
  | [], _, _, h => h
  | b :: bs, m, a, h => memPutBytes_wf bs _ _ (memSet_wf m a b h)

theorem memPutCells_wf : ∀ (cs : List Host.Cell) (m : List Host.Cell), Memory.wf m = true → Memory.wf (memPutCells m cs) = true
  | [], _, h => h
  | c :: cs, m, h => memPutCells_wf cs _ (memSet_wf m c.1 c.2 h)

theorem memory_filter_wf (m : List Host.Cell) (p : Host.Cell → Bool) (h : Memory.wf m = true) : Memory.wf (m.filter p) = true :=
  mapOk_filter unlisted p m 0 h

theorem memClear_wf (m : List Host.Cell) (a n : Nat) (h : Memory.wf m = true) : Memory.wf (memClear m a n) = true :=
  memory_filter_wf m _ h

theorem memCopy_wf (m : List Host.Cell) (src dst n : Nat) (h : Memory.wf m = true) : Memory.wf (memCopy m src dst n) = true :=
  memPutCells_wf _ _ (memClear_wf m dst n h)

/-- One byte after writing one byte. -/
theorem memGet_memSet (m : List Host.Cell) (a x : Nat) (b : BitVec 8) :
    memGet (memSet m a b) x = if x = a then b else memGet m x :=
  mapGet_mapSet unlisted b a x m

/-- A byte outside the bytes written keeps its value. -/
theorem memGet_memWrite_outside : ∀ (n : Nat) (m : List Host.Cell) (a v x : Nat), (x < a ∨ a + n ≤ x) →
    memGet (memWrite m a n v) x = memGet m x
  | 0, _, _, _, _, _ => rfl
  | n + 1, m, a, v, x, hx => by
    have h1 : x ≠ a := by omega
    rw [memWrite, memGet_memWrite_outside n _ _ _ _ (by omega), memGet_memSet m a x _, if_neg h1]

/-- Bytes written are read back. -/
theorem memRead_memWrite : ∀ (n : Nat) (m : List Host.Cell) (a v : Nat), memRead (memWrite m a n v) a n = v % 256 ^ n
  | 0, _, _, _ => by simp [memRead, Nat.mod_one]
  | n + 1, m, a, v => by
    rw [memWrite, memRead, memGet_memWrite_outside n _ _ _ _ (by omega), memGet_memSet, if_pos rfl, memRead_memWrite n]
    have h8 : (BitVec.ofNat 8 v).toNat = v % 256 := BitVec.toNat_ofNat v 8
    rw [h8, Nat.pow_succ', Nat.mod_mul]

end Sys2Proof.Machine
end

