-- ==== Sys2Proof/Laws/State.lean ====
section
/-! SUPPORT. What each update of a part of the state leaves alone: one lemma for each field and update, all true by
definition. -/

namespace Sys2Proof.Machine

/-! `State.setRec` -/

@[simp] theorem State.setRec_agenda (s : State) (c : Nat) (r : Rec) : (s.setRec c r).agenda = s.agenda := rfl
@[simp] theorem State.setRec_sel (s : State) (c : Nat) (r : Rec) : (s.setRec c r).sel = s.sel := rfl
@[simp] theorem State.setRec_selDie (s : State) (c : Nat) (r : Rec) : (s.setRec c r).selDie = s.selDie := rfl
@[simp] theorem State.setRec_clk (s : State) (c : Nat) (r : Rec) : (s.setRec c r).clk = s.clk := rfl
@[simp] theorem State.setRec_litBusy (s : State) (c : Nat) (r : Rec) : (s.setRec c r).litBusy = s.litBusy := rfl
@[simp] theorem State.setRec_nextId (s : State) (c : Nat) (r : Rec) : (s.setRec c r).nextId = s.nextId := rfl
@[simp] theorem State.setRec_freeCtr (s : State) (c : Nat) (r : Rec) : (s.setRec c r).freeCtr = s.freeCtr := rfl
@[simp] theorem State.setRec_bcastNo (s : State) (c : Nat) (r : Rec) : (s.setRec c r).bcastNo = s.bcastNo := rfl
@[simp] theorem State.setRec_invNo (s : State) (c : Nat) (r : Rec) : (s.setRec c r).invNo = s.invNo := rfl
@[simp] theorem State.setRec_cmdNo (s : State) (c : Nat) (r : Rec) : (s.setRec c r).cmdNo = s.cmdNo := rfl
@[simp] theorem State.setRec_reports (s : State) (c : Nat) (r : Rec) : (s.setRec c r).reports = s.reports := rfl
@[simp] theorem State.setRec_dies (s : State) (c : Nat) (r : Rec) : (s.setRec c r).dies = s.dies := rfl
@[simp] theorem State.setRec_mem (s : State) (c : Nat) (r : Rec) : (s.setRec c r).mem = s.mem := rfl
@[simp] theorem State.setRec_poison (s : State) (c : Nat) (r : Rec) : (s.setRec c r).poison = s.poison := rfl
@[simp] theorem State.setRec_cstore (s : State) (c : Nat) (r : Rec) : (s.setRec c r).cstore = s.cstore := rfl
@[simp] theorem State.setRec_aram (s : State) (c : Nat) (r : Rec) : (s.setRec c r).aram = s.aram := rfl
@[simp] theorem State.setRec_armq (s : State) (c : Nat) (r : Rec) : (s.setRec c r).armq = s.armq := rfl
@[simp] theorem State.setRec_armRun (s : State) (c : Nat) (r : Rec) : (s.setRec c r).armRun = s.armRun := rfl
@[simp] theorem State.setRec_tenants (s : State) (c : Nat) (r : Rec) : (s.setRec c r).tenants = s.tenants := rfl
@[simp] theorem State.setRec_fwd (s : State) (c : Nat) (r : Rec) : (s.setRec c r).fwd = s.fwd := rfl
@[simp] theorem State.setRec_l2 (s : State) (c : Nat) (r : Rec) : (s.setRec c r).l2 = s.l2 := rfl
@[simp] theorem State.setRec_leases (s : State) (c : Nat) (r : Rec) : (s.setRec c r).leases = s.leases := rfl
@[simp] theorem State.setRec_pts (s : State) (c : Nat) (r : Rec) : (s.setRec c r).pts = s.pts := rfl
@[simp] theorem State.setRec_copies (s : State) (c : Nat) (r : Rec) : (s.setRec c r).copies = s.copies := rfl
@[simp] theorem State.setRec_freed (s : State) (c : Nat) (r : Rec) : (s.setRec c r).freed = s.freed := rfl
@[simp] theorem State.setRec_ats (s : State) (c : Nat) (r : Rec) : (s.setRec c r).ats = s.ats := rfl
@[simp] theorem State.setRec_staging (s : State) (c : Nat) (r : Rec) : (s.setRec c r).staging = s.staging := rfl
@[simp] theorem State.setRec_bankConf (s : State) (c : Nat) (r : Rec) : (s.setRec c r).bankConf = s.bankConf := rfl
@[simp] theorem State.setRec_bankWait (s : State) (c : Nat) (r : Rec) : (s.setRec c r).bankWait = s.bankWait := rfl
@[simp] theorem State.setRec_qslots (s : State) (c : Nat) (r : Rec) : (s.setRec c r).qslots = s.qslots := rfl
@[simp] theorem State.setRec_kickFifo (s : State) (c : Nat) (r : Rec) : (s.setRec c r).kickFifo = s.kickFifo := rfl
@[simp] theorem State.setRec_kickOver (s : State) (c : Nat) (r : Rec) : (s.setRec c r).kickOver = s.kickOver := rfl
@[simp] theorem State.setRec_mbx (s : State) (c : Nat) (r : Rec) : (s.setRec c r).mbx = s.mbx := rfl
@[simp] theorem State.setRec_pods (s : State) (c : Nat) (r : Rec) : (s.setRec c r).pods = s.pods := rfl
@[simp] theorem State.setRec_ate (s : State) (c : Nat) (r : Rec) : (s.setRec c r).ate = s.ate := rfl
@[simp] theorem State.setRec_fw (s : State) (c : Nat) (r : Rec) : (s.setRec c r).fw = s.fw := rfl
@[simp] theorem State.setRec_health (s : State) (c : Nat) (r : Rec) : (s.setRec c r).health = s.health := rfl
@[simp] theorem State.setRec_power (s : State) (c : Nat) (r : Rec) : (s.setRec c r).power = s.power := rfl
@[simp] theorem State.setRec_ltol (s : State) (c : Nat) (r : Rec) : (s.setRec c r).ltol = s.ltol := rfl
@[simp] theorem State.setRec_idleNs (s : State) (c : Nat) (r : Rec) : (s.setRec c r).idleNs = s.idleNs := rfl
@[simp] theorem State.setRec_meas (s : State) (c : Nat) (r : Rec) : (s.setRec c r).meas = s.meas := rfl
@[simp] theorem State.setRec_bootImage (s : State) (c : Nat) (r : Rec) : (s.setRec c r).bootImage = s.bootImage := rfl
@[simp] theorem State.setRec_bootRecovery (s : State) (c : Nat) (r : Rec) : (s.setRec c r).bootRecovery = s.bootRecovery := rfl
@[simp] theorem State.setRec_imageSvn (s : State) (c : Nat) (r : Rec) : (s.setRec c r).imageSvn = s.imageSvn := rfl
@[simp] theorem State.setRec_fuses (s : State) (c : Nat) (r : Rec) : (s.setRec c r).fuses = s.fuses := rfl
@[simp] theorem State.setRec_svnTry (s : State) (c : Nat) (r : Rec) : (s.setRec c r).svnTry = s.svnTry := rfl
@[simp] theorem State.setRec_leafNext (s : State) (c : Nat) (r : Rec) : (s.setRec c r).leafNext = s.leafNext := rfl
@[simp] theorem State.setRec_leafRes (s : State) (c : Nat) (r : Rec) : (s.setRec c r).leafRes = s.leafRes := rfl
@[simp] theorem State.setRec_stageGib (s : State) (c : Nat) (r : Rec) : (s.setRec c r).stageGib = s.stageGib := rfl
@[simp] theorem State.setRec_fwdMib (s : State) (c : Nat) (r : Rec) : (s.setRec c r).fwdMib = s.fwdMib := rfl
@[simp] theorem State.setRec_ckpt (s : State) (c : Nat) (r : Rec) : (s.setRec c r).ckpt = s.ckpt := rfl
@[simp] theorem State.setRec_ckptFwd (s : State) (c : Nat) (r : Rec) : (s.setRec c r).ckptFwd = s.ckptFwd := rfl
@[simp] theorem State.setRec_ckptRun (s : State) (c : Nat) (r : Rec) : (s.setRec c r).ckptRun = s.ckptRun := rfl
@[simp] theorem State.setRec_waking (s : State) (c : Nat) (r : Rec) : (s.setRec c r).waking = s.waking := rfl
@[simp] theorem State.setRec_grant (s : State) (c : Nat) (r : Rec) : (s.setRec c r).grant = s.grant := rfl
@[simp] theorem State.setRec_trans (s : State) (c : Nat) (r : Rec) : (s.setRec c r).trans = s.trans := rfl
@[simp] theorem State.setRec_secret (s : State) (c : Nat) (r : Rec) : (s.setRec c r).secret = s.secret := rfl
@[simp] theorem State.setRec_translator (s : State) (c : Nat) (r : Rec) : (s.setRec c r).translator = s.translator := rfl
@[simp] theorem State.setRec_gens (s : State) (c : Nat) (r : Rec) : (s.setRec c r).gens = s.gens := rfl
@[simp] theorem State.setRec_loads (s : State) (c : Nat) (r : Rec) : (s.setRec c r).loads = s.loads := rfl
@[simp] theorem State.setRec_loaded (s : State) (c : Nat) (r : Rec) : (s.setRec c r).loaded = s.loaded := rfl
@[simp] theorem State.setRec_loadTurn (s : State) (c : Nat) (r : Rec) : (s.setRec c r).loadTurn = s.loadTurn := rfl
@[simp] theorem State.setRec_mapinv (s : State) (c : Nat) (r : Rec) : (s.setRec c r).mapinv = s.mapinv := rfl
@[simp] theorem State.setRec_hostReads (s : State) (c : Nat) (r : Rec) : (s.setRec c r).hostReads = s.hostReads := rfl
@[simp] theorem State.setRec_images (s : State) (c : Nat) (r : Rec) : (s.setRec c r).images = s.images := rfl

/-! `State.updRec` -/

@[simp] theorem State.updRec_agenda (s : State) (c : Nat) (f : Rec → Rec) : (s.updRec c f).agenda = s.agenda := rfl
@[simp] theorem State.updRec_sel (s : State) (c : Nat) (f : Rec → Rec) : (s.updRec c f).sel = s.sel := rfl
@[simp] theorem State.updRec_selDie (s : State) (c : Nat) (f : Rec → Rec) : (s.updRec c f).selDie = s.selDie := rfl
@[simp] theorem State.updRec_clk (s : State) (c : Nat) (f : Rec → Rec) : (s.updRec c f).clk = s.clk := rfl
@[simp] theorem State.updRec_litBusy (s : State) (c : Nat) (f : Rec → Rec) : (s.updRec c f).litBusy = s.litBusy := rfl
@[simp] theorem State.updRec_nextId (s : State) (c : Nat) (f : Rec → Rec) : (s.updRec c f).nextId = s.nextId := rfl
@[simp] theorem State.updRec_freeCtr (s : State) (c : Nat) (f : Rec → Rec) : (s.updRec c f).freeCtr = s.freeCtr := rfl
@[simp] theorem State.updRec_bcastNo (s : State) (c : Nat) (f : Rec → Rec) : (s.updRec c f).bcastNo = s.bcastNo := rfl
@[simp] theorem State.updRec_invNo (s : State) (c : Nat) (f : Rec → Rec) : (s.updRec c f).invNo = s.invNo := rfl
@[simp] theorem State.updRec_cmdNo (s : State) (c : Nat) (f : Rec → Rec) : (s.updRec c f).cmdNo = s.cmdNo := rfl
@[simp] theorem State.updRec_reports (s : State) (c : Nat) (f : Rec → Rec) : (s.updRec c f).reports = s.reports := rfl
@[simp] theorem State.updRec_dies (s : State) (c : Nat) (f : Rec → Rec) : (s.updRec c f).dies = s.dies := rfl
@[simp] theorem State.updRec_mem (s : State) (c : Nat) (f : Rec → Rec) : (s.updRec c f).mem = s.mem := rfl
@[simp] theorem State.updRec_poison (s : State) (c : Nat) (f : Rec → Rec) : (s.updRec c f).poison = s.poison := rfl
@[simp] theorem State.updRec_cstore (s : State) (c : Nat) (f : Rec → Rec) : (s.updRec c f).cstore = s.cstore := rfl
@[simp] theorem State.updRec_aram (s : State) (c : Nat) (f : Rec → Rec) : (s.updRec c f).aram = s.aram := rfl
@[simp] theorem State.updRec_armq (s : State) (c : Nat) (f : Rec → Rec) : (s.updRec c f).armq = s.armq := rfl
@[simp] theorem State.updRec_armRun (s : State) (c : Nat) (f : Rec → Rec) : (s.updRec c f).armRun = s.armRun := rfl
@[simp] theorem State.updRec_tenants (s : State) (c : Nat) (f : Rec → Rec) : (s.updRec c f).tenants = s.tenants := rfl
@[simp] theorem State.updRec_fwd (s : State) (c : Nat) (f : Rec → Rec) : (s.updRec c f).fwd = s.fwd := rfl
@[simp] theorem State.updRec_l2 (s : State) (c : Nat) (f : Rec → Rec) : (s.updRec c f).l2 = s.l2 := rfl
@[simp] theorem State.updRec_leases (s : State) (c : Nat) (f : Rec → Rec) : (s.updRec c f).leases = s.leases := rfl
@[simp] theorem State.updRec_pts (s : State) (c : Nat) (f : Rec → Rec) : (s.updRec c f).pts = s.pts := rfl
@[simp] theorem State.updRec_copies (s : State) (c : Nat) (f : Rec → Rec) : (s.updRec c f).copies = s.copies := rfl
@[simp] theorem State.updRec_freed (s : State) (c : Nat) (f : Rec → Rec) : (s.updRec c f).freed = s.freed := rfl
@[simp] theorem State.updRec_ats (s : State) (c : Nat) (f : Rec → Rec) : (s.updRec c f).ats = s.ats := rfl
@[simp] theorem State.updRec_staging (s : State) (c : Nat) (f : Rec → Rec) : (s.updRec c f).staging = s.staging := rfl
@[simp] theorem State.updRec_bankConf (s : State) (c : Nat) (f : Rec → Rec) : (s.updRec c f).bankConf = s.bankConf := rfl
@[simp] theorem State.updRec_bankWait (s : State) (c : Nat) (f : Rec → Rec) : (s.updRec c f).bankWait = s.bankWait := rfl
@[simp] theorem State.updRec_qslots (s : State) (c : Nat) (f : Rec → Rec) : (s.updRec c f).qslots = s.qslots := rfl
@[simp] theorem State.updRec_kickFifo (s : State) (c : Nat) (f : Rec → Rec) : (s.updRec c f).kickFifo = s.kickFifo := rfl
@[simp] theorem State.updRec_kickOver (s : State) (c : Nat) (f : Rec → Rec) : (s.updRec c f).kickOver = s.kickOver := rfl
@[simp] theorem State.updRec_mbx (s : State) (c : Nat) (f : Rec → Rec) : (s.updRec c f).mbx = s.mbx := rfl
@[simp] theorem State.updRec_pods (s : State) (c : Nat) (f : Rec → Rec) : (s.updRec c f).pods = s.pods := rfl
@[simp] theorem State.updRec_ate (s : State) (c : Nat) (f : Rec → Rec) : (s.updRec c f).ate = s.ate := rfl
@[simp] theorem State.updRec_fw (s : State) (c : Nat) (f : Rec → Rec) : (s.updRec c f).fw = s.fw := rfl
@[simp] theorem State.updRec_health (s : State) (c : Nat) (f : Rec → Rec) : (s.updRec c f).health = s.health := rfl
@[simp] theorem State.updRec_power (s : State) (c : Nat) (f : Rec → Rec) : (s.updRec c f).power = s.power := rfl
@[simp] theorem State.updRec_ltol (s : State) (c : Nat) (f : Rec → Rec) : (s.updRec c f).ltol = s.ltol := rfl
@[simp] theorem State.updRec_idleNs (s : State) (c : Nat) (f : Rec → Rec) : (s.updRec c f).idleNs = s.idleNs := rfl
@[simp] theorem State.updRec_meas (s : State) (c : Nat) (f : Rec → Rec) : (s.updRec c f).meas = s.meas := rfl
@[simp] theorem State.updRec_bootImage (s : State) (c : Nat) (f : Rec → Rec) : (s.updRec c f).bootImage = s.bootImage := rfl
@[simp] theorem State.updRec_bootRecovery (s : State) (c : Nat) (f : Rec → Rec) : (s.updRec c f).bootRecovery = s.bootRecovery := rfl
@[simp] theorem State.updRec_imageSvn (s : State) (c : Nat) (f : Rec → Rec) : (s.updRec c f).imageSvn = s.imageSvn := rfl
@[simp] theorem State.updRec_fuses (s : State) (c : Nat) (f : Rec → Rec) : (s.updRec c f).fuses = s.fuses := rfl
@[simp] theorem State.updRec_svnTry (s : State) (c : Nat) (f : Rec → Rec) : (s.updRec c f).svnTry = s.svnTry := rfl
@[simp] theorem State.updRec_leafNext (s : State) (c : Nat) (f : Rec → Rec) : (s.updRec c f).leafNext = s.leafNext := rfl
@[simp] theorem State.updRec_leafRes (s : State) (c : Nat) (f : Rec → Rec) : (s.updRec c f).leafRes = s.leafRes := rfl
@[simp] theorem State.updRec_stageGib (s : State) (c : Nat) (f : Rec → Rec) : (s.updRec c f).stageGib = s.stageGib := rfl
@[simp] theorem State.updRec_fwdMib (s : State) (c : Nat) (f : Rec → Rec) : (s.updRec c f).fwdMib = s.fwdMib := rfl
@[simp] theorem State.updRec_ckpt (s : State) (c : Nat) (f : Rec → Rec) : (s.updRec c f).ckpt = s.ckpt := rfl
@[simp] theorem State.updRec_ckptFwd (s : State) (c : Nat) (f : Rec → Rec) : (s.updRec c f).ckptFwd = s.ckptFwd := rfl
@[simp] theorem State.updRec_ckptRun (s : State) (c : Nat) (f : Rec → Rec) : (s.updRec c f).ckptRun = s.ckptRun := rfl
@[simp] theorem State.updRec_waking (s : State) (c : Nat) (f : Rec → Rec) : (s.updRec c f).waking = s.waking := rfl
@[simp] theorem State.updRec_grant (s : State) (c : Nat) (f : Rec → Rec) : (s.updRec c f).grant = s.grant := rfl
@[simp] theorem State.updRec_trans (s : State) (c : Nat) (f : Rec → Rec) : (s.updRec c f).trans = s.trans := rfl
@[simp] theorem State.updRec_secret (s : State) (c : Nat) (f : Rec → Rec) : (s.updRec c f).secret = s.secret := rfl
@[simp] theorem State.updRec_translator (s : State) (c : Nat) (f : Rec → Rec) : (s.updRec c f).translator = s.translator := rfl
@[simp] theorem State.updRec_gens (s : State) (c : Nat) (f : Rec → Rec) : (s.updRec c f).gens = s.gens := rfl
@[simp] theorem State.updRec_loads (s : State) (c : Nat) (f : Rec → Rec) : (s.updRec c f).loads = s.loads := rfl
@[simp] theorem State.updRec_loaded (s : State) (c : Nat) (f : Rec → Rec) : (s.updRec c f).loaded = s.loaded := rfl
@[simp] theorem State.updRec_loadTurn (s : State) (c : Nat) (f : Rec → Rec) : (s.updRec c f).loadTurn = s.loadTurn := rfl
@[simp] theorem State.updRec_mapinv (s : State) (c : Nat) (f : Rec → Rec) : (s.updRec c f).mapinv = s.mapinv := rfl
@[simp] theorem State.updRec_hostReads (s : State) (c : Nat) (f : Rec → Rec) : (s.updRec c f).hostReads = s.hostReads := rfl
@[simp] theorem State.updRec_images (s : State) (c : Nat) (f : Rec → Rec) : (s.updRec c f).images = s.images := rfl

/-! `State.updSeq` -/

@[simp] theorem State.updSeq_agenda (s : State) (c : Nat) (f : SeqCore → SeqCore) : (s.updSeq c f).agenda = s.agenda := rfl
@[simp] theorem State.updSeq_sel (s : State) (c : Nat) (f : SeqCore → SeqCore) : (s.updSeq c f).sel = s.sel := rfl
@[simp] theorem State.updSeq_selDie (s : State) (c : Nat) (f : SeqCore → SeqCore) : (s.updSeq c f).selDie = s.selDie := rfl
@[simp] theorem State.updSeq_clk (s : State) (c : Nat) (f : SeqCore → SeqCore) : (s.updSeq c f).clk = s.clk := rfl
@[simp] theorem State.updSeq_litBusy (s : State) (c : Nat) (f : SeqCore → SeqCore) : (s.updSeq c f).litBusy = s.litBusy := rfl
@[simp] theorem State.updSeq_nextId (s : State) (c : Nat) (f : SeqCore → SeqCore) : (s.updSeq c f).nextId = s.nextId := rfl
@[simp] theorem State.updSeq_freeCtr (s : State) (c : Nat) (f : SeqCore → SeqCore) : (s.updSeq c f).freeCtr = s.freeCtr := rfl
@[simp] theorem State.updSeq_bcastNo (s : State) (c : Nat) (f : SeqCore → SeqCore) : (s.updSeq c f).bcastNo = s.bcastNo := rfl
@[simp] theorem State.updSeq_invNo (s : State) (c : Nat) (f : SeqCore → SeqCore) : (s.updSeq c f).invNo = s.invNo := rfl
@[simp] theorem State.updSeq_cmdNo (s : State) (c : Nat) (f : SeqCore → SeqCore) : (s.updSeq c f).cmdNo = s.cmdNo := rfl
@[simp] theorem State.updSeq_reports (s : State) (c : Nat) (f : SeqCore → SeqCore) : (s.updSeq c f).reports = s.reports := rfl
@[simp] theorem State.updSeq_dies (s : State) (c : Nat) (f : SeqCore → SeqCore) : (s.updSeq c f).dies = s.dies := rfl
@[simp] theorem State.updSeq_mem (s : State) (c : Nat) (f : SeqCore → SeqCore) : (s.updSeq c f).mem = s.mem := rfl
@[simp] theorem State.updSeq_poison (s : State) (c : Nat) (f : SeqCore → SeqCore) : (s.updSeq c f).poison = s.poison := rfl
@[simp] theorem State.updSeq_cstore (s : State) (c : Nat) (f : SeqCore → SeqCore) : (s.updSeq c f).cstore = s.cstore := rfl
@[simp] theorem State.updSeq_aram (s : State) (c : Nat) (f : SeqCore → SeqCore) : (s.updSeq c f).aram = s.aram := rfl
@[simp] theorem State.updSeq_armq (s : State) (c : Nat) (f : SeqCore → SeqCore) : (s.updSeq c f).armq = s.armq := rfl
@[simp] theorem State.updSeq_armRun (s : State) (c : Nat) (f : SeqCore → SeqCore) : (s.updSeq c f).armRun = s.armRun := rfl
@[simp] theorem State.updSeq_tenants (s : State) (c : Nat) (f : SeqCore → SeqCore) : (s.updSeq c f).tenants = s.tenants := rfl
@[simp] theorem State.updSeq_fwd (s : State) (c : Nat) (f : SeqCore → SeqCore) : (s.updSeq c f).fwd = s.fwd := rfl
@[simp] theorem State.updSeq_l2 (s : State) (c : Nat) (f : SeqCore → SeqCore) : (s.updSeq c f).l2 = s.l2 := rfl
@[simp] theorem State.updSeq_leases (s : State) (c : Nat) (f : SeqCore → SeqCore) : (s.updSeq c f).leases = s.leases := rfl
@[simp] theorem State.updSeq_pts (s : State) (c : Nat) (f : SeqCore → SeqCore) : (s.updSeq c f).pts = s.pts := rfl
@[simp] theorem State.updSeq_copies (s : State) (c : Nat) (f : SeqCore → SeqCore) : (s.updSeq c f).copies = s.copies := rfl
@[simp] theorem State.updSeq_freed (s : State) (c : Nat) (f : SeqCore → SeqCore) : (s.updSeq c f).freed = s.freed := rfl
@[simp] theorem State.updSeq_ats (s : State) (c : Nat) (f : SeqCore → SeqCore) : (s.updSeq c f).ats = s.ats := rfl
@[simp] theorem State.updSeq_staging (s : State) (c : Nat) (f : SeqCore → SeqCore) : (s.updSeq c f).staging = s.staging := rfl
@[simp] theorem State.updSeq_bankConf (s : State) (c : Nat) (f : SeqCore → SeqCore) : (s.updSeq c f).bankConf = s.bankConf := rfl
@[simp] theorem State.updSeq_bankWait (s : State) (c : Nat) (f : SeqCore → SeqCore) : (s.updSeq c f).bankWait = s.bankWait := rfl
@[simp] theorem State.updSeq_qslots (s : State) (c : Nat) (f : SeqCore → SeqCore) : (s.updSeq c f).qslots = s.qslots := rfl
@[simp] theorem State.updSeq_kickFifo (s : State) (c : Nat) (f : SeqCore → SeqCore) : (s.updSeq c f).kickFifo = s.kickFifo := rfl
@[simp] theorem State.updSeq_kickOver (s : State) (c : Nat) (f : SeqCore → SeqCore) : (s.updSeq c f).kickOver = s.kickOver := rfl
@[simp] theorem State.updSeq_mbx (s : State) (c : Nat) (f : SeqCore → SeqCore) : (s.updSeq c f).mbx = s.mbx := rfl
@[simp] theorem State.updSeq_pods (s : State) (c : Nat) (f : SeqCore → SeqCore) : (s.updSeq c f).pods = s.pods := rfl
@[simp] theorem State.updSeq_ate (s : State) (c : Nat) (f : SeqCore → SeqCore) : (s.updSeq c f).ate = s.ate := rfl
@[simp] theorem State.updSeq_fw (s : State) (c : Nat) (f : SeqCore → SeqCore) : (s.updSeq c f).fw = s.fw := rfl
@[simp] theorem State.updSeq_health (s : State) (c : Nat) (f : SeqCore → SeqCore) : (s.updSeq c f).health = s.health := rfl
@[simp] theorem State.updSeq_power (s : State) (c : Nat) (f : SeqCore → SeqCore) : (s.updSeq c f).power = s.power := rfl
@[simp] theorem State.updSeq_ltol (s : State) (c : Nat) (f : SeqCore → SeqCore) : (s.updSeq c f).ltol = s.ltol := rfl
@[simp] theorem State.updSeq_idleNs (s : State) (c : Nat) (f : SeqCore → SeqCore) : (s.updSeq c f).idleNs = s.idleNs := rfl
@[simp] theorem State.updSeq_meas (s : State) (c : Nat) (f : SeqCore → SeqCore) : (s.updSeq c f).meas = s.meas := rfl
@[simp] theorem State.updSeq_bootImage (s : State) (c : Nat) (f : SeqCore → SeqCore) : (s.updSeq c f).bootImage = s.bootImage := rfl
@[simp] theorem State.updSeq_bootRecovery (s : State) (c : Nat) (f : SeqCore → SeqCore) : (s.updSeq c f).bootRecovery = s.bootRecovery := rfl
@[simp] theorem State.updSeq_imageSvn (s : State) (c : Nat) (f : SeqCore → SeqCore) : (s.updSeq c f).imageSvn = s.imageSvn := rfl
@[simp] theorem State.updSeq_fuses (s : State) (c : Nat) (f : SeqCore → SeqCore) : (s.updSeq c f).fuses = s.fuses := rfl
@[simp] theorem State.updSeq_svnTry (s : State) (c : Nat) (f : SeqCore → SeqCore) : (s.updSeq c f).svnTry = s.svnTry := rfl
@[simp] theorem State.updSeq_leafNext (s : State) (c : Nat) (f : SeqCore → SeqCore) : (s.updSeq c f).leafNext = s.leafNext := rfl
@[simp] theorem State.updSeq_leafRes (s : State) (c : Nat) (f : SeqCore → SeqCore) : (s.updSeq c f).leafRes = s.leafRes := rfl
@[simp] theorem State.updSeq_stageGib (s : State) (c : Nat) (f : SeqCore → SeqCore) : (s.updSeq c f).stageGib = s.stageGib := rfl
@[simp] theorem State.updSeq_fwdMib (s : State) (c : Nat) (f : SeqCore → SeqCore) : (s.updSeq c f).fwdMib = s.fwdMib := rfl
@[simp] theorem State.updSeq_ckpt (s : State) (c : Nat) (f : SeqCore → SeqCore) : (s.updSeq c f).ckpt = s.ckpt := rfl
@[simp] theorem State.updSeq_ckptFwd (s : State) (c : Nat) (f : SeqCore → SeqCore) : (s.updSeq c f).ckptFwd = s.ckptFwd := rfl
@[simp] theorem State.updSeq_ckptRun (s : State) (c : Nat) (f : SeqCore → SeqCore) : (s.updSeq c f).ckptRun = s.ckptRun := rfl
@[simp] theorem State.updSeq_waking (s : State) (c : Nat) (f : SeqCore → SeqCore) : (s.updSeq c f).waking = s.waking := rfl
@[simp] theorem State.updSeq_grant (s : State) (c : Nat) (f : SeqCore → SeqCore) : (s.updSeq c f).grant = s.grant := rfl
@[simp] theorem State.updSeq_trans (s : State) (c : Nat) (f : SeqCore → SeqCore) : (s.updSeq c f).trans = s.trans := rfl
@[simp] theorem State.updSeq_secret (s : State) (c : Nat) (f : SeqCore → SeqCore) : (s.updSeq c f).secret = s.secret := rfl
@[simp] theorem State.updSeq_translator (s : State) (c : Nat) (f : SeqCore → SeqCore) : (s.updSeq c f).translator = s.translator := rfl
@[simp] theorem State.updSeq_gens (s : State) (c : Nat) (f : SeqCore → SeqCore) : (s.updSeq c f).gens = s.gens := rfl
@[simp] theorem State.updSeq_loads (s : State) (c : Nat) (f : SeqCore → SeqCore) : (s.updSeq c f).loads = s.loads := rfl
@[simp] theorem State.updSeq_loaded (s : State) (c : Nat) (f : SeqCore → SeqCore) : (s.updSeq c f).loaded = s.loaded := rfl
@[simp] theorem State.updSeq_loadTurn (s : State) (c : Nat) (f : SeqCore → SeqCore) : (s.updSeq c f).loadTurn = s.loadTurn := rfl
@[simp] theorem State.updSeq_mapinv (s : State) (c : Nat) (f : SeqCore → SeqCore) : (s.updSeq c f).mapinv = s.mapinv := rfl
@[simp] theorem State.updSeq_hostReads (s : State) (c : Nat) (f : SeqCore → SeqCore) : (s.updSeq c f).hostReads = s.hostReads := rfl
@[simp] theorem State.updSeq_images (s : State) (c : Nat) (f : SeqCore → SeqCore) : (s.updSeq c f).images = s.images := rfl

/-! `State.updDctx` -/

@[simp] theorem State.updDctx_agenda (s : State) (c d : Nat) (f : DieCtx → DieCtx) : (s.updDctx c d f).agenda = s.agenda := rfl
@[simp] theorem State.updDctx_sel (s : State) (c d : Nat) (f : DieCtx → DieCtx) : (s.updDctx c d f).sel = s.sel := rfl
@[simp] theorem State.updDctx_selDie (s : State) (c d : Nat) (f : DieCtx → DieCtx) : (s.updDctx c d f).selDie = s.selDie := rfl
@[simp] theorem State.updDctx_clk (s : State) (c d : Nat) (f : DieCtx → DieCtx) : (s.updDctx c d f).clk = s.clk := rfl
@[simp] theorem State.updDctx_litBusy (s : State) (c d : Nat) (f : DieCtx → DieCtx) : (s.updDctx c d f).litBusy = s.litBusy := rfl
@[simp] theorem State.updDctx_nextId (s : State) (c d : Nat) (f : DieCtx → DieCtx) : (s.updDctx c d f).nextId = s.nextId := rfl
@[simp] theorem State.updDctx_freeCtr (s : State) (c d : Nat) (f : DieCtx → DieCtx) : (s.updDctx c d f).freeCtr = s.freeCtr := rfl
@[simp] theorem State.updDctx_bcastNo (s : State) (c d : Nat) (f : DieCtx → DieCtx) : (s.updDctx c d f).bcastNo = s.bcastNo := rfl
@[simp] theorem State.updDctx_invNo (s : State) (c d : Nat) (f : DieCtx → DieCtx) : (s.updDctx c d f).invNo = s.invNo := rfl
@[simp] theorem State.updDctx_cmdNo (s : State) (c d : Nat) (f : DieCtx → DieCtx) : (s.updDctx c d f).cmdNo = s.cmdNo := rfl
@[simp] theorem State.updDctx_reports (s : State) (c d : Nat) (f : DieCtx → DieCtx) : (s.updDctx c d f).reports = s.reports := rfl
@[simp] theorem State.updDctx_dies (s : State) (c d : Nat) (f : DieCtx → DieCtx) : (s.updDctx c d f).dies = s.dies := rfl
@[simp] theorem State.updDctx_mem (s : State) (c d : Nat) (f : DieCtx → DieCtx) : (s.updDctx c d f).mem = s.mem := rfl
@[simp] theorem State.updDctx_poison (s : State) (c d : Nat) (f : DieCtx → DieCtx) : (s.updDctx c d f).poison = s.poison := rfl
@[simp] theorem State.updDctx_cstore (s : State) (c d : Nat) (f : DieCtx → DieCtx) : (s.updDctx c d f).cstore = s.cstore := rfl
@[simp] theorem State.updDctx_aram (s : State) (c d : Nat) (f : DieCtx → DieCtx) : (s.updDctx c d f).aram = s.aram := rfl
@[simp] theorem State.updDctx_armq (s : State) (c d : Nat) (f : DieCtx → DieCtx) : (s.updDctx c d f).armq = s.armq := rfl
@[simp] theorem State.updDctx_armRun (s : State) (c d : Nat) (f : DieCtx → DieCtx) : (s.updDctx c d f).armRun = s.armRun := rfl
@[simp] theorem State.updDctx_tenants (s : State) (c d : Nat) (f : DieCtx → DieCtx) : (s.updDctx c d f).tenants = s.tenants := rfl
@[simp] theorem State.updDctx_fwd (s : State) (c d : Nat) (f : DieCtx → DieCtx) : (s.updDctx c d f).fwd = s.fwd := rfl
@[simp] theorem State.updDctx_l2 (s : State) (c d : Nat) (f : DieCtx → DieCtx) : (s.updDctx c d f).l2 = s.l2 := rfl
@[simp] theorem State.updDctx_leases (s : State) (c d : Nat) (f : DieCtx → DieCtx) : (s.updDctx c d f).leases = s.leases := rfl
@[simp] theorem State.updDctx_pts (s : State) (c d : Nat) (f : DieCtx → DieCtx) : (s.updDctx c d f).pts = s.pts := rfl
@[simp] theorem State.updDctx_copies (s : State) (c d : Nat) (f : DieCtx → DieCtx) : (s.updDctx c d f).copies = s.copies := rfl
@[simp] theorem State.updDctx_freed (s : State) (c d : Nat) (f : DieCtx → DieCtx) : (s.updDctx c d f).freed = s.freed := rfl
@[simp] theorem State.updDctx_ats (s : State) (c d : Nat) (f : DieCtx → DieCtx) : (s.updDctx c d f).ats = s.ats := rfl
@[simp] theorem State.updDctx_staging (s : State) (c d : Nat) (f : DieCtx → DieCtx) : (s.updDctx c d f).staging = s.staging := rfl
@[simp] theorem State.updDctx_bankConf (s : State) (c d : Nat) (f : DieCtx → DieCtx) : (s.updDctx c d f).bankConf = s.bankConf := rfl
@[simp] theorem State.updDctx_bankWait (s : State) (c d : Nat) (f : DieCtx → DieCtx) : (s.updDctx c d f).bankWait = s.bankWait := rfl
@[simp] theorem State.updDctx_qslots (s : State) (c d : Nat) (f : DieCtx → DieCtx) : (s.updDctx c d f).qslots = s.qslots := rfl
@[simp] theorem State.updDctx_kickFifo (s : State) (c d : Nat) (f : DieCtx → DieCtx) : (s.updDctx c d f).kickFifo = s.kickFifo := rfl
@[simp] theorem State.updDctx_kickOver (s : State) (c d : Nat) (f : DieCtx → DieCtx) : (s.updDctx c d f).kickOver = s.kickOver := rfl
@[simp] theorem State.updDctx_mbx (s : State) (c d : Nat) (f : DieCtx → DieCtx) : (s.updDctx c d f).mbx = s.mbx := rfl
@[simp] theorem State.updDctx_pods (s : State) (c d : Nat) (f : DieCtx → DieCtx) : (s.updDctx c d f).pods = s.pods := rfl
@[simp] theorem State.updDctx_ate (s : State) (c d : Nat) (f : DieCtx → DieCtx) : (s.updDctx c d f).ate = s.ate := rfl
@[simp] theorem State.updDctx_fw (s : State) (c d : Nat) (f : DieCtx → DieCtx) : (s.updDctx c d f).fw = s.fw := rfl
@[simp] theorem State.updDctx_health (s : State) (c d : Nat) (f : DieCtx → DieCtx) : (s.updDctx c d f).health = s.health := rfl
@[simp] theorem State.updDctx_power (s : State) (c d : Nat) (f : DieCtx → DieCtx) : (s.updDctx c d f).power = s.power := rfl
@[simp] theorem State.updDctx_ltol (s : State) (c d : Nat) (f : DieCtx → DieCtx) : (s.updDctx c d f).ltol = s.ltol := rfl
@[simp] theorem State.updDctx_idleNs (s : State) (c d : Nat) (f : DieCtx → DieCtx) : (s.updDctx c d f).idleNs = s.idleNs := rfl
@[simp] theorem State.updDctx_meas (s : State) (c d : Nat) (f : DieCtx → DieCtx) : (s.updDctx c d f).meas = s.meas := rfl
@[simp] theorem State.updDctx_bootImage (s : State) (c d : Nat) (f : DieCtx → DieCtx) : (s.updDctx c d f).bootImage = s.bootImage := rfl
@[simp] theorem State.updDctx_bootRecovery (s : State) (c d : Nat) (f : DieCtx → DieCtx) : (s.updDctx c d f).bootRecovery = s.bootRecovery := rfl
@[simp] theorem State.updDctx_imageSvn (s : State) (c d : Nat) (f : DieCtx → DieCtx) : (s.updDctx c d f).imageSvn = s.imageSvn := rfl
@[simp] theorem State.updDctx_fuses (s : State) (c d : Nat) (f : DieCtx → DieCtx) : (s.updDctx c d f).fuses = s.fuses := rfl
@[simp] theorem State.updDctx_svnTry (s : State) (c d : Nat) (f : DieCtx → DieCtx) : (s.updDctx c d f).svnTry = s.svnTry := rfl
@[simp] theorem State.updDctx_leafNext (s : State) (c d : Nat) (f : DieCtx → DieCtx) : (s.updDctx c d f).leafNext = s.leafNext := rfl
@[simp] theorem State.updDctx_leafRes (s : State) (c d : Nat) (f : DieCtx → DieCtx) : (s.updDctx c d f).leafRes = s.leafRes := rfl
@[simp] theorem State.updDctx_stageGib (s : State) (c d : Nat) (f : DieCtx → DieCtx) : (s.updDctx c d f).stageGib = s.stageGib := rfl
@[simp] theorem State.updDctx_fwdMib (s : State) (c d : Nat) (f : DieCtx → DieCtx) : (s.updDctx c d f).fwdMib = s.fwdMib := rfl
@[simp] theorem State.updDctx_ckpt (s : State) (c d : Nat) (f : DieCtx → DieCtx) : (s.updDctx c d f).ckpt = s.ckpt := rfl
@[simp] theorem State.updDctx_ckptFwd (s : State) (c d : Nat) (f : DieCtx → DieCtx) : (s.updDctx c d f).ckptFwd = s.ckptFwd := rfl
@[simp] theorem State.updDctx_ckptRun (s : State) (c d : Nat) (f : DieCtx → DieCtx) : (s.updDctx c d f).ckptRun = s.ckptRun := rfl
@[simp] theorem State.updDctx_waking (s : State) (c d : Nat) (f : DieCtx → DieCtx) : (s.updDctx c d f).waking = s.waking := rfl
@[simp] theorem State.updDctx_grant (s : State) (c d : Nat) (f : DieCtx → DieCtx) : (s.updDctx c d f).grant = s.grant := rfl
@[simp] theorem State.updDctx_trans (s : State) (c d : Nat) (f : DieCtx → DieCtx) : (s.updDctx c d f).trans = s.trans := rfl
@[simp] theorem State.updDctx_secret (s : State) (c d : Nat) (f : DieCtx → DieCtx) : (s.updDctx c d f).secret = s.secret := rfl
@[simp] theorem State.updDctx_translator (s : State) (c d : Nat) (f : DieCtx → DieCtx) : (s.updDctx c d f).translator = s.translator := rfl
@[simp] theorem State.updDctx_gens (s : State) (c d : Nat) (f : DieCtx → DieCtx) : (s.updDctx c d f).gens = s.gens := rfl
@[simp] theorem State.updDctx_loads (s : State) (c d : Nat) (f : DieCtx → DieCtx) : (s.updDctx c d f).loads = s.loads := rfl
@[simp] theorem State.updDctx_loaded (s : State) (c d : Nat) (f : DieCtx → DieCtx) : (s.updDctx c d f).loaded = s.loaded := rfl
@[simp] theorem State.updDctx_loadTurn (s : State) (c d : Nat) (f : DieCtx → DieCtx) : (s.updDctx c d f).loadTurn = s.loadTurn := rfl
@[simp] theorem State.updDctx_mapinv (s : State) (c d : Nat) (f : DieCtx → DieCtx) : (s.updDctx c d f).mapinv = s.mapinv := rfl
@[simp] theorem State.updDctx_hostReads (s : State) (c d : Nat) (f : DieCtx → DieCtx) : (s.updDctx c d f).hostReads = s.hostReads := rfl
@[simp] theorem State.updDctx_images (s : State) (c d : Nat) (f : DieCtx → DieCtx) : (s.updDctx c d f).images = s.images := rfl

/-! `State.updCell` -/

@[simp] theorem State.updCell_agenda (s : State) (c d l : Nat) (f : Cell → Cell) : (s.updCell c d l f).agenda = s.agenda := rfl
@[simp] theorem State.updCell_sel (s : State) (c d l : Nat) (f : Cell → Cell) : (s.updCell c d l f).sel = s.sel := rfl
@[simp] theorem State.updCell_selDie (s : State) (c d l : Nat) (f : Cell → Cell) : (s.updCell c d l f).selDie = s.selDie := rfl
@[simp] theorem State.updCell_clk (s : State) (c d l : Nat) (f : Cell → Cell) : (s.updCell c d l f).clk = s.clk := rfl
@[simp] theorem State.updCell_litBusy (s : State) (c d l : Nat) (f : Cell → Cell) : (s.updCell c d l f).litBusy = s.litBusy := rfl
@[simp] theorem State.updCell_nextId (s : State) (c d l : Nat) (f : Cell → Cell) : (s.updCell c d l f).nextId = s.nextId := rfl
@[simp] theorem State.updCell_freeCtr (s : State) (c d l : Nat) (f : Cell → Cell) : (s.updCell c d l f).freeCtr = s.freeCtr := rfl
@[simp] theorem State.updCell_bcastNo (s : State) (c d l : Nat) (f : Cell → Cell) : (s.updCell c d l f).bcastNo = s.bcastNo := rfl
@[simp] theorem State.updCell_invNo (s : State) (c d l : Nat) (f : Cell → Cell) : (s.updCell c d l f).invNo = s.invNo := rfl
@[simp] theorem State.updCell_cmdNo (s : State) (c d l : Nat) (f : Cell → Cell) : (s.updCell c d l f).cmdNo = s.cmdNo := rfl
@[simp] theorem State.updCell_reports (s : State) (c d l : Nat) (f : Cell → Cell) : (s.updCell c d l f).reports = s.reports := rfl
@[simp] theorem State.updCell_dies (s : State) (c d l : Nat) (f : Cell → Cell) : (s.updCell c d l f).dies = s.dies := rfl
@[simp] theorem State.updCell_mem (s : State) (c d l : Nat) (f : Cell → Cell) : (s.updCell c d l f).mem = s.mem := rfl
@[simp] theorem State.updCell_poison (s : State) (c d l : Nat) (f : Cell → Cell) : (s.updCell c d l f).poison = s.poison := rfl
@[simp] theorem State.updCell_cstore (s : State) (c d l : Nat) (f : Cell → Cell) : (s.updCell c d l f).cstore = s.cstore := rfl
@[simp] theorem State.updCell_aram (s : State) (c d l : Nat) (f : Cell → Cell) : (s.updCell c d l f).aram = s.aram := rfl
@[simp] theorem State.updCell_armq (s : State) (c d l : Nat) (f : Cell → Cell) : (s.updCell c d l f).armq = s.armq := rfl
@[simp] theorem State.updCell_armRun (s : State) (c d l : Nat) (f : Cell → Cell) : (s.updCell c d l f).armRun = s.armRun := rfl
@[simp] theorem State.updCell_tenants (s : State) (c d l : Nat) (f : Cell → Cell) : (s.updCell c d l f).tenants = s.tenants := rfl
@[simp] theorem State.updCell_fwd (s : State) (c d l : Nat) (f : Cell → Cell) : (s.updCell c d l f).fwd = s.fwd := rfl
@[simp] theorem State.updCell_l2 (s : State) (c d l : Nat) (f : Cell → Cell) : (s.updCell c d l f).l2 = s.l2 := rfl
@[simp] theorem State.updCell_leases (s : State) (c d l : Nat) (f : Cell → Cell) : (s.updCell c d l f).leases = s.leases := rfl
@[simp] theorem State.updCell_pts (s : State) (c d l : Nat) (f : Cell → Cell) : (s.updCell c d l f).pts = s.pts := rfl
@[simp] theorem State.updCell_copies (s : State) (c d l : Nat) (f : Cell → Cell) : (s.updCell c d l f).copies = s.copies := rfl
@[simp] theorem State.updCell_freed (s : State) (c d l : Nat) (f : Cell → Cell) : (s.updCell c d l f).freed = s.freed := rfl
@[simp] theorem State.updCell_ats (s : State) (c d l : Nat) (f : Cell → Cell) : (s.updCell c d l f).ats = s.ats := rfl
@[simp] theorem State.updCell_staging (s : State) (c d l : Nat) (f : Cell → Cell) : (s.updCell c d l f).staging = s.staging := rfl
@[simp] theorem State.updCell_bankConf (s : State) (c d l : Nat) (f : Cell → Cell) : (s.updCell c d l f).bankConf = s.bankConf := rfl
@[simp] theorem State.updCell_bankWait (s : State) (c d l : Nat) (f : Cell → Cell) : (s.updCell c d l f).bankWait = s.bankWait := rfl
@[simp] theorem State.updCell_qslots (s : State) (c d l : Nat) (f : Cell → Cell) : (s.updCell c d l f).qslots = s.qslots := rfl
@[simp] theorem State.updCell_kickFifo (s : State) (c d l : Nat) (f : Cell → Cell) : (s.updCell c d l f).kickFifo = s.kickFifo := rfl
@[simp] theorem State.updCell_kickOver (s : State) (c d l : Nat) (f : Cell → Cell) : (s.updCell c d l f).kickOver = s.kickOver := rfl
@[simp] theorem State.updCell_mbx (s : State) (c d l : Nat) (f : Cell → Cell) : (s.updCell c d l f).mbx = s.mbx := rfl
@[simp] theorem State.updCell_pods (s : State) (c d l : Nat) (f : Cell → Cell) : (s.updCell c d l f).pods = s.pods := rfl
@[simp] theorem State.updCell_ate (s : State) (c d l : Nat) (f : Cell → Cell) : (s.updCell c d l f).ate = s.ate := rfl
@[simp] theorem State.updCell_fw (s : State) (c d l : Nat) (f : Cell → Cell) : (s.updCell c d l f).fw = s.fw := rfl
@[simp] theorem State.updCell_health (s : State) (c d l : Nat) (f : Cell → Cell) : (s.updCell c d l f).health = s.health := rfl
@[simp] theorem State.updCell_power (s : State) (c d l : Nat) (f : Cell → Cell) : (s.updCell c d l f).power = s.power := rfl
@[simp] theorem State.updCell_ltol (s : State) (c d l : Nat) (f : Cell → Cell) : (s.updCell c d l f).ltol = s.ltol := rfl
@[simp] theorem State.updCell_idleNs (s : State) (c d l : Nat) (f : Cell → Cell) : (s.updCell c d l f).idleNs = s.idleNs := rfl
@[simp] theorem State.updCell_meas (s : State) (c d l : Nat) (f : Cell → Cell) : (s.updCell c d l f).meas = s.meas := rfl
@[simp] theorem State.updCell_bootImage (s : State) (c d l : Nat) (f : Cell → Cell) : (s.updCell c d l f).bootImage = s.bootImage := rfl
@[simp] theorem State.updCell_bootRecovery (s : State) (c d l : Nat) (f : Cell → Cell) : (s.updCell c d l f).bootRecovery = s.bootRecovery := rfl
@[simp] theorem State.updCell_imageSvn (s : State) (c d l : Nat) (f : Cell → Cell) : (s.updCell c d l f).imageSvn = s.imageSvn := rfl
@[simp] theorem State.updCell_fuses (s : State) (c d l : Nat) (f : Cell → Cell) : (s.updCell c d l f).fuses = s.fuses := rfl
@[simp] theorem State.updCell_svnTry (s : State) (c d l : Nat) (f : Cell → Cell) : (s.updCell c d l f).svnTry = s.svnTry := rfl
@[simp] theorem State.updCell_leafNext (s : State) (c d l : Nat) (f : Cell → Cell) : (s.updCell c d l f).leafNext = s.leafNext := rfl
@[simp] theorem State.updCell_leafRes (s : State) (c d l : Nat) (f : Cell → Cell) : (s.updCell c d l f).leafRes = s.leafRes := rfl
@[simp] theorem State.updCell_stageGib (s : State) (c d l : Nat) (f : Cell → Cell) : (s.updCell c d l f).stageGib = s.stageGib := rfl
@[simp] theorem State.updCell_fwdMib (s : State) (c d l : Nat) (f : Cell → Cell) : (s.updCell c d l f).fwdMib = s.fwdMib := rfl
@[simp] theorem State.updCell_ckpt (s : State) (c d l : Nat) (f : Cell → Cell) : (s.updCell c d l f).ckpt = s.ckpt := rfl
@[simp] theorem State.updCell_ckptFwd (s : State) (c d l : Nat) (f : Cell → Cell) : (s.updCell c d l f).ckptFwd = s.ckptFwd := rfl
@[simp] theorem State.updCell_ckptRun (s : State) (c d l : Nat) (f : Cell → Cell) : (s.updCell c d l f).ckptRun = s.ckptRun := rfl
@[simp] theorem State.updCell_waking (s : State) (c d l : Nat) (f : Cell → Cell) : (s.updCell c d l f).waking = s.waking := rfl
@[simp] theorem State.updCell_grant (s : State) (c d l : Nat) (f : Cell → Cell) : (s.updCell c d l f).grant = s.grant := rfl
@[simp] theorem State.updCell_trans (s : State) (c d l : Nat) (f : Cell → Cell) : (s.updCell c d l f).trans = s.trans := rfl
@[simp] theorem State.updCell_secret (s : State) (c d l : Nat) (f : Cell → Cell) : (s.updCell c d l f).secret = s.secret := rfl
@[simp] theorem State.updCell_translator (s : State) (c d l : Nat) (f : Cell → Cell) : (s.updCell c d l f).translator = s.translator := rfl
@[simp] theorem State.updCell_gens (s : State) (c d l : Nat) (f : Cell → Cell) : (s.updCell c d l f).gens = s.gens := rfl
@[simp] theorem State.updCell_loads (s : State) (c d l : Nat) (f : Cell → Cell) : (s.updCell c d l f).loads = s.loads := rfl
@[simp] theorem State.updCell_loaded (s : State) (c d l : Nat) (f : Cell → Cell) : (s.updCell c d l f).loaded = s.loaded := rfl
@[simp] theorem State.updCell_loadTurn (s : State) (c d l : Nat) (f : Cell → Cell) : (s.updCell c d l f).loadTurn = s.loadTurn := rfl
@[simp] theorem State.updCell_mapinv (s : State) (c d l : Nat) (f : Cell → Cell) : (s.updCell c d l f).mapinv = s.mapinv := rfl
@[simp] theorem State.updCell_hostReads (s : State) (c d l : Nat) (f : Cell → Cell) : (s.updCell c d l f).hostReads = s.hostReads := rfl
@[simp] theorem State.updCell_images (s : State) (c d l : Nat) (f : Cell → Cell) : (s.updCell c d l f).images = s.images := rfl

/-! `State.updCore` -/

@[simp] theorem State.updCore_agenda (s : State) (c d l : Nat) (f : CellCore → CellCore) : (s.updCore c d l f).agenda = s.agenda := rfl
@[simp] theorem State.updCore_sel (s : State) (c d l : Nat) (f : CellCore → CellCore) : (s.updCore c d l f).sel = s.sel := rfl
@[simp] theorem State.updCore_selDie (s : State) (c d l : Nat) (f : CellCore → CellCore) : (s.updCore c d l f).selDie = s.selDie := rfl
@[simp] theorem State.updCore_clk (s : State) (c d l : Nat) (f : CellCore → CellCore) : (s.updCore c d l f).clk = s.clk := rfl
@[simp] theorem State.updCore_litBusy (s : State) (c d l : Nat) (f : CellCore → CellCore) : (s.updCore c d l f).litBusy = s.litBusy := rfl
@[simp] theorem State.updCore_nextId (s : State) (c d l : Nat) (f : CellCore → CellCore) : (s.updCore c d l f).nextId = s.nextId := rfl
@[simp] theorem State.updCore_freeCtr (s : State) (c d l : Nat) (f : CellCore → CellCore) : (s.updCore c d l f).freeCtr = s.freeCtr := rfl
@[simp] theorem State.updCore_bcastNo (s : State) (c d l : Nat) (f : CellCore → CellCore) : (s.updCore c d l f).bcastNo = s.bcastNo := rfl
@[simp] theorem State.updCore_invNo (s : State) (c d l : Nat) (f : CellCore → CellCore) : (s.updCore c d l f).invNo = s.invNo := rfl
@[simp] theorem State.updCore_cmdNo (s : State) (c d l : Nat) (f : CellCore → CellCore) : (s.updCore c d l f).cmdNo = s.cmdNo := rfl
@[simp] theorem State.updCore_reports (s : State) (c d l : Nat) (f : CellCore → CellCore) : (s.updCore c d l f).reports = s.reports := rfl
@[simp] theorem State.updCore_dies (s : State) (c d l : Nat) (f : CellCore → CellCore) : (s.updCore c d l f).dies = s.dies := rfl
@[simp] theorem State.updCore_mem (s : State) (c d l : Nat) (f : CellCore → CellCore) : (s.updCore c d l f).mem = s.mem := rfl
@[simp] theorem State.updCore_poison (s : State) (c d l : Nat) (f : CellCore → CellCore) : (s.updCore c d l f).poison = s.poison := rfl
@[simp] theorem State.updCore_cstore (s : State) (c d l : Nat) (f : CellCore → CellCore) : (s.updCore c d l f).cstore = s.cstore := rfl
@[simp] theorem State.updCore_aram (s : State) (c d l : Nat) (f : CellCore → CellCore) : (s.updCore c d l f).aram = s.aram := rfl
@[simp] theorem State.updCore_armq (s : State) (c d l : Nat) (f : CellCore → CellCore) : (s.updCore c d l f).armq = s.armq := rfl
@[simp] theorem State.updCore_armRun (s : State) (c d l : Nat) (f : CellCore → CellCore) : (s.updCore c d l f).armRun = s.armRun := rfl
@[simp] theorem State.updCore_tenants (s : State) (c d l : Nat) (f : CellCore → CellCore) : (s.updCore c d l f).tenants = s.tenants := rfl
@[simp] theorem State.updCore_fwd (s : State) (c d l : Nat) (f : CellCore → CellCore) : (s.updCore c d l f).fwd = s.fwd := rfl
@[simp] theorem State.updCore_l2 (s : State) (c d l : Nat) (f : CellCore → CellCore) : (s.updCore c d l f).l2 = s.l2 := rfl
@[simp] theorem State.updCore_leases (s : State) (c d l : Nat) (f : CellCore → CellCore) : (s.updCore c d l f).leases = s.leases := rfl
@[simp] theorem State.updCore_pts (s : State) (c d l : Nat) (f : CellCore → CellCore) : (s.updCore c d l f).pts = s.pts := rfl
@[simp] theorem State.updCore_copies (s : State) (c d l : Nat) (f : CellCore → CellCore) : (s.updCore c d l f).copies = s.copies := rfl
@[simp] theorem State.updCore_freed (s : State) (c d l : Nat) (f : CellCore → CellCore) : (s.updCore c d l f).freed = s.freed := rfl
@[simp] theorem State.updCore_ats (s : State) (c d l : Nat) (f : CellCore → CellCore) : (s.updCore c d l f).ats = s.ats := rfl
@[simp] theorem State.updCore_staging (s : State) (c d l : Nat) (f : CellCore → CellCore) : (s.updCore c d l f).staging = s.staging := rfl
@[simp] theorem State.updCore_bankConf (s : State) (c d l : Nat) (f : CellCore → CellCore) : (s.updCore c d l f).bankConf = s.bankConf := rfl
@[simp] theorem State.updCore_bankWait (s : State) (c d l : Nat) (f : CellCore → CellCore) : (s.updCore c d l f).bankWait = s.bankWait := rfl
@[simp] theorem State.updCore_qslots (s : State) (c d l : Nat) (f : CellCore → CellCore) : (s.updCore c d l f).qslots = s.qslots := rfl
@[simp] theorem State.updCore_kickFifo (s : State) (c d l : Nat) (f : CellCore → CellCore) : (s.updCore c d l f).kickFifo = s.kickFifo := rfl
@[simp] theorem State.updCore_kickOver (s : State) (c d l : Nat) (f : CellCore → CellCore) : (s.updCore c d l f).kickOver = s.kickOver := rfl
@[simp] theorem State.updCore_mbx (s : State) (c d l : Nat) (f : CellCore → CellCore) : (s.updCore c d l f).mbx = s.mbx := rfl
@[simp] theorem State.updCore_pods (s : State) (c d l : Nat) (f : CellCore → CellCore) : (s.updCore c d l f).pods = s.pods := rfl
@[simp] theorem State.updCore_ate (s : State) (c d l : Nat) (f : CellCore → CellCore) : (s.updCore c d l f).ate = s.ate := rfl
@[simp] theorem State.updCore_fw (s : State) (c d l : Nat) (f : CellCore → CellCore) : (s.updCore c d l f).fw = s.fw := rfl
@[simp] theorem State.updCore_health (s : State) (c d l : Nat) (f : CellCore → CellCore) : (s.updCore c d l f).health = s.health := rfl
@[simp] theorem State.updCore_power (s : State) (c d l : Nat) (f : CellCore → CellCore) : (s.updCore c d l f).power = s.power := rfl
@[simp] theorem State.updCore_ltol (s : State) (c d l : Nat) (f : CellCore → CellCore) : (s.updCore c d l f).ltol = s.ltol := rfl
@[simp] theorem State.updCore_idleNs (s : State) (c d l : Nat) (f : CellCore → CellCore) : (s.updCore c d l f).idleNs = s.idleNs := rfl
@[simp] theorem State.updCore_meas (s : State) (c d l : Nat) (f : CellCore → CellCore) : (s.updCore c d l f).meas = s.meas := rfl
@[simp] theorem State.updCore_bootImage (s : State) (c d l : Nat) (f : CellCore → CellCore) : (s.updCore c d l f).bootImage = s.bootImage := rfl
@[simp] theorem State.updCore_bootRecovery (s : State) (c d l : Nat) (f : CellCore → CellCore) : (s.updCore c d l f).bootRecovery = s.bootRecovery := rfl
@[simp] theorem State.updCore_imageSvn (s : State) (c d l : Nat) (f : CellCore → CellCore) : (s.updCore c d l f).imageSvn = s.imageSvn := rfl
@[simp] theorem State.updCore_fuses (s : State) (c d l : Nat) (f : CellCore → CellCore) : (s.updCore c d l f).fuses = s.fuses := rfl
@[simp] theorem State.updCore_svnTry (s : State) (c d l : Nat) (f : CellCore → CellCore) : (s.updCore c d l f).svnTry = s.svnTry := rfl
@[simp] theorem State.updCore_leafNext (s : State) (c d l : Nat) (f : CellCore → CellCore) : (s.updCore c d l f).leafNext = s.leafNext := rfl
@[simp] theorem State.updCore_leafRes (s : State) (c d l : Nat) (f : CellCore → CellCore) : (s.updCore c d l f).leafRes = s.leafRes := rfl
@[simp] theorem State.updCore_stageGib (s : State) (c d l : Nat) (f : CellCore → CellCore) : (s.updCore c d l f).stageGib = s.stageGib := rfl
@[simp] theorem State.updCore_fwdMib (s : State) (c d l : Nat) (f : CellCore → CellCore) : (s.updCore c d l f).fwdMib = s.fwdMib := rfl
@[simp] theorem State.updCore_ckpt (s : State) (c d l : Nat) (f : CellCore → CellCore) : (s.updCore c d l f).ckpt = s.ckpt := rfl
@[simp] theorem State.updCore_ckptFwd (s : State) (c d l : Nat) (f : CellCore → CellCore) : (s.updCore c d l f).ckptFwd = s.ckptFwd := rfl
@[simp] theorem State.updCore_ckptRun (s : State) (c d l : Nat) (f : CellCore → CellCore) : (s.updCore c d l f).ckptRun = s.ckptRun := rfl
@[simp] theorem State.updCore_waking (s : State) (c d l : Nat) (f : CellCore → CellCore) : (s.updCore c d l f).waking = s.waking := rfl
@[simp] theorem State.updCore_grant (s : State) (c d l : Nat) (f : CellCore → CellCore) : (s.updCore c d l f).grant = s.grant := rfl
@[simp] theorem State.updCore_trans (s : State) (c d l : Nat) (f : CellCore → CellCore) : (s.updCore c d l f).trans = s.trans := rfl
@[simp] theorem State.updCore_secret (s : State) (c d l : Nat) (f : CellCore → CellCore) : (s.updCore c d l f).secret = s.secret := rfl
@[simp] theorem State.updCore_translator (s : State) (c d l : Nat) (f : CellCore → CellCore) : (s.updCore c d l f).translator = s.translator := rfl
@[simp] theorem State.updCore_gens (s : State) (c d l : Nat) (f : CellCore → CellCore) : (s.updCore c d l f).gens = s.gens := rfl
@[simp] theorem State.updCore_loads (s : State) (c d l : Nat) (f : CellCore → CellCore) : (s.updCore c d l f).loads = s.loads := rfl
@[simp] theorem State.updCore_loaded (s : State) (c d l : Nat) (f : CellCore → CellCore) : (s.updCore c d l f).loaded = s.loaded := rfl
@[simp] theorem State.updCore_loadTurn (s : State) (c d l : Nat) (f : CellCore → CellCore) : (s.updCore c d l f).loadTurn = s.loadTurn := rfl
@[simp] theorem State.updCore_mapinv (s : State) (c d l : Nat) (f : CellCore → CellCore) : (s.updCore c d l f).mapinv = s.mapinv := rfl
@[simp] theorem State.updCore_hostReads (s : State) (c d l : Nat) (f : CellCore → CellCore) : (s.updCore c d l f).hostReads = s.hostReads := rfl
@[simp] theorem State.updCore_images (s : State) (c d l : Nat) (f : CellCore → CellCore) : (s.updCore c d l f).images = s.images := rfl

/-! `State.updPdie` -/

@[simp] theorem State.updPdie_agenda (s : State) (d : Nat) (f : Die → Die) : (s.updPdie d f).agenda = s.agenda := rfl
@[simp] theorem State.updPdie_sel (s : State) (d : Nat) (f : Die → Die) : (s.updPdie d f).sel = s.sel := rfl
@[simp] theorem State.updPdie_selDie (s : State) (d : Nat) (f : Die → Die) : (s.updPdie d f).selDie = s.selDie := rfl
@[simp] theorem State.updPdie_clk (s : State) (d : Nat) (f : Die → Die) : (s.updPdie d f).clk = s.clk := rfl
@[simp] theorem State.updPdie_litBusy (s : State) (d : Nat) (f : Die → Die) : (s.updPdie d f).litBusy = s.litBusy := rfl
@[simp] theorem State.updPdie_nextId (s : State) (d : Nat) (f : Die → Die) : (s.updPdie d f).nextId = s.nextId := rfl
@[simp] theorem State.updPdie_freeCtr (s : State) (d : Nat) (f : Die → Die) : (s.updPdie d f).freeCtr = s.freeCtr := rfl
@[simp] theorem State.updPdie_bcastNo (s : State) (d : Nat) (f : Die → Die) : (s.updPdie d f).bcastNo = s.bcastNo := rfl
@[simp] theorem State.updPdie_invNo (s : State) (d : Nat) (f : Die → Die) : (s.updPdie d f).invNo = s.invNo := rfl
@[simp] theorem State.updPdie_cmdNo (s : State) (d : Nat) (f : Die → Die) : (s.updPdie d f).cmdNo = s.cmdNo := rfl
@[simp] theorem State.updPdie_reports (s : State) (d : Nat) (f : Die → Die) : (s.updPdie d f).reports = s.reports := rfl
@[simp] theorem State.updPdie_recs (s : State) (d : Nat) (f : Die → Die) : (s.updPdie d f).recs = s.recs := rfl
@[simp] theorem State.updPdie_mem (s : State) (d : Nat) (f : Die → Die) : (s.updPdie d f).mem = s.mem := rfl
@[simp] theorem State.updPdie_poison (s : State) (d : Nat) (f : Die → Die) : (s.updPdie d f).poison = s.poison := rfl
@[simp] theorem State.updPdie_cstore (s : State) (d : Nat) (f : Die → Die) : (s.updPdie d f).cstore = s.cstore := rfl
@[simp] theorem State.updPdie_aram (s : State) (d : Nat) (f : Die → Die) : (s.updPdie d f).aram = s.aram := rfl
@[simp] theorem State.updPdie_armq (s : State) (d : Nat) (f : Die → Die) : (s.updPdie d f).armq = s.armq := rfl
@[simp] theorem State.updPdie_armRun (s : State) (d : Nat) (f : Die → Die) : (s.updPdie d f).armRun = s.armRun := rfl
@[simp] theorem State.updPdie_tenants (s : State) (d : Nat) (f : Die → Die) : (s.updPdie d f).tenants = s.tenants := rfl
@[simp] theorem State.updPdie_fwd (s : State) (d : Nat) (f : Die → Die) : (s.updPdie d f).fwd = s.fwd := rfl
@[simp] theorem State.updPdie_l2 (s : State) (d : Nat) (f : Die → Die) : (s.updPdie d f).l2 = s.l2 := rfl
@[simp] theorem State.updPdie_leases (s : State) (d : Nat) (f : Die → Die) : (s.updPdie d f).leases = s.leases := rfl
@[simp] theorem State.updPdie_pts (s : State) (d : Nat) (f : Die → Die) : (s.updPdie d f).pts = s.pts := rfl
@[simp] theorem State.updPdie_copies (s : State) (d : Nat) (f : Die → Die) : (s.updPdie d f).copies = s.copies := rfl
@[simp] theorem State.updPdie_freed (s : State) (d : Nat) (f : Die → Die) : (s.updPdie d f).freed = s.freed := rfl
@[simp] theorem State.updPdie_ats (s : State) (d : Nat) (f : Die → Die) : (s.updPdie d f).ats = s.ats := rfl
@[simp] theorem State.updPdie_staging (s : State) (d : Nat) (f : Die → Die) : (s.updPdie d f).staging = s.staging := rfl
@[simp] theorem State.updPdie_bankConf (s : State) (d : Nat) (f : Die → Die) : (s.updPdie d f).bankConf = s.bankConf := rfl
@[simp] theorem State.updPdie_bankWait (s : State) (d : Nat) (f : Die → Die) : (s.updPdie d f).bankWait = s.bankWait := rfl
@[simp] theorem State.updPdie_qslots (s : State) (d : Nat) (f : Die → Die) : (s.updPdie d f).qslots = s.qslots := rfl
@[simp] theorem State.updPdie_kickFifo (s : State) (d : Nat) (f : Die → Die) : (s.updPdie d f).kickFifo = s.kickFifo := rfl
@[simp] theorem State.updPdie_kickOver (s : State) (d : Nat) (f : Die → Die) : (s.updPdie d f).kickOver = s.kickOver := rfl
@[simp] theorem State.updPdie_mbx (s : State) (d : Nat) (f : Die → Die) : (s.updPdie d f).mbx = s.mbx := rfl
@[simp] theorem State.updPdie_pods (s : State) (d : Nat) (f : Die → Die) : (s.updPdie d f).pods = s.pods := rfl
@[simp] theorem State.updPdie_ate (s : State) (d : Nat) (f : Die → Die) : (s.updPdie d f).ate = s.ate := rfl
@[simp] theorem State.updPdie_fw (s : State) (d : Nat) (f : Die → Die) : (s.updPdie d f).fw = s.fw := rfl
@[simp] theorem State.updPdie_health (s : State) (d : Nat) (f : Die → Die) : (s.updPdie d f).health = s.health := rfl
@[simp] theorem State.updPdie_power (s : State) (d : Nat) (f : Die → Die) : (s.updPdie d f).power = s.power := rfl
@[simp] theorem State.updPdie_ltol (s : State) (d : Nat) (f : Die → Die) : (s.updPdie d f).ltol = s.ltol := rfl
@[simp] theorem State.updPdie_idleNs (s : State) (d : Nat) (f : Die → Die) : (s.updPdie d f).idleNs = s.idleNs := rfl
@[simp] theorem State.updPdie_meas (s : State) (d : Nat) (f : Die → Die) : (s.updPdie d f).meas = s.meas := rfl
@[simp] theorem State.updPdie_bootImage (s : State) (d : Nat) (f : Die → Die) : (s.updPdie d f).bootImage = s.bootImage := rfl
@[simp] theorem State.updPdie_bootRecovery (s : State) (d : Nat) (f : Die → Die) : (s.updPdie d f).bootRecovery = s.bootRecovery := rfl
@[simp] theorem State.updPdie_imageSvn (s : State) (d : Nat) (f : Die → Die) : (s.updPdie d f).imageSvn = s.imageSvn := rfl
@[simp] theorem State.updPdie_fuses (s : State) (d : Nat) (f : Die → Die) : (s.updPdie d f).fuses = s.fuses := rfl
@[simp] theorem State.updPdie_svnTry (s : State) (d : Nat) (f : Die → Die) : (s.updPdie d f).svnTry = s.svnTry := rfl
@[simp] theorem State.updPdie_leafNext (s : State) (d : Nat) (f : Die → Die) : (s.updPdie d f).leafNext = s.leafNext := rfl
@[simp] theorem State.updPdie_leafRes (s : State) (d : Nat) (f : Die → Die) : (s.updPdie d f).leafRes = s.leafRes := rfl
@[simp] theorem State.updPdie_stageGib (s : State) (d : Nat) (f : Die → Die) : (s.updPdie d f).stageGib = s.stageGib := rfl
@[simp] theorem State.updPdie_fwdMib (s : State) (d : Nat) (f : Die → Die) : (s.updPdie d f).fwdMib = s.fwdMib := rfl
@[simp] theorem State.updPdie_ckpt (s : State) (d : Nat) (f : Die → Die) : (s.updPdie d f).ckpt = s.ckpt := rfl
@[simp] theorem State.updPdie_ckptFwd (s : State) (d : Nat) (f : Die → Die) : (s.updPdie d f).ckptFwd = s.ckptFwd := rfl
@[simp] theorem State.updPdie_ckptRun (s : State) (d : Nat) (f : Die → Die) : (s.updPdie d f).ckptRun = s.ckptRun := rfl
@[simp] theorem State.updPdie_waking (s : State) (d : Nat) (f : Die → Die) : (s.updPdie d f).waking = s.waking := rfl
@[simp] theorem State.updPdie_grant (s : State) (d : Nat) (f : Die → Die) : (s.updPdie d f).grant = s.grant := rfl
@[simp] theorem State.updPdie_trans (s : State) (d : Nat) (f : Die → Die) : (s.updPdie d f).trans = s.trans := rfl
@[simp] theorem State.updPdie_secret (s : State) (d : Nat) (f : Die → Die) : (s.updPdie d f).secret = s.secret := rfl
@[simp] theorem State.updPdie_translator (s : State) (d : Nat) (f : Die → Die) : (s.updPdie d f).translator = s.translator := rfl
@[simp] theorem State.updPdie_gens (s : State) (d : Nat) (f : Die → Die) : (s.updPdie d f).gens = s.gens := rfl
@[simp] theorem State.updPdie_loads (s : State) (d : Nat) (f : Die → Die) : (s.updPdie d f).loads = s.loads := rfl
@[simp] theorem State.updPdie_loaded (s : State) (d : Nat) (f : Die → Die) : (s.updPdie d f).loaded = s.loaded := rfl
@[simp] theorem State.updPdie_loadTurn (s : State) (d : Nat) (f : Die → Die) : (s.updPdie d f).loadTurn = s.loadTurn := rfl
@[simp] theorem State.updPdie_mapinv (s : State) (d : Nat) (f : Die → Die) : (s.updPdie d f).mapinv = s.mapinv := rfl
@[simp] theorem State.updPdie_hostReads (s : State) (d : Nat) (f : Die → Die) : (s.updPdie d f).hostReads = s.hostReads := rfl
@[simp] theorem State.updPdie_images (s : State) (d : Nat) (f : Die → Die) : (s.updPdie d f).images = s.images := rfl

/-! `State.updReq` -/

@[simp] theorem State.updReq_agenda (s : State) (c id : Nat) (f : Req → Req) : (s.updReq c id f).agenda = s.agenda := rfl
@[simp] theorem State.updReq_sel (s : State) (c id : Nat) (f : Req → Req) : (s.updReq c id f).sel = s.sel := rfl
@[simp] theorem State.updReq_selDie (s : State) (c id : Nat) (f : Req → Req) : (s.updReq c id f).selDie = s.selDie := rfl
@[simp] theorem State.updReq_clk (s : State) (c id : Nat) (f : Req → Req) : (s.updReq c id f).clk = s.clk := rfl
@[simp] theorem State.updReq_litBusy (s : State) (c id : Nat) (f : Req → Req) : (s.updReq c id f).litBusy = s.litBusy := rfl
@[simp] theorem State.updReq_nextId (s : State) (c id : Nat) (f : Req → Req) : (s.updReq c id f).nextId = s.nextId := rfl
@[simp] theorem State.updReq_freeCtr (s : State) (c id : Nat) (f : Req → Req) : (s.updReq c id f).freeCtr = s.freeCtr := rfl
@[simp] theorem State.updReq_bcastNo (s : State) (c id : Nat) (f : Req → Req) : (s.updReq c id f).bcastNo = s.bcastNo := rfl
@[simp] theorem State.updReq_invNo (s : State) (c id : Nat) (f : Req → Req) : (s.updReq c id f).invNo = s.invNo := rfl
@[simp] theorem State.updReq_cmdNo (s : State) (c id : Nat) (f : Req → Req) : (s.updReq c id f).cmdNo = s.cmdNo := rfl
@[simp] theorem State.updReq_reports (s : State) (c id : Nat) (f : Req → Req) : (s.updReq c id f).reports = s.reports := rfl
@[simp] theorem State.updReq_dies (s : State) (c id : Nat) (f : Req → Req) : (s.updReq c id f).dies = s.dies := rfl
@[simp] theorem State.updReq_mem (s : State) (c id : Nat) (f : Req → Req) : (s.updReq c id f).mem = s.mem := rfl
@[simp] theorem State.updReq_poison (s : State) (c id : Nat) (f : Req → Req) : (s.updReq c id f).poison = s.poison := rfl
@[simp] theorem State.updReq_cstore (s : State) (c id : Nat) (f : Req → Req) : (s.updReq c id f).cstore = s.cstore := rfl
@[simp] theorem State.updReq_aram (s : State) (c id : Nat) (f : Req → Req) : (s.updReq c id f).aram = s.aram := rfl
@[simp] theorem State.updReq_armq (s : State) (c id : Nat) (f : Req → Req) : (s.updReq c id f).armq = s.armq := rfl
@[simp] theorem State.updReq_armRun (s : State) (c id : Nat) (f : Req → Req) : (s.updReq c id f).armRun = s.armRun := rfl
@[simp] theorem State.updReq_tenants (s : State) (c id : Nat) (f : Req → Req) : (s.updReq c id f).tenants = s.tenants := rfl
@[simp] theorem State.updReq_fwd (s : State) (c id : Nat) (f : Req → Req) : (s.updReq c id f).fwd = s.fwd := rfl
@[simp] theorem State.updReq_l2 (s : State) (c id : Nat) (f : Req → Req) : (s.updReq c id f).l2 = s.l2 := rfl
@[simp] theorem State.updReq_leases (s : State) (c id : Nat) (f : Req → Req) : (s.updReq c id f).leases = s.leases := rfl
@[simp] theorem State.updReq_pts (s : State) (c id : Nat) (f : Req → Req) : (s.updReq c id f).pts = s.pts := rfl
@[simp] theorem State.updReq_copies (s : State) (c id : Nat) (f : Req → Req) : (s.updReq c id f).copies = s.copies := rfl
@[simp] theorem State.updReq_freed (s : State) (c id : Nat) (f : Req → Req) : (s.updReq c id f).freed = s.freed := rfl
@[simp] theorem State.updReq_ats (s : State) (c id : Nat) (f : Req → Req) : (s.updReq c id f).ats = s.ats := rfl
@[simp] theorem State.updReq_staging (s : State) (c id : Nat) (f : Req → Req) : (s.updReq c id f).staging = s.staging := rfl
@[simp] theorem State.updReq_bankConf (s : State) (c id : Nat) (f : Req → Req) : (s.updReq c id f).bankConf = s.bankConf := rfl
@[simp] theorem State.updReq_bankWait (s : State) (c id : Nat) (f : Req → Req) : (s.updReq c id f).bankWait = s.bankWait := rfl
@[simp] theorem State.updReq_qslots (s : State) (c id : Nat) (f : Req → Req) : (s.updReq c id f).qslots = s.qslots := rfl
@[simp] theorem State.updReq_kickFifo (s : State) (c id : Nat) (f : Req → Req) : (s.updReq c id f).kickFifo = s.kickFifo := rfl
@[simp] theorem State.updReq_kickOver (s : State) (c id : Nat) (f : Req → Req) : (s.updReq c id f).kickOver = s.kickOver := rfl
@[simp] theorem State.updReq_mbx (s : State) (c id : Nat) (f : Req → Req) : (s.updReq c id f).mbx = s.mbx := rfl
@[simp] theorem State.updReq_pods (s : State) (c id : Nat) (f : Req → Req) : (s.updReq c id f).pods = s.pods := rfl
@[simp] theorem State.updReq_ate (s : State) (c id : Nat) (f : Req → Req) : (s.updReq c id f).ate = s.ate := rfl
@[simp] theorem State.updReq_fw (s : State) (c id : Nat) (f : Req → Req) : (s.updReq c id f).fw = s.fw := rfl
@[simp] theorem State.updReq_health (s : State) (c id : Nat) (f : Req → Req) : (s.updReq c id f).health = s.health := rfl
@[simp] theorem State.updReq_power (s : State) (c id : Nat) (f : Req → Req) : (s.updReq c id f).power = s.power := rfl
@[simp] theorem State.updReq_ltol (s : State) (c id : Nat) (f : Req → Req) : (s.updReq c id f).ltol = s.ltol := rfl
@[simp] theorem State.updReq_idleNs (s : State) (c id : Nat) (f : Req → Req) : (s.updReq c id f).idleNs = s.idleNs := rfl
@[simp] theorem State.updReq_meas (s : State) (c id : Nat) (f : Req → Req) : (s.updReq c id f).meas = s.meas := rfl
@[simp] theorem State.updReq_bootImage (s : State) (c id : Nat) (f : Req → Req) : (s.updReq c id f).bootImage = s.bootImage := rfl
@[simp] theorem State.updReq_bootRecovery (s : State) (c id : Nat) (f : Req → Req) : (s.updReq c id f).bootRecovery = s.bootRecovery := rfl
@[simp] theorem State.updReq_imageSvn (s : State) (c id : Nat) (f : Req → Req) : (s.updReq c id f).imageSvn = s.imageSvn := rfl
@[simp] theorem State.updReq_fuses (s : State) (c id : Nat) (f : Req → Req) : (s.updReq c id f).fuses = s.fuses := rfl
@[simp] theorem State.updReq_svnTry (s : State) (c id : Nat) (f : Req → Req) : (s.updReq c id f).svnTry = s.svnTry := rfl
@[simp] theorem State.updReq_leafNext (s : State) (c id : Nat) (f : Req → Req) : (s.updReq c id f).leafNext = s.leafNext := rfl
@[simp] theorem State.updReq_leafRes (s : State) (c id : Nat) (f : Req → Req) : (s.updReq c id f).leafRes = s.leafRes := rfl
@[simp] theorem State.updReq_stageGib (s : State) (c id : Nat) (f : Req → Req) : (s.updReq c id f).stageGib = s.stageGib := rfl
@[simp] theorem State.updReq_fwdMib (s : State) (c id : Nat) (f : Req → Req) : (s.updReq c id f).fwdMib = s.fwdMib := rfl
@[simp] theorem State.updReq_ckpt (s : State) (c id : Nat) (f : Req → Req) : (s.updReq c id f).ckpt = s.ckpt := rfl
@[simp] theorem State.updReq_ckptFwd (s : State) (c id : Nat) (f : Req → Req) : (s.updReq c id f).ckptFwd = s.ckptFwd := rfl
@[simp] theorem State.updReq_ckptRun (s : State) (c id : Nat) (f : Req → Req) : (s.updReq c id f).ckptRun = s.ckptRun := rfl
@[simp] theorem State.updReq_waking (s : State) (c id : Nat) (f : Req → Req) : (s.updReq c id f).waking = s.waking := rfl
@[simp] theorem State.updReq_grant (s : State) (c id : Nat) (f : Req → Req) : (s.updReq c id f).grant = s.grant := rfl
@[simp] theorem State.updReq_trans (s : State) (c id : Nat) (f : Req → Req) : (s.updReq c id f).trans = s.trans := rfl
@[simp] theorem State.updReq_secret (s : State) (c id : Nat) (f : Req → Req) : (s.updReq c id f).secret = s.secret := rfl
@[simp] theorem State.updReq_translator (s : State) (c id : Nat) (f : Req → Req) : (s.updReq c id f).translator = s.translator := rfl
@[simp] theorem State.updReq_gens (s : State) (c id : Nat) (f : Req → Req) : (s.updReq c id f).gens = s.gens := rfl
@[simp] theorem State.updReq_loads (s : State) (c id : Nat) (f : Req → Req) : (s.updReq c id f).loads = s.loads := rfl
@[simp] theorem State.updReq_loaded (s : State) (c id : Nat) (f : Req → Req) : (s.updReq c id f).loaded = s.loaded := rfl
@[simp] theorem State.updReq_loadTurn (s : State) (c id : Nat) (f : Req → Req) : (s.updReq c id f).loadTurn = s.loadTurn := rfl
@[simp] theorem State.updReq_mapinv (s : State) (c id : Nat) (f : Req → Req) : (s.updReq c id f).mapinv = s.mapinv := rfl
@[simp] theorem State.updReq_hostReads (s : State) (c id : Nat) (f : Req → Req) : (s.updReq c id f).hostReads = s.hostReads := rfl
@[simp] theorem State.updReq_images (s : State) (c id : Nat) (f : Req → Req) : (s.updReq c id f).images = s.images := rfl

/-! `State.dropReq` -/

@[simp] theorem State.dropReq_agenda (s : State) (c id : Nat) : (s.dropReq c id).agenda = s.agenda := rfl
@[simp] theorem State.dropReq_sel (s : State) (c id : Nat) : (s.dropReq c id).sel = s.sel := rfl
@[simp] theorem State.dropReq_selDie (s : State) (c id : Nat) : (s.dropReq c id).selDie = s.selDie := rfl
@[simp] theorem State.dropReq_clk (s : State) (c id : Nat) : (s.dropReq c id).clk = s.clk := rfl
@[simp] theorem State.dropReq_litBusy (s : State) (c id : Nat) : (s.dropReq c id).litBusy = s.litBusy := rfl
@[simp] theorem State.dropReq_nextId (s : State) (c id : Nat) : (s.dropReq c id).nextId = s.nextId := rfl
@[simp] theorem State.dropReq_freeCtr (s : State) (c id : Nat) : (s.dropReq c id).freeCtr = s.freeCtr := rfl
@[simp] theorem State.dropReq_bcastNo (s : State) (c id : Nat) : (s.dropReq c id).bcastNo = s.bcastNo := rfl
@[simp] theorem State.dropReq_invNo (s : State) (c id : Nat) : (s.dropReq c id).invNo = s.invNo := rfl
@[simp] theorem State.dropReq_cmdNo (s : State) (c id : Nat) : (s.dropReq c id).cmdNo = s.cmdNo := rfl
@[simp] theorem State.dropReq_reports (s : State) (c id : Nat) : (s.dropReq c id).reports = s.reports := rfl
@[simp] theorem State.dropReq_dies (s : State) (c id : Nat) : (s.dropReq c id).dies = s.dies := rfl
@[simp] theorem State.dropReq_mem (s : State) (c id : Nat) : (s.dropReq c id).mem = s.mem := rfl
@[simp] theorem State.dropReq_poison (s : State) (c id : Nat) : (s.dropReq c id).poison = s.poison := rfl
@[simp] theorem State.dropReq_cstore (s : State) (c id : Nat) : (s.dropReq c id).cstore = s.cstore := rfl
@[simp] theorem State.dropReq_aram (s : State) (c id : Nat) : (s.dropReq c id).aram = s.aram := rfl
@[simp] theorem State.dropReq_armq (s : State) (c id : Nat) : (s.dropReq c id).armq = s.armq := rfl
@[simp] theorem State.dropReq_armRun (s : State) (c id : Nat) : (s.dropReq c id).armRun = s.armRun := rfl
@[simp] theorem State.dropReq_tenants (s : State) (c id : Nat) : (s.dropReq c id).tenants = s.tenants := rfl
@[simp] theorem State.dropReq_fwd (s : State) (c id : Nat) : (s.dropReq c id).fwd = s.fwd := rfl
@[simp] theorem State.dropReq_l2 (s : State) (c id : Nat) : (s.dropReq c id).l2 = s.l2 := rfl
@[simp] theorem State.dropReq_leases (s : State) (c id : Nat) : (s.dropReq c id).leases = s.leases := rfl
@[simp] theorem State.dropReq_pts (s : State) (c id : Nat) : (s.dropReq c id).pts = s.pts := rfl
@[simp] theorem State.dropReq_copies (s : State) (c id : Nat) : (s.dropReq c id).copies = s.copies := rfl
@[simp] theorem State.dropReq_freed (s : State) (c id : Nat) : (s.dropReq c id).freed = s.freed := rfl
@[simp] theorem State.dropReq_ats (s : State) (c id : Nat) : (s.dropReq c id).ats = s.ats := rfl
@[simp] theorem State.dropReq_staging (s : State) (c id : Nat) : (s.dropReq c id).staging = s.staging := rfl
@[simp] theorem State.dropReq_bankConf (s : State) (c id : Nat) : (s.dropReq c id).bankConf = s.bankConf := rfl
@[simp] theorem State.dropReq_bankWait (s : State) (c id : Nat) : (s.dropReq c id).bankWait = s.bankWait := rfl
@[simp] theorem State.dropReq_qslots (s : State) (c id : Nat) : (s.dropReq c id).qslots = s.qslots := rfl
@[simp] theorem State.dropReq_kickFifo (s : State) (c id : Nat) : (s.dropReq c id).kickFifo = s.kickFifo := rfl
@[simp] theorem State.dropReq_kickOver (s : State) (c id : Nat) : (s.dropReq c id).kickOver = s.kickOver := rfl
@[simp] theorem State.dropReq_mbx (s : State) (c id : Nat) : (s.dropReq c id).mbx = s.mbx := rfl
@[simp] theorem State.dropReq_pods (s : State) (c id : Nat) : (s.dropReq c id).pods = s.pods := rfl
@[simp] theorem State.dropReq_ate (s : State) (c id : Nat) : (s.dropReq c id).ate = s.ate := rfl
@[simp] theorem State.dropReq_fw (s : State) (c id : Nat) : (s.dropReq c id).fw = s.fw := rfl
@[simp] theorem State.dropReq_health (s : State) (c id : Nat) : (s.dropReq c id).health = s.health := rfl
@[simp] theorem State.dropReq_power (s : State) (c id : Nat) : (s.dropReq c id).power = s.power := rfl
@[simp] theorem State.dropReq_ltol (s : State) (c id : Nat) : (s.dropReq c id).ltol = s.ltol := rfl
@[simp] theorem State.dropReq_idleNs (s : State) (c id : Nat) : (s.dropReq c id).idleNs = s.idleNs := rfl
@[simp] theorem State.dropReq_meas (s : State) (c id : Nat) : (s.dropReq c id).meas = s.meas := rfl
@[simp] theorem State.dropReq_bootImage (s : State) (c id : Nat) : (s.dropReq c id).bootImage = s.bootImage := rfl
@[simp] theorem State.dropReq_bootRecovery (s : State) (c id : Nat) : (s.dropReq c id).bootRecovery = s.bootRecovery := rfl
@[simp] theorem State.dropReq_imageSvn (s : State) (c id : Nat) : (s.dropReq c id).imageSvn = s.imageSvn := rfl
@[simp] theorem State.dropReq_fuses (s : State) (c id : Nat) : (s.dropReq c id).fuses = s.fuses := rfl
@[simp] theorem State.dropReq_svnTry (s : State) (c id : Nat) : (s.dropReq c id).svnTry = s.svnTry := rfl
@[simp] theorem State.dropReq_leafNext (s : State) (c id : Nat) : (s.dropReq c id).leafNext = s.leafNext := rfl
@[simp] theorem State.dropReq_leafRes (s : State) (c id : Nat) : (s.dropReq c id).leafRes = s.leafRes := rfl
@[simp] theorem State.dropReq_stageGib (s : State) (c id : Nat) : (s.dropReq c id).stageGib = s.stageGib := rfl
@[simp] theorem State.dropReq_fwdMib (s : State) (c id : Nat) : (s.dropReq c id).fwdMib = s.fwdMib := rfl
@[simp] theorem State.dropReq_ckpt (s : State) (c id : Nat) : (s.dropReq c id).ckpt = s.ckpt := rfl
@[simp] theorem State.dropReq_ckptFwd (s : State) (c id : Nat) : (s.dropReq c id).ckptFwd = s.ckptFwd := rfl
@[simp] theorem State.dropReq_ckptRun (s : State) (c id : Nat) : (s.dropReq c id).ckptRun = s.ckptRun := rfl
@[simp] theorem State.dropReq_waking (s : State) (c id : Nat) : (s.dropReq c id).waking = s.waking := rfl
@[simp] theorem State.dropReq_grant (s : State) (c id : Nat) : (s.dropReq c id).grant = s.grant := rfl
@[simp] theorem State.dropReq_trans (s : State) (c id : Nat) : (s.dropReq c id).trans = s.trans := rfl
@[simp] theorem State.dropReq_secret (s : State) (c id : Nat) : (s.dropReq c id).secret = s.secret := rfl
@[simp] theorem State.dropReq_translator (s : State) (c id : Nat) : (s.dropReq c id).translator = s.translator := rfl
@[simp] theorem State.dropReq_gens (s : State) (c id : Nat) : (s.dropReq c id).gens = s.gens := rfl
@[simp] theorem State.dropReq_loads (s : State) (c id : Nat) : (s.dropReq c id).loads = s.loads := rfl
@[simp] theorem State.dropReq_loaded (s : State) (c id : Nat) : (s.dropReq c id).loaded = s.loaded := rfl
@[simp] theorem State.dropReq_loadTurn (s : State) (c id : Nat) : (s.dropReq c id).loadTurn = s.loadTurn := rfl
@[simp] theorem State.dropReq_mapinv (s : State) (c id : Nat) : (s.dropReq c id).mapinv = s.mapinv := rfl
@[simp] theorem State.dropReq_hostReads (s : State) (c id : Nat) : (s.dropReq c id).hostReads = s.hostReads := rfl
@[simp] theorem State.dropReq_images (s : State) (c id : Nat) : (s.dropReq c id).images = s.images := rfl

/-! `State.newReq` -/

@[simp] theorem State.newReq_agenda (s : State) (c : Nat) (q : Req) : (s.newReq c q).agenda = s.agenda := rfl
@[simp] theorem State.newReq_sel (s : State) (c : Nat) (q : Req) : (s.newReq c q).sel = s.sel := rfl
@[simp] theorem State.newReq_selDie (s : State) (c : Nat) (q : Req) : (s.newReq c q).selDie = s.selDie := rfl
@[simp] theorem State.newReq_clk (s : State) (c : Nat) (q : Req) : (s.newReq c q).clk = s.clk := rfl
@[simp] theorem State.newReq_litBusy (s : State) (c : Nat) (q : Req) : (s.newReq c q).litBusy = s.litBusy := rfl
@[simp] theorem State.newReq_freeCtr (s : State) (c : Nat) (q : Req) : (s.newReq c q).freeCtr = s.freeCtr := rfl
@[simp] theorem State.newReq_bcastNo (s : State) (c : Nat) (q : Req) : (s.newReq c q).bcastNo = s.bcastNo := rfl
@[simp] theorem State.newReq_invNo (s : State) (c : Nat) (q : Req) : (s.newReq c q).invNo = s.invNo := rfl
@[simp] theorem State.newReq_cmdNo (s : State) (c : Nat) (q : Req) : (s.newReq c q).cmdNo = s.cmdNo := rfl
@[simp] theorem State.newReq_reports (s : State) (c : Nat) (q : Req) : (s.newReq c q).reports = s.reports := rfl
@[simp] theorem State.newReq_dies (s : State) (c : Nat) (q : Req) : (s.newReq c q).dies = s.dies := rfl
@[simp] theorem State.newReq_mem (s : State) (c : Nat) (q : Req) : (s.newReq c q).mem = s.mem := rfl
@[simp] theorem State.newReq_poison (s : State) (c : Nat) (q : Req) : (s.newReq c q).poison = s.poison := rfl
@[simp] theorem State.newReq_cstore (s : State) (c : Nat) (q : Req) : (s.newReq c q).cstore = s.cstore := rfl
@[simp] theorem State.newReq_aram (s : State) (c : Nat) (q : Req) : (s.newReq c q).aram = s.aram := rfl
@[simp] theorem State.newReq_armq (s : State) (c : Nat) (q : Req) : (s.newReq c q).armq = s.armq := rfl
@[simp] theorem State.newReq_armRun (s : State) (c : Nat) (q : Req) : (s.newReq c q).armRun = s.armRun := rfl
@[simp] theorem State.newReq_tenants (s : State) (c : Nat) (q : Req) : (s.newReq c q).tenants = s.tenants := rfl
@[simp] theorem State.newReq_fwd (s : State) (c : Nat) (q : Req) : (s.newReq c q).fwd = s.fwd := rfl
@[simp] theorem State.newReq_l2 (s : State) (c : Nat) (q : Req) : (s.newReq c q).l2 = s.l2 := rfl
@[simp] theorem State.newReq_leases (s : State) (c : Nat) (q : Req) : (s.newReq c q).leases = s.leases := rfl
@[simp] theorem State.newReq_pts (s : State) (c : Nat) (q : Req) : (s.newReq c q).pts = s.pts := rfl
@[simp] theorem State.newReq_copies (s : State) (c : Nat) (q : Req) : (s.newReq c q).copies = s.copies := rfl
@[simp] theorem State.newReq_freed (s : State) (c : Nat) (q : Req) : (s.newReq c q).freed = s.freed := rfl
@[simp] theorem State.newReq_ats (s : State) (c : Nat) (q : Req) : (s.newReq c q).ats = s.ats := rfl
@[simp] theorem State.newReq_staging (s : State) (c : Nat) (q : Req) : (s.newReq c q).staging = s.staging := rfl
@[simp] theorem State.newReq_bankConf (s : State) (c : Nat) (q : Req) : (s.newReq c q).bankConf = s.bankConf := rfl
@[simp] theorem State.newReq_bankWait (s : State) (c : Nat) (q : Req) : (s.newReq c q).bankWait = s.bankWait := rfl
@[simp] theorem State.newReq_qslots (s : State) (c : Nat) (q : Req) : (s.newReq c q).qslots = s.qslots := rfl
@[simp] theorem State.newReq_kickFifo (s : State) (c : Nat) (q : Req) : (s.newReq c q).kickFifo = s.kickFifo := rfl
@[simp] theorem State.newReq_kickOver (s : State) (c : Nat) (q : Req) : (s.newReq c q).kickOver = s.kickOver := rfl
@[simp] theorem State.newReq_mbx (s : State) (c : Nat) (q : Req) : (s.newReq c q).mbx = s.mbx := rfl
@[simp] theorem State.newReq_pods (s : State) (c : Nat) (q : Req) : (s.newReq c q).pods = s.pods := rfl
@[simp] theorem State.newReq_ate (s : State) (c : Nat) (q : Req) : (s.newReq c q).ate = s.ate := rfl
@[simp] theorem State.newReq_fw (s : State) (c : Nat) (q : Req) : (s.newReq c q).fw = s.fw := rfl
@[simp] theorem State.newReq_health (s : State) (c : Nat) (q : Req) : (s.newReq c q).health = s.health := rfl
@[simp] theorem State.newReq_power (s : State) (c : Nat) (q : Req) : (s.newReq c q).power = s.power := rfl
@[simp] theorem State.newReq_ltol (s : State) (c : Nat) (q : Req) : (s.newReq c q).ltol = s.ltol := rfl
@[simp] theorem State.newReq_idleNs (s : State) (c : Nat) (q : Req) : (s.newReq c q).idleNs = s.idleNs := rfl
@[simp] theorem State.newReq_meas (s : State) (c : Nat) (q : Req) : (s.newReq c q).meas = s.meas := rfl
@[simp] theorem State.newReq_bootImage (s : State) (c : Nat) (q : Req) : (s.newReq c q).bootImage = s.bootImage := rfl
@[simp] theorem State.newReq_bootRecovery (s : State) (c : Nat) (q : Req) : (s.newReq c q).bootRecovery = s.bootRecovery := rfl
@[simp] theorem State.newReq_imageSvn (s : State) (c : Nat) (q : Req) : (s.newReq c q).imageSvn = s.imageSvn := rfl
@[simp] theorem State.newReq_fuses (s : State) (c : Nat) (q : Req) : (s.newReq c q).fuses = s.fuses := rfl
@[simp] theorem State.newReq_svnTry (s : State) (c : Nat) (q : Req) : (s.newReq c q).svnTry = s.svnTry := rfl
@[simp] theorem State.newReq_leafNext (s : State) (c : Nat) (q : Req) : (s.newReq c q).leafNext = s.leafNext := rfl
@[simp] theorem State.newReq_leafRes (s : State) (c : Nat) (q : Req) : (s.newReq c q).leafRes = s.leafRes := rfl
@[simp] theorem State.newReq_stageGib (s : State) (c : Nat) (q : Req) : (s.newReq c q).stageGib = s.stageGib := rfl
@[simp] theorem State.newReq_fwdMib (s : State) (c : Nat) (q : Req) : (s.newReq c q).fwdMib = s.fwdMib := rfl
@[simp] theorem State.newReq_ckpt (s : State) (c : Nat) (q : Req) : (s.newReq c q).ckpt = s.ckpt := rfl
@[simp] theorem State.newReq_ckptFwd (s : State) (c : Nat) (q : Req) : (s.newReq c q).ckptFwd = s.ckptFwd := rfl
@[simp] theorem State.newReq_ckptRun (s : State) (c : Nat) (q : Req) : (s.newReq c q).ckptRun = s.ckptRun := rfl
@[simp] theorem State.newReq_waking (s : State) (c : Nat) (q : Req) : (s.newReq c q).waking = s.waking := rfl
@[simp] theorem State.newReq_grant (s : State) (c : Nat) (q : Req) : (s.newReq c q).grant = s.grant := rfl
@[simp] theorem State.newReq_trans (s : State) (c : Nat) (q : Req) : (s.newReq c q).trans = s.trans := rfl
@[simp] theorem State.newReq_secret (s : State) (c : Nat) (q : Req) : (s.newReq c q).secret = s.secret := rfl
@[simp] theorem State.newReq_translator (s : State) (c : Nat) (q : Req) : (s.newReq c q).translator = s.translator := rfl
@[simp] theorem State.newReq_gens (s : State) (c : Nat) (q : Req) : (s.newReq c q).gens = s.gens := rfl
@[simp] theorem State.newReq_loads (s : State) (c : Nat) (q : Req) : (s.newReq c q).loads = s.loads := rfl
@[simp] theorem State.newReq_loaded (s : State) (c : Nat) (q : Req) : (s.newReq c q).loaded = s.loaded := rfl
@[simp] theorem State.newReq_loadTurn (s : State) (c : Nat) (q : Req) : (s.newReq c q).loadTurn = s.loadTurn := rfl
@[simp] theorem State.newReq_mapinv (s : State) (c : Nat) (q : Req) : (s.newReq c q).mapinv = s.mapinv := rfl
@[simp] theorem State.newReq_hostReads (s : State) (c : Nat) (q : Req) : (s.newReq c q).hostReads = s.hostReads := rfl
@[simp] theorem State.newReq_images (s : State) (c : Nat) (q : Req) : (s.newReq c q).images = s.images := rfl

/-! `State.toDies` -/

@[simp] theorem State.toDies_agenda (s : State) (c : Nat) (f : Frame) : (s.toDies c f).agenda = s.agenda := rfl
@[simp] theorem State.toDies_sel (s : State) (c : Nat) (f : Frame) : (s.toDies c f).sel = s.sel := rfl
@[simp] theorem State.toDies_selDie (s : State) (c : Nat) (f : Frame) : (s.toDies c f).selDie = s.selDie := rfl
@[simp] theorem State.toDies_clk (s : State) (c : Nat) (f : Frame) : (s.toDies c f).clk = s.clk := rfl
@[simp] theorem State.toDies_litBusy (s : State) (c : Nat) (f : Frame) : (s.toDies c f).litBusy = s.litBusy := rfl
@[simp] theorem State.toDies_nextId (s : State) (c : Nat) (f : Frame) : (s.toDies c f).nextId = s.nextId := rfl
@[simp] theorem State.toDies_freeCtr (s : State) (c : Nat) (f : Frame) : (s.toDies c f).freeCtr = s.freeCtr := rfl
@[simp] theorem State.toDies_bcastNo (s : State) (c : Nat) (f : Frame) : (s.toDies c f).bcastNo = s.bcastNo := rfl
@[simp] theorem State.toDies_invNo (s : State) (c : Nat) (f : Frame) : (s.toDies c f).invNo = s.invNo := rfl
@[simp] theorem State.toDies_cmdNo (s : State) (c : Nat) (f : Frame) : (s.toDies c f).cmdNo = s.cmdNo := rfl
@[simp] theorem State.toDies_reports (s : State) (c : Nat) (f : Frame) : (s.toDies c f).reports = s.reports := rfl
@[simp] theorem State.toDies_dies (s : State) (c : Nat) (f : Frame) : (s.toDies c f).dies = s.dies := rfl
@[simp] theorem State.toDies_mem (s : State) (c : Nat) (f : Frame) : (s.toDies c f).mem = s.mem := rfl
@[simp] theorem State.toDies_poison (s : State) (c : Nat) (f : Frame) : (s.toDies c f).poison = s.poison := rfl
@[simp] theorem State.toDies_cstore (s : State) (c : Nat) (f : Frame) : (s.toDies c f).cstore = s.cstore := rfl
@[simp] theorem State.toDies_aram (s : State) (c : Nat) (f : Frame) : (s.toDies c f).aram = s.aram := rfl
@[simp] theorem State.toDies_armq (s : State) (c : Nat) (f : Frame) : (s.toDies c f).armq = s.armq := rfl
@[simp] theorem State.toDies_armRun (s : State) (c : Nat) (f : Frame) : (s.toDies c f).armRun = s.armRun := rfl
@[simp] theorem State.toDies_tenants (s : State) (c : Nat) (f : Frame) : (s.toDies c f).tenants = s.tenants := rfl
@[simp] theorem State.toDies_fwd (s : State) (c : Nat) (f : Frame) : (s.toDies c f).fwd = s.fwd := rfl
@[simp] theorem State.toDies_l2 (s : State) (c : Nat) (f : Frame) : (s.toDies c f).l2 = s.l2 := rfl
@[simp] theorem State.toDies_leases (s : State) (c : Nat) (f : Frame) : (s.toDies c f).leases = s.leases := rfl
@[simp] theorem State.toDies_pts (s : State) (c : Nat) (f : Frame) : (s.toDies c f).pts = s.pts := rfl
@[simp] theorem State.toDies_copies (s : State) (c : Nat) (f : Frame) : (s.toDies c f).copies = s.copies := rfl
@[simp] theorem State.toDies_freed (s : State) (c : Nat) (f : Frame) : (s.toDies c f).freed = s.freed := rfl
@[simp] theorem State.toDies_ats (s : State) (c : Nat) (f : Frame) : (s.toDies c f).ats = s.ats := rfl
@[simp] theorem State.toDies_staging (s : State) (c : Nat) (f : Frame) : (s.toDies c f).staging = s.staging := rfl
@[simp] theorem State.toDies_bankConf (s : State) (c : Nat) (f : Frame) : (s.toDies c f).bankConf = s.bankConf := rfl
@[simp] theorem State.toDies_bankWait (s : State) (c : Nat) (f : Frame) : (s.toDies c f).bankWait = s.bankWait := rfl
@[simp] theorem State.toDies_qslots (s : State) (c : Nat) (f : Frame) : (s.toDies c f).qslots = s.qslots := rfl
@[simp] theorem State.toDies_kickFifo (s : State) (c : Nat) (f : Frame) : (s.toDies c f).kickFifo = s.kickFifo := rfl
@[simp] theorem State.toDies_kickOver (s : State) (c : Nat) (f : Frame) : (s.toDies c f).kickOver = s.kickOver := rfl
@[simp] theorem State.toDies_mbx (s : State) (c : Nat) (f : Frame) : (s.toDies c f).mbx = s.mbx := rfl
@[simp] theorem State.toDies_pods (s : State) (c : Nat) (f : Frame) : (s.toDies c f).pods = s.pods := rfl
@[simp] theorem State.toDies_ate (s : State) (c : Nat) (f : Frame) : (s.toDies c f).ate = s.ate := rfl
@[simp] theorem State.toDies_fw (s : State) (c : Nat) (f : Frame) : (s.toDies c f).fw = s.fw := rfl
@[simp] theorem State.toDies_health (s : State) (c : Nat) (f : Frame) : (s.toDies c f).health = s.health := rfl
@[simp] theorem State.toDies_power (s : State) (c : Nat) (f : Frame) : (s.toDies c f).power = s.power := rfl
@[simp] theorem State.toDies_ltol (s : State) (c : Nat) (f : Frame) : (s.toDies c f).ltol = s.ltol := rfl
@[simp] theorem State.toDies_idleNs (s : State) (c : Nat) (f : Frame) : (s.toDies c f).idleNs = s.idleNs := rfl
@[simp] theorem State.toDies_meas (s : State) (c : Nat) (f : Frame) : (s.toDies c f).meas = s.meas := rfl
@[simp] theorem State.toDies_bootImage (s : State) (c : Nat) (f : Frame) : (s.toDies c f).bootImage = s.bootImage := rfl
@[simp] theorem State.toDies_bootRecovery (s : State) (c : Nat) (f : Frame) : (s.toDies c f).bootRecovery = s.bootRecovery := rfl
@[simp] theorem State.toDies_imageSvn (s : State) (c : Nat) (f : Frame) : (s.toDies c f).imageSvn = s.imageSvn := rfl
@[simp] theorem State.toDies_fuses (s : State) (c : Nat) (f : Frame) : (s.toDies c f).fuses = s.fuses := rfl
@[simp] theorem State.toDies_svnTry (s : State) (c : Nat) (f : Frame) : (s.toDies c f).svnTry = s.svnTry := rfl
@[simp] theorem State.toDies_leafNext (s : State) (c : Nat) (f : Frame) : (s.toDies c f).leafNext = s.leafNext := rfl
@[simp] theorem State.toDies_leafRes (s : State) (c : Nat) (f : Frame) : (s.toDies c f).leafRes = s.leafRes := rfl
@[simp] theorem State.toDies_stageGib (s : State) (c : Nat) (f : Frame) : (s.toDies c f).stageGib = s.stageGib := rfl
@[simp] theorem State.toDies_fwdMib (s : State) (c : Nat) (f : Frame) : (s.toDies c f).fwdMib = s.fwdMib := rfl
@[simp] theorem State.toDies_ckpt (s : State) (c : Nat) (f : Frame) : (s.toDies c f).ckpt = s.ckpt := rfl
@[simp] theorem State.toDies_ckptFwd (s : State) (c : Nat) (f : Frame) : (s.toDies c f).ckptFwd = s.ckptFwd := rfl
@[simp] theorem State.toDies_ckptRun (s : State) (c : Nat) (f : Frame) : (s.toDies c f).ckptRun = s.ckptRun := rfl
@[simp] theorem State.toDies_waking (s : State) (c : Nat) (f : Frame) : (s.toDies c f).waking = s.waking := rfl
@[simp] theorem State.toDies_grant (s : State) (c : Nat) (f : Frame) : (s.toDies c f).grant = s.grant := rfl
@[simp] theorem State.toDies_trans (s : State) (c : Nat) (f : Frame) : (s.toDies c f).trans = s.trans := rfl
@[simp] theorem State.toDies_secret (s : State) (c : Nat) (f : Frame) : (s.toDies c f).secret = s.secret := rfl
@[simp] theorem State.toDies_translator (s : State) (c : Nat) (f : Frame) : (s.toDies c f).translator = s.translator := rfl
@[simp] theorem State.toDies_gens (s : State) (c : Nat) (f : Frame) : (s.toDies c f).gens = s.gens := rfl
@[simp] theorem State.toDies_loads (s : State) (c : Nat) (f : Frame) : (s.toDies c f).loads = s.loads := rfl
@[simp] theorem State.toDies_loaded (s : State) (c : Nat) (f : Frame) : (s.toDies c f).loaded = s.loaded := rfl
@[simp] theorem State.toDies_loadTurn (s : State) (c : Nat) (f : Frame) : (s.toDies c f).loadTurn = s.loadTurn := rfl
@[simp] theorem State.toDies_mapinv (s : State) (c : Nat) (f : Frame) : (s.toDies c f).mapinv = s.mapinv := rfl
@[simp] theorem State.toDies_hostReads (s : State) (c : Nat) (f : Frame) : (s.toDies c f).hostReads = s.hostReads := rfl
@[simp] theorem State.toDies_images (s : State) (c : Nat) (f : Frame) : (s.toDies c f).images = s.images := rfl

/-! `State.addMark` -/

@[simp] theorem State.addMark_agenda (s : State) (c : Nat) (m : MarkEntry) : (s.addMark c m).agenda = s.agenda := rfl
@[simp] theorem State.addMark_sel (s : State) (c : Nat) (m : MarkEntry) : (s.addMark c m).sel = s.sel := rfl
@[simp] theorem State.addMark_selDie (s : State) (c : Nat) (m : MarkEntry) : (s.addMark c m).selDie = s.selDie := rfl
@[simp] theorem State.addMark_clk (s : State) (c : Nat) (m : MarkEntry) : (s.addMark c m).clk = s.clk := rfl
@[simp] theorem State.addMark_litBusy (s : State) (c : Nat) (m : MarkEntry) : (s.addMark c m).litBusy = s.litBusy := rfl
@[simp] theorem State.addMark_nextId (s : State) (c : Nat) (m : MarkEntry) : (s.addMark c m).nextId = s.nextId := rfl
@[simp] theorem State.addMark_freeCtr (s : State) (c : Nat) (m : MarkEntry) : (s.addMark c m).freeCtr = s.freeCtr := rfl
@[simp] theorem State.addMark_bcastNo (s : State) (c : Nat) (m : MarkEntry) : (s.addMark c m).bcastNo = s.bcastNo := rfl
@[simp] theorem State.addMark_invNo (s : State) (c : Nat) (m : MarkEntry) : (s.addMark c m).invNo = s.invNo := rfl
@[simp] theorem State.addMark_cmdNo (s : State) (c : Nat) (m : MarkEntry) : (s.addMark c m).cmdNo = s.cmdNo := rfl
@[simp] theorem State.addMark_reports (s : State) (c : Nat) (m : MarkEntry) : (s.addMark c m).reports = s.reports := rfl
@[simp] theorem State.addMark_dies (s : State) (c : Nat) (m : MarkEntry) : (s.addMark c m).dies = s.dies := rfl
@[simp] theorem State.addMark_mem (s : State) (c : Nat) (m : MarkEntry) : (s.addMark c m).mem = s.mem := rfl
@[simp] theorem State.addMark_poison (s : State) (c : Nat) (m : MarkEntry) : (s.addMark c m).poison = s.poison := rfl
@[simp] theorem State.addMark_cstore (s : State) (c : Nat) (m : MarkEntry) : (s.addMark c m).cstore = s.cstore := rfl
@[simp] theorem State.addMark_aram (s : State) (c : Nat) (m : MarkEntry) : (s.addMark c m).aram = s.aram := rfl
@[simp] theorem State.addMark_armq (s : State) (c : Nat) (m : MarkEntry) : (s.addMark c m).armq = s.armq := rfl
@[simp] theorem State.addMark_armRun (s : State) (c : Nat) (m : MarkEntry) : (s.addMark c m).armRun = s.armRun := rfl
@[simp] theorem State.addMark_tenants (s : State) (c : Nat) (m : MarkEntry) : (s.addMark c m).tenants = s.tenants := rfl
@[simp] theorem State.addMark_fwd (s : State) (c : Nat) (m : MarkEntry) : (s.addMark c m).fwd = s.fwd := rfl
@[simp] theorem State.addMark_l2 (s : State) (c : Nat) (m : MarkEntry) : (s.addMark c m).l2 = s.l2 := rfl
@[simp] theorem State.addMark_leases (s : State) (c : Nat) (m : MarkEntry) : (s.addMark c m).leases = s.leases := rfl
@[simp] theorem State.addMark_pts (s : State) (c : Nat) (m : MarkEntry) : (s.addMark c m).pts = s.pts := rfl
@[simp] theorem State.addMark_copies (s : State) (c : Nat) (m : MarkEntry) : (s.addMark c m).copies = s.copies := rfl
@[simp] theorem State.addMark_freed (s : State) (c : Nat) (m : MarkEntry) : (s.addMark c m).freed = s.freed := rfl
@[simp] theorem State.addMark_ats (s : State) (c : Nat) (m : MarkEntry) : (s.addMark c m).ats = s.ats := rfl
@[simp] theorem State.addMark_staging (s : State) (c : Nat) (m : MarkEntry) : (s.addMark c m).staging = s.staging := rfl
@[simp] theorem State.addMark_bankConf (s : State) (c : Nat) (m : MarkEntry) : (s.addMark c m).bankConf = s.bankConf := rfl
@[simp] theorem State.addMark_bankWait (s : State) (c : Nat) (m : MarkEntry) : (s.addMark c m).bankWait = s.bankWait := rfl
@[simp] theorem State.addMark_qslots (s : State) (c : Nat) (m : MarkEntry) : (s.addMark c m).qslots = s.qslots := rfl
@[simp] theorem State.addMark_kickFifo (s : State) (c : Nat) (m : MarkEntry) : (s.addMark c m).kickFifo = s.kickFifo := rfl
@[simp] theorem State.addMark_kickOver (s : State) (c : Nat) (m : MarkEntry) : (s.addMark c m).kickOver = s.kickOver := rfl
@[simp] theorem State.addMark_mbx (s : State) (c : Nat) (m : MarkEntry) : (s.addMark c m).mbx = s.mbx := rfl
@[simp] theorem State.addMark_pods (s : State) (c : Nat) (m : MarkEntry) : (s.addMark c m).pods = s.pods := rfl
@[simp] theorem State.addMark_ate (s : State) (c : Nat) (m : MarkEntry) : (s.addMark c m).ate = s.ate := rfl
@[simp] theorem State.addMark_fw (s : State) (c : Nat) (m : MarkEntry) : (s.addMark c m).fw = s.fw := rfl
@[simp] theorem State.addMark_health (s : State) (c : Nat) (m : MarkEntry) : (s.addMark c m).health = s.health := rfl
@[simp] theorem State.addMark_power (s : State) (c : Nat) (m : MarkEntry) : (s.addMark c m).power = s.power := rfl
@[simp] theorem State.addMark_ltol (s : State) (c : Nat) (m : MarkEntry) : (s.addMark c m).ltol = s.ltol := rfl
@[simp] theorem State.addMark_idleNs (s : State) (c : Nat) (m : MarkEntry) : (s.addMark c m).idleNs = s.idleNs := rfl
@[simp] theorem State.addMark_meas (s : State) (c : Nat) (m : MarkEntry) : (s.addMark c m).meas = s.meas := rfl
@[simp] theorem State.addMark_bootImage (s : State) (c : Nat) (m : MarkEntry) : (s.addMark c m).bootImage = s.bootImage := rfl
@[simp] theorem State.addMark_bootRecovery (s : State) (c : Nat) (m : MarkEntry) : (s.addMark c m).bootRecovery = s.bootRecovery := rfl
@[simp] theorem State.addMark_imageSvn (s : State) (c : Nat) (m : MarkEntry) : (s.addMark c m).imageSvn = s.imageSvn := rfl
@[simp] theorem State.addMark_fuses (s : State) (c : Nat) (m : MarkEntry) : (s.addMark c m).fuses = s.fuses := rfl
@[simp] theorem State.addMark_svnTry (s : State) (c : Nat) (m : MarkEntry) : (s.addMark c m).svnTry = s.svnTry := rfl
@[simp] theorem State.addMark_leafNext (s : State) (c : Nat) (m : MarkEntry) : (s.addMark c m).leafNext = s.leafNext := rfl
@[simp] theorem State.addMark_leafRes (s : State) (c : Nat) (m : MarkEntry) : (s.addMark c m).leafRes = s.leafRes := rfl
@[simp] theorem State.addMark_stageGib (s : State) (c : Nat) (m : MarkEntry) : (s.addMark c m).stageGib = s.stageGib := rfl
@[simp] theorem State.addMark_fwdMib (s : State) (c : Nat) (m : MarkEntry) : (s.addMark c m).fwdMib = s.fwdMib := rfl
@[simp] theorem State.addMark_ckpt (s : State) (c : Nat) (m : MarkEntry) : (s.addMark c m).ckpt = s.ckpt := rfl
@[simp] theorem State.addMark_ckptFwd (s : State) (c : Nat) (m : MarkEntry) : (s.addMark c m).ckptFwd = s.ckptFwd := rfl
@[simp] theorem State.addMark_ckptRun (s : State) (c : Nat) (m : MarkEntry) : (s.addMark c m).ckptRun = s.ckptRun := rfl
@[simp] theorem State.addMark_waking (s : State) (c : Nat) (m : MarkEntry) : (s.addMark c m).waking = s.waking := rfl
@[simp] theorem State.addMark_grant (s : State) (c : Nat) (m : MarkEntry) : (s.addMark c m).grant = s.grant := rfl
@[simp] theorem State.addMark_trans (s : State) (c : Nat) (m : MarkEntry) : (s.addMark c m).trans = s.trans := rfl
@[simp] theorem State.addMark_secret (s : State) (c : Nat) (m : MarkEntry) : (s.addMark c m).secret = s.secret := rfl
@[simp] theorem State.addMark_translator (s : State) (c : Nat) (m : MarkEntry) : (s.addMark c m).translator = s.translator := rfl
@[simp] theorem State.addMark_gens (s : State) (c : Nat) (m : MarkEntry) : (s.addMark c m).gens = s.gens := rfl
@[simp] theorem State.addMark_loads (s : State) (c : Nat) (m : MarkEntry) : (s.addMark c m).loads = s.loads := rfl
@[simp] theorem State.addMark_loaded (s : State) (c : Nat) (m : MarkEntry) : (s.addMark c m).loaded = s.loaded := rfl
@[simp] theorem State.addMark_loadTurn (s : State) (c : Nat) (m : MarkEntry) : (s.addMark c m).loadTurn = s.loadTurn := rfl
@[simp] theorem State.addMark_mapinv (s : State) (c : Nat) (m : MarkEntry) : (s.addMark c m).mapinv = s.mapinv := rfl
@[simp] theorem State.addMark_hostReads (s : State) (c : Nat) (m : MarkEntry) : (s.addMark c m).hostReads = s.hostReads := rfl
@[simp] theorem State.addMark_images (s : State) (c : Nat) (m : MarkEntry) : (s.addMark c m).images = s.images := rfl

/-! `Rec.setDie` -/

@[simp] theorem Rec.setDie_life (r : Rec) (d : Nat) (x : DieCtx) : (r.setDie d x).life = r.life := rfl
@[simp] theorem Rec.setDie_slot (r : Rec) (d : Nat) (x : DieCtx) : (r.setDie d x).slot = r.slot := rfl
@[simp] theorem Rec.setDie_pasid (r : Rec) (d : Nat) (x : DieCtx) : (r.setDie d x).pasid = r.pasid := rfl
@[simp] theorem Rec.setDie_floor (r : Rec) (d : Nat) (x : DieCtx) : (r.setDie d x).floor = r.floor := rfl
@[simp] theorem Rec.setDie_priv (r : Rec) (d : Nat) (x : DieCtx) : (r.setDie d x).priv = r.priv := rfl
@[simp] theorem Rec.setDie_field (r : Rec) (d : Nat) (x : DieCtx) : (r.setDie d x).field = r.field := rfl
@[simp] theorem Rec.setDie_group (r : Rec) (d : Nat) (x : DieCtx) : (r.setDie d x).group = r.group := rfl
@[simp] theorem Rec.setDie_win (r : Rec) (d : Nat) (x : DieCtx) : (r.setDie d x).win = r.win := rfl
@[simp] theorem Rec.setDie_dictSize (r : Rec) (d : Nat) (x : DieCtx) : (r.setDie d x).dictSize = r.dictSize := rfl
@[simp] theorem Rec.setDie_dict (r : Rec) (d : Nat) (x : DieCtx) : (r.setDie d x).dict = r.dict := rfl
@[simp] theorem Rec.setDie_dictAddr (r : Rec) (d : Nat) (x : DieCtx) : (r.setDie d x).dictAddr = r.dictAddr := rfl
@[simp] theorem Rec.setDie_dictBase (r : Rec) (d : Nat) (x : DieCtx) : (r.setDie d x).dictBase = r.dictBase := rfl
@[simp] theorem Rec.setDie_routeAddr (r : Rec) (d : Nat) (x : DieCtx) : (r.setDie d x).routeAddr = r.routeAddr := rfl
@[simp] theorem Rec.setDie_routes (r : Rec) (d : Nat) (x : DieCtx) : (r.setDie d x).routes = r.routes := rfl
@[simp] theorem Rec.setDie_routesValid (r : Rec) (d : Nat) (x : DieCtx) : (r.setDie d x).routesValid = r.routesValid := rfl
@[simp] theorem Rec.setDie_cells (r : Rec) (d : Nat) (x : DieCtx) : (r.setDie d x).cells = r.cells := rfl
@[simp] theorem Rec.setDie_cellsValid (r : Rec) (d : Nat) (x : DieCtx) : (r.setDie d x).cellsValid = r.cellsValid := rfl
@[simp] theorem Rec.setDie_core (r : Rec) (d : Nat) (x : DieCtx) : (r.setDie d x).core = r.core := rfl
@[simp] theorem Rec.setDie_xvec (r : Rec) (d : Nat) (x : DieCtx) : (r.setDie d x).xvec = r.xvec := rfl
@[simp] theorem Rec.setDie_xpc (r : Rec) (d : Nat) (x : DieCtx) : (r.setDie d x).xpc = r.xpc := rfl
@[simp] theorem Rec.setDie_xin (r : Rec) (d : Nat) (x : DieCtx) : (r.setDie d x).xin = r.xin := rfl
@[simp] theorem Rec.setDie_xcause (r : Rec) (d : Nat) (x : DieCtx) : (r.setDie d x).xcause = r.xcause := rfl
@[simp] theorem Rec.setDie_xinfo (r : Rec) (d : Nat) (x : DieCtx) : (r.setDie d x).xinfo = r.xinfo := rfl
@[simp] theorem Rec.setDie_xscratch (r : Rec) (d : Nat) (x : DieCtx) : (r.setDie d x).xscratch = r.xscratch := rfl
@[simp] theorem Rec.setDie_hact (r : Rec) (d : Nat) (x : DieCtx) : (r.setDie d x).hact = r.hact := rfl
@[simp] theorem Rec.setDie_diesStop (r : Rec) (d : Nat) (x : DieCtx) : (r.setDie d x).diesStop = r.diesStop := rfl
@[simp] theorem Rec.setDie_stopId (r : Rec) (d : Nat) (x : DieCtx) : (r.setDie d x).stopId = r.stopId := rfl
@[simp] theorem Rec.setDie_rv (r : Rec) (d : Nat) (x : DieCtx) : (r.setDie d x).rv = r.rv := rfl
@[simp] theorem Rec.setDie_ridx (r : Rec) (d : Nat) (x : DieCtx) : (r.setDie d x).ridx = r.ridx := rfl
@[simp] theorem Rec.setDie_rcnt (r : Rec) (d : Nat) (x : DieCtx) : (r.setDie d x).rcnt = r.rcnt := rfl
@[simp] theorem Rec.setDie_xpcWritten (r : Rec) (d : Nat) (x : DieCtx) : (r.setDie d x).xpcWritten = r.xpcWritten := rfl
@[simp] theorem Rec.setDie_nextF (r : Rec) (d : Nat) (x : DieCtx) : (r.setDie d x).nextF = r.nextF := rfl
@[simp] theorem Rec.setDie_heldF (r : Rec) (d : Nat) (x : DieCtx) : (r.setDie d x).heldF = r.heldF := rfl
@[simp] theorem Rec.setDie_cycres (r : Rec) (d : Nat) (x : DieCtx) : (r.setDie d x).cycres = r.cycres := rfl
@[simp] theorem Rec.setDie_wordcnt (r : Rec) (d : Nat) (x : DieCtx) : (r.setDie d x).wordcnt = r.wordcnt := rfl
@[simp] theorem Rec.setDie_waitcyc (r : Rec) (d : Nat) (x : DieCtx) : (r.setDie d x).waitcyc = r.waitcyc := rfl
@[simp] theorem Rec.setDie_creditcyc (r : Rec) (d : Nat) (x : DieCtx) : (r.setDie d x).creditcyc = r.creditcyc := rfl
@[simp] theorem Rec.setDie_waitCnt (r : Rec) (d : Nat) (x : DieCtx) : (r.setDie d x).waitCnt = r.waitCnt := rfl
@[simp] theorem Rec.setDie_occ (r : Rec) (d : Nat) (x : DieCtx) : (r.setDie d x).occ = r.occ := rfl
@[simp] theorem Rec.setDie_occFlight (r : Rec) (d : Nat) (x : DieCtx) : (r.setDie d x).occFlight = r.occFlight := rfl
@[simp] theorem Rec.setDie_sent (r : Rec) (d : Nat) (x : DieCtx) : (r.setDie d x).sent = r.sent := rfl
@[simp] theorem Rec.setDie_marks (r : Rec) (d : Nat) (x : DieCtx) : (r.setDie d x).marks = r.marks := rfl
@[simp] theorem Rec.setDie_cf (r : Rec) (d : Nat) (x : DieCtx) : (r.setDie d x).cf = r.cf := rfl
@[simp] theorem Rec.setDie_reqs (r : Rec) (d : Nat) (x : DieCtx) : (r.setDie d x).reqs = r.reqs := rfl
@[simp] theorem Rec.setDie_redBusy (r : Rec) (d : Nat) (x : DieCtx) : (r.setDie d x).redBusy = r.redBusy := rfl
@[simp] theorem Rec.setDie_bps (r : Rec) (d : Nat) (x : DieCtx) : (r.setDie d x).bps = r.bps := rfl
@[simp] theorem Rec.setDie_dbgctl (r : Rec) (d : Nat) (x : DieCtx) : (r.setDie d x).dbgctl = r.dbgctl := rfl
@[simp] theorem Rec.setDie_bufs (r : Rec) (d : Nat) (x : DieCtx) : (r.setDie d x).bufs = r.bufs := rfl
@[simp] theorem Rec.setDie_image (r : Rec) (d : Nat) (x : DieCtx) : (r.setDie d x).image = r.image := rfl
@[simp] theorem Rec.setDie_kept (r : Rec) (d : Nat) (x : DieCtx) : (r.setDie d x).kept = r.kept := rfl
@[simp] theorem Rec.setDie_resumeLife (r : Rec) (d : Nat) (x : DieCtx) : (r.setDie d x).resumeLife = r.resumeLife := rfl
@[simp] theorem Rec.setDie_resumeBc (r : Rec) (d : Nat) (x : DieCtx) : (r.setDie d x).resumeBc = r.resumeBc := rfl
@[simp] theorem Rec.setDie_held (r : Rec) (d : Nat) (x : DieCtx) : (r.setDie d x).held = r.held := rfl
@[simp] theorem Rec.setDie_tag (r : Rec) (d : Nat) (x : DieCtx) : (r.setDie d x).tag = r.tag := rfl
@[simp] theorem Rec.setDie_replay (r : Rec) (d : Nat) (x : DieCtx) : (r.setDie d x).replay = r.replay := rfl
@[simp] theorem Rec.setDie_replaying (r : Rec) (d : Nat) (x : DieCtx) : (r.setDie d x).replaying = r.replaying := rfl
@[simp] theorem Rec.setDie_notes (r : Rec) (d : Nat) (x : DieCtx) : (r.setDie d x).notes = r.notes := rfl
@[simp] theorem Rec.setDie_seqFlag (r : Rec) (d : Nat) (x : DieCtx) : (r.setDie d x).seqFlag = r.seqFlag := rfl
@[simp] theorem Rec.setDie_fwdc (r : Rec) (d : Nat) (x : DieCtx) : (r.setDie d x).fwdc = r.fwdc := rfl

/-! `DieCtx.setCell` -/

@[simp] theorem DieCtx.setCell_frames (x : DieCtx) (l : Nat) (y : Cell) : (x.setCell l y).frames = x.frames := rfl
@[simp] theorem DieCtx.setCell_q (x : DieCtx) (l : Nat) (y : Cell) : (x.setCell l y).q = x.q := rfl
@[simp] theorem DieCtx.setCell_e (x : DieCtx) (l : Nat) (y : Cell) : (x.setCell l y).e = x.e := rfl
@[simp] theorem DieCtx.setCell_hold (x : DieCtx) (l : Nat) (y : Cell) : (x.setCell l y).hold = x.hold := rfl
@[simp] theorem DieCtx.setCell_dly (x : DieCtx) (l : Nat) (y : Cell) : (x.setCell l y).dly = x.dly := rfl
@[simp] theorem DieCtx.setCell_dlyMark (x : DieCtx) (l : Nat) (y : Cell) : (x.setCell l y).dlyMark = x.dlyMark := rfl
@[simp] theorem DieCtx.setCell_dc (x : DieCtx) (l : Nat) (y : Cell) : (x.setCell l y).dc = x.dc := rfl
@[simp] theorem DieCtx.setCell_tc (x : DieCtx) (l : Nat) (y : Cell) : (x.setCell l y).tc = x.tc := rfl
@[simp] theorem DieCtx.setCell_shadows (x : DieCtx) (l : Nat) (y : Cell) : (x.setCell l y).shadows = x.shadows := rfl
@[simp] theorem DieCtx.setCell_passed (x : DieCtx) (l : Nat) (y : Cell) : (x.setCell l y).passed = x.passed := rfl
@[simp] theorem DieCtx.setCell_markAsk (x : DieCtx) (l : Nat) (y : Cell) : (x.setCell l y).markAsk = x.markAsk := rfl
@[simp] theorem DieCtx.setCell_atMark (x : DieCtx) (l : Nat) (y : Cell) : (x.setCell l y).atMark = x.atMark := rfl
@[simp] theorem DieCtx.setCell_sinceMark (x : DieCtx) (l : Nat) (y : Cell) : (x.setCell l y).sinceMark = x.sinceMark := rfl
@[simp] theorem DieCtx.setCell_sinceStores (x : DieCtx) (l : Nat) (y : Cell) : (x.setCell l y).sinceStores = x.sinceStores := rfl
@[simp] theorem DieCtx.setCell_redAsk (x : DieCtx) (l : Nat) (y : Cell) : (x.setCell l y).redAsk = x.redAsk := rfl
@[simp] theorem DieCtx.setCell_commits (x : DieCtx) (l : Nat) (y : Cell) : (x.setCell l y).commits = x.commits := rfl
@[simp] theorem DieCtx.setCell_flag (x : DieCtx) (l : Nat) (y : Cell) : (x.setCell l y).flag = x.flag := rfl
@[simp] theorem DieCtx.setCell_flagSent (x : DieCtx) (l : Nat) (y : Cell) : (x.setCell l y).flagSent = x.flagSent := rfl
@[simp] theorem DieCtx.setCell_fevents (x : DieCtx) (l : Nat) (y : Cell) : (x.setCell l y).fevents = x.fevents := rfl
@[simp] theorem DieCtx.setCell_phaseOpen (x : DieCtx) (l : Nat) (y : Cell) : (x.setCell l y).phaseOpen = x.phaseOpen := rfl
@[simp] theorem DieCtx.setCell_xfers (x : DieCtx) (l : Nat) (y : Cell) : (x.setCell l y).xfers = x.xfers := rfl
@[simp] theorem DieCtx.setCell_perms (x : DieCtx) (l : Nat) (y : Cell) : (x.setCell l y).perms = x.perms := rfl
@[simp] theorem DieCtx.setCell_sent (x : DieCtx) (l : Nat) (y : Cell) : (x.setCell l y).sent = x.sent := rfl
@[simp] theorem DieCtx.setCell_discards (x : DieCtx) (l : Nat) (y : Cell) : (x.setCell l y).discards = x.discards := rfl
@[simp] theorem DieCtx.setCell_barSeq (x : DieCtx) (l : Nat) (y : Cell) : (x.setCell l y).barSeq = x.barSeq := rfl
@[simp] theorem DieCtx.setCell_barPend (x : DieCtx) (l : Nat) (y : Cell) : (x.setCell l y).barPend = x.barPend := rfl
@[simp] theorem DieCtx.setCell_barGot (x : DieCtx) (l : Nat) (y : Cell) : (x.setCell l y).barGot = x.barGot := rfl
@[simp] theorem DieCtx.setCell_barSteps (x : DieCtx) (l : Nat) (y : Cell) : (x.setCell l y).barSteps = x.barSteps := rfl
@[simp] theorem DieCtx.setCell_access (x : DieCtx) (l : Nat) (y : Cell) : (x.setCell l y).access = x.access := rfl
@[simp] theorem DieCtx.setCell_ahead (x : DieCtx) (l : Nat) (y : Cell) : (x.setCell l y).ahead = x.ahead := rfl
@[simp] theorem DieCtx.setCell_wswap (x : DieCtx) (l : Nat) (y : Cell) : (x.setCell l y).wswap = x.wswap := rfl
@[simp] theorem DieCtx.setCell_absel (x : DieCtx) (l : Nat) (y : Cell) : (x.setCell l y).absel = x.absel := rfl
@[simp] theorem DieCtx.setCell_sc (x : DieCtx) (l : Nat) (y : Cell) : (x.setCell l y).sc = x.sc := rfl
@[simp] theorem DieCtx.setCell_snapAt (x : DieCtx) (l : Nat) (y : Cell) : (x.setCell l y).snapAt = x.snapAt := rfl
@[simp] theorem DieCtx.setCell_suppress (x : DieCtx) (l : Nat) (y : Cell) : (x.setCell l y).suppress = x.suppress := rfl
@[simp] theorem DieCtx.setCell_cycAt (x : DieCtx) (l : Nat) (y : Cell) : (x.setCell l y).cycAt = x.cycAt := rfl
@[simp] theorem DieCtx.setCell_cycSlots (x : DieCtx) (l : Nat) (y : Cell) : (x.setCell l y).cycSlots = x.cycSlots := rfl

/-! `SeqCore.wS` -/

@[simp] theorem SeqCore.wS_p (q : SeqCore) (n : Nat) (v : Word) : (q.wS n v).p = q.p := rfl
@[simp] theorem SeqCore.wS_h (q : SeqCore) (n : Nat) (v : Word) : (q.wS n v).h = q.h := rfl
@[simp] theorem SeqCore.wS_ts (q : SeqCore) (n : Nat) (v : Word) : (q.wS n v).ts = q.ts := rfl
@[simp] theorem SeqCore.wS_pend (q : SeqCore) (n : Nat) (v : Word) : (q.wS n v).pend = q.pend := rfl
@[simp] theorem SeqCore.wS_fly (q : SeqCore) (n : Nat) (v : Word) : (q.wS n v).fly = q.fly := rfl
@[simp] theorem SeqCore.wS_l0 (q : SeqCore) (n : Nat) (v : Word) : (q.wS n v).l0 = q.l0 := rfl
@[simp] theorem SeqCore.wS_l1 (q : SeqCore) (n : Nat) (v : Word) : (q.wS n v).l1 = q.l1 := rfl
@[simp] theorem SeqCore.wS_l2 (q : SeqCore) (n : Nat) (v : Word) : (q.wS n v).l2 = q.l2 := rfl
@[simp] theorem SeqCore.wS_l3 (q : SeqCore) (n : Nat) (v : Word) : (q.wS n v).l3 = q.l3 := rfl
@[simp] theorem SeqCore.wS_stageOwn (q : SeqCore) (n : Nat) (v : Word) : (q.wS n v).stageOwn = q.stageOwn := rfl
@[simp] theorem SeqCore.wS_stack (q : SeqCore) (n : Nat) (v : Word) : (q.wS n v).stack = q.stack := rfl
@[simp] theorem SeqCore.wS_pc (q : SeqCore) (n : Nat) (v : Word) : (q.wS n v).pc = q.pc := rfl
@[simp] theorem SeqCore.wS_inn (q : SeqCore) (n : Nat) (v : Word) : (q.wS n v).inn = q.inn := rfl
@[simp] theorem SeqCore.wS_tokmask (q : SeqCore) (n : Nat) (v : Word) : (q.wS n v).tokmask = q.tokmask := rfl
@[simp] theorem SeqCore.wS_diemask (q : SeqCore) (n : Nat) (v : Word) : (q.wS n v).diemask = q.diemask := rfl
@[simp] theorem SeqCore.wS_cellmask (q : SeqCore) (n : Nat) (v : Word) : (q.wS n v).cellmask = q.cellmask := rfl
@[simp] theorem SeqCore.wS_prio (q : SeqCore) (n : Nat) (v : Word) : (q.wS n v).prio = q.prio := rfl
@[simp] theorem SeqCore.wS_sstat (q : SeqCore) (n : Nat) (v : Word) : (q.wS n v).sstat = q.sstat := rfl

/-! `SeqCore.wH` -/

@[simp] theorem SeqCore.wH_s (q : SeqCore) (n : Nat) (v : Word) : (q.wH n v).s = q.s := rfl
@[simp] theorem SeqCore.wH_p (q : SeqCore) (n : Nat) (v : Word) : (q.wH n v).p = q.p := rfl
@[simp] theorem SeqCore.wH_ts (q : SeqCore) (n : Nat) (v : Word) : (q.wH n v).ts = q.ts := rfl
@[simp] theorem SeqCore.wH_pend (q : SeqCore) (n : Nat) (v : Word) : (q.wH n v).pend = q.pend := rfl
@[simp] theorem SeqCore.wH_fly (q : SeqCore) (n : Nat) (v : Word) : (q.wH n v).fly = q.fly := rfl
@[simp] theorem SeqCore.wH_l0 (q : SeqCore) (n : Nat) (v : Word) : (q.wH n v).l0 = q.l0 := rfl
@[simp] theorem SeqCore.wH_l1 (q : SeqCore) (n : Nat) (v : Word) : (q.wH n v).l1 = q.l1 := rfl
@[simp] theorem SeqCore.wH_l2 (q : SeqCore) (n : Nat) (v : Word) : (q.wH n v).l2 = q.l2 := rfl
@[simp] theorem SeqCore.wH_l3 (q : SeqCore) (n : Nat) (v : Word) : (q.wH n v).l3 = q.l3 := rfl
@[simp] theorem SeqCore.wH_stageOwn (q : SeqCore) (n : Nat) (v : Word) : (q.wH n v).stageOwn = q.stageOwn := rfl
@[simp] theorem SeqCore.wH_stack (q : SeqCore) (n : Nat) (v : Word) : (q.wH n v).stack = q.stack := rfl
@[simp] theorem SeqCore.wH_pc (q : SeqCore) (n : Nat) (v : Word) : (q.wH n v).pc = q.pc := rfl
@[simp] theorem SeqCore.wH_inn (q : SeqCore) (n : Nat) (v : Word) : (q.wH n v).inn = q.inn := rfl
@[simp] theorem SeqCore.wH_tokmask (q : SeqCore) (n : Nat) (v : Word) : (q.wH n v).tokmask = q.tokmask := rfl
@[simp] theorem SeqCore.wH_diemask (q : SeqCore) (n : Nat) (v : Word) : (q.wH n v).diemask = q.diemask := rfl
@[simp] theorem SeqCore.wH_cellmask (q : SeqCore) (n : Nat) (v : Word) : (q.wH n v).cellmask = q.cellmask := rfl
@[simp] theorem SeqCore.wH_prio (q : SeqCore) (n : Nat) (v : Word) : (q.wH n v).prio = q.prio := rfl
@[simp] theorem SeqCore.wH_sstat (q : SeqCore) (n : Nat) (v : Word) : (q.wH n v).sstat = q.sstat := rfl

/-! `SeqCore.wTs` -/

@[simp] theorem SeqCore.wTs_s (q : SeqCore) (n : Nat) (v : BitVec 16) : (q.wTs n v).s = q.s := rfl
@[simp] theorem SeqCore.wTs_p (q : SeqCore) (n : Nat) (v : BitVec 16) : (q.wTs n v).p = q.p := rfl
@[simp] theorem SeqCore.wTs_h (q : SeqCore) (n : Nat) (v : BitVec 16) : (q.wTs n v).h = q.h := rfl
@[simp] theorem SeqCore.wTs_pend (q : SeqCore) (n : Nat) (v : BitVec 16) : (q.wTs n v).pend = q.pend := rfl
@[simp] theorem SeqCore.wTs_fly (q : SeqCore) (n : Nat) (v : BitVec 16) : (q.wTs n v).fly = q.fly := rfl
@[simp] theorem SeqCore.wTs_l0 (q : SeqCore) (n : Nat) (v : BitVec 16) : (q.wTs n v).l0 = q.l0 := rfl
@[simp] theorem SeqCore.wTs_l1 (q : SeqCore) (n : Nat) (v : BitVec 16) : (q.wTs n v).l1 = q.l1 := rfl
@[simp] theorem SeqCore.wTs_l2 (q : SeqCore) (n : Nat) (v : BitVec 16) : (q.wTs n v).l2 = q.l2 := rfl
@[simp] theorem SeqCore.wTs_l3 (q : SeqCore) (n : Nat) (v : BitVec 16) : (q.wTs n v).l3 = q.l3 := rfl
@[simp] theorem SeqCore.wTs_stageOwn (q : SeqCore) (n : Nat) (v : BitVec 16) : (q.wTs n v).stageOwn = q.stageOwn := rfl
@[simp] theorem SeqCore.wTs_stack (q : SeqCore) (n : Nat) (v : BitVec 16) : (q.wTs n v).stack = q.stack := rfl
@[simp] theorem SeqCore.wTs_pc (q : SeqCore) (n : Nat) (v : BitVec 16) : (q.wTs n v).pc = q.pc := rfl
@[simp] theorem SeqCore.wTs_inn (q : SeqCore) (n : Nat) (v : BitVec 16) : (q.wTs n v).inn = q.inn := rfl
@[simp] theorem SeqCore.wTs_tokmask (q : SeqCore) (n : Nat) (v : BitVec 16) : (q.wTs n v).tokmask = q.tokmask := rfl
@[simp] theorem SeqCore.wTs_diemask (q : SeqCore) (n : Nat) (v : BitVec 16) : (q.wTs n v).diemask = q.diemask := rfl
@[simp] theorem SeqCore.wTs_cellmask (q : SeqCore) (n : Nat) (v : BitVec 16) : (q.wTs n v).cellmask = q.cellmask := rfl
@[simp] theorem SeqCore.wTs_prio (q : SeqCore) (n : Nat) (v : BitVec 16) : (q.wTs n v).prio = q.prio := rfl
@[simp] theorem SeqCore.wTs_sstat (q : SeqCore) (n : Nat) (v : BitVec 16) : (q.wTs n v).sstat = q.sstat := rfl

/-! `CellCore.wV` -/

@[simp] theorem CellCore.wV_k (q : CellCore) (n i : Nat) (v : Lane) : (q.wV n i v).k = q.k := rfl
@[simp] theorem CellCore.wV_x (q : CellCore) (n i : Nat) (v : Lane) : (q.wV n i v).x = q.x := rfl
@[simp] theorem CellCore.wV_h (q : CellCore) (n i : Nat) (v : Lane) : (q.wV n i v).h = q.h := rfl
@[simp] theorem CellCore.wV_st (q : CellCore) (n i : Nat) (v : Lane) : (q.wV n i v).st = q.st := rfl
@[simp] theorem CellCore.wV_tk (q : CellCore) (n i : Nat) (v : Lane) : (q.wV n i v).tk = q.tk := rfl
@[simp] theorem CellCore.wV_cst (q : CellCore) (n i : Nat) (v : Lane) : (q.wV n i v).cst = q.cst := rfl
@[simp] theorem CellCore.wV_cctl (q : CellCore) (n i : Nat) (v : Lane) : (q.wV n i v).cctl = q.cctl := rfl
@[simp] theorem CellCore.wV_pend (q : CellCore) (n i : Nat) (v : Lane) : (q.wV n i v).pend = q.pend := rfl
@[simp] theorem CellCore.wV_fly (q : CellCore) (n i : Nat) (v : Lane) : (q.wV n i v).fly = q.fly := rfl
@[simp] theorem CellCore.wV_rbSeed (q : CellCore) (n i : Nat) (v : Lane) : (q.wV n i v).rbSeed = q.rbSeed := rfl
@[simp] theorem CellCore.wV_rbMade (q : CellCore) (n i : Nat) (v : Lane) : (q.wV n i v).rbMade = q.rbMade := rfl
@[simp] theorem CellCore.wV_rbTaken (q : CellCore) (n i : Nat) (v : Lane) : (q.wV n i v).rbTaken = q.rbTaken := rfl
@[simp] theorem CellCore.wV_cways (q : CellCore) (n i : Nat) (v : Lane) : (q.wV n i v).cways = q.cways := rfl
@[simp] theorem CellCore.wV_gtab (q : CellCore) (n i : Nat) (v : Lane) : (q.wV n i v).gtab = q.gtab := rfl
@[simp] theorem CellCore.wV_mxq (q : CellCore) (n i : Nat) (v : Lane) : (q.wV n i v).mxq = q.mxq := rfl
@[simp] theorem CellCore.wV_accw (q : CellCore) (n i : Nat) (v : Lane) : (q.wV n i v).accw = q.accw := rfl

/-! `CellCore.wX` -/

@[simp] theorem CellCore.wX_v (q : CellCore) (n : Nat) (v : Word) : (q.wX n v).v = q.v := rfl
@[simp] theorem CellCore.wX_k (q : CellCore) (n : Nat) (v : Word) : (q.wX n v).k = q.k := rfl
@[simp] theorem CellCore.wX_h (q : CellCore) (n : Nat) (v : Word) : (q.wX n v).h = q.h := rfl
@[simp] theorem CellCore.wX_st (q : CellCore) (n : Nat) (v : Word) : (q.wX n v).st = q.st := rfl
@[simp] theorem CellCore.wX_tk (q : CellCore) (n : Nat) (v : Word) : (q.wX n v).tk = q.tk := rfl
@[simp] theorem CellCore.wX_cst (q : CellCore) (n : Nat) (v : Word) : (q.wX n v).cst = q.cst := rfl
@[simp] theorem CellCore.wX_cctl (q : CellCore) (n : Nat) (v : Word) : (q.wX n v).cctl = q.cctl := rfl
@[simp] theorem CellCore.wX_pend (q : CellCore) (n : Nat) (v : Word) : (q.wX n v).pend = q.pend := rfl
@[simp] theorem CellCore.wX_fly (q : CellCore) (n : Nat) (v : Word) : (q.wX n v).fly = q.fly := rfl
@[simp] theorem CellCore.wX_rbSeed (q : CellCore) (n : Nat) (v : Word) : (q.wX n v).rbSeed = q.rbSeed := rfl
@[simp] theorem CellCore.wX_rbMade (q : CellCore) (n : Nat) (v : Word) : (q.wX n v).rbMade = q.rbMade := rfl
@[simp] theorem CellCore.wX_rbTaken (q : CellCore) (n : Nat) (v : Word) : (q.wX n v).rbTaken = q.rbTaken := rfl
@[simp] theorem CellCore.wX_cways (q : CellCore) (n : Nat) (v : Word) : (q.wX n v).cways = q.cways := rfl
@[simp] theorem CellCore.wX_gtab (q : CellCore) (n : Nat) (v : Word) : (q.wX n v).gtab = q.gtab := rfl
@[simp] theorem CellCore.wX_mxq (q : CellCore) (n : Nat) (v : Word) : (q.wX n v).mxq = q.mxq := rfl
@[simp] theorem CellCore.wX_accw (q : CellCore) (n : Nat) (v : Word) : (q.wX n v).accw = q.accw := rfl

/-! `CellCore.wH` -/

@[simp] theorem CellCore.wH_v (q : CellCore) (n : Nat) (v : Word) : (q.wH n v).v = q.v := rfl
@[simp] theorem CellCore.wH_k (q : CellCore) (n : Nat) (v : Word) : (q.wH n v).k = q.k := rfl
@[simp] theorem CellCore.wH_x (q : CellCore) (n : Nat) (v : Word) : (q.wH n v).x = q.x := rfl
@[simp] theorem CellCore.wH_st (q : CellCore) (n : Nat) (v : Word) : (q.wH n v).st = q.st := rfl
@[simp] theorem CellCore.wH_tk (q : CellCore) (n : Nat) (v : Word) : (q.wH n v).tk = q.tk := rfl
@[simp] theorem CellCore.wH_cst (q : CellCore) (n : Nat) (v : Word) : (q.wH n v).cst = q.cst := rfl
@[simp] theorem CellCore.wH_cctl (q : CellCore) (n : Nat) (v : Word) : (q.wH n v).cctl = q.cctl := rfl
@[simp] theorem CellCore.wH_pend (q : CellCore) (n : Nat) (v : Word) : (q.wH n v).pend = q.pend := rfl
@[simp] theorem CellCore.wH_fly (q : CellCore) (n : Nat) (v : Word) : (q.wH n v).fly = q.fly := rfl
@[simp] theorem CellCore.wH_rbSeed (q : CellCore) (n : Nat) (v : Word) : (q.wH n v).rbSeed = q.rbSeed := rfl
@[simp] theorem CellCore.wH_rbMade (q : CellCore) (n : Nat) (v : Word) : (q.wH n v).rbMade = q.rbMade := rfl
@[simp] theorem CellCore.wH_rbTaken (q : CellCore) (n : Nat) (v : Word) : (q.wH n v).rbTaken = q.rbTaken := rfl
@[simp] theorem CellCore.wH_cways (q : CellCore) (n : Nat) (v : Word) : (q.wH n v).cways = q.cways := rfl
@[simp] theorem CellCore.wH_gtab (q : CellCore) (n : Nat) (v : Word) : (q.wH n v).gtab = q.gtab := rfl
@[simp] theorem CellCore.wH_mxq (q : CellCore) (n : Nat) (v : Word) : (q.wH n v).mxq = q.mxq := rfl
@[simp] theorem CellCore.wH_accw (q : CellCore) (n : Nat) (v : Word) : (q.wH n v).accw = q.accw := rfl

/-! `CellCore.wSt` -/

@[simp] theorem CellCore.wSt_v (q : CellCore) (n i : Nat) (v : Word) : (q.wSt n i v).v = q.v := rfl
@[simp] theorem CellCore.wSt_k (q : CellCore) (n i : Nat) (v : Word) : (q.wSt n i v).k = q.k := rfl
@[simp] theorem CellCore.wSt_x (q : CellCore) (n i : Nat) (v : Word) : (q.wSt n i v).x = q.x := rfl
@[simp] theorem CellCore.wSt_h (q : CellCore) (n i : Nat) (v : Word) : (q.wSt n i v).h = q.h := rfl
@[simp] theorem CellCore.wSt_tk (q : CellCore) (n i : Nat) (v : Word) : (q.wSt n i v).tk = q.tk := rfl
@[simp] theorem CellCore.wSt_cst (q : CellCore) (n i : Nat) (v : Word) : (q.wSt n i v).cst = q.cst := rfl
@[simp] theorem CellCore.wSt_cctl (q : CellCore) (n i : Nat) (v : Word) : (q.wSt n i v).cctl = q.cctl := rfl
@[simp] theorem CellCore.wSt_pend (q : CellCore) (n i : Nat) (v : Word) : (q.wSt n i v).pend = q.pend := rfl
@[simp] theorem CellCore.wSt_fly (q : CellCore) (n i : Nat) (v : Word) : (q.wSt n i v).fly = q.fly := rfl
@[simp] theorem CellCore.wSt_rbSeed (q : CellCore) (n i : Nat) (v : Word) : (q.wSt n i v).rbSeed = q.rbSeed := rfl
@[simp] theorem CellCore.wSt_rbMade (q : CellCore) (n i : Nat) (v : Word) : (q.wSt n i v).rbMade = q.rbMade := rfl
@[simp] theorem CellCore.wSt_rbTaken (q : CellCore) (n i : Nat) (v : Word) : (q.wSt n i v).rbTaken = q.rbTaken := rfl
@[simp] theorem CellCore.wSt_cways (q : CellCore) (n i : Nat) (v : Word) : (q.wSt n i v).cways = q.cways := rfl
@[simp] theorem CellCore.wSt_gtab (q : CellCore) (n i : Nat) (v : Word) : (q.wSt n i v).gtab = q.gtab := rfl
@[simp] theorem CellCore.wSt_mxq (q : CellCore) (n i : Nat) (v : Word) : (q.wSt n i v).mxq = q.mxq := rfl
@[simp] theorem CellCore.wSt_accw (q : CellCore) (n i : Nat) (v : Word) : (q.wSt n i v).accw = q.accw := rfl

/-! `CellCore.wTk` -/

@[simp] theorem CellCore.wTk_v (q : CellCore) (n : Nat) (v : BitVec 16) : (q.wTk n v).v = q.v := rfl
@[simp] theorem CellCore.wTk_k (q : CellCore) (n : Nat) (v : BitVec 16) : (q.wTk n v).k = q.k := rfl
@[simp] theorem CellCore.wTk_x (q : CellCore) (n : Nat) (v : BitVec 16) : (q.wTk n v).x = q.x := rfl
@[simp] theorem CellCore.wTk_h (q : CellCore) (n : Nat) (v : BitVec 16) : (q.wTk n v).h = q.h := rfl
@[simp] theorem CellCore.wTk_st (q : CellCore) (n : Nat) (v : BitVec 16) : (q.wTk n v).st = q.st := rfl
@[simp] theorem CellCore.wTk_cst (q : CellCore) (n : Nat) (v : BitVec 16) : (q.wTk n v).cst = q.cst := rfl
@[simp] theorem CellCore.wTk_cctl (q : CellCore) (n : Nat) (v : BitVec 16) : (q.wTk n v).cctl = q.cctl := rfl
@[simp] theorem CellCore.wTk_pend (q : CellCore) (n : Nat) (v : BitVec 16) : (q.wTk n v).pend = q.pend := rfl
@[simp] theorem CellCore.wTk_fly (q : CellCore) (n : Nat) (v : BitVec 16) : (q.wTk n v).fly = q.fly := rfl
@[simp] theorem CellCore.wTk_rbSeed (q : CellCore) (n : Nat) (v : BitVec 16) : (q.wTk n v).rbSeed = q.rbSeed := rfl
@[simp] theorem CellCore.wTk_rbMade (q : CellCore) (n : Nat) (v : BitVec 16) : (q.wTk n v).rbMade = q.rbMade := rfl
@[simp] theorem CellCore.wTk_rbTaken (q : CellCore) (n : Nat) (v : BitVec 16) : (q.wTk n v).rbTaken = q.rbTaken := rfl
@[simp] theorem CellCore.wTk_cways (q : CellCore) (n : Nat) (v : BitVec 16) : (q.wTk n v).cways = q.cways := rfl
@[simp] theorem CellCore.wTk_gtab (q : CellCore) (n : Nat) (v : BitVec 16) : (q.wTk n v).gtab = q.gtab := rfl
@[simp] theorem CellCore.wTk_mxq (q : CellCore) (n : Nat) (v : BitVec 16) : (q.wTk n v).mxq = q.mxq := rfl
@[simp] theorem CellCore.wTk_accw (q : CellCore) (n : Nat) (v : BitVec 16) : (q.wTk n v).accw = q.accw := rfl

/-! `CellCore.orCst` -/

@[simp] theorem CellCore.orCst_v (q : CellCore) (f : Nat) : (q.orCst f).v = q.v := rfl
@[simp] theorem CellCore.orCst_k (q : CellCore) (f : Nat) : (q.orCst f).k = q.k := rfl
@[simp] theorem CellCore.orCst_x (q : CellCore) (f : Nat) : (q.orCst f).x = q.x := rfl
@[simp] theorem CellCore.orCst_h (q : CellCore) (f : Nat) : (q.orCst f).h = q.h := rfl
@[simp] theorem CellCore.orCst_st (q : CellCore) (f : Nat) : (q.orCst f).st = q.st := rfl
@[simp] theorem CellCore.orCst_tk (q : CellCore) (f : Nat) : (q.orCst f).tk = q.tk := rfl
@[simp] theorem CellCore.orCst_cctl (q : CellCore) (f : Nat) : (q.orCst f).cctl = q.cctl := rfl
@[simp] theorem CellCore.orCst_pend (q : CellCore) (f : Nat) : (q.orCst f).pend = q.pend := rfl
@[simp] theorem CellCore.orCst_fly (q : CellCore) (f : Nat) : (q.orCst f).fly = q.fly := rfl
@[simp] theorem CellCore.orCst_rbSeed (q : CellCore) (f : Nat) : (q.orCst f).rbSeed = q.rbSeed := rfl
@[simp] theorem CellCore.orCst_rbMade (q : CellCore) (f : Nat) : (q.orCst f).rbMade = q.rbMade := rfl
@[simp] theorem CellCore.orCst_rbTaken (q : CellCore) (f : Nat) : (q.orCst f).rbTaken = q.rbTaken := rfl
@[simp] theorem CellCore.orCst_cways (q : CellCore) (f : Nat) : (q.orCst f).cways = q.cways := rfl
@[simp] theorem CellCore.orCst_gtab (q : CellCore) (f : Nat) : (q.orCst f).gtab = q.gtab := rfl
@[simp] theorem CellCore.orCst_mxq (q : CellCore) (f : Nat) : (q.orCst f).mxq = q.mxq := rfl
@[simp] theorem CellCore.orCst_accw (q : CellCore) (f : Nat) : (q.orCst f).accw = q.accw := rfl

end Sys2Proof.Machine
end

