-- ==== Sys2Proof/Laws/Records.lean ====
section
/-! SUPPORT. Reading a record, a die or a cell of the state after it has been updated. -/

namespace Sys2Proof.Machine

/-- A key other than the one put. -/
theorem mapGet_mapPut_ne {β : Type} (d : β) (k k' : Nat) (v : β) (h : k' ≠ k) : ∀ m : Map β, mapGet d (mapPut m k v) k' = mapGet d m k'
  | [] => by simp [mapPut, mapGet, h]
  | (k0, v0) :: m => by
    have ih := mapGet_mapPut_ne d k k' v h m
    by_cases h1 : k < k0
    · by_cases h2 : k' < k
      · have h3 : k' ≠ k0 := by omega
        have h4 : k' < k0 := by omega
        simp [mapPut, mapGet, h1, h, h2, h3, h4]
      · simp [mapPut, mapGet, h1, h, h2]
    · by_cases h2 : k = k0
      · subst h2; simp [mapPut, mapGet, h]
      · simp only [mapPut, h1, h2, if_false, mapGet, ih]

/-- Values changed at every key by one function. -/
theorem mapGet_map {β : Type} (d : β) (f : Nat → β → β) (k : Nat) (hd : f k d = d) :
    ∀ m : Map β, mapGet d (m.map (fun p => (p.1, f p.1 p.2))) k = f k (mapGet d m k)
  | [] => by simp [mapGet, hd]
  | (k0, v0) :: m => by
    have ih := mapGet_map d f k hd m
    by_cases h1 : k = k0
    · subst h1; simp [mapGet]
    · by_cases h2 : k < k0
      · simp [mapGet, h1, h2, hd]
      · simp [mapGet, h1, h2, ih]

/-- A resident record stands in the state. -/
theorem State.rc_lt (s : State) (c : Nat) (h : (s.rc c).slot.isSome = true) : c < s.recs.length := by
  by_cases hc : c < s.recs.length
  · exact hc
  · have : s.rc c = .reset := by simp [State.rc, List.getD, List.getElem?_eq_none (by omega : s.recs.length ≤ c)]
    rw [this] at h; simp [Rec.reset] at h

theorem State.rc_setRec_self (s : State) (c : Nat) (r : Rec) (h : c < s.recs.length) : (s.setRec c r).rc c = r := by
  simp [State.rc, State.setRec, List.getD, h]

theorem State.rc_setRec_ne (s : State) (c k : Nat) (r : Rec) (h : k ≠ c) : (s.setRec c r).rc k = s.rc k := by
  simp [State.rc, State.setRec, List.getD, Ne.symm h]

theorem State.rc_updRec_self (s : State) (c : Nat) (f : Rec → Rec) (h : c < s.recs.length) : (s.updRec c f).rc c = f (s.rc c) :=
  s.rc_setRec_self c _ h

theorem State.rc_updRec_ne (s : State) (c k : Nat) (f : Rec → Rec) (h : k ≠ c) : (s.updRec c f).rc k = s.rc k :=
  s.rc_setRec_ne c k _ h

@[simp] theorem State.setRec_length (s : State) (c : Nat) (r : Rec) : (s.setRec c r).recs.length = s.recs.length := by
  simp [State.setRec]

@[simp] theorem State.updRec_length (s : State) (c : Nat) (f : Rec → Rec) : (s.updRec c f).recs.length = s.recs.length := by
  simp [State.updRec]

@[simp] theorem State.updDctx_length (s : State) (c d : Nat) (f : DieCtx → DieCtx) : (s.updDctx c d f).recs.length = s.recs.length := by
  simp [State.updDctx]

@[simp] theorem State.updCell_length (s : State) (c d l : Nat) (f : Cell → Cell) : (s.updCell c d l f).recs.length = s.recs.length := by
  simp [State.updCell]

@[simp] theorem State.newReq_length (s : State) (c : Nat) (q : Req) : (s.newReq c q).recs.length = s.recs.length := by
  simp [State.newReq]

/-- Two updates of one record are one. -/
theorem State.updRec_updRec (s : State) (c : Nat) (f g : Rec → Rec) (h : c < s.recs.length) :
    (s.updRec c f).updRec c g = s.updRec c (fun r => g (f r)) := by
  simp [State.updRec, State.setRec, State.rc, List.getD, h]

@[simp] theorem Rec.die_setDie_self (r : Rec) (d : Nat) (x : DieCtx) : (r.setDie d x).die d = x :=
  mapGet_mapPut_self _ d x r.dies

theorem Rec.die_setDie_ne (r : Rec) (d k : Nat) (x : DieCtx) (h : k ≠ d) : (r.setDie d x).die k = r.die k :=
  mapGet_mapPut_ne _ d k x h r.dies

@[simp] theorem DieCtx.cell_setCell_self (x : DieCtx) (l : Nat) (y : Cell) : (x.setCell l y).cell l = y :=
  mapGet_mapPut_self _ l y x.cells

theorem DieCtx.cell_setCell_ne (x : DieCtx) (l k : Nat) (y : Cell) (h : k ≠ l) : (x.setCell l y).cell k = x.cell k :=
  mapGet_mapPut_ne _ l k y h x.cells

theorem State.dctx_updDctx_self (s : State) (c d : Nat) (f : DieCtx → DieCtx) (h : c < s.recs.length) :
    (s.updDctx c d f).dctx c d = f (s.dctx c d) := by
  simp [State.dctx, State.updDctx, State.rc_updRec_self _ _ _ h]

theorem State.dctx_updDctx_die (s : State) (c d k : Nat) (f : DieCtx → DieCtx) (hc : c < s.recs.length) (h : k ≠ d) :
    (s.updDctx c d f).dctx c k = s.dctx c k := by
  simp [State.dctx, State.updDctx, State.rc_updRec_self _ _ _ hc, Rec.die_setDie_ne _ _ _ _ h]

theorem State.rc_updDctx_ne (s : State) (c d k : Nat) (f : DieCtx → DieCtx) (h : k ≠ c) : (s.updDctx c d f).rc k = s.rc k :=
  s.rc_updRec_ne c k _ h

theorem State.cell_updCell_self (s : State) (c d l : Nat) (f : Cell → Cell) (h : c < s.recs.length) :
    (s.updCell c d l f).cell c d l = f (s.cell c d l) := by
  simp [State.cell, State.updCell, State.dctx_updDctx_self _ _ _ _ h]

theorem State.cell_updCell_ne (s : State) (c d l k : Nat) (f : Cell → Cell) (hc : c < s.recs.length) (h : k ≠ l) :
    (s.updCell c d l f).cell c d k = s.cell c d k := by
  simp [State.cell, State.updCell, State.dctx_updDctx_self _ _ _ _ hc, DieCtx.cell_setCell_ne _ _ _ _ h]

/-- What an update of a die leaves of its record. -/
theorem State.rc_updDctx_self (s : State) (c d : Nat) (f : DieCtx → DieCtx) (h : c < s.recs.length) :
    (s.updDctx c d f).rc c = (s.rc c).setDie d (f ((s.rc c).die d)) := s.rc_updRec_self c _ h

theorem State.rc_newReq_self (s : State) (c : Nat) (q : Req) (h : c < s.recs.length) :
    (s.newReq c q).rc c = { s.rc c with reqs := (s.rc c).reqs ++ [{ q with id := s.nextId }] } := by
  have : (s.newReq c q).rc c = (s.updRec c (fun r => { r with reqs := r.reqs ++ [{ q with id := s.nextId }] })).rc c := rfl
  rw [this, s.rc_updRec_self c _ h]

theorem State.rc_newReq_ne (s : State) (c k : Nat) (q : Req) (h : k ≠ c) : (s.newReq c q).rc k = s.rc k := by
  have : (s.newReq c q).rc k = (s.updRec c (fun r => { r with reqs := r.reqs ++ [{ q with id := s.nextId }] })).rc k := rfl
  rw [this, s.rc_updRec_ne c k _ h]

end Sys2Proof.Machine
end

