-- ==== Sys2Proof/Laws/Word.lean ====
section
/-! SUPPORT. A word that holds one instruction: what issuing it answers, from what the instruction's own meaning
answers. -/

namespace Sys2Proof.Machine

/-- A word takes effect whose one slot with effects is `f`. -/
def State.finishOne (s : State) (c : Nat) (f : SeqFx) (npc : BitVec 18) (uw : Bool) : State :=
  let at_ := (s.rc c).core.pc
  let inn := (s.rc c).core.inn
  let s := f.mem s
  let op := s.nextId
  let s := s.updSeq c (fun q => q.afterWord [f] op)
  let s := s.updRec c f.set
  let s := s.updRec c (fun r => { r with core := { r.core with pc := npc }, wordcnt := r.wordcnt + 1 })
  let s := if uw then s.updRec c (fun r => { r.note (.underwait inn none) with core := { r.core with sstat := wbit r.core.sstat 0 true } }) else s
  let s := match f.req with | some q => s.newReq c { q with pc := at_ } | none => s
  f.fin (f.post s)

@[simp] theorem covered_nil (r : RegId) : covered [] r = [] := rfl

@[simp] theorem dropUnits_nil (vs : List (Nat × Nat)) : dropUnits [] vs = vs := by simp [dropUnits]

@[simp] theorem SlotOut.without_nil (o : SlotOut) : o.without [] = o := by
  cases o; simp [SlotOut.without]

@[simp] theorem SlotOut.without_empty (cov : List (RegId × List Nat)) :
    SlotOut.without { writes := [], marks := [] } cov = { writes := [], marks := [] } := rfl

@[simp] theorem SlotOut.cover_empty : SlotOut.cover { writes := [], marks := [] } = [] := rfl

@[simp] theorem SeqFx.marks_empty : SeqFx.marks {} = [] := rfl

/-- The slots of a word that do nothing change nothing, wherever the one that acts stands. -/
theorem SeqCore.afterWord_one (q : SeqCore) (f : SeqFx) (op : Nat) :
    q.afterWord [f, {}, {}, {}] op = q.afterWord [f] op ∧ q.afterWord [{}, {}, f, {}] op = q.afterWord [f] op
    ∧ q.afterWord [{}, {}, {}, f] op = q.afterWord [f] op := by
  refine ⟨?_, ?_, ?_⟩ <;> simp [SeqCore.afterWord, standing]

/-- An update by the identity. -/
theorem State.updRec_id' (s : State) (c : Nat) : s.updRec c id = s := by
  have : s.recs.set c (s.recs.getD c .reset) = s.recs := by
    by_cases h : c < s.recs.length
    · simp [List.getD, h]
    · exact List.set_eq_of_length_le (by omega)
  simp only [State.updRec, State.setRec, State.rc, id, this]

/-- So for the word as a whole. -/
theorem State.finishWord_one (s : State) (c : Nat) (f : SeqFx) (npc : BitVec 18) (uw : Bool) :
    s.finishWord c [f, {}, {}, {}] npc uw = s.finishOne c f npc uw
    ∧ s.finishWord c [{}, {}, f, {}] npc uw = s.finishOne c f npc uw
    ∧ s.finishWord c [{}, {}, {}, f] npc uw = s.finishOne c f npc uw := by
  refine ⟨?_, ?_, ?_⟩ <;>
    simp only [State.finishWord, State.finishOne, List.foldl, id, SeqCore.afterWord_one, State.updRec_id'] <;> rfl

/-! ## The checks of a word that holds one slot -/

/-- A context that can issue does. -/
theorem State.canIssue_ok (s : State) (h : s.canIssue) : s.cannotIssue s.sel = none := by
  obtain ⟨h1, h2, h3, h4, -⟩ := h
  have h5 : (s.rc s.sel).slot.isNone = false := by
    cases hs : (s.rc s.sel).slot <;> simp_all [State.me]
  have h6 : ¬(16 < s.sel) := by omega
  have h3' : (s.rc s.sel).life = .ready := h3
  simp [State.cannotIssue, ateIdx, h3', h4, h5, h6]

/-- A word whose X slot neither waits nor broadcasts is taken. -/
theorem State.mergeHold_none (s : State) (x : Raw) (h : s.canIssue) (hw : waitsHolds s.core x = true)
    (hb : broadcasts x = true → s.me.credit s.clk = true ∧ s.litBusy = 0) : s.mergeHold s.sel x = none := by
  obtain ⟨-, -, -, -, h5⟩ := h
  have h5' : (s.rc s.sel).seqFlag = none := h5
  have hw' : waitsHolds (s.rc s.sel).core x = true := hw
  simp only [State.mergeHold, h5', hw']
  cases hx : broadcasts x with
  | false => simp
  | true =>
    obtain ⟨hc, hl⟩ := hb hx
    have hc' : (s.rc s.sel).credit s.clk = true := hc
    simp [hc', hl]

/-- The slots of a word that do nothing pass every check. -/
def blankSlot (r : Raw) : Prop := r = .nop ∨ r = .xnop ∨ r = .seq ∨ ∃ lit, r = .k28 lit

theorem blankSlot_checks (s : State) (c : Nat) (rc : Rec) (r : Raw) (h : blankSlot r) :
    csrBad c r = false ∧ bcastIdxOk rc r = true ∧ privileged r = false ∧ (r.kind == .na && r.op == 7 && !rc.hact) = false
    ∧ s.tokenFault rc r = false ∧ readsPending rc.core r = false ∧ slotActs rc.core r = true := by
  have hr : r.seqReads = [] := by rcases h with rfl | rfl | rfl | ⟨lit, rfl⟩ <;> rfl
  have hg : r.guard = 0 := by rcases h with rfl | rfl | rfl | ⟨lit, rfl⟩ <;> rfl
  refine ⟨?_, ?_, ?_, ?_, ?_, by simp [readsPending, hr], by simp [slotActs, hg, SeqCore.rP]⟩ <;>
    rcases h with rfl | rfl | rfl | ⟨lit, rfl⟩ <;> rfl

/-- The checks that a word with one slot passes. -/
theorem State.wordChecks_none (s : State) (sl : List WSlot) (hm : s.sel < 16)
    (h : ∀ w ∈ sl, csrBad s.sel w.raw = false ∧ bcastIdxOk s.me w.raw = true ∧ (privileged w.raw = true → s.me.priv = true)
      ∧ (w.raw.kind == .na && w.raw.op == 7 && !s.me.hact) = false ∧ s.tokenFault s.me w.raw = false
      ∧ (tbit s.core.sstat 8 = true → readsPending s.core w.raw = false)) : s.wordChecks s.sel s.me sl = none := by
  have hne : s.sel ≠ ateIdx := by simp [ateIdx]; omega
  have none1 : ∀ (p : WSlot → Bool) (l : List WSlot), (∀ w ∈ l, p w = false) → l.find? p = none := by
    intro p l hl; rw [List.find?_eq_none]; intro w hw; simp [hl w hw]
  have hord : ∀ w ∈ sl.filter (fun w => w.slot = slNA) ++ sl.filter (fun w => w.slot ≠ slNA), w ∈ sl := by
    intro w hw; rcases List.mem_append.1 hw with hw | hw <;> exact (List.mem_filter.1 hw).1
  unfold State.wordChecks
  dsimp only
  rw [none1 _ _ (fun w hw => by simp [(h w (hord w hw)).1, hne])]
  rw [none1 _ _ (fun w hw => by simp [(h w hw).2.1])]
  rw [none1 _ _ (fun w hw => by
    have := (h w (hord w hw)).2.2.1
    by_cases hp : privileged w.raw = true
    · simp [this hp]
    · simp [hp])]
  rw [none1 _ _ (fun w hw => (h w hw).2.2.2.1)]
  rw [none1 _ _ (fun w hw => by simp [(h w hw).2.2.2.2.1])]
  by_cases hu : tbit s.me.core.sstat 8 = true
  · simp only [hu, if_true]
    rw [none1 (fun w => readsPending s.me.core w.raw) sl (fun w hw => (h w hw).2.2.2.2.2 hu)]
  · simp [hu]

/-- A slot that does not broadcast meets no token fault where its token is owned. -/
theorem State.tokenFault_none (s : State) (r : Raw) (h : ∀ n, r.ts = some n → s.core.tokmask.getLsbD n = true)
    (hb : broadcasts r = false) : s.tokenFault s.me r = false := by
  unfold State.tokenFault
  dsimp only
  rw [Bool.or_eq_false_iff]
  constructor
  · split
    · rename_i n hn; simpa [State.core] using h n hn
    · rfl
  · split
    · rename_i h2 h3 h4; simp [broadcasts, h2, h3] at hb
    · rename_i h2 h3; simp [broadcasts, h2, h3] at hb
    · rfl

/-! ## The word issues -/

/-- The slot of a word in which an instruction of its kind stands. -/
def Raw.place (r : Raw) : Nat := if r.kind = .scalar then slS0 else if r.kind = .na then slNA else slX

/-- The other slots of the word that holds r alone do nothing. -/
theorem wordOf_blank (r : Raw) :
    (r.kind = .scalar → (wordOf r).s0 = r ∧ (wordOf r).s1 = .nop ∧ blankSlot (wordOf r).x ∧ (wordOf r).na = .seq)
    ∧ (r.kind = .na → (wordOf r).s0 = .nop ∧ (wordOf r).s1 = .nop ∧ (wordOf r).x = .xnop ∧ (wordOf r).na = r)
    ∧ (r.kind ≠ .scalar → r.kind ≠ .na → (wordOf r).s0 = .nop ∧ (wordOf r).s1 = .nop ∧ (wordOf r).x = r ∧ (wordOf r).na = .seq) := by
  refine ⟨fun h => ?_, fun h => ?_, fun h1 h2 => ?_⟩
  · unfold wordOf; rw [h]
    cases hl : r.litNeeded with
    | none => exact ⟨rfl, rfl, .inr (.inl rfl), rfl⟩
    | some l => exact ⟨rfl, rfl, .inr (.inr (.inr ⟨l, rfl⟩)), rfl⟩
  · unfold wordOf; rw [h]; exact ⟨rfl, rfl, rfl, rfl⟩
  · unfold wordOf
    split
    · contradiction
    · contradiction
    · exact ⟨rfl, rfl, rfl, rfl⟩

/-- What the broadcast check and the wait look at in an empty X slot. -/
theorem blankSlot_x (s : State) (r : Raw) (h : blankSlot r) :
    waitsHolds s.core r = true ∧ broadcasts r = false ∧ (r.kind == .x && r.op == 2) = false := by
  rcases h with rfl | rfl | rfl | ⟨lit, rfl⟩ <;> exact ⟨rfl, rfl, rfl⟩

/-- Issuing a word whose one slot is r and whose checks pass: the answer follows from the meaning of r. -/
theorem State.issueSlot_ok (s s' : State) (r : Raw) (fx : SeqMeaning) (f : SeqFx) (hi : s.canIssue)
    (hp : s.passes r) (hw : waitsHolds s.core r = true)
    (hb : broadcasts r = true → s.me.credit s.clk = true ∧ s.litBusy = 0) (hbad : csrBad s.sel r = false)
    (hidx : bcastIdxOk s.me r = true) (hrft : (r.kind == .na && r.op == 7 && !s.me.hact) = false)
    (htok : s.tokenFault s.me r = false) (hact : slotActs s.core r = true)
    (hf : fx { c := s.sel, rc := s.me, lit := r.kind == .x && r.op == 2 } s = .ok (s', f)) :
    s.issueSlot r fx = .next (s'.finishOne s.sel f
      (f.npc.getD (s.core.pc + (if r.kind == .x && r.op == 2 then 4 else 1))) (readsPending s.core r)) := by
  obtain ⟨hleg, hpriv, -, huw⟩ := hp
  have hsel : s.sel < 16 := hi.1
  have hne : s.sel ≠ ateIdx := by simp [ateIdx]; omega
  have hci := s.canIssue_ok hi
  have hB := fun (b : Raw) (hb : blankSlot b) => blankSlot_checks s s.sel s.me b hb
  have hnop : blankSlot Raw.nop := .inl rfl
  have hxnop : blankSlot Raw.xnop := .inr (.inl rfl)
  have hseq : blankSlot Raw.seq := .inr (.inr (.inl rfl))
  have chk : ∀ w : WSlot, (w.raw = r ∨ blankSlot w.raw) →
      csrBad s.sel w.raw = false ∧ bcastIdxOk s.me w.raw = true ∧ (privileged w.raw = true → s.me.priv = true)
      ∧ (w.raw.kind == .na && w.raw.op == 7 && !s.me.hact) = false ∧ s.tokenFault s.me w.raw = false
      ∧ (tbit s.core.sstat 8 = true → readsPending s.core w.raw = false) := by
    intro w hw
    rcases hw with hw | hw
    · rw [hw]; exact ⟨hbad, hidx, hpriv, hrft, htok, huw⟩
    · obtain ⟨a, b, c, d, e, g, -⟩ := hB _ hw
      exact ⟨a, b, by simp [c], d, e, fun _ => g⟩
  obtain ⟨w1, w2, w3⟩ := wordOf_blank r
  unfold State.issueSlot
  simp only [hleg, Bool.not_true, if_false, Bool.false_eq_true]
  have ha : ∀ b, blankSlot b → slotActs (s.rc s.sel).core b = true := fun b hb => (hB b hb).2.2.2.2.2.2
  have hu : ∀ b, blankSlot b → readsPending (s.rc s.sel).core b = false := fun b hb => (hB b hb).2.2.2.2.2.1
  have hact' : slotActs (s.rc s.sel).core r = true := hact
  have hf' : fx { c := s.sel, rc := s.rc s.sel, lit := r.kind == .x && r.op == 2 } s = .ok (s', f) := hf
  by_cases h1 : r.kind = .scalar
  · obtain ⟨a0, a1, ax, an⟩ := w1 h1
    obtain ⟨bx1, bx2, bx3⟩ := blankSlot_x s _ ax
    have hr3 : (r.kind == .x && r.op == 2) = false := by simp [h1]
    have hmh := s.mergeHold_none (wordOf r).x hi bx1 (by simp [bx2])
    have hwc : s.wordChecks s.sel (s.rc s.sel) _ = none :=
      s.wordChecks_none [⟨r, slS0, fx⟩, ⟨.nop, slS1, fxNone⟩, ⟨(wordOf r).x, slX, fxNone⟩, ⟨.seq, slNA, fxNone⟩] hsel
      (by intro w hw; simp only [List.mem_cons, List.not_mem_nil, or_false] at hw
          rcases hw with rfl | rfl | rfl | rfl
          · exact chk _ (.inl rfl)
          · exact chk _ (.inr hnop)
          · exact chk _ (.inr ax)
          · exact chk _ (.inr hseq))
    have hsx : (if slS0 = slX then fx else fxNone) = fxNone := rfl
    have hsn : (if slS0 = slNA then fx else fxNone) = fxNone := rfl
    rw [hr3] at hf'
    simp only [h1, if_true, a0, a1, an, hsx, hsn]
    unfold State.issueWord
    simp only [hci, hmh, hwc, bx3]
    simp only [runSlots, SeqEnv.q, ha _ hnop, ha _ hseq, ha _ ax, hact', if_true, fxNone, pureFx, hf', List.findSome?, slotOrder,
      hne, false_and, if_false, List.any, hu _ hnop, hu _ hseq, hu _ ax, Bool.or_false]
    rw [(s'.finishWord_one s.sel f _ _).1]
    cases f.npc <;> rfl
  · by_cases h2 : r.kind = .na
    · obtain ⟨a0, a1, ax, an⟩ := w2 h2
      have hr3 : (r.kind == .x && r.op == 2) = false := by simp [h2]
      have hmh := s.mergeHold_none .xnop hi rfl (by simp [broadcasts, Raw.xnop])
      have hwc : s.wordChecks s.sel (s.rc s.sel) _ = none :=
        s.wordChecks_none [⟨.nop, slS0, fxNone⟩, ⟨.nop, slS1, fxNone⟩, ⟨.xnop, slX, fxNone⟩, ⟨r, slNA, fx⟩] hsel
        (by intro w hw; simp only [List.mem_cons, List.not_mem_nil, or_false] at hw
            rcases hw with rfl | rfl | rfl | rfl
            · exact chk _ (.inr hnop)
            · exact chk _ (.inr hnop)
            · exact chk _ (.inr hxnop)
            · exact chk _ (.inl rfl))
      have e1 : (if slNA = slS0 then fx else fxNone) = fxNone := rfl
      have e2 : (if slNA = slX then fx else fxNone) = fxNone := rfl
      have e3 : (Raw.xnop.kind == SlotKind.x && Raw.xnop.op == 2) = false := rfl
      rw [hr3] at hf'
      have hna : ¬(SlotKind.na = SlotKind.scalar) := by decide
      simp only [h2, hna, if_true, if_false, a0, a1, ax, an, e1, e2]
      unfold State.issueWord
      simp only [hci, hmh, hwc, e3]
      simp only [runSlots, SeqEnv.q, ha _ hnop, ha _ hxnop, hact', if_true, fxNone, pureFx, hf', List.findSome?, slotOrder,
        hne, false_and, if_false, List.any, hu _ hnop, hu _ hxnop, Bool.or_false, Bool.false_or]
      rw [(s'.finishWord_one s.sel f _ _).2.2]
      cases f.npc <;> rfl
    · obtain ⟨a0, a1, ax, an⟩ := w3 h1 h2
      have hmh := s.mergeHold_none r hi hw hb
      have hwc : s.wordChecks s.sel (s.rc s.sel) _ = none :=
        s.wordChecks_none [⟨.nop, slS0, fxNone⟩, ⟨.nop, slS1, fxNone⟩, ⟨r, slX, fx⟩, ⟨.seq, slNA, fxNone⟩] hsel
        (by intro w hw; simp only [List.mem_cons, List.not_mem_nil, or_false] at hw
            rcases hw with rfl | rfl | rfl | rfl
            · exact chk _ (.inr hnop)
            · exact chk _ (.inr hnop)
            · exact chk _ (.inl rfl)
            · exact chk _ (.inr hseq))
      have e1 : (if slX = slS0 then fx else fxNone) = fxNone := rfl
      have e2 : (if slX = slNA then fx else fxNone) = fxNone := rfl
      simp only [h1, h2, if_true, if_false, a0, a1, ax, an, e1, e2]
      unfold State.issueWord
      simp only [hci, hmh, hwc]
      simp only [runSlots, SeqEnv.q, ha _ hnop, ha _ hseq, hact', if_true, fxNone, pureFx, hf', List.findSome?, slotOrder,
        hne, false_and, if_false, List.any, hu _ hnop, hu _ hseq, Bool.or_false, Bool.false_or]
      rw [(s'.finishWord_one s.sel f _ _).2.1]
      cases f.npc <;> rfl

/-! ## What a word leaves -/

/-- The registers after a word whose one slot issues results and no long-latency operation. -/
theorem SeqCore.afterWord_writes (q : SeqCore) (f : SeqFx) (op : Nat) (h : f.req = none) :
    q.afterWord [f] op = (f.writes.foldl SeqCore.issue q).endPos := by
  have hm : f.marks = [] := by simp [SeqFx.marks, h]
  simp [SeqCore.afterWord, standing, hm]

/-- A word whose slot issues results and changes its record, and does nothing else. -/
theorem State.finishOne_set (s : State) (r : Raw) (ws : List Write) (g : Rec → Rec) (n : Option (BitVec 18)) (npc : BitVec 18)
    (hl : s.sel < s.recs.length) :
    s.finishOne s.sel { writes := ws, set := g, npc := n } npc (readsPending s.core r)
      = s.wordDone r (fun x => g (x.issued ws)) npc := by
  have hr : readsPending s.core r = readsPending (s.rc s.sel).core r := rfl
  unfold State.finishOne State.wordDone
  simp only [id, State.updSeq]
  rw [State.updRec_updRec _ _ _ _ hl, State.updRec_updRec _ _ _ _ hl]
  cases h : readsPending s.core r with
  | false =>
    rw [hr] at h
    simp only [State.updRec, h, SeqCore.afterWord_writes, Rec.issued, Bool.false_eq_true, if_false]
  | true =>
    rw [hr] at h
    simp only [if_true]
    rw [State.updRec_updRec _ _ _ _ hl]
    simp only [State.updRec, h, SeqCore.afterWord_writes, Rec.issued, if_true, Rec.note]
    rfl

/-- Issuing a word whose one slot issues results and changes its record. -/
theorem State.issueSlot_set (s : State) (r : Raw) (fx : SeqMeaning) (ws : List Write) (g : Rec → Rec) (n : Option (BitVec 18))
    (hi : s.canIssue) (hp : s.passes r) (hw : waitsHolds s.core r = true) (hb : broadcasts r = false)
    (hbad : csrBad s.sel r = false) (hrft : (r.kind == .na && r.op == 7 && !s.me.hact) = false)
    (hact : slotActs s.core r = true)
    (hf : fx { c := s.sel, rc := s.me, lit := r.kind == .x && r.op == 2 } s = .ok (s, { writes := ws, set := g, npc := n })) :
    s.issueSlot r fx = .next (s.wordDone r (fun x => g (x.issued ws)) (n.getD s.nextPc)) := by
  have hlit : (r.kind == .x && r.op == 2) = false := by
    cases h : (r.kind == .x && r.op == 2) with
    | false => rfl
    | true => simp at h; simp [broadcasts, h] at hb
  have hidx : bcastIdxOk s.me r = true := by
    unfold bcastIdxOk; split
    · rename_i h1 h2 h3; simp [broadcasts, h1, h2] at hb
    · rfl
  rw [s.issueSlot_ok s r fx _ hi hp hw (by simp [hb]) hbad hidx hrft (s.tokenFault_none r hp.2.2.1 hb) hact hf]
  simp only [hlit, if_false, Bool.false_eq_true]
  rw [s.finishOne_set r ws g n _ (s.rc_lt s.sel hi.2.1)]
  rfl

end Sys2Proof.Machine
end

