-- ==== Sys2Proof/Laws/Bundle.lean ====
section
/-! SUPPORT. A bundle that holds one instruction: what issuing it answers, from what the instruction's own meaning
answers in each cell. -/

namespace Sys2Proof.Machine

/-- What slot r does in cell l: nothing but its posting where no lane is active and it moves no cursor (R200), else `F`. -/
def State.laneFx (s : State) (r : Raw) (F : Nat → CellFx) (l : Nat) : CellFx :=
  if (s.lanesOf r l).isEmpty && !movesCursor r then idleFx s.selDie l s.myDie.e (slotNo r.kind) r else F l

/-- Slot r reads a near-store line marked empty in cell l (R242). -/
def State.emptyReads (s : State) (r : Raw) (fx : SlotMeaning) (l : Nat) : Bool := !(s.lanesOf r l).isEmpty && fx.empty (s.env r l) s

/-- The bundle of slot r is a mark: by the slot, or as the sequencer asked for it (R427). -/
def State.marksNow (s : State) (r : Raw) : Bool := markOp r.kind r.op || s.myDie.markAsk.contains s.myDie.e

/-- The cells after the effects of slot r, one after another. -/
def State.lanesDone (s : State) (r : Raw) (fx : SlotMeaning) (F : Nat → CellFx) (t : State) (ls : List Nat) : State :=
  ls.foldl (fun (t : State) l => t.cellEffects s.sel s.selDie l s.myDie.e [s.laneFx r F l] (s.underwaits r l) (s.emptyReads r fx l) (popsEntry r)) t

/-- The state after the bundle, without what the slot does for the die. -/
def State.bundleDone (s : State) (r : Raw) (fx : SlotMeaning) (F : Nat → CellFx) : State :=
  let t := s.lanesDone r fx F s s.myCells
  let t := s.myCells.foldl (fun (t : State) l => t.discardAhead s.sel s.selDie l s.nextId s.myDie.e (s.myDie.rereads [r] s.myDie.e l)) (t.idleCells s.sel s.selDie s.myDie.e s.myCells)
  t.updDctx s.sel s.selDie (fun x => x.issued s.myDie.e (s.marksNow r)
    (gatedCount s s.sel s.selDie s.myCells [r]) (max 1 fx.positions) (fx.after (s.genv r)))

theorem State.runCells_ok (s : State) (r : Raw) (fx : SlotMeaning) (F : Nat → CellFx) :
    ∀ ls : List Nat, (∀ l ∈ ls, s.lanesOf r l ≠ [] ∨ movesCursor r = true → fx.cell (s.env r l) s = .ok (s, F l)) →
      runCells s.sel s.selDie s.me s.myDie s.myDie.e [r] ⟨r, slotNo r.kind, fx⟩ ls s = .ok (s, ls.map (fun l => (l, s.laneFx r F l)))
  | [], _ => rfl
  | l :: ls, h => by
    have ih := State.runCells_ok s r fx F ls (fun k hk => h k (List.mem_cons_of_mem _ hk))
    have he : cellEnv s s.sel s.selDie s.me s.myDie s.myDie.e l ⟨r, slotNo r.kind, fx⟩ [r] = s.env r l := rfl
    have hl : (s.env r l).lanes = s.lanesOf r l := rfl
    have hout : (if (s.env r l).lanes.isEmpty && !movesCursor r then .ok (s, idleFx s.selDie l s.myDie.e (slotNo r.kind) r)
        else fx.cell (s.env r l) s) = .ok (s, s.laneFx r F l) := by
      rw [hl]
      cases hn : (s.lanesOf r l).isEmpty && !movesCursor r with
      | true => simp [State.laneFx, hn]
      | false =>
        have hn' : s.lanesOf r l ≠ [] ∨ movesCursor r = true := by
          cases hm : movesCursor r with
          | true => exact .inr rfl
          | false => exact .inl (fun e => by simp [e, hm] at hn)
        simp [State.laneFx, hn, h l (List.mem_cons_self ..) hn']
    unfold runCells
    simp only [he, hout, ih, List.map_cons]

theorem effectsOf_one (f : Nat → CellFx) : ∀ (ls : List Nat) (l : Nat), ls.Nodup → l ∈ ls →
    effectsOf [ls.map (fun k => (k, f k))] l = [f l]
  | [], _, _, h => by simp at h
  | k :: ls, l, hn, h => by
    have hn' := List.nodup_cons.1 hn
    simp only [effectsOf, List.flatMap_cons, List.flatMap_nil, List.append_nil, List.map_cons]
    by_cases hk : k = l
    · subst hk
      have : (ls.map (fun k => (k, f k))).filter (fun p => decide (p.1 = k)) = [] := by
        rw [List.filter_eq_nil_iff]; intro p hp
        obtain ⟨j, hj, rfl⟩ := List.mem_map.1 hp
        have : j ≠ k := fun e => hn'.1 (e ▸ hj)
        simp [this]
      simp [this]
    · have hl : l ∈ ls := by rcases List.mem_cons.1 h with h | h; · exact absurd h.symm hk
                             · exact h
      have ih := effectsOf_one f ls l hn'.2 hl
      simp only [effectsOf, List.flatMap_cons, List.flatMap_nil, List.append_nil] at ih
      simp [hk, ih]

theorem State.myCells_nodup (s : State) : s.myCells.Nodup := by
  unfold State.myCells activeCells
  split
  · exact List.Nodup.filter _ List.nodup_range
  · exact List.nodup_nil

/-- Issuing a bundle whose one slot is r and whose checks pass. -/
theorem State.issueLane_ok (s : State) (r : Raw) (fx : SlotMeaning) (F : Nat → CellFx) (hc : s.canBundle r)
    (hemp : ∀ l ∈ s.myCells, tbit (s.at l).core.cctl 8 = true → s.emptyReads r fx l = false)
    (hhold : fx.hold (s.genv r) s = none) (hpre : fx.pre (s.genv r) s = none)
    (hcell : ∀ l ∈ s.myCells, s.lanesOf r l ≠ [] ∨ movesCursor r = true → fx.cell (s.env r l) s = .ok (s, F l))
    (hw : ((fx.group (s.genv r) (s.bundleDone r fx F)).dctx s.sel s.selDie).hold ≠ some .wait
      ∧ ((fx.group (s.genv r) (s.bundleDone r fx F)).dctx s.sel s.selDie).hold ≠ some .waitf) :
    s.issueLane r fx = .next (fx.group (s.genv r) (s.bundleDone r fx F)) := by
  obtain ⟨h1, h2, h3, h4, h5, h6, h7, h8⟩ := hc
  have key : s.issueBundle s.sel s.selDie s.myDie.e s.core.diemask s.core.cellmask [⟨r, slotNo r.kind, fx⟩]
      = .next (fx.group (s.genv r) (s.bundleDone r fx F)) := by
    have e1 : groupEnv s s.sel s.selDie s.me s.myDie s.myDie.e (s.core.diemask.getLsbD s.selDie) s.myCells ⟨r, slotNo r.kind, fx⟩
        = s.genv r := rfl
    have e6 : ((!(markOp r.kind r.op || s.myDie.markAsk.contains s.myDie.e) && decide (1024 ≤ s.myDie.sinceMark))
        || decide (128 < s.myDie.sinceStores + gatedCount s s.sel s.selDie s.myCells [r])) = false := by
      rw [Bool.or_eq_false_iff]
      refine ⟨?_, by simp; omega⟩
      rcases h4 with h4 | h4 | h4
      · simp only [h4, Bool.true_or, Bool.not_true, Bool.false_and]
      · simp only [h4, Bool.or_true, Bool.not_true, Bool.false_and]
      · have : ¬ 1024 ≤ s.myDie.sinceMark := by omega
        simp [this]
    have e7 : (s.myCells.any (fun l => tbit (s.at l).core.cctl 8 && (s.underwaits r l || s.emptyReads r fx l))) = false := by
      rw [List.any_eq_false]; intro l hl
      cases hb : tbit (s.at l).core.cctl 8 with
      | false => simp
      | true => simp [h8 l hl hb, hemp l hl hb]
    have e8 := s.runCells_ok r fx F s.myCells hcell
    have e9 : ∀ l ∈ s.myCells, effectsOf [s.myCells.map (fun k => (k, s.laneFx r F k))] l = [s.laneFx r F l] :=
      fun l hl => effectsOf_one _ _ l s.myCells_nodup hl
    have e10 : s.myCells.foldl (fun (t : State) l => t.cellEffects s.sel s.selDie l s.myDie.e
          (effectsOf [s.myCells.map (fun k => (k, s.laneFx r F k))] l) (s.underwaits r l) (s.emptyReads r fx l) (popsEntry r)) s
        = s.lanesDone r fx F s s.myCells := by
      unfold State.lanesDone
      refine List.foldl_ext _ _ _ ?_
      intro t l hl
      rw [e9 l hl]
    unfold State.issueBundle
    have m1 : s.rc s.sel = s.me := rfl
    have m2 : s.me.die s.selDie = s.myDie := rfl
    have m3 : activeCells s.me s.selDie s.core.diemask s.core.cellmask = s.myCells := rfl
    simp only [m1, m2, m3, e1, List.any_cons, List.any_nil, Bool.or_false, List.map, h3, e6, Bool.false_eq_true, if_false, h6, h7,
      Bool.not_true, List.findSome?, hhold, hpre]
    have e7' : (s.myCells.any fun l => tbit (s.cell s.sel s.selDie l).core.cctl 8 &&
        (cellReadsPending s.me s.selDie l (s.cell s.sel s.selDie l).core r (guardLanes (s.cell s.sel s.selDie l).core r.guard)
          || (!(cellEnv s s.sel s.selDie s.me s.myDie s.myDie.e l ⟨r, slotNo r.kind, fx⟩ [r]).lanes.isEmpty
            && fx.empty (cellEnv s s.sel s.selDie s.me s.myDie s.myDie.e l ⟨r, slotNo r.kind, fx⟩ [r]) s))) = false := e7
    have e11 : runBundle s.sel s.selDie s.me s.myDie s.myDie.e [r] s.myCells [⟨r, slotNo r.kind, fx⟩] s
        = .ok (s, [s.myCells.map (fun l => (l, s.laneFx r F l))]) := by
      simp only [runBundle, e8]
    rw [e7', e11]
    simp only [Bool.false_eq_true, if_false, List.foldl_cons, List.foldl_nil, e1]
    have e10' : (s.myCells.foldl (fun t l => t.cellEffects s.sel s.selDie l s.myDie.e
          (effectsOf [s.myCells.map (fun k => (k, s.laneFx r F k))] l)
          (cellReadsPending s.me s.selDie l (s.cell s.sel s.selDie l).core r (guardLanes (s.cell s.sel s.selDie l).core r.guard))
          (!(cellEnv s s.sel s.selDie s.me s.myDie s.myDie.e l ⟨r, slotNo r.kind, fx⟩ [r]).lanes.isEmpty
            && fx.empty (cellEnv s s.sel s.selDie s.me s.myDie s.myDie.e l ⟨r, slotNo r.kind, fx⟩ [r]) s) (popsEntry r)) s)
        = s.lanesDone r fx F s s.myCells := e10
    rw [e10']
    unfold State.bundleDone State.marksNow
    cases fx.after (s.genv r) <;> rfl
  unfold State.issueLane
  simp only [h1, h2, Bool.not_true, Bool.false_eq_true, if_false]
  have key' : s.issueBundle s.sel s.selDie (s.dctx s.sel s.selDie).e (s.rc s.sel).core.diemask (s.rc s.sel).core.cellmask
      [⟨r, slotNo r.kind, fx⟩] = .next (fx.group (s.genv r) (s.bundleDone r fx F)) := key
  simp only [key', hw.1, hw.2, or_self, if_false]

/-! ## What the bundle leaves -/

theorem State.cellActs_none (t : State) (c d l : Nat) (f : CellFx) (uw pop : Bool) (h : f.req = none) :
    t.cellActs c d l [f] uw pop = t.updCell c d l (fun y => y.afterBundle [f] t.nextId uw pop) := by
  simp [State.cellActs, h]

theorem State.cellActs_some (t : State) (c d l : Nat) (f : CellFx) (q : Req) (uw pop : Bool) (h : f.req = some q) :
    t.cellActs c d l [f] uw pop
      = ((t.updCell c d l (fun y => y.afterBundle [f] t.nextId uw pop)).claimCmd c q).newReq c q := by
  simp [State.cellActs, h]

/-- A cell after a bundle of results alone. -/
theorem Cell.afterBundle_writes (y : Cell) (ws : List Write) (id : Nat) (uw pop : Bool) :
    y.afterBundle [{ writes := ws }] id uw pop = { y with core := y.core.after ws uw pop } := by
  have h0 : SlotOut.without { writes := ws, marks := [] } [] = { writes := ws, marks := [] } := SlotOut.without_nil _
  simp [Cell.afterBundle, standing, h0, giveIds, CellCore.after]

@[simp] theorem State.claimCmd_recs (s : State) (c : Nat) (q : Req) : (s.claimCmd c q).recs = s.recs := by
  unfold State.claimCmd; split <;> rfl

@[simp] theorem State.claimCmd_rc (s : State) (c k : Nat) (q : Req) : (s.claimCmd c q).rc k = s.rc k := by
  simp [State.rc]

@[simp] theorem State.claimCmd_nextId (s : State) (c : Nat) (q : Req) : (s.claimCmd c q).nextId = s.nextId := by
  unfold State.claimCmd; split <;> rfl

@[simp] theorem State.claimCmd_mem (s : State) (c : Nat) (q : Req) : (s.claimCmd c q).mem = s.mem := by
  unfold State.claimCmd; split <;> rfl

/-- What a bundle leaves, in one cell, of the record: everything but its dies and its operations. -/
theorem State.cellActs_rc (t : State) (c d l : Nat) (f : CellFx) (uw pop : Bool) (hc : c < t.recs.length) :
    (t.cellActs c d l [f] uw pop).rc c
      = { (t.rc c).setDie d (((t.rc c).die d).setCell l ((t.cell c d l).afterBundle [f] t.nextId uw pop)) with
          reqs := (t.rc c).reqs ++ (match f.req with | some q => [{ q with id := t.nextId }] | none => []) } := by
  cases h : f.req with
  | none =>
    rw [t.cellActs_none c d l f uw pop h, List.append_nil]
    exact t.rc_updDctx_self c d _ hc
  | some q =>
    rw [t.cellActs_some c d l f q uw pop h, State.rc_newReq_self _ _ _ (by simpa using hc)]
    simp only [State.claimCmd_rc, State.claimCmd_nextId]
    rw [show (t.updCell c d l (fun y => y.afterBundle [f] t.nextId uw pop)).rc c = _ from t.rc_updDctx_self c d _ hc]
    rfl

theorem State.cellActs_rc_ne (t : State) (c d l k : Nat) (f : CellFx) (uw pop : Bool) (hk : k ≠ c) :
    (t.cellActs c d l [f] uw pop).rc k = t.rc k := by
  cases h : f.req with
  | none => rw [t.cellActs_none c d l f uw pop h]; exact t.rc_updDctx_ne c d k _ hk
  | some q =>
    rw [t.cellActs_some c d l f q uw pop h, State.rc_newReq_ne _ _ _ _ hk, State.claimCmd_rc]
    exact t.rc_updDctx_ne c d k _ hk

theorem State.cellActs_length (t : State) (c d l : Nat) (f : CellFx) (uw pop : Bool) :
    (t.cellActs c d l [f] uw pop).recs.length = t.recs.length := by
  cases h : f.req with
  | none => rw [t.cellActs_none c d l f uw pop h]; simp
  | some q => rw [t.cellActs_some c d l f q uw pop h]; simp

theorem State.cellActs_mem (t : State) (c d l : Nat) (f : CellFx) (uw pop : Bool) :
    (t.cellActs c d l [f] uw pop).mem = t.mem := by
  cases h : f.req with
  | none => rw [t.cellActs_none c d l f uw pop h]; rfl
  | some q => rw [t.cellActs_some c d l f q uw pop h]; simp

theorem State.cellActs_sel (t : State) (c d l : Nat) (f : CellFx) (uw pop : Bool) :
    (t.cellActs c d l [f] uw pop).sel = t.sel := by
  cases h : f.req with
  | none => rw [t.cellActs_none c d l f uw pop h]; rfl
  | some q =>
    rw [t.cellActs_some c d l f q uw pop h]
    simp only [State.newReq_sel]; unfold State.claimCmd; split <;> rfl

theorem State.cellActs_selDie (t : State) (c d l : Nat) (f : CellFx) (uw pop : Bool) :
    (t.cellActs c d l [f] uw pop).selDie = t.selDie := by
  cases h : f.req with
  | none => rw [t.cellActs_none c d l f uw pop h]; rfl
  | some q =>
    rw [t.cellActs_some c d l f q uw pop h]
    simp only [State.newReq_selDie]; unfold State.claimCmd; split <;> rfl

theorem State.cellActs_nextId (t : State) (c d l : Nat) (f : CellFx) (uw pop : Bool) :
    t.nextId ≤ (t.cellActs c d l [f] uw pop).nextId := by
  cases h : f.req with
  | none => rw [t.cellActs_none c d l f uw pop h]; exact Nat.le_refl _
  | some q =>
    rw [t.cellActs_some c d l f q uw pop h]
    show t.nextId ≤ ((t.updCell c d l (fun y => y.afterBundle [f] t.nextId uw pop)).claimCmd c q).nextId + 1
    rw [State.claimCmd_nextId]; simp

/-- What a record keeps when only its dies, operations and annotations change. -/
def Rec.rest (r : Rec) : Rec := { r with dies := [], reqs := [], notes := [] }

/-- A die without what it holds of loads read ahead, and the stall counters of their reissues. -/
def DieCtx.settled (x : DieCtx) : DieCtx := { x with ahead := [], sc := [] }

/-- A die without that and without its cells. -/
def DieCtx.bare (x : DieCtx) : DieCtx := { x with cells := [], ahead := [], sc := [] }

theorem DieCtx.bare_settled (x : DieCtx) : x.settled.bare = x.bare := rfl

theorem DieCtx.bare_of_settled {x y : DieCtx} (h : x.settled = y.settled) : x.bare = y.bare := by
  rw [← x.bare_settled, ← y.bare_settled, h]

theorem DieCtx.settled_cells {x y : DieCtx} (h : x.settled = y.settled) : x.cells = y.cells :=
  show x.settled.cells = y.settled.cells by rw [h]

@[simp] theorem DieCtx.reissue_settled (x : DieCtx) (hit : Ahead → Bool) : (x.reissue hit).settled = x.settled := by
  unfold DieCtx.reissue; split <;> rfl

@[simp] theorem DieCtx.overtaken_settled (x : DieCtx) (ein : BitVec 48) (l : Nat) (regs : List RegId) :
    (x.overtaken ein l regs).settled = x.settled := x.reissue_settled _

/-- Two states that differ only in what a die holds of loads issued ahead and in annotations. -/
structure SameButAhead (c d : Nat) (t u : State) : Prop where
  mem : u.mem = t.mem
  dies : u.dies = t.dies
  nextId : u.nextId = t.nextId
  sel : u.sel = t.sel
  selDie : u.selDie = t.selDie
  length : u.recs.length = t.recs.length
  others : ∀ k, k ≠ c → u.rc k = t.rc k
  rest : (u.rc c).rest = (t.rc c).rest
  reqs : (u.rc c).reqs = (t.rc c).reqs
  far : ∀ k, k ≠ d → u.dctx c k = t.dctx c k
  near : (u.dctx c d).settled = (t.dctx c d).settled

theorem SameButAhead.refl (c d : Nat) (t : State) : SameButAhead c d t t :=
  ⟨rfl, rfl, rfl, rfl, rfl, rfl, fun _ _ => rfl, rfl, rfl, fun _ _ => rfl, rfl⟩

theorem SameButAhead.trans {c d : Nat} {t u v : State} (h : SameButAhead c d t u) (k : SameButAhead c d u v) : SameButAhead c d t v :=
  ⟨k.mem.trans h.mem, k.dies.trans h.dies, k.nextId.trans h.nextId, k.sel.trans h.sel, k.selDie.trans h.selDie,
    k.length.trans h.length, fun i hi => (k.others i hi).trans (h.others i hi), k.rest.trans h.rest, k.reqs.trans h.reqs,
    fun i hi => (k.far i hi).trans (h.far i hi), k.near.trans h.near⟩

/-- An update of a die that leaves all but that as it is. -/
theorem State.updDctx_same (t : State) (c d : Nat) (f : DieCtx → DieCtx) (hc : c < t.recs.length)
    (hf : ∀ x, (f x).settled = x.settled) : SameButAhead c d t (t.updDctx c d f) := by
  refine ⟨rfl, rfl, rfl, rfl, rfl, by simp, fun k hk => t.rc_updDctx_ne c d k _ hk, ?_, ?_, fun k hk => t.dctx_updDctx_die c d k _ hc hk, ?_⟩
  · rw [t.rc_updDctx_self c d _ hc]; rfl
  · rw [t.rc_updDctx_self c d _ hc]; rfl
  · rw [t.dctx_updDctx_self c d _ hc]; exact hf _

/-- An annotation of a record leaves all but that as it is. -/
theorem State.noteUnderwait_same (t : State) (c d l : Nat) (ein : BitVec 48) (uw : Bool) (hc : c < t.recs.length) :
    SameButAhead c d t (t.noteUnderwait c d l ein uw) := by
  unfold State.noteUnderwait
  split
  · have h : ((t.updRec c (fun r => r.note (.underwait ein (some (d, l))))).rc c) = (t.rc c).note (.underwait ein (some (d, l))) :=
      State.rc_updRec_self _ _ _ hc
    have hd : ∀ k, ((t.updRec c (fun r => r.note (.underwait ein (some (d, l))))).dctx c k) = t.dctx c k := by
      intro k
      show ((t.updRec c _).rc c).die k = (t.rc c).die k
      rw [h]; rfl
    refine ⟨rfl, rfl, rfl, rfl, rfl, by simp, fun k hk => State.rc_updRec_ne _ _ _ _ hk, ?_, ?_, fun k _ => hd k, ?_⟩
    · rw [h]; rfl
    · rw [h]; rfl
    · rw [hd]
  · exact .refl ..

/-- The cells stand. -/
theorem SameButAhead.cell {c d : Nat} {t u : State} (h : SameButAhead c d t u) (k l : Nat) : u.cell c k l = t.cell c k l := by
  by_cases hk : k = d
  · subst hk
    show mapGet Cell.reset (u.dctx c k).cells l = mapGet Cell.reset (t.dctx c k).cells l
    rw [DieCtx.settled_cells h.near]
  · show (u.dctx c k).cell l = (t.dctx c k).cell l
    rw [h.far k hk]

/-- Discarding what was read ahead changes only that. -/
theorem State.discardAhead_same (t : State) (c d l id : Nat) (ein : BitVec 48) (b : Bool) (hc : c < t.recs.length) :
    SameButAhead c d t (t.discardAhead c d l id ein b) := by
  unfold State.discardAhead
  dsimp only
  refine t.updDctx_same c d _ hc (fun x => ?_)
  split
  · exact (show _ = ((x.reissue _).settled) from rfl).trans (x.reissue_settled _)
  · exact x.reissue_settled _

theorem State.discardAll_same (c d id : Nat) (ein : BitVec 48) (f : Nat → Bool) : ∀ (ls : List Nat) (t : State), c < t.recs.length →
    SameButAhead c d t (ls.foldl (fun (t : State) l => t.discardAhead c d l id ein (f l)) t)
  | [], _, _ => .refl ..
  | l :: ls, t, hc => by
    have h := t.discardAhead_same c d l id ein (f l) hc
    exact h.trans (State.discardAll_same c d id ein f ls _ (by rw [h.length]; exact hc))

/-- The effects on all active cells: each active cell once, operations added, the rest of the record and of the state
kept. -/
theorem State.lanesDone_facts (s : State) (r : Raw) (fx : SlotMeaning) (F : Nat → CellFx) : ∀ (ls : List Nat) (t : State), ls.Nodup →
    s.sel < t.recs.length →
    (s.lanesDone r fx F t ls).recs.length = t.recs.length ∧ (s.lanesDone r fx F t ls).mem = t.mem
    ∧ (∀ k, k ≠ s.sel → (s.lanesDone r fx F t ls).rc k = t.rc k)
    ∧ ((s.lanesDone r fx F t ls).rc s.sel).rest = (t.rc s.sel).rest
    ∧ (∀ d l, d ≠ s.selDie → (s.lanesDone r fx F t ls).cell s.sel d l = t.cell s.sel d l)
    ∧ (∀ l, l ∉ ls → (s.lanesDone r fx F t ls).cell s.sel s.selDie l = t.cell s.sel s.selDie l)
    ∧ (∀ l, l ∈ ls → ∃ id, (s.lanesDone r fx F t ls).cell s.sel s.selDie l
        = (t.cell s.sel s.selDie l).afterBundle [s.laneFx r F l] id (s.underwaits r l) (popsEntry r))
    ∧ (∀ q, q ∈ (t.rc s.sel).reqs → q ∈ ((s.lanesDone r fx F t ls).rc s.sel).reqs)
    ∧ (∀ l q, l ∈ ls → (s.laneFx r F l).req = some q → ∃ id, t.nextId ≤ id ∧ { q with id := id } ∈ ((s.lanesDone r fx F t ls).rc s.sel).reqs)
    ∧ ((∀ l, l ∈ ls → (s.laneFx r F l).req = none) → ((s.lanesDone r fx F t ls).rc s.sel).reqs = (t.rc s.sel).reqs
        ∧ (s.lanesDone r fx F t ls).nextId = t.nextId ∧ (s.lanesDone r fx F t ls).dies = t.dies)
    ∧ t.nextId ≤ (s.lanesDone r fx F t ls).nextId ∧ (s.lanesDone r fx F t ls).sel = t.sel
    ∧ ((s.lanesDone r fx F t ls).dctx s.sel s.selDie).bare = (t.dctx s.sel s.selDie).bare := by
  intro ls
  induction ls with
  | nil =>
    intro t _ _
    exact ⟨rfl, rfl, fun _ _ => rfl, rfl, fun _ _ _ => rfl, fun _ _ => rfl, fun _ h => absurd h (List.not_mem_nil),
      fun _ h => h, fun _ _ h => absurd h (List.not_mem_nil), fun _ => ⟨rfl, rfl, rfl⟩, Nat.le_refl _, rfl, rfl⟩
  | cons l ls ih =>
    intro t hn hc
    obtain ⟨hl, hn'⟩ := List.nodup_cons.1 hn
    let g : DieCtx → DieCtx := fun x => x.overtaken s.myDie.e l ((x.cell l).landing ++ landingNow [s.laneFx r F l])
    have ha : SameButAhead s.sel s.selDie t (t.updDctx s.sel s.selDie g) := t.updDctx_same _ _ g hc (fun x => x.overtaken_settled _ _ _)
    let t0 := (t.updDctx s.sel s.selDie g).noteUnderwait s.sel s.selDie l s.myDie.e (s.underwaits r l || s.emptyReads r fx l)
    have h0 : SameButAhead s.sel s.selDie t t0 := ha.trans (State.noteUnderwait_same _ _ _ _ _ _ (by rw [ha.length]; exact hc))
    have hc0 : s.sel < t0.recs.length := by rw [h0.length]; exact hc
    have e0 : s.lanesDone r fx F t (l :: ls)
        = s.lanesDone r fx F (t0.cellActs s.sel s.selDie l [s.laneFx r F l] (s.underwaits r l) (popsEntry r)) ls := rfl
    clear_value t0
    let t1 := t0.cellActs s.sel s.selDie l [s.laneFx r F l] (s.underwaits r l) (popsEntry r)
    have hlen : t1.recs.length = t.recs.length := (t0.cellActs_length ..).trans h0.length
    have hrc := t0.cellActs_rc s.sel s.selDie l (s.laneFx r F l) (s.underwaits r l) (popsEntry r) hc0
    have hdie : (t1.rc s.sel).die s.selDie = ((t0.rc s.sel).die s.selDie).setCell l
        ((t.cell s.sel s.selDie l).afterBundle [s.laneFx r F l] t.nextId (s.underwaits r l) (popsEntry r)) := by
      show (t1.rc s.sel).die s.selDie = _
      rw [hrc, h0.cell, h0.nextId]; exact Rec.die_setDie_self _ _ _
    have hcell : t1.cell s.sel s.selDie l
        = (t.cell s.sel s.selDie l).afterBundle [s.laneFx r F l] t.nextId (s.underwaits r l) (popsEntry r) := by
      show ((t1.rc s.sel).die s.selDie).cell l = _
      rw [hdie, DieCtx.cell_setCell_self]
    have hcell' : ∀ k, k ≠ l → t1.cell s.sel s.selDie k = t.cell s.sel s.selDie k := by
      intro k hk
      rw [← h0.cell s.selDie k]
      show ((t1.rc s.sel).die s.selDie).cell k = _
      rw [hdie, DieCtx.cell_setCell_ne _ _ _ _ hk]; rfl
    have hother : ∀ d k, d ≠ s.selDie → t1.cell s.sel d k = t.cell s.sel d k := by
      intro d k hd
      rw [← h0.cell d k]
      show ((t1.rc s.sel).die d).cell k = ((t0.rc s.sel).die d).cell k
      have : (t1.rc s.sel).die d = (t0.rc s.sel).die d := by
        rw [show t1.rc s.sel = _ from hrc]; exact Rec.die_setDie_ne _ _ _ _ hd
      rw [this]
    have hreqs : (t1.rc s.sel).reqs = (t.rc s.sel).reqs
        ++ (match (s.laneFx r F l).req with | some q => [{ q with id := t.nextId }] | none => []) := by
      rw [show t1.rc s.sel = _ from hrc, ← h0.reqs, ← h0.nextId]
    have hid : t.nextId ≤ t1.nextId := by rw [← h0.nextId]; exact t0.cellActs_nextId ..
    obtain ⟨i1, i2, i3, i4, i5, i6, i7, i8, i9, i10, i11, i12, i13⟩ := ih t1 hn' (by omega)
    rw [e0]
    refine ⟨i1.trans hlen, i2.trans ((t0.cellActs_mem ..).trans h0.mem), ?_, ?_, ?_, ?_, ?_, ?_, ?_, ?_, ?_, ?_, ?_⟩
    · intro k hk; rw [i3 k hk, ← h0.others k hk]; exact t0.cellActs_rc_ne _ _ _ _ _ _ _ hk
    · rw [i4, show t1.rc s.sel = _ from hrc, ← h0.rest]; rfl
    · intro d k hd; rw [i5 d k hd]; exact hother d k hd
    · intro k hk
      simp only [List.mem_cons, not_or] at hk
      rw [i6 k hk.2]; exact hcell' k hk.1
    · intro k hk
      rcases List.mem_cons.1 hk with rfl | hk
      · exact ⟨t.nextId, by rw [i6 k hl]; exact hcell⟩
      · have hkl : k ≠ l := fun e => hl (e ▸ hk)
        obtain ⟨id, hid⟩ := i7 k hk
        exact ⟨id, by rw [hid, hcell' k hkl]⟩
    · intro q hq
      exact i8 q (by rw [hreqs]; exact List.mem_append_left _ hq)
    · intro k q hk hq
      rcases List.mem_cons.1 hk with rfl | hk
      · refine ⟨t.nextId, Nat.le_refl _, i8 _ ?_⟩
        rw [hreqs, hq]; simp
      · obtain ⟨id, h1, h2⟩ := i9 k q hk hq
        exact ⟨id, Nat.le_trans hid h1, h2⟩
    · intro hnone
      obtain ⟨a, b, c⟩ := i10 (fun k hk => hnone k (List.mem_cons_of_mem _ hk))
      have hno := hnone l (List.mem_cons_self ..)
      have ht1 : t1 = t0.updCell s.sel s.selDie l (fun y => y.afterBundle [s.laneFx r F l] t0.nextId (s.underwaits r l) (popsEntry r)) :=
        t0.cellActs_none _ _ _ _ _ _ hno
      refine ⟨?_, ?_, ?_⟩
      · rw [a, hreqs, hno]; simp
      · rw [b, ht1]; exact h0.nextId
      · rw [c, ht1]; exact h0.dies
    · exact Nat.le_trans hid i11
    · rw [i12]; exact (t0.cellActs_sel ..).trans h0.sel
    · rw [i13, ← DieCtx.bare_of_settled h0.near]
      show ((t1.rc s.sel).die s.selDie).bare = _
      rw [hdie]; rfl

theorem State.noteUnderwait_selDie (t : State) (c d l : Nat) (ein : BitVec 48) (uw : Bool) :
    (t.noteUnderwait c d l ein uw).selDie = t.selDie := by
  unfold State.noteUnderwait; split <;> rfl

theorem State.lanesDone_selDie (s : State) (r : Raw) (fx : SlotMeaning) (F : Nat → CellFx) : ∀ (ls : List Nat) (t : State),
    (s.lanesDone r fx F t ls).selDie = t.selDie
  | [], _ => rfl
  | _ :: ls, _ => (State.lanesDone_selDie s r fx F ls _).trans ((State.cellActs_selDie ..).trans (State.noteUnderwait_selDie ..))

/-- A cell that no bundle has reached stands at its reset value when a position ends. -/
theorem CellCore.reset_endPos : CellCore.reset.endPos = CellCore.reset := rfl

/-- A position passes: apart from loads read ahead, the idle cells end their position. -/
theorem DieCtx.passCells_settled (x : DieCtx) (ein : BitVec 48) (idle : Nat → Bool) :
    (x.passCells ein idle).settled = { x.settled with cells := x.cells.map (fun p =>
      if idle p.1 then (p.1, { p.2 with core := p.2.core.endPos }) else p) } := by
  have h : ∀ (ps : List (Nat × Cell)) (x : DieCtx),
      (ps.foldl (fun (x : DieCtx) p => if idle p.1 then x.overtaken ein p.1 p.2.landing else x) x).settled = x.settled := by
    intro ps
    induction ps with
    | nil => intro x; rfl
    | cons p ps ih =>
      intro x
      rw [List.foldl_cons, ih]
      split
      · exact x.overtaken_settled ..
      · rfl
  have k := h x.cells x
  unfold DieCtx.passCells
  dsimp only
  generalize x.cells.foldl _ x = y at k
  have e := DieCtx.settled_cells k
  have f := congrArg (fun z : DieCtx => ({ z with cells := y.cells.map (fun p =>
    if idle p.1 then (p.1, { p.2 with core := p.2.core.endPos }) else p) } : DieCtx)) k
  rw [← e]; exact f

/-- The die after the position has ended in the cells the bundle does not reach. -/
theorem State.idleCells_die (t : State) (c d : Nat) (ein : BitVec 48) (active : List Nat) (hc : c < t.recs.length) :
    ((t.idleCells c d ein active).dctx c d).settled = { (t.dctx c d).settled with cells := (t.dctx c d).cells.map (fun p =>
      if !active.contains p.1 then (p.1, { p.2 with core := p.2.core.endPos }) else p) } := by
  have e : (t.idleCells c d ein active).dctx c d = (t.dctx c d).passCells ein (fun l => !active.contains l) :=
    t.dctx_updDctx_self c d _ hc
  rw [e, DieCtx.passCells_settled]

/-- The cells of a die after the position has ended in those the bundle does not reach. -/
theorem State.idleCells_cell (t : State) (c d l : Nat) (ein : BitVec 48) (active : List Nat) (hc : c < t.recs.length) :
    (t.idleCells c d ein active).cell c d l
      = if active.contains l then t.cell c d l else { t.cell c d l with core := (t.cell c d l).core.endPos } := by
  have hd : (if active.contains l then Cell.reset else { Cell.reset with core := Cell.reset.core.endPos }) = Cell.reset := by
    split <;> rfl
  have key := mapGet_map Cell.reset (fun k y => if active.contains k then y else { y with core := y.core.endPos }) l hd (t.dctx c d).cells
  show mapGet Cell.reset ((t.idleCells c d ein active).dctx c d).cells l = _
  have e : ((t.idleCells c d ein active).dctx c d).settled.cells = _ := congrArg DieCtx.cells (t.idleCells_die c d ein active hc)
  change ((t.idleCells c d ein active).dctx c d).cells = _ at e
  rw [e]
  have e2 : (t.dctx c d).cells.map (fun p => if !active.contains p.1 then (p.1, { p.2 with core := p.2.core.endPos }) else p)
      = (t.dctx c d).cells.map (fun p => (p.1, if active.contains p.1 then p.2 else { p.2 with core := p.2.core.endPos })) := by
    apply List.map_congr_left; intro p _; cases active.contains p.1 <;> rfl
  simp only [e2]
  rw [key]; rfl

/-- What a bundle with one slot leaves: the active cells as their effects say, the others a position later, the
operations it issued, the die at its next bundle; memory, the rest of the record and every other record as they were. -/
structure BundleLeaves (s : State) (r : Raw) (fx : SlotMeaning) (F : Nat → CellFx) (t : State) : Prop where
  mem : t.mem = s.mem
  sel : t.sel = s.sel
  selDie : t.selDie = s.selDie
  others : ∀ k, k ≠ s.sel → t.rc k = s.rc k
  rest : (t.rc s.sel).rest = s.me.rest
  far : ∀ d l, d ≠ s.selDie → t.cell s.sel d l = s.cell s.sel d l
  idle : ∀ l, l ∉ s.myCells → t.cell s.sel s.selDie l = { s.at l with core := (s.at l).core.endPos }
  active : ∀ l, l ∈ s.myCells → ∃ id, t.cell s.sel s.selDie l
    = (s.at l).afterBundle [s.laneFx r F l] id (s.underwaits r l) (popsEntry r)
  old : ∀ q, q ∈ s.me.reqs → q ∈ (t.rc s.sel).reqs
  new : ∀ l q, l ∈ s.myCells → (s.laneFx r F l).req = some q → ∃ id, s.nextId ≤ id ∧ { q with id := id } ∈ (t.rc s.sel).reqs
  none : (∀ l, l ∈ s.myCells → (s.laneFx r F l).req = none) → (t.rc s.sel).reqs = s.me.reqs ∧ t.nextId = s.nextId ∧ t.dies = s.dies
  die : (t.dctx s.sel s.selDie).bare
    = (s.myDie.issued s.myDie.e (s.marksNow r) (gatedCount s s.sel s.selDie s.myCells [r]) (max 1 fx.positions)
        (fx.after (s.genv r))).bare

theorem DieCtx.issued_bare (x y : DieCtx) (ein : BitVec 48) (m : Bool) (n p : Nat) (a : Option Hold) (h : x.bare = y.bare) :
    (x.issued ein m n p a).bare = (y.issued ein m n p a).bare := by
  cases x; cases y
  simp only [DieCtx.bare, DieCtx.mk.injEq] at h
  simp only [DieCtx.bare, DieCtx.issued, DieCtx.mk.injEq]
  simp_all

theorem State.bundleDone_leaves (s : State) (r : Raw) (fx : SlotMeaning) (F : Nat → CellFx) (hc : s.sel < s.recs.length) :
    BundleLeaves s r fx F (s.bundleDone r fx F) := by
  obtain ⟨a1, a2, a3, a4, a5, a6, a7, a8, a9, a10, a11, a12, a13⟩ := s.lanesDone_facts r fx F s.myCells s s.myCells_nodup hc
  let t1 := s.lanesDone r fx F s s.myCells
  let t2 := t1.idleCells s.sel s.selDie s.myDie.e s.myCells
  have hc1 : s.sel < t1.recs.length := by show _ < (s.lanesDone r fx F s s.myCells).recs.length; omega
  have hc2 : s.sel < t2.recs.length := by
    have : t2.recs.length = t1.recs.length := t1.updDctx_length ..
    omega
  have h3 := State.discardAll_same s.sel s.selDie s.nextId s.myDie.e (fun l => s.myDie.rereads [r] s.myDie.e l) s.myCells t2 hc2
  let t3 := s.myCells.foldl (fun (t : State) l => t.discardAhead s.sel s.selDie l s.nextId s.myDie.e (s.myDie.rereads [r] s.myDie.e l)) t2
  have hc3 : s.sel < t3.recs.length := by
    have : t3.recs.length = t2.recs.length := h3.length
    omega
  have e2 : (t2.dctx s.sel s.selDie).settled = _ := t1.idleCells_die s.sel s.selDie s.myDie.e s.myCells hc1
  have hT : s.bundleDone r fx F = t3.updDctx s.sel s.selDie (fun x => x.issued s.myDie.e (s.marksNow r)
    (gatedCount s s.sel s.selDie s.myCells [r]) (max 1 fx.positions) (fx.after (s.genv r))) := rfl
  have o2 : ∀ k, k ≠ s.sel → t2.rc k = t1.rc k := fun k hk => t1.rc_updDctx_ne _ _ _ _ hk
  have s2 : (t2.rc s.sel).rest = (t1.rc s.sel).rest ∧ (t2.rc s.sel).reqs = (t1.rc s.sel).reqs := by
    rw [show t2.rc s.sel = _ from t1.rc_updDctx_self _ _ _ hc1]; exact ⟨rfl, rfl⟩
  have f2 : ∀ d, d ≠ s.selDie → t2.dctx s.sel d = t1.dctx s.sel d := fun d hd => t1.dctx_updDctx_die _ _ _ _ hc1 hd
  have c2 := fun l => t1.idleCells_cell s.sel s.selDie l s.myDie.e s.myCells hc1
  have c2' : ∀ l, t2.cell s.sel s.selDie l = _ := c2
  have hcells : ∀ l, (s.bundleDone r fx F).cell s.sel s.selDie l = t2.cell s.sel s.selDie l := by
    intro l
    have n' : (t3.dctx s.sel s.selDie).cells = (t2.dctx s.sel s.selDie).cells := DieCtx.settled_cells h3.near
    show mapGet Cell.reset ((s.bundleDone r fx F).dctx s.sel s.selDie).cells l = mapGet Cell.reset (t2.dctx s.sel s.selDie).cells l
    rw [hT, t3.dctx_updDctx_self _ _ _ hc3, ← n']; rfl
  constructor
  · rw [hT]; exact h3.mem.trans a2
  · rw [hT]; exact h3.sel.trans a12
  · rw [hT]; exact h3.selDie.trans (s.lanesDone_selDie r fx F s.myCells s)
  · intro k hk
    rw [hT, t3.rc_updDctx_ne _ _ _ _ hk, h3.others k hk, o2 k hk]; exact a3 k hk
  · rw [hT, t3.rc_updDctx_self _ _ _ hc3]
    show (t3.rc s.sel).rest = _
    rw [h3.rest, s2.1]
    exact a4
  · intro d l hd
    show ((s.bundleDone r fx F).dctx s.sel d).cell l = _
    rw [hT, t3.dctx_updDctx_die _ _ _ _ hc3 hd, h3.far d hd, f2 d hd]
    exact a5 d l hd
  · intro l hl
    rw [hcells, c2']
    have : s.myCells.contains l = false := by simpa using hl
    rw [this, a6 l hl]; rfl
  · intro l hl
    obtain ⟨id, hid⟩ := a7 l hl
    refine ⟨id, ?_⟩
    rw [hcells, c2']
    have : s.myCells.contains l = true := by simpa using hl
    rw [this, if_pos rfl, hid]; rfl
  · intro q hq
    rw [hT, t3.rc_updDctx_self _ _ _ hc3]
    show q ∈ (t3.rc s.sel).reqs
    rw [h3.reqs, s2.2]
    exact a8 q hq
  · intro l q hl hq
    obtain ⟨id, h1, h2⟩ := a9 l q hl hq
    refine ⟨id, h1, ?_⟩
    rw [hT, t3.rc_updDctx_self _ _ _ hc3]
    show _ ∈ (t3.rc s.sel).reqs
    rw [h3.reqs, s2.2]
    exact h2
  · intro hn
    obtain ⟨b1, b2, b3⟩ := a10 hn
    refine ⟨?_, ?_, ?_⟩
    · rw [hT, t3.rc_updDctx_self _ _ _ hc3]
      show (t3.rc s.sel).reqs = _
      rw [h3.reqs, s2.2]
      exact b1
    · rw [hT]; exact h3.nextId.trans b2
    · rw [hT]; exact h3.dies.trans b3
  · rw [hT, t3.dctx_updDctx_self _ _ _ hc3]
    refine DieCtx.issued_bare _ _ _ _ _ _ _ ?_
    rw [DieCtx.bare_of_settled h3.near, ← DieCtx.bare_settled (t2.dctx s.sel s.selDie), e2]
    exact a13

end Sys2Proof.Machine
end

