-- ==== Sys2Proof/Tests/Slice0.lean ====
section
/-! SUPPORT. Tests. Words decode as the encodings of the spec say, and as its worked examples spell them; ill-formed
terms are refused; single steps give what the rules give; and for every statement with hypotheses, a state and operands that meet them. -/

open Sys2Proof Sys2Proof.Machine

namespace Sys2Proof.Tests

set_option Elab.async false

/-! ## Decoding -/

/-- Every word of a list decodes to the instruction beside it. -/
noncomputable def reads (nbits : Nat) (l : List (Nat × Instr)) : Bool :=
  l.all (fun p => decide (decodeTableWord nbits p.1 = some p.2))

/-- Every word of a list is refused. -/
noncomputable def refuses (nbits : Nat) (l : List Nat) : Bool := l.all (fun w => (decodeTableWord nbits w).isNone)

/-- Words with every field set apart, from the encodings of R45 to R47, R124. -/
theorem test_decode_scalar_1 : reads 128 [
    (0x20C8340 * 2 ^ 64, .mov 3 8 13),
    (0x40C880B * 2 ^ 64, .movi 3 8 2059),
    (0x60C80000000000030ABCDE1, .movl 3 8 11259361),
    (0x80C80000000000030ABCDE1, .movlh 3 8 11259361),
    (0xA0C80000000000030ABCDE1, .movlt 3 8 11259361),
    (0xC0C880B * 2 ^ 64, .addi 3 8 2059),
    (0x100C8352 * 2 ^ 64, .add 3 8 13 18),
    (0x120C8352 * 2 ^ 64, .sub 3 8 13 18),
    (0x140C8352 * 2 ^ 64, .and 3 8 13 18),
    (0x160C8352 * 2 ^ 64, .or 3 8 13 18),
    (0x180C8352 * 2 ^ 64, .xor 3 8 13 18),
    (0x1A0C8352 * 2 ^ 64, .andn 3 8 13 18),
    (0x1C0C8352 * 2 ^ 64, .shl 3 8 13 18),
    (0x1E0C8352 * 2 ^ 64, .shr 3 8 13 18),
    (0x200C8352 * 2 ^ 64, .sar 3 8 13 18),
    (0x220C8352 * 2 ^ 64, .shli 3 8 13 18),
    (0x240C8352 * 2 ^ 64, .shri 3 8 13 18),
    (0x260C8352 * 2 ^ 64, .sari 3 8 13 18),
    (0x280C8352 * 2 ^ 64, .mul 3 8 13 18),
    (0x2A0C8352 * 2 ^ 64, .mulhu 3 8 13 18),
    (0x2C0C8352 * 2 ^ 64, .mulhs 3 8 13 18),
    (0x2E0C8352 * 2 ^ 64, .divu 3 8 13 18),
    (0x300C8352 * 2 ^ 64, .remu 3 8 13 18),
    (0x320C8352 * 2 ^ 64, .min 3 8 13 18)] = true := by decide +kernel

/-- Words with every field set apart, from the encodings of R45 to R47, R124. -/
theorem test_decode_scalar_2 : reads 128 [
    (0x340C8352 * 2 ^ 64, .max 3 8 13 18),
    (0x360C8352 * 2 ^ 64, .minu 3 8 13 18),
    (0x380C8352 * 2 ^ 64, .maxu 3 8 13 18),
    (0x3A0C8340 * 2 ^ 64, .clz 3 8 13),
    (0x3C0C8340 * 2 ^ 64, .popc 3 8 13),
    (0x3E0C8352 * 2 ^ 64, .sel 3 8 13 18),
    (0x400C8352 * 2 ^ 64, .cmpEq 3 8 13 18),
    (0x420C8352 * 2 ^ 64, .cmpNe 3 8 13 18),
    (0x440C8352 * 2 ^ 64, .cmpLt 3 8 13 18),
    (0x460C8352 * 2 ^ 64, .cmpLe 3 8 13 18),
    (0x480C8352 * 2 ^ 64, .cmpLtu 3 8 13 18),
    (0x4A0C8352 * 2 ^ 64, .cmpLeu 3 8 13 18),
    (0x4C0C8352 * 2 ^ 64, .tstb 3 8 13 18),
    (0x4E0C8340 * 2 ^ 64, .pmov 3 8 13),
    (0x500C8352 * 2 ^ 64, .pand 3 8 13 18),
    (0x520C8352 * 2 ^ 64, .por 3 8 13 18),
    (0x540C8352 * 2 ^ 64, .pxor 3 8 13 18),
    (0x560C8352 * 2 ^ 64, .pandn 3 8 13 18),
    (0x580C8000 * 2 ^ 64, .ptos 3 8),
    (0x5A0C0200 * 2 ^ 64, .stop 3 8),
    (0x5C0E8480 * 2 ^ 64, .lsetup 3 0 5 18),
    (0x600C8352 * 2 ^ 64, .ldB 3 8 13 18),
    (0x620C8352 * 2 ^ 64, .ldH 3 8 13 18),
    (0x640C8352 * 2 ^ 64, .ldW 3 8 13 18)] = true := by decide +kernel

/-- Words with every field set apart, from the encodings of R45 to R47, R124. -/
theorem test_decode_scalar_3 : reads 128 [
    (0x660C8352 * 2 ^ 64, .ldD 3 8 13 18),
    (0x680C8352 * 2 ^ 64, .ldsW 3 8 13 18),
    (0x6A0C8352 * 2 ^ 64, .stB 3 8 13 18),
    (0x6C0C8352 * 2 ^ 64, .stH 3 8 13 18),
    (0x6E0C8352 * 2 ^ 64, .stW 3 8 13 18),
    (0x700C8352 * 2 ^ 64, .stD 3 8 13 18)] = true := by decide +kernel

/-- Words with every field set apart, from the encodings of R44. -/
theorem test_decode_na : reads 128 [
    (0x10100001 * 2 ^ 96, .jmp 1048577),
    (0x20F0000B * 2 ^ 96, .br 3 true 1048587),
    (0x30100001 * 2 ^ 96, .call 1048577),
    (0x40000000 * 2 ^ 96, .ret),
    (0x500E0006 * 2 ^ 96, .lend 3 131078),
    (0x60008001 * 2 ^ 96, .trap 32769),
    (0x70000000 * 2 ^ 96, .rft),
    (0x80000000 * 2 ^ 96, .halt),
    (0x90000003 * 2 ^ 96, .idle 3)] = true := by decide +kernel

/-- Words with every field set apart, from the encodings of R48 to R55, R60. -/
theorem test_decode_x : reads 128 [
    (0x10038006, .bcast 3 32774),
    (0x20000000, .lit),
    (0x38000001, .k28 134217729),
    (0x53800600, .waits 3 32774),
    (0x63A4EE00, .red 3 2 2 2 7 28),
    (0xA0C20000, .feat 3 8)] = true := by decide +kernel

/-- Words with every field set apart, from the encodings of R58. -/
theorem test_decode_csr : reads 128 [
    (0x82004800, .csrr 2049 8),
    (0x86004008, .csrw 2049 8),
    (0x8A00480D, .csrs 2049 8 13),
    (0x8E00480D, .csrc 2049 8 13)] = true := by decide +kernel

/-- Words with every field set apart, from the encodings of R59. -/
theorem test_decode_ctx : reads 128 [
    (0x90000003, .dmset 3),
    (0x91000300, .dmget 3),
    (0x92000003, .cmset 3),
    (0x93000300, .cmget 3),
    (0x94000003, .tmand 3),
    (0x95000300, .tmget 3),
    (0x96000003, .prio 3)] = true := by decide +kernel

/-- Words with every field set apart, from the encodings of R52, R53. -/
theorem test_decode_mem_1 : reads 128 [
    (0x402F5217, .ldgB .acquire .device 13 18 23),
    (0x40AF5217, .ldgH .acquire .device 13 18 23),
    (0x412F5217, .ldgW .acquire .device 13 18 23),
    (0x41AF5217, .ldgD .acquire .device 13 18 23),
    (0x424F5217, .stgB .release .device 13 18 23),
    (0x42CF5217, .stgH .release .device 13 18 23),
    (0x434F5217, .stgW .release .device 13 18 23),
    (0x43CF5217, .stgD .release .device 13 18 23),
    (0x446F52DC, .afadd .acqRel .device 13 18 3 28),
    (0x44EF52DC, .amin .acqRel .device 13 18 3 28),
    (0x456F52DC, .amax .acqRel .device 13 18 3 28),
    (0x45EF52DC, .aand .acqRel .device 13 18 3 28),
    (0x466F52DC, .aor .acqRel .device 13 18 3 28),
    (0x46EF52DC, .axor .acqRel .device 13 18 3 28),
    (0x476F52DC, .aswap .acqRel .device 13 18 3 28),
    (0x47EF48DC, .acas .acqRel .device 13 8 3 28),
    (0x486F5217, .amaxf .acqRel .device 13 18 23),
    (0x48EF5217, .memAmaxrr .acqRel .device 13 18 23),
    (0x496F4000, .memFence .acqRel .device 13),
    (0x49AF52C7, .memLdref .acquire .device 13 18 7 12),
    (0x4A4F52C7, .memStref .release .device 13 18 7 12),
    (0x4AAF5207, .memPin .acquire .device 13 18 7),
    (0x4B4F4002, .memUnpin .release .device 13 2),
    (0x4BAF52CC, .memLdr .acquire .device 13 18 3 12)] = true := by decide +kernel

/-- Words with every field set apart, from the encodings of R52, R53. -/
theorem test_decode_mem_2 : reads 128 [
    (0x4C4F48CC, .memStr .release .device 13 8 3 12),
    (0x4CEF5217, .memJraise .acqRel .device 13 18 23),
    (0x4D6F4012, .memJdone .acqRel .device 13 18)] = true := by decide +kernel

/-- Words with every field set apart, from the encodings of R56. -/
theorem test_decode_eng : reads 128 [
    (0x70E36E00, .engCpy 3 8 true true .device 28),
    (0x72E36E00, .engInstall 3 8 true true .device 28),
    (0x74E36E00, .engReloc 3 8 true true .device 28),
    (0x76E36E00, .mbxsend 3 8 true true .device 28),
    (0x78E36E00, .enq 3 8 true true .device 28),
    (0x7AE36E00, .podsend 3 8 true true .device 28),
    (0x7CE36E00, .ctxstart 3 8 true true .device 28),
    (0x7EE36E00, .ctxsave 3 8 true true .device 28)] = true := by decide +kernel

/-- Words with every field set apart, from the encodings of R69 to R72. -/
theorem test_decode_v_1 : reads 384 [
    (0x10620D000000000 * 2 ^ 320, .vmov 3 8 13),
    (0x20634048D040000 * 2 ^ 320, .vmovi 3 .n32 13 4660),
    (0x306205000000000 * 2 ^ 320, .vbcst 3 8 5),
    (0x406200000000000 * 2 ^ 320, .vlane 3 8),
    (0x506200000000004 * 2 ^ 320, .vcoord 3 8 4),
    (0x8063525C0100000 * 2 ^ 320, .vadd 3 .i16x2 13 18 23),
    (0x9063525C0100000 * 2 ^ 320, .vsub 3 .i16x2 13 18 23),
    (0xA063525C0100000 * 2 ^ 320, .vmullo 3 .i16x2 13 18 23),
    (0xB063525C0100000 * 2 ^ 320, .vmulhi 3 .i16x2 13 18 23),
    (0xC063525C0100000 * 2 ^ 320, .vmin 3 .i16x2 13 18 23),
    (0xD063525C0100000 * 2 ^ 320, .vmax 3 .i16x2 13 18 23),
    (0xE063525C0100000 * 2 ^ 320, .vabsd 3 .i16x2 13 18 23),
    (0xF063525C0100000 * 2 ^ 320, .vaddsat 3 .i16x2 13 18 23),
    (0x100620D480000000 * 2 ^ 320, .vand 3 8 13 18),
    (0x110620D480000000 * 2 ^ 320, .vor 3 8 13 18),
    (0x120620D480000000 * 2 ^ 320, .vxor 3 8 13 18),
    (0x130620D480000000 * 2 ^ 320, .vandn 3 8 13 18),
    (0x14063525C0100000 * 2 ^ 320, .vshl 3 .i16x2 13 18 23),
    (0x15063525C0100000 * 2 ^ 320, .vshr 3 .i16x2 13 18 23),
    (0x16063525C0100000 * 2 ^ 320, .vsar 3 .i16x2 13 18 23),
    (0x1706352000100009 * 2 ^ 320, .vshli 3 .i16x2 13 18 9),
    (0x1806352000100000 * 2 ^ 320, .vpopc 3 .i16x2 13 18),
    (0x1906352000100000 * 2 ^ 320, .vclz 3 .i16x2 13 18),
    (0x1C0620D480017000 * 2 ^ 320, .vsel 3 8 13 18 23)] = true := by decide +kernel

/-- Words with every field set apart, from the encodings of R69 to R72. -/
theorem test_decode_v_2 : reads 384 [
    (0x1D0620D480000000 * 2 ^ 320, .vshf 3 8 13 18),
    (0x1E0620D000000006 * 2 ^ 320, .vrot 3 8 13 6),
    (0x200600D480117000 * 2 ^ 320, .vcmpEq 3 .i16x2 13 18 23),
    (0x210600D480117000 * 2 ^ 320, .vcmpNe 3 .i16x2 13 18 23),
    (0x220600D480117000 * 2 ^ 320, .vcmpLt 3 .i16x2 13 18 23),
    (0x230600D480117000 * 2 ^ 320, .vcmpLe 3 .i16x2 13 18 23),
    (0x240600D480117000 * 2 ^ 320, .vcmpLtu 3 .i16x2 13 18 23),
    (0x250600D480117000 * 2 ^ 320, .vcmpLeu 3 .i16x2 13 18 23),
    (0x2606008340092000 * 2 ^ 320, .vfcmpEq 3 8 13 18),
    (0x2706008340092000 * 2 ^ 320, .vfcmpLt 3 8 13 18),
    (0x2806008340092000 * 2 ^ 320, .vfcmpLe 3 8 13 18),
    (0x2906008340092000 * 2 ^ 320, .vfcmpUn 3 8 13 18),
    (0x30063525C0480000 * 2 ^ 320, .vfadd 3 .rup 13 18 23),
    (0x31063525C0480000 * 2 ^ 320, .vfsub 3 .rup 13 18 23),
    (0x32063525C0480000 * 2 ^ 320, .vfmul 3 .rup 13 18 23),
    (0x33063525DC480000 * 2 ^ 320, .vfma 3 .rup 13 18 23 28),
    (0x34063525DC480000 * 2 ^ 320, .vfms 3 .rup 13 18 23 28),
    (0x35063525DC480000 * 2 ^ 320, .vfnma 3 .rup 13 18 23 28),
    (0x360620D480080000 * 2 ^ 320, .vfmin 3 8 13 18),
    (0x370620D480080000 * 2 ^ 320, .vfmax 3 8 13 18),
    (0x380620D000080000 * 2 ^ 320, .vfabs 3 8 13),
    (0x390620D000080000 * 2 ^ 320, .vfneg 3 8 13),
    (0x3A063525C0480000 * 2 ^ 320, .vfdiv 3 .rup 13 18 23),
    (0x3B06352000480000 * 2 ^ 320, .vfsqrt 3 .rup 13 18)] = true := by decide +kernel

/-- Words with every field set apart, from the encodings of R69 to R72. -/
theorem test_decode_v_3 : reads 384 [
    (0x3C06352000480000 * 2 ^ 320, .vfrsqrt 3 .rup 13 18),
    (0x3D06352000480000 * 2 ^ 320, .vfexp2 3 .rup 13 18),
    (0x3E06352000480000 * 2 ^ 320, .vflog2 3 .rup 13 18),
    (0x3F0620D000080000 * 2 ^ 320, .vfclass 3 8 13),
    (0x4006152000400000 * 2 ^ 320, .vrsumF32 3 .rup 5 18),
    (0x410610D000000000 * 2 ^ 320, .vrmaxF32 3 4 13),
    (0x420610D000000000 * 2 ^ 320, .vramax 3 4 13),
    (0x4306152000040000 * 2 ^ 320, .vrsumI 3 .n32 5 18),
    (0x4406152000040000 * 2 ^ 320, .vrmaxI 3 .n32 5 18),
    (0x4806105000000000 * 2 ^ 320, .xmov 3 4 5),
    (0x4906120002C00000 * 2 ^ 320, .xmovi 3 4 524299),
    (0x4A06105180000000 * 2 ^ 320, .xadd 3 4 5 6),
    (0x4B06105180000000 * 2 ^ 320, .xsub 3 4 5 6),
    (0x4C06105180000000 * 2 ^ 320, .xmul 3 4 5 6),
    (0x4D06105180000000 * 2 ^ 320, .xand 3 4 5 6),
    (0x4E06105180000000 * 2 ^ 320, .cellXor 3 4 5 6),
    (0x4F06105180000000 * 2 ^ 320, .xshl 3 4 5 6),
    (0x5006105180000000 * 2 ^ 320, .xshr 3 4 5 6),
    (0x5106005180817000 * 2 ^ 320, .xcmp 3 .ltu 5 6 23),
    (0x520610D000000006 * 2 ^ 320, .xfromv 3 4 13 6),
    (0x530610D000000000 * 2 ^ 320, .xtok 3 4 13)] = true := by decide +kernel

/-- Words with every field set apart, from the encodings of R71, R182. -/
theorem test_decode_conv : reads 384 [
    (0x6006352000600000 * 2 ^ 256, .vcvtF32I32 3 .rdn 13 18),
    (0x6106352000600000 * 2 ^ 256, .vcvtI32F32 3 .rdn 13 18),
    (0x6206352000600000 * 2 ^ 256, .vcvtBf16F32 3 .rdn 13 18),
    (0x630620D000000000 * 2 ^ 256, .vcvtF32Bf16 3 8 13),
    (0x640620D000000000 * 2 ^ 256, .vsplit3 3 8 13),
    (0x6506352000000010 * 2 ^ 256, .vamaxb 3 true 13 18),
    (0x66063525C0400000 * 2 ^ 256, .vscale 3 .rup 13 18 23),
    (0x67065DC000800013 * 2 ^ 256, .qbfp 3 .sr true 3 23 28),
    (0x6806497700000013 * 2 ^ 256, .dqbfp 3 true 3 18 23 28),
    (0x6906497000600001 * 2 ^ 256, .vcvtI8F32 3 .rdn 1 18 23),
    (0x6A06200000000000 * 2 ^ 256, .vrng 3 8),
    (0x6B06352000000000 * 2 ^ 256, .vcvtF32I8 3 0 13 18)] = true := by decide +kernel

/-- Words with every field set apart, from the encodings of R73, R74. -/
theorem test_decode_mx : reads 384 [
    (0x10610A4F801E000 * 2 ^ 192, .mma 3 8 1 18 7 12 1 true true true),
    (0x20610A4F801E000 * 2 ^ 192, .mmaNest 3 8 1 18 7 12 1 true true true),
    (0x30610A4F801E500 * 2 ^ 192, .mmaGrp 3 8 1 18 7 12 1 true true true 5),
    (0x40610A400170000 * 2 ^ 192, .accz 3 8 1 18 23),
    (0x506106900000000 * 2 ^ 192, .accrd 3 8 13 2),
    (0x606106900000000 * 2 ^ 192, .accwr 3 8 13 2),
    (0x70610A400FC0000 * 2 ^ 192, .accout 3 8 1 18 7 28),
    (0x800000000000000 * 2 ^ 192, .wswap),
    (0x906200000000000 * 2 ^ 192, .mxprog 3 4)] = true := by decide +kernel

/-- Words with every field set apart, from the encodings of R75, R76. -/
theorem test_decode_ls_1 : reads 384 [
    (0x10734000AE00000 * 2 ^ 128, .ldv 3 true 13 2 23),
    (0x206008036400000 * 2 ^ 128, .stv 3 8 13 18),
    (0x307346002E0081A * 2 ^ 128, .ldvn 3 true 13 6 23 2074),
    (0x406205002400815 * 2 ^ 128, .stvn 3 8 5 18 2069),
    (0x5073521C3800000 * 2 ^ 128, .gather 3 true 13 18 7 28),
    (0x60620D182E00000 * 2 ^ 128, .scatter 3 8 13 6 23),
    (0x707146002E0081F * 2 ^ 128, .ldx 3 true 5 6 23 0 2079),
    (0x80610500243081A * 2 ^ 128, .stx 3 4 5 18 3 2074),
    (0x9061050024C081F * 2 ^ 128, .ldxAcq 3 4 5 18 .device 0 2079),
    (0xA061050024C081F * 2 ^ 128, .stxRel 3 4 5 18 .device 0 2079),
    (0xB060000010CC000 * 2 ^ 128, .lsFence 3 8 .device .acqRel),
    (0x10061050024F0000 * 2 ^ 128, .xafadd 3 4 5 18 .device 3),
    (0x11061050024F0000 * 2 ^ 128, .xamax 3 4 5 18 .device 3),
    (0x1206105182EF0000 * 2 ^ 128, .xacas 3 4 5 6 23 .device 3),
    (0x13061050024F0000 * 2 ^ 128, .xaswap 3 4 5 18 .device 3),
    (0x140620D182EE0000 * 2 ^ 128, .vafadd 3 8 13 6 23 .device),
    (0x150620D182EE0000 * 2 ^ 128, .vamaxf 3 8 13 6 23 .device),
    (0x16061050024E0000 * 2 ^ 128, .lsAmaxrr 3 4 5 18 .device),
    (0x2006010034000000 * 2 ^ 128, .stset 3 16 13),
    (0x2106400034000000 * 2 ^ 128, .stget 3 16 13),
    (0x2206000021A00000 * 2 ^ 128, .stgo 3 8 13),
    (0x2306004036400000 * 2 ^ 128, .stsave 3 4 13 18),
    (0x2406004036400000 * 2 ^ 128, .stload 3 4 13 18),
    (0x280600000100080B * 2 ^ 128, .resize 3 8 2059)] = true := by decide +kernel

/-- Words with every field set apart, from the encodings of R75, R76. -/
theorem test_decode_ls_2 : reads 384 [
    (0x2906004001A00810 * 2 ^ 128, .sete 3 4 13 2064),
    (0x2A06004001A00810 * 2 ^ 128, .setf 3 4 13 2064),
    (0x2B06000001000000 * 2 ^ 128, .nsflush 3 8),
    (0x30071461C3810000 * 2 ^ 128, .lsLdr 3 true 5 6 7 28 1),
    (0x3106105182E00000 * 2 ^ 128, .lsStr 3 4 5 6 23 0),
    (0x32073461C3800000 * 2 ^ 128, .ldrv 3 true 13 6 7 28),
    (0x3306205182E00000 * 2 ^ 128, .strv 3 8 5 6 23),
    (0x34071461C3800000 * 2 ^ 128, .lsLdref 3 true 5 6 7 28),
    (0x3506105182E00000 * 2 ^ 128, .lsStref 3 4 5 6 23),
    (0x3606105002400000 * 2 ^ 128, .lsPin 3 4 5 18),
    (0x3706004001A00000 * 2 ^ 128, .lsUnpin 3 4 13),
    (0x3806105000000000 * 2 ^ 128, .refmov 3 4 5),
    (0x3906105000000000 * 2 ^ 128, .reftag 3 4 5),
    (0x4006100001A00006 * 2 ^ 128, .take 3 4 13 6),
    (0x41060041424C0000 * 2 ^ 128, .lsJraise 3 4 5 18 .device),
    (0x4206004001AC0000 * 2 ^ 128, .lsJdone 3 4 13 .device)] = true := by decide +kernel

/-- Words with every field set apart, from the encodings of R77. -/
theorem test_decode_xf : reads 384 [
    (0x10620D0122E0000 * 2 ^ 64, .perm 3 8 13 18 23),
    (0x2060041522E0000 * 2 ^ 64, .xmit 3 4 5 18 23),
    (0x30600400D240000 * 2 ^ 64, .recv 3 4 13 18),
    (0x40620D0122E0000 * 2 ^ 64, .cshuf 3 8 13 18 23),
    (0x5060000001AF840 * 2 ^ 64, .xfCpy 3 0 13 .device true true 33),
    (0x60620D000AEC840 * 2 ^ 64, .binscat 3 8 13 2 23 .device 33),
    (0x7060000001AF840 * 2 ^ 64, .xfReloc 3 0 13 .device true true 33),
    (0x8060000001AF840 * 2 ^ 64, .xfInstall 3 0 13 .device true true 33),
    (0xA00003000000000 * 2 ^ 64, .rbseed 3)] = true := by decide +kernel

/-- Words with every field set apart, from the encodings of R78. -/
theorem test_decode_ct : reads 384 [
    (0x1001C0030000000, .wait 3 32774),
    (0x200003000000806, .waitf 3 2054),
    (0x300000000000801, .dly 2049),
    (0x400000000000000, .mark),
    (0x50640000000080B, .tokadd 3 8 2059),
    (0x606405000000000, .tokrd 3 8 5),
    (0x706086000000000, .setc 3 0 1 6),
    (0x800000000080000, .bar .field),
    (0x900000000000000, .phaseX),
    (0xA00000000000000, .phaseC),
    (0xB00000000000000, .abar),
    (0xC06000000000806, .trapc 3 2054),
    (0x100620D480000000, .kand 3 8 13 18),
    (0x110620D480000000, .kor 3 8 13 18),
    (0x120620D480000000, .kxor 3 8 13 18),
    (0x130620D480000000, .kandn 3 8 13 18),
    (0x140620D000000000, .knot 3 8 13),
    (0x150620D000000000, .kmov 3 8 13),
    (0x1606200000000352, .kset 3 8 13 18),
    (0x1706205000000000, .kfromx 3 8 5),
    (0x180610D000000000, .ktox 3 4 13),
    (0x190610D000000000, .kpopc 3 4 13)] = true := by decide +kernel
/-- The sequencer words that the spec writes out: R47, R44, R128, R129, R133 (FEAT), R333 (RED), R57 (MBXSEND), R255 (LDG.D.ACQ), R300 (LDREF.ACQ),
R409 (JRAISE.REL), R401 (WAITS), R132 and the programs' words. -/
theorem test_spec_words : reads 128 [
    (0x1000_3042 * 2 ^ 64, .add 0 3 1 2), (0x6608_4241 * 2 ^ 64, .ldD 2 4 9 1), (0x215F_FFFA * 2 ^ 96, .br 5 false 0x1FFFFA), (0x1002_0011, .bcast 2 0x11),
    (0x5C01_1100 * 2 ^ 64, .lsetup 0 1 2 4), (0x5007_FFFE * 2 ^ 96, .lend 1 0x3FFFE), (0xA1C0_4000, .feat 7 1), (0x4C00_31C1 * 2 ^ 64, .tstb 0 3 7 1),
    (0x20E0_0028 * 2 ^ 96, .br 3 true 40), (0x63A4_C600, .red 3 2 2 2 6 12), (0x6382_C600, .red 3 2 0 1 6 12), (0x7695_8480, .mbxsend 2 5 false true .system 9),
    (0x41A8_C40A, .ldgD .acquire .field 3 4 10), (0x49AC_8752, .memLdref .acquire .device 2 7 2 5), (0x4CCD_0314, .memJraise .release .device 4 3 20),
    (0x5600_0100, .waits 6 1), (0x9000_000A, .dmset 10), (0x9200_000C, .cmset 12), (0x4308_8A15, .stgW .relaxed .field 2 10 21),
    (0x0201_5640 * 2 ^ 64, .mov 0 21 25), (0x5C00_05C0 * 2 ^ 64, .lsetup 0 0 0 23), (0x1001_5556 * 2 ^ 64, .add 0 21 21 22), (0x7000_0000 * 2 ^ 96, .rft),
    (0x7002_B202 * 2 ^ 64, .stD 0 43 8 2), (0x0C00_8018 * 2 ^ 64, .addi 0 8 24)] = true := by decide +kernel

/-- The slots of bundles that the spec writes out: R153, R159, R164 (KSET), R182 (VCVT.BF16.F32), R187 (QBFP), R196, R207, R218, R256, R258, R259, R302,
R316 (FENCE), R336, R340, R346 (CPY), R401 to R404, R407 (TAKE), R409, R422, R432 and the programs' slots. -/
theorem test_spec_slots : reads 384 [
    (0x3000_1410_8008_0000 * 2 ^ 320, .vfadd 0 .rne 5 1 2), (0x4004_0CA0_0000_0000 * 2 ^ 320, .vrsumF32 2 .rne 3 10), (0x1688_1800_0000_03C8, .kset 0x44 6 15 8),
    (0x6200_0C20_0080_0000 * 2 ^ 256, .vcvtBf16F32 0 .sr 3 2), (0x0A00_0050_0000_0000 * 2 ^ 64, .rbseed 5), (0x2000_0080_0400_0000 * 2 ^ 128, .stset 0 8 1),
    (0x0900_2000_0000_0000 * 2 ^ 192, .mxprog 0 4), (0x0100_0890_2406_8000 * 2 ^ 192, .mma 0 4 1 8 1 2 6 true false false), (0x0500_0849_8000_0000 * 2 ^ 192, .accrd 0 4 9 3),
    (0x0800_0000_0000_0000 * 2 ^ 192, .wswap), (0x050A_3041_8040_0000 * 2 ^ 128, .gather 5 false 12 4 6 2), (0x0700_0C70_0122_0010 * 2 ^ 128, .ldx 0 false 3 7 9 2 16),
    (0x3000_1432_40E2_0000 * 2 ^ 128, .lsLdr 0 false 5 3 9 7 2), (0x0B00_0000_0004_8000 * 2 ^ 128, .lsFence 0 0 .die .release), (0x0800_0000_0008_0000, .bar .field),
    (0x0B00_0000_0000_0000, .abar), (0x0100_2840_0506_0000 * 2 ^ 64, .perm 0 10 4 5 3), (0x0500_0000_0048_F080 * 2 ^ 64, .xfCpy 0 1 4 .device true true 2),
    (0x0500_0000_0044_F000 * 2 ^ 64, .xfCpy 0 1 2 .device true true 0), (0x0100_A000_1800_0000, .wait 20 3), (0x0200_0050_0000_0002, .waitf 5 2), (0x0300_0000_0000_0004, .dly 4),
    (0x0500_1800_0000_0005, .tokadd 0 3 5), (0x0600_1820_0000_0000, .tokrd 0 3 2), (0x4000_1000_0120_0002 * 2 ^ 128, .take 0 4 9 2),
    (0x4100_0061_C02C_0000 * 2 ^ 128, .lsJraise 0 6 7 1 .device), (0x0400_0000_0000_0000, .mark), (0x0C00_0000_0000_02A3, .trapc 0 0x2A3), (0x0700_5070_0000_0000, .setc 0 2 2 7)]
    = true := by decide +kernel

/-- More slots of the spec's programs. -/
theorem test_spec_program_slots : reads 384 [
    (0x4202_0C10_0000_0000 * 2 ^ 320, .vramax 1 3 1), (0x0700_2030_0000_0000, .setc 0 1 0 3), (0x0400_0084_0004_0000 * 2 ^ 192, .accz 0 0 1 2 4),
    (0x0200_0085_5604_0000 * 2 ^ 192, .mmaNest 0 0 1 2 10 11 4 false false false), (0x0700_0084_0184_0000 * 2 ^ 192, .accout 0 0 1 2 12 4),
    (0x6400_2870_0000_0000 * 2 ^ 256, .vsplit3 0 10 7), (0x0600_0C20_4020_0000 * 2 ^ 128, .scatter 0 3 2 1 1), (0x0A00_1020_002E_0000 * 2 ^ 128, .stxRel 0 4 2 1 .device 2 0),
    (0x1000_1020_002E_0000 * 2 ^ 128, .xafadd 0 4 2 1 .device 2), (0x0800_1420_0022_0000 * 2 ^ 128, .stx 0 5 2 1 2 0), (0x0900_1820_002E_0000 * 2 ^ 128, .ldxAcq 0 6 2 1 .device 2 0),
    (0x3900_2030_0000_0000 * 2 ^ 128, .reftag 0 8 3), (0x0700_0000_0048_C240 * 2 ^ 64, .xfReloc 0 1 4 .device false false 9), (0x3600_5430_00A0_0000 * 2 ^ 128, .lsPin 0 21 3 5),
    (0x3700_0030_00A0_0000 * 2 ^ 128, .lsUnpin 0 3 5), (0x0100_0800_1000_0000, .wait 1 2)] = true := by decide +kernel

/-- Reserved codes and fields that must be 0 are refused, whole (R4, R42, R44, R47, R48, R51, R52, R61, R65, R70, R76). -/
theorem test_refused_words : refuses 128 [
    0xA000_0000 * 2 ^ 96, 0x0E00_0000 * 2 ^ 64, 0x5E00_0000 * 2 ^ 64, 0x0200_0001 * 2 ^ 64, 0x0000_0001 * 2 ^ 64, 0xB000_0000, 0x5400_0000 + 2 ^ 7, 0x9000_0040, 0x41A0_0000 + 7 * 2 ^ 18,
    0x5010_0000 * 2 ^ 96 + 2 ^ 119, 0x0600_0000 * 2 ^ 64, 0x6300_0000 + 3 * 2 ^ 20] = true := by decide +kernel

theorem test_refused_bundles : refuses 384 [
    0xFF00_0000_0000_0000 * 2 ^ 320, 0x1000_0000_000C_0000 * 2 ^ 320, 0x0700_0000_0000_0001, 0x0402_0000_0000_0000, 0x0800_0000_000C_0000, 0x0100_0000_0000_0001 * 2 ^ 64,
    0x3000_0000_0008_0000 * 2 ^ 192, 1] = true := by decide +kernel


/-! ## Well-formedness -/

/-- No term of a list is well formed. -/
def illFormed (l : List Instr) : Bool := l.all (fun i => !i.wf)

/-- One ill-formed term for each check of a field: too wide for its bits, at or above a bound, outside a range, no multiple, a type or a
rounding mode that the operation does not take, an order or a scope that it does not take, and the checks across fields. -/
theorem test_wf_smoke : illFormed [
    .mov 128 0 0, .add 0 64 1 2, .movl 0 1 0x10000000, .afadd .relaxed .die 0 0 1 0, .acas .relaxed .device 0 5 3 2, .stset 0 12 1, .vadd 0 .f32 1 2 3,
    .vshl 0 .f32 1 2 3, .vrsumI 0 .i16x2 1 2, .vmovi 0 .i16x2 1 0, .vfdiv 0 .sr 1 2 3, .qbfp 0 .rtz false 4 8 2, .ldgB .release .device 1 2 3,
    .stgB .acquire .device 1 2 3, .memFence .relaxed .device 1, .bar .device, .red 1 1 2 0 3 4, .vshli 0 .i16x2 1 2 16] = true := by decide +kernel

/-- The same with an operand that fits: each is well formed. -/
theorem test_wf_accepts : [
    Instr.mov 127 0 0, .add 0 63 1 2, .movl 0 1 0xFFFFFFF, .afadd .relaxed .die 0 0 2 0, .acas .relaxed .device 0 4 3 2, .stset 0 16 1, .vadd 0 .i32 1 2 3,
    .vrsumI 0 .i32 1 2, .vmovi 0 .f32 1 0, .vfdiv 0 .rne 1 2 3, .qbfp 0 .rne false 4 8 2, .ldgB .acquire .device 1 2 3,
    .stgB .release .device 1 2 3, .memFence .acqRel .device 1, .bar .field, .red 1 2 2 0 3 4, .vshli 0 .i16x2 1 2 15].all Instr.wf = true := by
  decide +kernel

/-! ## Single steps -/

/-- Record 0 resident on die 0 with cell 0, privileged, every window whole. -/
def S0 : State := State.reset.withContext

/-- What a step leaves, where it gives a next state. -/
def leads (o : Host.Outcome State Fault Refusal) (p : State → Bool) : Bool :=
  match o with
  | .next t => p t
  | _ => false

/-- s(n) of context 0 set. -/
def atS (s : State) (n v : Nat) : State := s.updSeq 0 (fun q => q.wS n (BitVec.ofNat 64 v))
/-- p(n) of context 0 set. -/
def atP (s : State) (n : Nat) : State := s.updSeq 0 (fun q => q.wP n true)
/-- x(n) of cell 0 set. -/
def atX (s : State) (n v : Nat) : State := s.updCore 0 0 0 (fun q => q.wX n (BitVec.ofNat 64 v))
/-- Lanes 0, 1, … of v(n) of cell 0 set. -/
def atV (s : State) (n : Nat) (vs : List Nat) : State :=
  s.updCore 0 0 0 (fun q => vs.zipIdx.foldl (fun q p => q.wV n p.2 (BitVec.ofNat 32 p.1)) q)

/-- The registers of context 0 that stand k positions later. -/
def later (t : State) (k : Nat) : SeqCore := Nat.repeat SeqCore.endPos k (t.rc 0).core
/-- The same for cell 0. -/
def cellLater (t : State) (k : Nat) : CellCore := Nat.repeat CellCore.endPos k (t.cell 0 0 0).core

/-- Sums wrap (R118); SAR shifts in the sign and takes the amount mod 64 (R119); DIVU by 0 gives all ones and REMU the dividend (R120), 24 positions on (R83). -/
theorem test_arithmetic :
    leads (exec (.add 0 1 2 3) (atS (atS S0 2 (2 ^ 64 - 1)) 3 5)) (fun t => t.core.rS 1 == 4 && t.core.pc == 1) = true
    ∧ leads (exec (.sar 0 1 2 3) (atS (atS S0 2 (2 ^ 64 - 8)) 3 65)) (fun t => t.core.rS 1 == BitVec.ofNat 64 (2 ^ 64 - 4)) = true
    ∧ leads (exec (.divu 0 1 2 3) (atS S0 2 7)) (fun t => (later t 22).rS 1 == 0 && (later t 23).rS 1 == BitVec.allOnes 64) = true
    ∧ leads (exec (.remu 0 2 2 3) (atS S0 2 7)) (fun t => (later t 23).rS 2 == 7) = true := by decide +kernel

/-- MIN compares signed and MINU unsigned (R119); MULHU and MULHS differ by the signs (R120). -/
theorem test_signs :
    leads (exec (.min 0 1 2 3) (atS (atS S0 2 (2 ^ 64 - 1)) 3 5)) (fun t => t.core.rS 1 == BitVec.allOnes 64) = true
    ∧ leads (exec (.minu 0 1 2 3) (atS (atS S0 2 (2 ^ 64 - 1)) 3 5)) (fun t => t.core.rS 1 == 5) = true
    ∧ leads (exec (.mulhu 0 1 2 3) (atS (atS S0 2 (2 ^ 64 - 1)) 3 5)) (fun t => (later t 3).rS 1 == 4) = true
    ∧ leads (exec (.mulhs 0 1 2 3) (atS (atS S0 2 (2 ^ 64 - 1)) 3 5)) (fun t => (later t 3).rS 1 == BitVec.allOnes 64) = true := by decide +kernel

/-- A guard that is false leaves the register, and the PC moves on (R46); SEL takes the other source (R121). -/
theorem test_guards :
    leads (exec (.add 5 1 2 3) (atS S0 2 9)) (fun t => t.core.rS 1 == 0 && t.core.pc == 1) = true
    ∧ leads (exec (.add 69 1 2 3) (atS S0 2 9)) (fun t => t.core.rS 1 == 9) = true
    ∧ leads (exec (.sel 5 1 2 3) (atS (atS S0 2 9) 3 4)) (fun t => t.core.rS 1 == 4) = true := by decide +kernel

/-- The loop of R130's example, S = 3 and N = 4: its set-up, its first pass and its last (R128, R129). -/
theorem test_loop_example :
    leads (exec (.lsetup 0 1 2 4) (atS S0 4 4)) (fun t => t.core.loop 1 == { count := 4, pass := 0, head := 1, stages := 2 }
      && t.core.rP 56 && !t.core.rP 57 && t.core.stageOwn == 0b101) = true
    ∧ leads (exec (.lend 1 0x3FFFE) ((atP S0 56).updSeq 0 (fun q => { q with l1 := { count := 4, pass := 0, head := 101, stages := 2 }, stageOwn := 5, pc := 103 })))
        (fun t => (t.core.loop 1).count == 3 && t.core.rP 56 && t.core.rP 57 && !t.core.rP 58 && t.core.pc == 101) = true
    ∧ leads (exec (.lend 1 0x3FFFE) ((atP S0 58).updSeq 0 (fun q => { q with l1 := { count := 0, pass := 5, head := 101, stages := 2 }, stageOwn := 5, pc := 103 })))
        (fun t => (t.core.loop 1).pass == 6 && !t.core.rP 56 && !t.core.rP 57 && !t.core.rP 58 && t.core.rP 59 && t.core.pc == 104) = true := by
  decide +kernel

/-- CALL pushes the next address and TOKMASK, RET pops both (R126); a RET with an empty stack is ILLEGAL_WORD, detail 2, slot NA. -/
theorem test_call_and_return :
    leads (exec (.call 8) S0) (fun t => t.core.pc == 8 && t.core.stack == [{ rpc := 1, rmask := BitVec.allOnes 48 }]) = true
    ∧ leads (exec .ret (S0.updSeq 0 (fun q => { q with stack := [{ rpc := 77, rmask := 0xFF }] })))
        (fun t => t.core.pc == 77 && t.core.tokmask == 0xFF && t.core.stack == []) = true
    ∧ leads (exec .ret S0) (fun t => t.me.xcause == 0xFF030201 && t.me.hact) = true := by decide +kernel

/-- TRAP 7 enters the handler: cause 0x3F in slot NA, XPC the next word, XINFO the code (R127, R429). RFT goes back (R430). -/
theorem test_trap_and_return :
    leads (exec (.trap 7) (S0.updRec 0 (fun r => { r with xvec := 0x40, core := { r.core with pc := 5 } })))
      (fun t => t.core.pc == 0x40 && t.me.xpc == 6 && t.me.xcause == 0xFF03003F && t.me.xinfo == 7 && t.me.hact) = true
    ∧ leads (exec .rft (S0.updRec 0 (fun r => { r with hact := true, xpc := 6 }))) (fun t => t.core.pc == 6 && !t.me.hact) = true := by decide +kernel

/-- The WINDOW register of R117's example, and CSRS of XSCRATCH (0x025): the old value and the OR (R131). -/
theorem test_csrs :
    leads (exec (.csrr 4 9) (S0.updRec 0 (fun r => { r with win := ⟨6, 4, 4, 4, 6, 12, 6, 3⟩ }))) (fun t => t.core.rS 9 == 0x03060C0604040406) = true
    ∧ leads (exec (.csrs 0x25 9 2) (atS (S0.updRec 0 (fun r => { r with xscratch := 0xF0 })) 2 0x0F)) (fun t => t.core.rS 9 == 0xF0 && t.me.xscratch == 0xFF) = true := by
  decide +kernel

/-- The local data store is little-endian (R124, R3); a misaligned address is PROTECT, detail 0, with the address in XINFO. -/
theorem test_local_store :
    leads (exec (.stD 0 3 2 1) (atS (atS S0 2 0x100) 3 0x0807060504030201))
      (fun t => memGet t.mem (ldsKey 0 + 0x108) == 1 && memGet t.mem (ldsKey 0 + 0x10F) == 8
        && leads (exec (.ldH 0 4 2 5) t) (fun u => (later u 2).rS 4 == 0x0403)) = true
    ∧ leads (exec (.ldW 0 3 2 0) (atS S0 2 0x102)) (fun t => t.me.xcause == 0xFF000011 && t.me.xinfo == 0x102) = true
    ∧ leads (exec (.ldW 0 3 2 0) (atS S0 2 0x20000)) (fun t => t.me.xcause == 0xFF000411 && t.me.xinfo == 0x20000) = true := by decide +kernel

/-- WAITS on a count at its threshold goes on and lowers it; below it the context waits (R393, R401). -/
theorem test_waits :
    leads (exec (.waits 6 3) (S0.updSeq 0 (fun q => q.wTs 6 3))) (fun t => t.core.rTs 6 == 0 && t.core.pc == 1) = true
    ∧ leads (exec (.waits 6 3) (S0.updSeq 0 (fun q => q.wTs 6 2))) (fun t => t.core.rTs 6 == 2 && t.me.life == .waiting .waits) = true := by decide +kernel

/-- The lane of R152's example: VADD.I8x4 wraps in each element, VADDSAT.I8x4 clamps. -/
theorem test_packed_add :
    let s := atV (atV S0 2 [0x7F8010F0]) 3 [0x01807F01]
    leads (exec (.vadd 0 .i8x4 1 2 3) s) (fun t => (cellLater t 0).rV 1 0 == 0 && (cellLater t 1).rV 1 0 == 0x80008FF1) = true
    ∧ leads (exec (.vaddsat 0 .i8x4 1 2 3) s) (fun t => (cellLater t 1).rV 1 0 == 0x7F807FF1 && (cellLater t 1).cst == 0) = true := by decide +kernel

/-- R161's example: cells A and B sum the same four values in other lanes, k2 selecting lanes 0 to 3. -/
theorem test_tree_sum :
    let s := S0.updCore 0 0 0 (fun q => { q with k := [(2, 0xF)] })
    leads (exec (.vrsumF32 2 .rne 3 10) (atV s 10 [0x3F800000, 0x33800000, 0x33800000, 0])) (fun t => (cellLater t 9).rX 3 == 0x3F800000 && (cellLater t 9).cst == 1 <<< 4) = true
    ∧ leads (exec (.vrsumF32 2 .rne 3 10) (atV s 10 [0x33800000, 0x33800000, 0x3F800000, 0])) (fun t => (cellLater t 9).rX 3 == 0x3F800001 && (cellLater t 9).cst == 0) = true := by
  decide +kernel

/-- The example after R181: entry 0 of seed 0 rounds lane 0 down and lane 1 up. -/
theorem test_stochastic_rounding :
    leads (exec (.vcvtBf16F32 0 .sr 3 2) (atV S0 2 [0x3F808001, 0x3F808001])) (fun t => (cellLater t 2).rV 3 0 == 0x3F800000 && (cellLater t 2).rV 3 1 == 0x3F810000) = true := by
  decide +kernel

/-- R187's example of VSPLIT3: the three terms, with no flag. -/
theorem test_split :
    leads (exec (.vsplit3 0 10 7) (atV S0 7 [0x3F800A01])) (fun t => let q := cellLater t 3
      q.rV 10 0 == 0x3F800000 && q.rV 11 0 == 0x39A00000 && q.rV 12 0 == 0x34000000 && q.cst == 0) = true := by decide +kernel

/-- The example of R192: QBFP.RNE with 4-bit mantissas and blocks of 16. -/
theorem test_quantise :
    leads (exec (.qbfp 0 .rne false 4 8 2) (atV S0 2 [0x40F80000, 0x40B00000, 0x40200000, 0xC0500000, 0x3F000000, 0x3FC00000, 0xC0F80000])) (fun t =>
      let q := cellLater t 5
      (List.range 8).map (q.rV 8) == [7, 6, 2, 0xFFFFFFFD, 0, 2, 0xFFFFFFF8, 0] && q.rV 9 0 == 0x7F && q.rV 9 15 == 0x7F) = true := by decide +kernel

/-- KSET of R164's example, with k4 over lanes 0 to 9: those keep their bits of k6, lanes 10 to 15 read 1, and the lanes above 0. -/
theorem test_kset :
    leads (exec (.kset 0x44 6 15 8) (S0.updCore 0 0 0 (fun q => { q with k := [(4, 0x3FF), (6, 0xFFFFFF)] }))) (fun t => (t.cell 0 0 0).core.rK 6 == 0xFFFF) = true := by
  decide +kernel

/-- SETC over cells 0 and 1: the sum of their x7 (R433). -/
theorem test_setc :
    let s := (S0.updRec 0 (fun r => { r with group := ⟨0, 0, 2, 1⟩, core := { r.core with cellmask := 3 } }))
    leads (exec (.setc 0 2 2 7) ((atX s 7 5).updCore 0 0 1 (fun q => q.wX 7 9))) (fun t => mapGet 0 t.myDie.dc 2 == 14) = true := by decide +kernel

/-- The reduction of the example after R335: dies 2 and 3 send 5 and 7, and s12 receives their sum (SUM.N64). -/
theorem test_reduction_value :
    ({ Rec.reset with field := ⟨2, 0, 2, 1⟩ } : Rec).redValue 2 0 [(2, 5), (3, 7)] = 12 := by decide +kernel

/-- TAKE of the example after R407: die 0 has given out its tickets, die 1 gives 3. -/
theorem test_take :
    let s := S0.updRec 0 (fun r => { r with field := ⟨0, 0, 4, 1⟩, core := { r.core with diemask := 0xF } })
    let s := s.updDctx 0 0 (fun x => { x with tc := [(2, 8 + 8 * 2 ^ 32)] })
    let s := s.updDctx 0 1 (fun x => { x with tc := [(2, 3 + 4 * 2 ^ 32)] })
    leads (exec (.take 0 4 9 2) s) (fun t => (t.me.reqs.map (fun q => (q.tok, q.dest))) == [(some 9, some (.x 4))]
      && leads (exec (.loadResultLands (t.nextId - 1)) (t.updRec 0 (fun r => { r with reqs := r.reqs.map (fun q => { q with stage := .out }) }))) (fun u =>
        (u.cell 0 0 0).core.rX 4 == 0x0000000100000003)) = true := by decide +kernel

/-- S0 with the host protocol agreed (R458). -/
def hosted : State := { S0 with fw := { S0.fw with negHost := 0x0100 } }

/-- A mailbox message arrives whole, sets FULL, and a second is refused (R359); MBXSTAT takes the bit away (R358). -/
theorem test_mailbox :
    leads (exec (.mailboxDelivery 0 1 [1, 2, 3, 4, 5, 6, 7, 8]) hosted) (fun t => t.mbxFull 0 1 && memRead t.mem (mbxMsg 0 1 + 8) 8 == 2
      && leads (exec (.mailboxDelivery 0 1 [9, 9, 9, 9, 9, 9, 9, 9]) t) (fun u => memRead u.mem (mbxMsg 0 1) 8 == 1)
      && leads (exec (.mbxstatStore 0 2) t) (fun u => !u.mbxFull 0 1)) = true := by decide +kernel

/-- A kick of a queue that no slot maps stands in the FIFO once (R356). -/
theorem test_kick :
    leads (exec (.kick 0x42 14) hosted) (fun t => t.kickFifo == [(0x42, 14)] && leads (exec (.kick 0x42 14) t) (fun u => u.kickFifo == [(0x42, 14)])) = true := by
  decide +kernel

/-- The examples after R460: a driver that offers 0x0100 to 0x0203 agrees 0x0100; a peer that offers 0x0200 to 0x0300 leaves the port down. -/
theorem test_versions :
    let cmd := [1, 0, 0, 0, 0, 0, 0, 0, 0x00, 0x01, 0x03, 0x02, 0x00, 0x01, 0x03, 0x02] ++ List.replicate 48 0
    let fw := { S0.fw with busy := true, cmd := cmd }
    leads (exec .negotiate { S0 with ate := { S0.ate with life := .running }, fw := fw })
      (fun t => t.fw.negHost == 0x0100 && !t.fw.busy && t.fw.status == 0) = true
    ∧ leads (exec (.podLinkUp 2 0x0200 0x0300 7) S0) (fun t => !(t.pods.getD 2 .reset).up) = true := by decide +kernel

/-- JRAISE and JDONE on a block (R409): published items are counted, and the last one done completes. -/
theorem test_job_blocks : (Rmw.jraise.new 16 0 5, Rmw.jdone.new 16 1 0, Rmw.jdone.new 16 0 0) = (5, 1 + 2 ^ 32 + 2 ^ 64, 2 ^ 32 + 2 ^ 65) := by decide +kernel

/-- The bytes at the PC run: the word of R47's example, placed, is the next step. -/
theorem test_step_runs_a_word :
    leads (step ((atS (atS S0 1 40) 2 2).withFetchWord 128 (0x10003042 * 2 ^ 64))) (fun t => t.core.rS 3 == 42 && t.core.pc == 1) = true := by decide +kernel

/-- The V0 slot of the example after R79, placed: VFADD of 1.0 and 2.0 gives 3.0 in v5. -/
theorem test_step_runs_a_bundle :
    leads (step ((atV (atV S0 1 [0x3F800000]) 2 [0x40000000]).withFetchWord 384 (0x3000141080080000 * 2 ^ 320))) (fun t => t.myDie.e == 1 && (cellLater t 3).rV 5 0 == 0x40400000) = true := by
  decide +kernel


/-- The slot that R491 maps again keeps the kick and the waiting time that its queue was left with. -/
theorem test_slot_mapped_again :
    (({ QSlot.reset with qa := BitVec.ofNat 64 0x100000000420000C } : QSlot).write 0 (BitVec.ofNat 64 0xD808C0000420000F)).qa.toNat = 0xD808C0000420000F := by
  decide +kernel
/-! ## What the statements ask for is met

For each statement with hypotheses, a state and operands that meet them, clause by clause. What a statement asks of a state is
computed here by a function beside it, shown to give it. -/

/-- `canIssue` and `passes`, computed. -/
def wordOk (s : State) (r : Raw) : Bool :=
  decide (s.sel < 16) && s.me.slot.isSome && decide (s.me.life = .ready) && !s.asleep && s.me.seqFlag.isNone
  && r.legal && (!privileged r || s.me.priv) && (match r.ts with | some n => s.core.tokmask.getLsbD n | none => true)
  && (!tbit s.core.sstat 8 || !readsPending s.core r)

/-- `canIssue`, computed. -/
def issueOk (s : State) : Bool :=
  decide (s.sel < 16) && s.me.slot.isSome && decide (s.me.life = .ready) && !s.asleep && s.me.seqFlag.isNone

/-- `canBundle`, computed. -/
def bundleOk (s : State) (r : Raw) : Bool :=
  (s.cannotBundle s.sel s.selDie).isNone && r.legal && !bundleIllegal s.me s.myDie [r]
  && (markOp r.kind r.op || s.myDie.markAsk.contains s.myDie.e || decide (s.myDie.sinceMark < 1024))
  && decide (s.myDie.sinceStores + gatedCount s s.sel s.selDie s.myCells [r] ≤ 128)
  && roomFor s.me s.selDie s.myDie.e s.myCells [r] && s.mxRoom s.sel s.selDie s.myCells [r]
  && s.myCells.all (fun l => !tbit (s.at l).core.cctl 8 || !s.underwaits r l)

/-- `noLog`, computed. -/
def silent (s : State) : Bool := !s.me.replaying && !(s.me.bufs.getD 2 .reset).ctl.getLsbD 0

theorem silent_noLog {s : State} (h : silent s = true) : s.noLog := by
  simp only [silent, Bool.and_eq_true, Bool.not_eq_true'] at h
  exact h

theorem issueOk_meets {s : State} (h : issueOk s = true) : s.canIssue := by
  simp only [issueOk, Bool.and_eq_true, decide_eq_true_eq, Option.isNone_iff_eq_none, Bool.not_eq_true'] at h
  obtain ⟨⟨⟨⟨h1, h2⟩, h3⟩, h4⟩, h5⟩ := h
  exact ⟨h1, h2, h3, h4, h5⟩

theorem wordOk_meets {s : State} {r : Raw} (h : wordOk s r = true) : s.canIssue ∧ s.passes r := by
  simp only [wordOk, Bool.and_eq_true, decide_eq_true_eq, Option.isNone_iff_eq_none, Bool.or_eq_true, Bool.not_eq_true'] at h
  obtain ⟨⟨⟨⟨⟨⟨⟨⟨h1, h2⟩, h3⟩, h4⟩, h5⟩, h6⟩, h7⟩, h8⟩, h9⟩ := h
  refine ⟨⟨h1, h2, h3, h4, h5⟩, h6, fun hp => ?_, fun n hn => ?_, fun hp => ?_⟩
  · rcases h7 with h | h
    · rw [h] at hp; cases hp
    · exact h
  · rw [hn] at h8; exact h8
  · rcases h9 with h | h
    · rw [h] at hp; cases hp
    · exact h

theorem bundleOk_meets {s : State} {r : Raw} (h : bundleOk s r = true) : s.canBundle r := by
  simp only [bundleOk, Bool.and_eq_true, decide_eq_true_eq, Option.isNone_iff_eq_none, Bool.or_eq_true, Bool.not_eq_true', List.all_eq_true] at h
  obtain ⟨⟨⟨⟨⟨⟨⟨h1, h2⟩, h3⟩, h4⟩, h5⟩, h6⟩, h7⟩, h8⟩ := h
  refine ⟨h1, h2, h3, or_assoc.mp h4, h5, h6, h7, fun l hl ht => ?_⟩
  rcases h8 l hl with h | h
  · rw [h] at ht; cases ht
  · exact h

/-- Instruction i can issue alone as a word in s, and what else a statement asks of s and its slot holds. -/
def WordMeets (i : Instr) (s : State) (more : Raw → Bool) : Prop :=
  ∃ r, i.raw = some r ∧ s.canIssue ∧ s.passes r ∧ more r = true

/-- The same of its slot alone, in a state that can issue: what the checks of the word stop. -/
def WordStops (i : Instr) (s : State) (more : Raw → Bool) : Prop := ∃ r, i.raw = some r ∧ s.canIssue ∧ more r = true

/-- The same for a bundle. -/
def BundleMeets (i : Instr) (s : State) (more : Raw → Bool) : Prop := ∃ r, i.raw = some r ∧ s.canBundle r ∧ more r = true

theorem word_meets {i : Instr} {s : State} {more : Raw → Bool}
    (h : (i.raw.map (fun r => wordOk s r && more r)) = some true) : WordMeets i s more := by
  cases hr : i.raw with
  | none => simp [hr] at h
  | some r =>
    simp only [hr, Option.map_some, Option.some.injEq, Bool.and_eq_true] at h
    exact ⟨r, hr, (wordOk_meets h.1).1, (wordOk_meets h.1).2, h.2⟩

theorem word_stops {i : Instr} {s : State} {more : Raw → Bool}
    (h : (i.raw.map (fun r => issueOk s && more r)) = some true) : WordStops i s more := by
  cases hr : i.raw with
  | none => simp [hr] at h
  | some r =>
    simp only [hr, Option.map_some, Option.some.injEq, Bool.and_eq_true] at h
    exact ⟨r, hr, issueOk_meets h.1, h.2⟩

theorem bundle_meets {i : Instr} {s : State} {more : Raw → Bool}
    (h : (i.raw.map (fun r => bundleOk s r && more r)) = some true) : BundleMeets i s more := by
  cases hr : i.raw with
  | none => simp [hr] at h
  | some r =>
    simp only [hr, Option.map_some, Option.some.injEq, Bool.and_eq_true] at h
    exact ⟨r, hr, bundleOk_meets h.1, h.2⟩

/-- Nothing more is asked. -/
def noMore : Raw → Bool := fun _ => true

/-- A tenant with heap 0: 64 objects in the arena of one page at 2^28. -/
def tenant0 : Tenant :=
  { rootDie := 0, rootPa := 0, heap := [(0, 0x8000000000000040), (1, 0x10000000), (2, 0x1000000)], gen := 0, budget := 16, resv := 0, cacheBase := 0
    cacheQuota := 0, hwb := 0, heapAt := [], tk := [] }

/-- S0 with a page of DRAM at address 0 and a page of the heap at 2^28 in the TLB of die 0, and object 0x2A of heap 0 at version 7. -/
def S1 : State :=
  let s := S0.updPdie 0 (fun x => { x with tlb := [(2 ^ 36, { word := 0xF, level := 2 }), (2 ^ 36 + 1, { word := 0x1000006F, level := 2 })] })
  { s with tenants := [(0, tenant0)], fwd := [(0x2A, mkFwd 7 0 1 512 0x10000000 0 0)] }

/-- The reference of that object. -/
def ref0 : Nat := 0x10000000002A0007

theorem meets_round_trips :
    (⟨.scalar, 8, [127, 63, 63, 63]⟩ : Raw).legal = true ∧ (Instr.add 127 63 63 63).wf = true ∧ (encode (.add 127 63 63 63)).isSome = true
    ∧ (match decodeRaw .ct none 0x0700507000000000 with | .ok r => r == ⟨.ct, 7, [0, 2, 2, 7]⟩ | .error _ => false) = true := by decide +kernel

theorem meets_StepRunsTheDecodedInstruction_words :
    let s := S0.withFetchWord 128 (0x10003042 * 2 ^ 64)
    s.agenda = [.wordIssue s.sel] ∧ s.sel < 16
    ∧ (match decodeWord (s.wordBits s.sel) with
      | .ok w => decide ((w.single.bind instrOf) = some (.add 0 3 1 2))
      | .error _ => false) = true := by decide +kernel

theorem meets_StepRunsTheDecodedInstruction_bundles :
    let run := fun (s : State) =>
      let s := s.updDctx 0 0 (fun x => { x with q := x.q.map (fun e => { e with diemask := 1, cellmask := 1 }) })
      match s.agenda, s.myDie.q with
      | [.bundleIssue 0 0], [e] =>
        decide (s.sel = 0 ∧ s.selDie = 0 ∧ e.diemask = s.core.diemask ∧ e.cellmask = s.core.cellmask)
        && (match decodeBundle (s.me.bundleBits e.idx e.lit) with
          | .ok b => decide ((b.single.bind instrOf) = some (.vfadd 0 .rne 5 1 2))
          | .error _ => false)
        && (match exec (.vfadd 0 .rne 5 1 2) { s with agenda := [] } with
          | .next t => decide (s.me.life = .ready ∧ t.myDie.hold ≠ some .wait ∧ t.myDie.hold ≠ some .waitf)
          | .refused _ => decide (s.me.life = .free)
          | .fault _ => false)
      | _, _ => false
    run (S0.withFetchWord 384 (0x3000141080080000 * 2 ^ 320)) = true
    ∧ run ((S0.withFetchWord 384 (0x3000141080080000 * 2 ^ 320)).updRec 0 (fun r => { r with life := .free })) = true := by decide +kernel

theorem meets_ScalarResults :
    WordMeets (.add 0 1 2 3) S0 (fun r => (readWrites S0 (.add 0 1 2 3)).isSome && S0.core.holds r.guard)
    ∧ WordMeets (.sel 5 1 2 3) S0 (fun r => (readWrites S0 (.sel 5 1 2 3)).isSome && decide (r.kind = .scalar ∧ r.op = 0x1F))
    ∧ WordMeets (.feat 1 127) S0 (fun r => (readWrites S0 (.feat 1 127)).isSome && S0.core.holds r.guard)
    ∧ (1 : Word) ≠ 0 ∧ (0 : Word).getLsbD 63 = false := ⟨word_meets (by decide +kernel), word_meets (by decide +kernel), word_meets (by decide +kernel), by decide +kernel⟩

theorem meets_GuardsAndSel :
    ((⟨.scalar, 8, [127, 63, 63, 63]⟩ : Raw).legal = true)
    ∧ WordMeets (.add 63 1 2 3) S0 (fun r => decide (r.kind = .scalar ∧ r.op ≠ 0x1F) && !S0.core.holds r.guard)
    ∧ WordMeets (.add 64 1 2 3) S0 (fun r => decide (r.kind = .scalar ∧ r.op ≠ 0x1F) && !S0.core.holds r.guard)
    ∧ WordMeets (.sel 127 63 63 63) S0 noMore :=
  ⟨by decide +kernel, word_meets (by decide +kernel), word_meets (by decide +kernel), word_meets (by decide +kernel)⟩

theorem meets_ScalarFrame :
    WordMeets (.stop 0 2) S0 (fun _ => (readWrites S0 (.stop 0 2)).isSome && leads (exec (.stop 0 2) S0) (fun _ => true)) := word_meets (by decide +kernel)

theorem meets_ResultsLandOnTime : SeqCore.reset.fly = [] := rfl

theorem meets_LocalDataStore :
    (let s := atS S0 2 0x1FFF8
     WordMeets (.ldD 0 1 2 0) s (fun r => (ldsForm (.ldD 0 1 2 0)).isSome && s.core.holds r.guard && decide (ldsEa s 2 0 8 % 8 = 0 ∧ ldsEa s 2 0 8 + 8 ≤ 0x20000))
     ∧ WordMeets (.stD 0 1 2 0) s (fun r => (stsForm (.stD 0 1 2 0)).isSome && s.core.holds r.guard && decide (ldsEa s 2 0 8 % 8 = 0 ∧ ldsEa s 2 0 8 + 8 ≤ 0x20000))
     ∧ WordMeets (.ldD 0 1 2 1) s (fun r => s.core.holds r.guard && decide (ldsEa s 2 1 8 % 8 = 0 ∧ 0x20000 < ldsEa s 2 1 8 + 8)))
    ∧ (let s := atS S0 2 1
       WordMeets (.stH 0 1 2 0) s (fun r => s.core.holds r.guard && decide (ldsEa s 2 0 2 % 2 ≠ 0))) :=
  ⟨⟨word_meets (by decide +kernel), word_meets (by decide +kernel), word_meets (by decide +kernel)⟩, word_meets (by decide +kernel)⟩

theorem meets_NextAddress :
    WordMeets (.jmp 0x1FFFFF) S0 (fun _ => (nextAddress S0 (.jmp 0x1FFFFF)).isSome) ∧ WordMeets (.br 0 true 3) S0 (fun _ => (nextAddress S0 (.br 0 true 3)).isSome)
    ∧ WordMeets .seq S0 (fun _ => (nextAddress S0 .seq).isSome) ∧ WordMeets (.k28 0xFFFFFFF) S0 (fun _ => (nextAddress S0 (.k28 0xFFFFFFF)).isSome) :=
  ⟨word_meets (by decide +kernel), word_meets (by decide +kernel), word_meets (by decide +kernel), word_meets (by decide +kernel)⟩

theorem meets_CallAndReturn :
    let e : RetEntry := { rpc := 1, rmask := 0 }
    let s := fun n => S0.updSeq 0 (fun q => { q with stack := List.replicate n e })
    WordMeets (.call 8) (s 15) (fun _ => decide ((s 15).core.stack.length < 16)) ∧ WordMeets (.call 8) (s 16) (fun _ => decide (16 ≤ (s 16).core.stack.length))
    ∧ WordMeets .ret (s 1) (fun _ => decide ((s 1).core.stack = [] ++ [e])) ∧ WordMeets .ret (s 0) (fun _ => decide ((s 0).core.stack = [])) :=
  ⟨word_meets (by decide +kernel), word_meets (by decide +kernel), word_meets (by decide +kernel), word_meets (by decide +kernel)⟩

theorem meets_ContextRegisters :
    WordMeets (.dmset 63) S0 noMore ∧ WordMeets (.cmset 0) S0 noMore ∧ WordMeets (.tmand 1) S0 noMore ∧ WordMeets (.prio 1) S0 noMore :=
  ⟨word_meets (by decide +kernel), word_meets (by decide +kernel), word_meets (by decide +kernel), word_meets (by decide +kernel)⟩

theorem meets_CsrAccess :
    WordMeets (.csrr 0 1) S0 (fun _ => csrDefined 0 && silent S0) ∧ WordMeets (.csrw 0x25 1) S0 (fun _ => csrDefined 0x25 && csrWritable 0x25)
    ∧ WordMeets (.csrs 6 1 2) S0 (fun _ => csrDefined 6 && csrWritable 6 && !csrLogged 6) ∧ WordMeets (.csrc 0x20 1 2) S0 (fun _ => csrDefined 0x20 && csrWritable 0x20 && !csrLogged 0x20)
    ∧ (0 < S0.recs.length ∧ csrWritable 0x25 = true) :=
  ⟨word_meets (by decide +kernel), word_meets (by decide +kernel), word_meets (by decide +kernel), word_meets (by decide +kernel), by decide +kernel⟩

theorem meets_WordChecks :
    (let user := S0.updRec 0 (fun r => { r with priv := false })
     let none4 := S0.updSeq 0 (fun q => { q with tokmask := 0xFFFFFFFFFFEF })
     let slow := S0.updSeq 0 (fun q => { q with sstat := 0x100, pend := [{ op := 9, reg := .s 2, marked := [0], live := [0] }] })
     WordStops (.csrr 0xFFF 1) S0 (fun r => decide (r.kind = .csr ∧ r.ops.head? = some 0xFFF) && r.legal && !csrDefined 0xFFF)
     ∧ WordStops (.csrw 4 1) S0 (fun r => decide (r.kind = .csr ∧ r.ops.head? = some 4) && r.legal && decide (r.op ≠ 0x20) && !csrWritable 4)
     ∧ WordStops .rft user (fun r => r.legal && !user.me.priv && privileged r && decide (r.kind = .na))
     ∧ WordStops .rft S0 (fun _ => S0.me.priv && !S0.me.hact)
     ∧ WordStops (.ldgB .relaxed .cell 4 1 2) none4 (fun r => r.legal && decide (r.kind ≠ .x) && !privileged r && decide (r.ts = some 4) && !none4.core.tokmask.getLsbD 4)
     ∧ WordStops (.waits 4 0) none4 (fun r => r.legal && waitsHolds none4.core r && !privileged r && decide (r.ts = some 4) && !none4.core.tokmask.getLsbD 4)
     ∧ WordStops (.red 1 2 0 0 4 3) none4 (fun r => r.legal && waitsHolds none4.core r && !privileged r && decide (r.ts = some 4) && !none4.core.tokmask.getLsbD 4)
     ∧ WordStops (.add 0 1 2 3) slow (fun r => decide (r.kind = .scalar) && r.legal && !privileged r && waitsHolds slow.core r && readsPending slow.core r && tbit slow.core.sstat 8)
     ∧ WordStops (.ldgD .relaxed .device 1 4 2) slow (fun r => decide (r.kind = .mem ∧ r.ts = some 1) && slow.core.tokmask.getLsbD 1 && r.legal && !privileged r && !csrBad slow.sel r && waitsHolds slow.core r && readsPending slow.core r && tbit slow.core.sstat 8)) :=
  ⟨word_stops (by decide +kernel), word_stops (by decide +kernel), word_stops (by decide +kernel), word_stops (by decide +kernel), word_stops (by decide +kernel),
    word_stops (by decide +kernel), word_stops (by decide +kernel), word_stops (by decide +kernel), word_stops (by decide +kernel)⟩

theorem meets_HardwareLoops :
    WordMeets (.lsetup 0 3 7 63) S0 (fun _ => S0.core.holds 0) ∧ WordMeets (.lsetup 0 0 0 1) S0 (fun _ => S0.core.holds 0)
    ∧ WordMeets (.lend 3 0x3FFFF) S0 (fun _ => S0.me.bps.all (fun b => !tbit b 63) && !S0.me.dbgctl.getLsbD 2 && decide ((S0.core.loop 3).stages = 0))
    ∧ (let s := S0.updSeq 0 (fun q => { q with l0 := { Loop.reset with stages := 2 } })
       WordMeets (.lend 0 5) s (fun _ => s.me.bps.all (fun b => !tbit b 63) && !s.me.dbgctl.getLsbD 2 && decide ((s.core.loop 0).stages ≠ 0))) :=
  ⟨word_meets (by decide +kernel), word_meets (by decide +kernel), word_meets (by decide +kernel), word_meets (by decide +kernel)⟩

/-- A flag of a fault, for what follows. -/
def flag0 (f : Bool) : Flag := { code := 0x11, detail := 0, info := noInfo, ein := 5, at_ := 5, noRollback := f, die := 0, xpc := 0 }

theorem meets_TrapEnters_and_ReturnFromTrap :
    let h := S0.updRec 0 (fun r => { r with hact := true })
    WordMeets (.trap 7) S0 (fun _ => !S0.me.hact) ∧ WordMeets (.trap 0) h (fun _ => h.me.hact)
    ∧ WordMeets .rft h (fun _ => h.me.hact && h.me.heldF.isNone && h.me.nextF.isNone && !h.me.rv)
    ∧ (let s := h.updRec 0 (fun r => { r with rv := true, rcnt := 3, ridx := 7 })
       WordMeets .rft s (fun _ => s.me.hact && s.me.heldF.isNone && s.me.nextF.isNone && s.me.rv && !s.me.xpcWritten && decide (0 < s.me.rcnt)))
    ∧ (let s := h.updRec 0 (fun r => { r with heldF := some (flag0 false) })
       WordMeets .rft s (fun _ => s.me.hact && decide (s.me.heldF = some (flag0 false)) && !(flag0 false).noRollback))
    ∧ (let s := h.updRec 0 (fun r => { r with heldF := some (flag0 true) })
       WordMeets .rft s (fun _ => s.me.hact && decide (s.me.heldF = some (flag0 true)) && (flag0 true).noRollback)) :=
  ⟨word_meets (by decide +kernel), word_meets (by decide +kernel), word_meets (by decide +kernel), word_meets (by decide +kernel), word_meets (by decide +kernel),
    word_meets (by decide +kernel)⟩

theorem meets_HaltAndIdle :
    WordMeets .halt S0 (fun _ => S0.core.fly.all (fun f => decide (f.rest < 24)))
    ∧ WordMeets (.idle 3) S0 (fun _ => !(S0.mbx.getD S0.sel 0).getLsbD 3)
    ∧ (let s := { S0 with mbx := S0.mbx.set 0 8 }
       WordMeets (.idle 3) s (fun _ => (s.mbx.getD s.sel 0).getLsbD 3 && silent s)) :=
  ⟨word_meets (by decide +kernel), word_meets (by decide +kernel), word_meets (by decide +kernel)⟩

/-- S0 with a dictionary of two empty bundles. -/
def S2 : State := S0.updRec 0 (fun r => { r with dictSize := 2, dict := [0, 0] })

theorem meets_broadcasts :
    WordMeets (.bcast 255 1) S2 (fun _ => decide (S2.litBusy = 0) && S2.me.credit S2.clk && decide (1 < S2.me.dictSize)
      && decide (tokenUse (S2.me.bundleBits 1 none) &&& ~~~(S2.core.tokmask.extractLsb' 16 32) = 0) && !markBit (S2.me.bundleBits 1 none))
    ∧ (let s := S2.updRec 0 (fun r => { r with dict := [0, 0x0400000000000000] })
       WordMeets (.bcast 0 1) s (fun _ => decide (s.litBusy = 0) && s.me.credit s.clk && decide (1 < s.me.dictSize)
         && decide (tokenUse (s.me.bundleBits 1 none) &&& ~~~(s.core.tokmask.extractLsb' 16 32) = 0) && markBit (s.me.bundleBits 1 none)))
    ∧ WordMeets .lit S2 (fun _ => decide (S2.litBusy = 0) && S2.me.credit S2.clk && decide (tokenUse (S2.literalAt S2.core.pc) &&& ~~~(S2.core.tokmask.extractLsb' 16 32) = 0))
    ∧ (let s := S2.updRec 0 (fun r => { r with occ := 960 })
       WordStops (.bcast 0 1) s (fun r => r.legal && decide (s.litBusy = 0) && !s.me.credit s.clk))
    ∧ WordStops (.bcast 0 2) S2 (fun r => r.legal && decide (S2.litBusy = 0) && S2.me.credit S2.clk && decide (S2.me.dictSize ≤ 2))
    ∧ (let s := (S2.updRec 0 (fun r => { r with dict := [0, 0x0100100000000001] })).updSeq 0 (fun q => { q with tokmask := 0xFFFF })
       WordStops (.bcast 0 1) s (fun r => r.legal && decide (s.litBusy = 0) && s.me.credit s.clk && decide (1 < s.me.dictSize)
         && decide (tokenUse (s.me.bundleBits 1 none) &&& ~~~(s.core.tokmask.extractLsb' 16 32) ≠ 0)))
    ∧ (let s := (S2.updRec 0 (fun r => { r with occ := 960 })).updDctx 0 0 (fun x => { x with hold := some (.bar false [0]) })
       WordStops .lit s (fun r => r.legal && !s.me.credit s.clk && s.me.field.dies.any s.me.standsAtBar)
       ∧ WordStops .lit (S2.updRec 0 (fun r => { r with occ := 960 })) (fun r => r.legal && !(S2.updRec 0 (fun r => { r with occ := 960 })).me.credit S2.clk
           && !S2.me.field.dies.any S2.me.standsAtBar))
    ∧ (let s := { S2 with litBusy := 2 }
       WordStops (.bcast 0 1) s (fun r => r.legal && s.me.credit s.clk && decide (0 < s.litBusy)) ∧ WordStops .lit s (fun r => r.legal && s.me.credit s.clk))
    ∧ (let s := { (S2.updSeq 0 (fun q => { q with tokmask := 0xFFFF })) with cstore := [(3, 0x0100100000000001)] }
       WordStops .lit s (fun r => r.legal && decide (s.litBusy = 0) && s.me.credit s.clk
         && decide (tokenUse (s.literalAt s.core.pc) &&& ~~~(s.core.tokmask.extractLsb' 16 32) ≠ 0))) :=
  ⟨word_meets (by decide +kernel), word_meets (by decide +kernel), word_meets (by decide +kernel), word_stops (by decide +kernel), word_stops (by decide +kernel),
    word_stops (by decide +kernel), ⟨word_stops (by decide +kernel), word_stops (by decide +kernel)⟩, ⟨word_stops (by decide +kernel), word_stops (by decide +kernel)⟩,
    word_stops (by decide +kernel)⟩

theorem meets_ReductionStarts :
    WordMeets (.red 15 3 0 7 15 63) S0 (fun _ => decide (15 ∉ S0.me.redBusy))
    ∧ (let s := S0.updRec 0 (fun r => { r with redBusy := [3] })
       WordMeets (.red 3 0 0 0 0 0) s (fun _ => decide (3 ∈ s.me.redBusy))) := ⟨word_meets (by decide +kernel), word_meets (by decide +kernel)⟩

/-- The access of i passes its checks. -/
def entersLoad (s : State) (i : Instr) : Bool :=
  match seqLoad s i with
  | some (_, _, _, _, .ok _) => true
  | _ => false
/-- The same for an operation that is held. -/
def entersHeld (s : State) (i : Instr) : Bool :=
  match seqHeld s i with
  | some (_, _, _, _, .ok _) => true
  | _ => false
/-- Its access meets fault code k. -/
def stopsWith (s : State) (i : Instr) (k : Nat) : Bool :=
  match seqLoad s i, seqHeld s i with
  | some (_, _, _, _, .error f), _ => f.1 == k
  | _, some (_, _, _, _, .error f) => f.1 == k
  | _, _ => false

/-- S1 with the reference of its object in h1. -/
def S3 : State := S1.updSeq 0 (fun q => q.wH 1 (BitVec.ofNat 64 ref0))

theorem meets_SeqEffectsAreHeld :
    [Instr.stgB .release .system 15 1 2, .stgD .relaxed .cell 0 1 2, .afadd .acqRel .field 1 4 3 2, .acas .relaxed .device 1 4 2 2, .amaxf .relaxed .device 1 4 2,
      .memAmaxrr .relaxed .device 1 4 2, .memFence .acqRel .device 1, .memStref .relaxed .device 1 2 1 3, .memStr .release .device 1 4 3 1, .memPin .relaxed .device 1 4 1,
      .memUnpin .relaxed .device 1 1, .memJraise .release .device 1 4 2, .memJdone .relaxed .device 1 2].all
      (fun i => entersHeld S3 i && (match i.raw with | some r => wordOk S3 r | none => false)) = true := by decide +kernel

theorem meets_SeqLoadsEnter :
    ([Instr.ldgB .acquire .system 15 63 0, .ldgH .relaxed .cell 0 1 2, .ldgW .relaxed .cell 0 1 2, .ldgD .acquire .field 1 4 2, .memLdref .acquire .device 2 7 1 5,
      .memLdr .relaxed .device 1 4 3 1].all (fun i => entersLoad S3 i && (match i.raw with | some r => wordOk S3 r | none => false)) = true)
    ∧ WordMeets (.memFence .acquire .system 15) S0 noMore := ⟨by decide +kernel, word_meets (by decide +kernel)⟩

theorem meets_SeqAccessFaults :
    WordMeets (.ldgD .relaxed .device 1 4 2) (atS S1 2 4) (fun _ => stopsWith (atS S1 2 4) (.ldgD .relaxed .device 1 4 2) 0x11)
    ∧ WordMeets (.stgD .relaxed .device 1 4 2) (atS S1 2 0x4000000000) (fun _ => stopsWith (atS S1 2 0x4000000000) (.stgD .relaxed .device 1 4 2) 0x10) :=
  ⟨word_meets (by decide +kernel), word_meets (by decide +kernel)⟩

/-- S1 with a page from 2 * 2^28 on of WEIGHT, of HOST, of DRAM that refuses reads, of MMIO, of PEER, of SRAMT and of WBANK. -/
def S1b : State :=
  let s := (S1.updPdie 0 (fun x => { x with tlb := x.tlb ++ ([0x01000000003F, 0x4F, 0xB, 0x0F000000007F, 0x5F, 0x1F, 0x2F].zipIdx.map (fun p =>
    (2 ^ 36 + 2 + p.2, ({ word := BitVec.ofNat 64 p.1, level := 2 } : TlbEntry)))) }))
  { s with ats := [(0, 0x3000)] }

/-- The code and detail with which a check of the sequencer ends, or 0. -/
def targetFault (s : State) (va n : Nat) (k : AccKind) : Nat × Nat :=
  match s.seqTarget s.senv va n k with
  | .error f => (f.1, f.2.1)
  | .ok _ => (0, 0)

/-- Bits [63:52] go before the control page, and that before alignment (R235). -/
theorem meets_SeqAccessFaults_checks :
    S1.sel < 16 ∧ targetFault S1 (2 ^ 52 + 1) 8 .cohLoad = (0x11, 4) ∧ targetFault S1 0xFFFFFFFFFFFFF 8 .cohLoad = (0x11, 5)
    ∧ targetFault S1 0xFFFFFFFFF0000 8 (.atomic true) = (0x11, 5) ∧ targetFault S1 4 8 .cohStore = (0x11, 0)
    ∧ (S1.tlbFind 0 0 0x4000000000).isNone = true ∧ (S1.walkReads (S1.sel, none) (S1.walkKeys 0 0x4000000000)).2 = true
    ∧ (match S1.walk 0 0x4000000000 with
      | .error _ => true
      | .ok _ => false) = true := by decide +kernel

/-- The classes and permissions of R228 and R235, on a page each. -/
theorem meets_SeqAccessFaults_pages :
    (List.range 9).map (fun p => (targetFault S1b (p * 2 ^ 28) 8 .cohLoad, targetFault S1b (p * 2 ^ 28) 8 .cohStore))
    = [((0, 0), (0, 0)), ((0x11, 3), (0x11, 3)), ((0, 0), (0x12, 3)), ((0, 0), (0, 0)), ((0x11, 1), (0, 0)), ((0, 0), (0x11, 1)), ((0x11, 3), (0x11, 3)),
      ((0, 0), (0, 0)), ((0, 0), (0, 0))]
    ∧ (List.range 9).map (fun p => targetFault S1b (p * 2 ^ 28) 8 (.atomic true))
    = [(0, 0), (0x11, 3), (0x12, 3), (0, 0), (0x11, 1), (0x11, 3), (0x11, 3), (0, 0), (0x11, 3)] := by decide +kernel

theorem shape_S0 : Shape S0 := by unfold Shape; decide +kernel

/-- n commands that wait in queue k. -/
def waitingCmds (s : State) (k n : Nat) : State :=
  { s with armq := s.armq.set k (List.replicate n (s.queued .device { cls := k, e := [], items := [], acq := false, rel := false })) }

theorem meets_EngineCommands :
    WordMeets (.mbxsend 7 15 true true .system 63) (waitingCmds S0 3 15) (fun _ => (engForm (.mbxsend 7 15 true true .system 63)).isSome && decide (((waitingCmds S0 3 15).armq.getD 3 []).length < 16))
    ∧ WordMeets (.ctxsave 0 0 false false .cell 0) (waitingCmds S0 7 16) (fun _ => (engForm (.ctxsave 0 0 false false .cell 0)).isSome && decide (16 ≤ ((waitingCmds S0 7 16).armq.getD 7 []).length))
    ∧ Shape (waitingCmds S0 3 15) ∧ Shape (waitingCmds S0 7 16) :=
  ⟨word_meets (by decide +kernel), word_meets (by decide +kernel), by unfold Shape; decide +kernel, by unfold Shape; decide +kernel⟩

/-- Slot 2 maps queue 9 of PASID 0, with n indices reserved. -/
def slotted (n : Nat) : State :=
  { S0 with qslots := S0.qslots.set 2 { qa := BitVec.ofNat 64 (2 ^ 63 + n * 2 ^ 41 + 9), qb := 4, qc := 0 } }

theorem meets_EnqTakesAnIndex :
    let s := fun n => atS (slotted n) 8 9
    WordMeets (.enq 1 2 false true .device 3) (s 1) (fun _ => silent (s 1) && decide ((s 1).slotOf (s 1).me.pasid.toNat ((((s 1).core.desc 1).headD 0).toNat % 2 ^ 16) = some 2)
      && decide (((s 1).armq.getD 4 []).length < 16) && decide (bitsOf ((s 1).qslots.getD 2 .reset).qa 41 4 ≠ 0))
    ∧ WordMeets (.enq 1 2 false true .device 3) (s 0) (fun _ => silent (s 0) && decide ((s 0).slotOf (s 0).me.pasid.toNat ((((s 0).core.desc 1).headD 0).toNat % 2 ^ 16) = some 2)
      && decide (bitsOf ((s 0).qslots.getD 2 .reset).qa 41 4 = 0))
    ∧ WordMeets (.enq 2 2 false true .device 3) (s 0) (fun _ => silent (s 0) && decide ((s 0).slotOf (s 0).me.pasid.toNat ((((s 0).core.desc 2).headD 0).toNat % 2 ^ 16) = none))
    ∧ Shape (s 1) ∧ Shape (s 0) :=
  ⟨word_meets (by decide +kernel), word_meets (by decide +kernel), word_meets (by decide +kernel), by unfold Shape; decide +kernel, by unfold Shape; decide +kernel⟩

theorem meets_CellResultsLand : CellCore.reset.fly = [] := rfl

theorem meets_CellResults :
    ([Instr.vadd 0 .n8x4 63 62 61, .vfma 0 .dyn 1 2 3 4, .vcmpLt 1 .i16x2 2 3 7, .xadd 64 31 30 29, .vsplit3 0 1 4, .qbfp 0 .sr true 8 2 6, .vcoord 0 1 4, .refmov 0 3 2,
      .kset 0 63 63 0].all (fun i => (cellWrites i).isSome && (match i.raw with | some r => bundleOk S0 r | none => false)) = true)
    ∧ (let s := S0.updSeq 0 (fun q => { q with cellmask := 0 })
       BundleMeets (.stx 0 1 2 3 0 4095) s (fun r => decide (r.kind = .ls) && decide (s.myCells = []))) :=
  ⟨by decide +kernel, bundle_meets (by decide +kernel)⟩

theorem meets_AccumulatorRows :
    BundleMeets (.accrd 0 127 3 15) S0 (fun _ => decide (1024 * 127 + 64 * 15 + 64 ≤ 8192 * S0.me.win.acc))
    ∧ BundleMeets (.accwr 0 0 3 0) S0 (fun _ => decide (64 ≤ 8192 * S0.me.win.acc))
    ∧ (let s := S0.updRec 0 (fun r => { r with win := { Windows.full with acc := 15 } })
       BundleMeets (.accrd 0 120 3 0) s (fun r => decide (8192 * s.me.win.acc < 1024 * 120 + 64 * 0 + 64) && s.myCells.any (fun l => decide (s.lanesOf r l ≠ [])))
       ∧ BundleMeets (.accwr 0 119 3 15) s (fun _ => decide (1024 * 119 + 64 * 15 + 64 ≤ 8192 * s.me.win.acc))) :=
  ⟨bundle_meets (by decide +kernel), bundle_meets (by decide +kernel), bundle_meets (by decide +kernel), bundle_meets (by decide +kernel)⟩

theorem meets_CellRegisters :
    BundleMeets (.mxprog 0 30) S0 noMore ∧ BundleMeets (.tokadd 0 31 4095) S0 noMore ∧ BundleMeets (.rbseed 31) S0 noMore
    ∧ BundleMeets (.tokrd 0 31 31) S0 (fun _ => silent S0) :=
  ⟨bundle_meets (by decide +kernel), bundle_meets (by decide +kernel), bundle_meets (by decide +kernel), bundle_meets (by decide +kernel)⟩

theorem meets_TokenCondition :
    (let s := S0.updSeq 0 (fun q => q.wTs 6 5)
     WordMeets (.waits 6 5) s (fun _ => tokHolds (s.core.rTs 6) 5) ∧ WordMeets (.waits 6 6) s (fun _ => !tokHolds (s.core.rTs 6) 6))
    ∧ (let s := S0.updCore 0 0 0 (fun q => q.wTk 31 5)
       BundleMeets (.wait 31 5) s (fun _ => s.myCells.all (fun l => tokHolds ((s.at l).core.rTk 31) 5)))
    ∧ BundleMeets (.wait 0 1) S0 (fun _ => S0.myCells.any (fun l => !tokHolds ((S0.at l).core.rTk 0) 1)) :=
  ⟨⟨word_meets (by decide +kernel), word_meets (by decide +kernel)⟩, bundle_meets (by decide +kernel), bundle_meets (by decide +kernel)⟩

theorem meets_WaitfHoldsTheDie :
    (let s := atX S0 1 (8 * 65536 - 128)
     BundleMeets (.waitf 1 0) s (fun _ => decide (s.myCells = [0]) && s.lineFull 0 0 0 4095)
     ∧ BundleMeets (.waitf 1 1) s (fun _ => decide (s.myCells = [] ++ 0 :: [] ∧ (s.me.win.ways - (s.at 0).core.cways) * 65536 ≤ ((s.at 0).core.rX 1 + BitVec.ofNat 64 128).toNat)))
    ∧ (let s := S0.updCell 0 0 0 (fun y => { y with empty := [0] })
       BundleMeets (.waitf 1 0) s (fun _ => decide (s.myCells = [0]) && !s.lineFull 0 0 0 0))
    ∧ (let s := atX S0 1 64
       BundleMeets (.waitf 1 0) s (fun _ => decide (s.myCells = [] ++ 0 :: [] ∧ ((s.at 0).core.rX 1).toNat % 128 ≠ 0 ∧ ((s.at 0).core.rX 1).toNat < (s.me.win.ways - (s.at 0).core.cways) * 65536))) :=
  ⟨⟨bundle_meets (by decide +kernel), bundle_meets (by decide +kernel)⟩, bundle_meets (by decide +kernel), bundle_meets (by decide +kernel)⟩

theorem meets_PositionsMarksAndEvents :
    BundleMeets (.dly 4095) S0 noMore ∧ BundleMeets .mark S0 noMore ∧ BundleMeets .abar S0 (fun _ => decide (S0.myDie.e ∉ S0.myDie.markAsk)) ∧ BundleMeets (.trapc 0 4095) S0 noMore :=
  ⟨bundle_meets (by decide +kernel), bundle_meets (by decide +kernel), bundle_meets (by decide +kernel), bundle_meets (by decide +kernel)⟩

theorem meets_SetcCombines :
    (let r : Raw := ⟨.ct, 7, [0, 2, 2, 7]⟩
     r.legal = true ∧ r.kind = .ct ∧ r.op = 7)
    ∧ BundleMeets (.setc 0 7 3 31) S0 (fun r => decide ((S0.myCells.filter (fun l => !(S0.lanesOf r l).isEmpty)) = [0]))
    ∧ BundleMeets (.setc 64 0 0 0) S0 (fun r => decide ((S0.myCells.filter (fun l => !(S0.lanesOf r l).isEmpty)) = [])) :=
  ⟨by decide +kernel, bundle_meets (by decide +kernel), bundle_meets (by decide +kernel)⟩

/-- A stream of 4096 words of DRAM from address 0, started; a store stream where `st` is 2^55. -/
def desc0 (st : Nat) : List Word := [BitVec.ofNat 64 st, 0, 0x003F003F, 0, 0x0000010000000004, 0, 0, 0x8000000000000000]

/-- S1 with that stream in st1 and st2 of cell 0, and as a store stream in st3; x8 to x15 hold st1's descriptor. -/
def S4 : State := S1.updCore 0 0 0 (fun q =>
  let q := ((q.setDesc 1 (desc0 0)).setDesc 2 (desc0 0)).setDesc 3 (desc0 (2 ^ 55))
  (desc0 0).zipIdx.foldl (fun q p => q.wX (8 + p.2) p.1) q)

theorem meets_BarriersAndBanks :
    BundleMeets (.bar .field) S0 noMore ∧ BundleMeets (.bar .die) (S0.updSeq 0 (fun q => { q with diemask := 0 })) noMore
    ∧ BundleMeets .phaseX S0 noMore ∧ BundleMeets .phaseC (S0.updDctx 0 0 (fun x => { x with phaseOpen := true })) noMore
    ∧ BundleMeets .wswap S0 (fun _ => decide (S0.selDie < 32) && S0.core.diemask.getLsbD S0.selDie && !S0.bankBusy S0.selDie && S0.myDie.wswap.isNone)
    ∧ BundleMeets .wswap (S0.updSeq 0 (fun q => { q with diemask := 0 })) noMore ∧ Shape S0 :=
  ⟨bundle_meets (by decide +kernel), bundle_meets (by decide +kernel), bundle_meets (by decide +kernel), bundle_meets (by decide +kernel), bundle_meets (by decide +kernel),
    bundle_meets (by decide +kernel), shape_S0⟩

/-- S4 with the reference of its object in h1 of cell 0, and the object's entry in the cell's forwarding cache. -/
def S5 : State :=
  let s := S4.updCore 0 0 0 (fun q => q.wH 1 (BitVec.ofNat 64 ref0))
  (s.cachedEntry (0, some (0, 0)) 0 ref0).1

/-- Instruction i issues in s, where cell 0 acts and its operation passes its checks. -/
def entersCell (s : State) (i : Instr) : Bool :=
  match i.raw with
  | some r => bundleOk s r && isCellOp i && decide (s.myCells = [0]) && decide (s.lanesOf r 0 ≠ []) && (s.cellOp (s.env r 0) i).isSome
  | none => false

/-- s with an acquire of cell 0 outstanding. -/
def behind (s : State) : State :=
  { (s.updRec 0 (fun r => { r with reqs := [{ (mkReq (some (0, 0)) 0 0 none none (.vals []) false false) with ord := .acquire, stage := .out }] })) with nextId := 9 }

/-- What the clauses on a load with the A bit ask, in a context that neither records nor replays. -/
def aheadMeets (s : State) (r : Raw) : Bool :=
  silent s && decide (s.myCells = [0]) && decide (s.lanesOf r 0 ≠ []) && !inCtlPage ((s.env r 0).at12 2 0)
  && (s.passingOne (s.env r 0) ((s.env r 0).at12 2 0) 8 .cohLoad).isSome

theorem meets_CellOperationsEnter :
    ([Instr.ldx 0 false 1 2 31 3 2040, .ldxAcq 0 1 2 3 .system 0 2047, .stx 0 31 2 3 3 8, .stxRel 0 1 2 3 .cell 2 4, .ldvn 0 false 1 2 3 0, .stvn 0 1 2 3 0,
      .gather 0 false 1 2 3 4, .scatter 0 1 2 3 4, .vafadd 0 1 2 3 4 .device, .vamaxf 0 1 2 3 4 .system].all (entersCell S5) = true)
    ∧ ([Instr.xafadd 0 1 2 3 .device 3, .xamax 0 1 2 3 .device 2, .xacas 0 1 2 3 4 .device 2, .xaswap 0 1 2 3 .device 3, .lsAmaxrr 0 1 2 3 .device, .lsJraise 0 2 3 4 .device,
      .lsJdone 0 2 3 .device, .lsLdr 0 false 1 1 2 3 3, .lsLdref 0 false 1 1 2 3, .ldrv 0 false 1 1 2 3].all (entersCell S5) = true)
    ∧ ([Instr.lsStr 0 1 1 2 3 0, .lsStref 0 1 1 2 3, .strv 0 1 1 2 3, .lsPin 0 1 1 3, .lsUnpin 0 1 3, .take 0 1 2 7, .sete 0 1 2 0, .setf 0 1 2 0, .nsflush 0 3, .stsave 0 16 1 3,
      .stload 0 16 1 3].all (entersCell S5) = true)
    ∧ BundleMeets (.stx 64 1 2 3 3 8) S5 (fun r => decide (S5.lanesOf r 0 = []))
    ∧ ([Instr.ldx 0 true 1 2 31 3 2040, .ldvn 0 true 1 2 3 0, .gather 0 true 1 2 3 4, .lsLdr 0 true 1 1 2 3 3, .lsLdref 0 true 1 1 2 3, .ldrv 0 true 1 1 2 3].all
      (entersCell (behind S5)) = true)
    ∧ (let s := S5.updDctx 0 0 (fun x => { x with ahead :=
          [{ ein := 0, cell := 0, raw := ⟨.ls, 1, [0, 1, 3, 3, 0]⟩, regs := [], done := true, read := true, lines := [0], vals := [(0, 7)], fault := none }] })
       BundleMeets (.ldx 0 true 1 2 3 3 0) s (fun r => aheadMeets s r
         && (match s.myDie.ahead.find? (fun y => decide (y.ein = s.myDie.e) && decide (y.cell = 0)) with
           | some x => x.done && x.fault.isNone
           | none => false)))
    ∧ BundleMeets (.ldx 0 true 1 2 3 3 0) S5 (fun r => aheadMeets S5 r
         && (S5.myDie.ahead.find? (fun y => decide (y.ein = S5.myDie.e) && decide (y.cell = 0))).isNone
         && (match S5.passingOne (S5.env r 0) ((S5.env r 0).at12 2 0) 8 .cohLoad with
           | some t =>
             let q := (loadOp (.x 1) [0] (onePart t 8 .load 0)).req S5.selDie 0 S5.myDie.e 3 S5.nextId (some 3)
             !S5.blocked S5.sel q && (S5.readNow S5.sel S5.selDie 0 q).2.isSome
           | none => false)) :=
  ⟨by decide +kernel, by decide +kernel, by decide +kernel, bundle_meets (by decide +kernel), by decide +kernel, bundle_meets (by decide +kernel),
    bundle_meets (by decide +kernel)⟩

theorem meets_ControlPage :
    let s := atX S0 1 ctlPage
    let pre := fun (r : Raw) => decide (s.myCells = [0]) && decide (s.lanesOf r 0 ≠ [])
    BundleMeets (.ldx 0 false 2 1 3 3 0) s (fun r => pre r && inCtlPage ((s.env r 0).at12 1 0) && ((s.env r 0).ctlRead ((s.env r 0).at12 1 0 - ctlPage)).isSome && (s.at 0).core.fly.isEmpty)
    ∧ BundleMeets (.stx 0 2 1 3 3 0) s (fun r => pre r && decide ((s.env r 0).at12 1 0 = ctlPage + 0) && !s.underwaits r 0 && (s.at 0).core.fly.isEmpty)
    ∧ BundleMeets (.stx 0 2 1 3 3 8) s (fun r => pre r && decide ((s.env r 0).at12 1 8 = ctlPage + 8) && !s.underwaits r 0)
    ∧ BundleMeets (.ldx 0 false 2 1 3 2 0) s (fun r => pre r && inCtlPage ((s.env r 0).at12 1 0))
    ∧ BundleMeets (.stx 0 2 1 3 3 16) s (fun r => pre r && inCtlPage ((s.env r 0).at12 1 16) && decide ((s.env r 0).at12 1 16 ≠ ctlPage ∧ (s.env r 0).at12 1 16 ≠ ctlPage + 8)) :=
  ⟨bundle_meets (by decide +kernel), bundle_meets (by decide +kernel), bundle_meets (by decide +kernel), bundle_meets (by decide +kernel), bundle_meets (by decide +kernel)⟩

/-- S0 with fence 5 of cell 0 under way, behind nothing. -/
def fenced (ord : Ord) : State :=
  { (S0.updRec 0 (fun r => { r with reqs := [{ (mkReq (some (0, 0)) 0 0 none none (.fence false) false false) with id := 5, ord := ord, sc := .device, stage := .out }] })) with
    nextId := 9 }

theorem meets_FenceAndResize :
    BundleMeets (.lsFence 0 31 .system .acquire) S0 noMore ∧ BundleMeets (.lsFence 0 0 .cell .release) S0 noMore ∧ BundleMeets (.resize 0 3 7) S0 noMore
    ∧ [Ord.acquire, .acqRel].all (fun o => match (fenced o).req 5 with
      | some (c, q) => !(fenced o).asleep && decide (q.org = some (0, 0) ∧ q.body = .fence false ∧ q.ord = o ∧ q.stage ≠ .performed)
          && ((fenced o).rc c).reqs.all (fun p => decide (5 ≤ p.id))
      | none => false) = true :=
  ⟨bundle_meets (by decide +kernel), bundle_meets (by decide +kernel), bundle_meets (by decide +kernel), by decide +kernel⟩

theorem meets_StreamRegisters :
    BundleMeets (.stset 0 8 1) S4 (fun r => (S4.acting r).all (fun l => !S4.me.stHeld S4.selDie l 1 && !weightStore ((S4.env r l).descAt 8) && !badDesc ((S4.env r l).descAt 8))
      && decide (S4.acting r = [0]))
    ∧ BundleMeets (.stget 0 24 15) S4 (fun r => (S4.acting r).all (fun l => !S4.me.stHeld S4.selDie l 15))
    ∧ BundleMeets (.stgo 0 1 31) S4 (fun r => (S4.acting r).all (fun l => !S4.me.stHeld S4.selDie l 1 && !dBad ((S4.at l).core.desc 1))) :=
  ⟨bundle_meets (by decide +kernel), bundle_meets (by decide +kernel), bundle_meets (by decide +kernel)⟩

/-- S4 with 64 items of st1 fetched ahead. -/
def S6 : State := S4.updCell 0 0 0 (fun y => { y with items := (List.range 64).map (fun i => { st := 1, t := i, vals := [i], fault := none, empty := false }) })

/-- S4 with an acquire of cell 0 outstanding. -/
def S7 : State := { (S4.updRec 0 (fun r => { r with reqs := [{ (mkReq (some (0, 0)) 0 0 none none (.vals []) false false) with ord := .acquire, stage := .out }] })) with nextId := 9 }

/-- S4 with an atomic of cell 0 on the first item of st1, held. -/
def S8 : State :=
  match S4.passingOne (S4.env ⟨.ls, 1, [0, 1, 3, 3, 0]⟩ 0) 0 8 .cohLoad with
  | some t => { (S4.updRec 0 (fun r => { r with reqs := [mkReq (some (0, 0)) 0 0 none none (onePart t 8 (.rmw .add) 1) true false] })) with nextId := 9 }
  | none => S4

/-- S4 with a release of cell 0 outstanding. -/
def S8b : State := { (S4.updRec 0 (fun r => { r with reqs := [{ (mkReq (some (0, 0)) 0 0 none none (.vals []) false false) with ord := .release, stage := .out }] })) with nextId := 9 }

/-- S4 with a stream of 64 words of scratch from 0 in st5 of cell 0, whose line 0 is empty. -/
def S8c : State := (S4.updCore 0 0 0 (fun q => q.setDesc 5 [BitVec.ofNat 64 (6 * 2 ^ 56), 0, 0x0000003F, 0, 0x0000000000000004, 0, 0, 0x8000000000000000])).updCell 0 0 0 (fun y => { y with empty := [0] })

/-- A transfer of stream st of cell 0 has targets, and its stream passes. -/
def transfers (s : State) (r : Raw) (v st : Nat) (store : Bool) : Bool :=
  let D := (s.at 0).core.desc st
  decide (s.myCells = [0]) && (transferFault (s.env r 0) D st v store).isNone
  && (match s.transferTargets s.sel s.selDie 0 D ((transferItems D (s.lanesOf r 0) store).map Prod.snd) with
    | .ok (s', _) => decide (s' = s)
    | .error _ => false)

theorem meets_VectorTransfers :
    BundleMeets (.ldv 0 true 63 1 31) S6 (fun r =>
      let D := (S6.at 0).core.desc 1
      let want := transferItems D (S6.lanesOf r 0) false
      decide (S6.myCells = [0]) && (transferFault (S6.env r 0) D 1 63 false).isNone && !S6.me.acquireWaits S6.selDie 0 S6.nextId
      && !S6.me.releaseWaits S6.selDie 0 S6.nextId && !want.any (fun w => S6.wantEmpty (S6.env r 0) 1 w.2) && !S6.itemsHeld S6.sel S6.selDie 0 D 1 S6.nextId (want.map Prod.snd)
      && (match S6.getItems S6.sel S6.selDie 0 D 1 S6.nextId (want.map Prod.snd) with
        | (s', its) => decide (s' = S6) && (itemsFault D its).isNone))
    ∧ BundleMeets (.ldv 64 true 63 1 31) S6 (fun r =>
      let D := (S6.at 0).core.desc 1
      decide (S6.lanesOf r 0 = []) && (transferFault (S6.env r 0) D 1 63 false).isNone && !S6.me.acquireWaits S6.selDie 0 S6.nextId && !S6.me.releaseWaits S6.selDie 0 S6.nextId
      && !S6.itemsHeld S6.sel S6.selDie 0 D 1 S6.nextId ((transferItems D (S6.lanesOf r 0) false).map Prod.snd))
    ∧ BundleMeets (.ldv 0 false 1 1 0) S7 (fun r => S7.me.acquireWaits S7.selDie 0 S7.nextId && transfers S7 r 1 1 false)
    ∧ BundleMeets (.ldv 0 false 1 1 0) S8b (fun r => S8b.me.releaseWaits S8b.selDie 0 S8b.nextId && !S8b.me.acquireWaits S8b.selDie 0 S8b.nextId
      && (S8b.at 0).items.isEmpty && transfers S8b r 1 1 false)
    ∧ BundleMeets (.ldv 0 false 1 5 0) S8c (fun r =>
      let D := (S8c.at 0).core.desc 5
      let want := transferItems D (S8c.lanesOf r 0) false
      want.any (fun w => S8c.wantEmpty (S8c.env r 0) 5 w.2) && !tbit (S8c.at 0).core.cctl 8 && (transferFault (S8c.env r 0) D 5 1 false).isNone
      && !S8c.me.acquireWaits S8c.selDie 0 S8c.nextId && !S8c.me.releaseWaits S8c.selDie 0 S8c.nextId && !S8c.itemsHeld S8c.sel S8c.selDie 0 D 5 S8c.nextId (want.map Prod.snd)
      && (match S8c.getItems S8c.sel S8c.selDie 0 D 5 S8c.nextId (want.map Prod.snd) with
        | (s', its) => decide (s' = S8c) && (itemsFault D its).isNone))
    ∧ BundleMeets (.ldv 0 false 1 1 0) S8 (fun r =>
      let D := (S8.at 0).core.desc 1
      S8.itemsHeld S8.sel S8.selDie 0 D 1 S8.nextId ((transferItems D (S8.lanesOf r 0) false).map Prod.snd)
      && (S8.at 0).items.isEmpty && transfers S8 r 1 1 false)
    ∧ BundleMeets (.stv 0 63 3 31) S4 (fun r =>
      let D := (S4.at 0).core.desc 3
      transfers S4 r 63 3 true && decide (dClass D ≠ 6) && (S4.env r 0).unwatched ((transferItems D (S4.lanesOf r 0) true).flatMap (fun p => itemBytes D p.2))) :=
  ⟨bundle_meets (by decide +kernel), bundle_meets (by decide +kernel), bundle_meets (by decide +kernel), bundle_meets (by decide +kernel), bundle_meets (by decide +kernel), bundle_meets (by decide +kernel), bundle_meets (by decide +kernel)⟩

/-- S4 with a group table of 40 rows, and CCTL of cell 0. -/
def grouped (cctl : Word) : State := S4.updCore 0 0 0 (fun q => { q with gtab := 40, cctl := cctl })

/-- Macro-operation i issues in s: no check stops it, and its groups overrun the tile or not. -/
def entersMacro (s : State) (past : Bool) (i : Instr) : Bool :=
  match i.raw, macroForm i with
  | some r, some (op, ops) => bundleOk s r && decide (s.acting r = [0]) && (macroFault (s.env r 0) op ops).isNone && (groupsOverrun (s.at 0).core op ops == past)
  | _, _ => false

theorem meets_MacroOperationsQueue :
    ([Instr.mma 0 127 0 1 1 2 31 true true false, .mmaNest 0 0 0 1 1 2 3 false false false, .mmaGrp 0 0 1 1 1 2 3 false false false 0, .accz 0 0 2 32 0, .accout 0 0 0 1 3 4].all
      (entersMacro (grouped 0) false) = true)
    ∧ entersMacro (grouped 0) true (.mmaGrp 0 0 0 1 1 2 3 false false false 0) = true := by decide +kernel

/-- Instruction i issues in s where cell 0 alone acts. -/
def actsAlone (s : State) (i : Instr) : Bool :=
  match i.raw with
  | some r => bundleOk s r && decide (s.myCells = [0]) && decide (s.lanesOf r 0 ≠ [])
  | none => false

/-- S4 with st1 held by a macro-operation in the queue of cell 0, and its mark passed. -/
noncomputable def holding : State :=
  match exec (.mma 0 0 0 1 1 2 3 true false false) S4 with
  | .next t => (match exec (.markPass 0 0) t with
    | .next u => u
    | _ => S4)
  | _ => S4

theorem meets_StreamAndMacroFaults :
    ([Instr.stset 0 8 1, .stget 0 8 1, .stgo 0 1 3, .stsave 0 16 1 3, .stload 0 16 1 3].all (fun i => actsAlone holding i && holding.me.stHeld 0 0 1) = true)
    ∧ (let s := atX S4 8 (3 * 2 ^ 56 + 2 ^ 55)
       BundleMeets (.stset 0 8 1) s (fun r => weightStore ((s.env r 0).descAt 8) && actsAlone s (.stset 0 8 1) && !s.me.stHeld 0 0 1))
    ∧ (let s := atX S4 8 (7 * 2 ^ 56)
       BundleMeets (.stset 0 8 1) s (fun r => badDesc ((s.env r 0).descAt 8) && !weightStore ((s.env r 0).descAt 8) && actsAlone s (.stset 0 8 1)))
    ∧ (actsAlone S4 (.ldv 0 false 1 3 4) && dStore ((S4.at 0).core.desc 3) && actsAlone S4 (.stv 0 1 1 4) && !dStore ((S4.at 0).core.desc 1)
       && actsAlone S4 (.ldv 0 false 1 4 4) && !dGo ((S4.at 0).core.desc 4) && !dBfp ((S4.at 0).core.desc 4)) = true
    ∧ BundleMeets (.mma 0 0 0 1 1 1 3 true false false) S4 (fun r => (macroFault (S4.env r 0) 1 (tileOps 0 0 1 1 1 0 3 true false false 0)).isSome && actsAlone S4 (.mma 0 0 0 1 1 1 3 true false false))
    ∧ (let s := grouped 0x200
       entersMacro s true (.mmaGrp 0 0 0 1 1 2 3 false false false 0) && tbit (s.at 0).core.cctl 9 && actsAlone s (.mmaGrp 0 0 0 1 1 2 3 false false false 0)) = true :=
  ⟨by decide +kernel, bundle_meets (by decide +kernel), bundle_meets (by decide +kernel), by decide +kernel, bundle_meets (by decide +kernel), by decide +kernel⟩

theorem meets_TransfersSend :
    let s := (S0.updDctx 0 0 (fun x => { x with phaseOpen := true })).updRec 0 (fun r => { r with routesValid := 0xFFFF, cellsValid := 0xFFFF })
    (actsAlone s (.perm 0 63 62 15 31) && actsAlone s (.cshuf 0 1 2 15 31) && s.myDie.phaseOpen) = true
    ∧ (let s := atX (atX s 1 (8 * 65536 - 128)) 2 128
       (actsAlone s (.xmit 0 1 2 15 31) && actsAlone s (.recv 0 1 15 31) && decide (((s.at 0).core.rX 1).toNat + ((s.at 0).core.rX 2).toNat ≤ (s.me.win.ways - (s.at 0).core.cways) * 65536)) = true)
    ∧ (let s := atX (atX s 1 (8 * 65536)) 2 128
       (actsAlone s (.xmit 0 1 2 15 31) && decide ((s.me.win.ways - (s.at 0).core.cways) * 65536 < ((s.at 0).core.rX 1).toNat + ((s.at 0).core.rX 2).toNat)) = true)
    ∧ (let s := atX (atX s 1 64) 2 128
       (actsAlone s (.recv 0 1 15 31) && actsAlone s (.xmit 0 1 2 15 31) && decide (((s.at 0).core.rX 1).toNat % 128 ≠ 0)) = true)
    ∧ (let s := atX (atX s 1 0) 2 64
       (actsAlone s (.xmit 0 1 2 15 31) && decide (((s.at 0).core.rX 2).toNat % 128 ≠ 0)) = true)
    ∧ (let s := atX (atX s 1 0) 2 65664
       (actsAlone s (.xmit 0 1 2 15 31) && decide (65536 < ((s.at 0).core.rX 2).toNat ∧ ((s.at 0).core.rX 2).toNat ≤ (s.me.win.ways - (s.at 0).core.cways) * 65536)) = true)
    ∧ (let s := atX s 1 (2 ^ 52 + 1)
       (actsAlone s (.recv 0 1 15 31) && actsAlone s (.xmit 0 1 2 15 31) && decide (2 ^ 52 ≤ ((s.at 0).core.rX 1).toNat)) = true) := by decide +kernel

/-- n commands in the queue of engine e of die 0. -/
def engineFull (e n : Nat) : State :=
  let m : QCmd := S0.queued .device { cls := 0, e := [], items := [], acq := false, rel := false }
  S0.updPdie 0 (fun x => x.setEngine e { (x.engine e) with queue := List.replicate n m })

theorem meets_CellCommands :
    ((engineFull 0 31).selDie < 32 ∧ Shape (engineFull 0 31) ∧ Shape (engineFull 5 32))
    ∧ ([Instr.xfCpy 0 3 31 .system true true 7, .binscat 0 1 2 0 3 .cell 0].all (fun i => (xfForm i).isSome && actsAlone (engineFull 0 31) i
      && decide ((((engineFull 0 31).pdie 0).engine 0).queue.length < 32)) = true)
    ∧ (let i := Instr.xfInstall 0 1 2 .device false false 1
       ((xfForm i).isSome && actsAlone (engineFull 5 32) i && decide (32 ≤ (((engineFull 5 32).pdie 0).engine 5).queue.length)) = true) :=
  ⟨⟨by decide +kernel, by unfold Shape; decide +kernel, by unfold Shape; decide +kernel⟩, by decide +kernel, by decide +kernel⟩

/-- The checks of R42 that precede the slots' own, computed. -/
def passOk (s : State) (r : Raw) : Bool :=
  r.legal && (!privileged r || s.me.priv) && (match r.ts with | some n => s.core.tokmask.getLsbD n | none => true)
  && (!tbit s.core.sstat 8 || !readsPending s.core r)

theorem passOk_meets {s : State} {r : Raw} (h : passOk s r = true) : s.passes r := by
  simp only [passOk, Bool.and_eq_true, Bool.or_eq_true, Bool.not_eq_true'] at h
  obtain ⟨⟨⟨h6, h7⟩, h8⟩, h9⟩ := h
  refine ⟨h6, fun hp => ?_, fun n hn => ?_, fun hp => ?_⟩
  · rcases h7 with h | h
    · rw [h] at hp; cases hp
    · exact h
  · rw [hn] at h8; exact h8
  · rcases h9 with h | h
    · rw [h] at hp; cases hp
    · exact h

/-- The word at the PC of the selected context holds slot r alone. -/
def holdsWord (s : State) (r : Raw) : Bool :=
  match decodeWord (s.wordBits s.sel) with
  | .ok w => decide (w.single = some r)
  | .error _ => false

/-- The word at the PC does not decode. -/
def wordBad (s : State) : Bool :=
  match decodeWord (s.wordBits s.sel) with
  | .ok _ => false
  | .error _ => true

/-- WAITS 6, 1 stands at the PC of a context that waits for it. -/
def waitingWord : State :=
  let s := { S0 with cstore := [(0, 0x56000100)] }
  s.updRec 0 (fun r => { r with life := .waiting .waits, core := r.core.wTs 6 1 })

theorem meets_IssueSteps_words :
    (issueOk S0 && decide (S0.wordBits S0.sel = 0) && Instr.seq.raw.isSome) = true
    ∧ (let s := { S0 with cstore := [(0, 0xA000000000000000000000000000)] }
       (issueOk s && wordBad s && waitsHolds s.core (s.nextX s.sel) && !broadcasts (s.nextX s.sel)) = true)
    ∧ (let s := waitingWord
       (decide (s.sel < 16 ∧ s.me.life = .waiting .waits ∧ s.me.seqFlag = none) && s.me.slot.isSome && !s.asleep && tokHolds (s.core.rTs 6) 1
         && (match (Instr.waits 6 1).raw with
           | some r => holdsWord s r && passOk s r
           | none => false)) = true) := by decide +kernel

theorem meets_IssueSteps :
    (S0.asleep = true ∨ S0.frameDue = false)
    ∧ (let s := ({ S0 with mbx := S0.mbx.set 0 8 }).updRec 0 (fun r => { r with life := .waiting (.idle 3) })
     (decide (s.sel < 16 ∧ s.me.life = .waiting (.idle 3)) && (s.mbx.getD s.sel 0).getLsbD 3 && silent s) = true)
    ∧ (let s := S0.updRec 15 (fun r => { r with occFlight := List.replicate 36 4 })
       36 ≤ (s.rc 15).occFlight.length)
    ∧ (let s := S0.updRec 0 (fun r => { r with life := .frozen (.brk 0x21 0 0 0), core := r.core.issue { reg := .s 1, vals := [(0, 5)], lat := 3 } })
       (s.rc 0).life = .frozen (.brk 0x21 0 0 0) ∧ (s.rc 0).core.fly ≠ [])
    ∧ (let s := S0.updDctx 0 0 (fun x => { x with dly := 3 })
       s.selDie < 32 ∧ s.myDie.dly ≠ 0 ∧ (s.updDctx s.sel s.selDie (fun x => { x with dly := 0, redAsk := [] })).cannotBundle s.sel s.selDie = none) := by decide +kernel

/-- A bundle that waits in a decode queue. -/
def entry0 (w : Nat) : QEntry := { idx := litIdx, lit := some w, reps := 1, inn := 0, diemask := 1, cellmask := 1, no := 0 }

/-- The head bundle of die 0 holds slot r alone, and the die waits for it. -/
def waitsFor (s : State) (i : Instr) (h : Hold) : Bool :=
  match i.raw, s.myDie.q with
  | some r, e :: _ =>
    (match decodeBundle (s.me.bundleBits e.idx e.lit) with
      | .ok b => decide (b.single = some r)
      | .error _ => false)
    && decide (s.myDie.hold = some h ∧ e.diemask = s.core.diemask ∧ e.cellmask = s.core.cellmask)
    && bundleOk (s.updDctx s.sel s.selDie (fun x => { x with hold := none })) r
    && ((s.updDctx s.sel s.selDie (fun x => { x with hold := none })).mustYield s.sel s.selDie e).isNone
  | _, _ => false

theorem meets_DecodeQueueSteps :
    (let s := fun (f : Frame) => { (S0.updDctx 0 0 (fun x => { x with frames := [(0, f)], redAsk := [] })) with clk := 36 }
     ((s (.bundle (entry0 0))).dctx 0 0).frames = (0, .bundle (entry0 0)) :: [] ∧ 0 + 36 ≤ (s (.bundle (entry0 0))).clk
     ∧ ((s (.red 3)).dctx 0 0).frames = (0, .red 3) :: []
     ∧ ((s (.mark 7)).dctx 0 0).frames = (0, .mark 7) :: [] ∧ ((s (.mark 7)).dctx 0 0).passed ≠ 7 ∧ ((s (.mark 7)).dctx 0 0).atMark ≠ some 7)
    ∧ (let s := S0.updDctx 0 0 (fun x => { x with q := [entry0 1] })
       (decide (s.cannotBundle s.sel s.selDie = none ∧ s.selDie < 32 ∧ s.myDie.q = [entry0 1] ∧ s.mustYield s.sel s.selDie (entry0 1) = none)
         && (match decodeBundle (s.me.bundleBits litIdx (some 1)) with
           | .ok _ => false
           | .error _ => true)) = true)
    ∧ (let s := S0.updDctx 0 0 (fun x => { x with q := [entry0 0] })
       (decide (s.cannotBundle s.sel s.selDie = none ∧ s.myDie.q = [entry0 0] ∧ s.mustYield s.sel s.selDie (entry0 0) = none ∧ s.myDie.sinceMark < 1024 ∧ s.myDie.sinceStores ≤ 128)
         && (match decodeBundle (s.me.bundleBits litIdx (some 0)) with
           | .ok b => decide (b = {})
           | .error _ => false)) = true)
    ∧ (let s := S0.updDctx 0 0 (fun x => { x with hold := some .wait, q := [entry0 0x0100A00018000000] })
       waitsFor s (.wait 20 3) .wait = true
       ∧ (let u := s.updCore 0 0 0 (fun q => q.wTk 20 3)
          u.myCells.all (fun l => tokHolds ((u.at l).core.rTk 20) 3) = true))
    ∧ (let s := S0.updDctx 0 0 (fun x => { x with hold := some .waitf, q := [entry0 0x0200005000000002] })
       waitsFor s (.waitf 5 2) .waitf = true ∧ s.myCells = [0] ∧ s.lineFull 0 0 0 2 = true) := by decide +kernel

/-- An operation of context 0, issued. -/
def op0 (org : Option (Nat × Nat)) (tok : Option Nat) (dest : Option RegId) (body : Body) : Req :=
  { (mkReq org 0 2 tok dest body false false) with id := 3, stage := .out }

/-- S1 with one operation. -/
def withOp (q : Req) : State := { (S1.updRec 0 (fun r => { r with reqs := [q] })) with nextId := 9 }

/-- A coherent access of 8 bytes of DRAM at 64. -/
def part0 (op : AccOp) : Part := { lane := 0, tgt := { key := 64, cls := 0, va := 64, ref := none }, n := 8, op := op, val := 5 }

theorem meets_OperationSteps :
    (∀ op ∈ [AccOp.load, .store, .rmw .add], ∃ q, (withOp (op0 none (some 1) (some (.s 4)) (.mem .coherent [part0 op]))).plainAccess 3 0 q (part0 op)
      ∧ (withOp (op0 none (some 1) (some (.s 4)) (.mem .coherent [part0 op]))).bad 64 = false)
    ∧ (∃ q, ({ (withOp (op0 none (some 1) (some (.s 4)) (.mem .coherent [part0 .load]))) with poison := [(0, 0)] }).plainAccess 3 0 q (part0 .load)
      ∧ ({ (withOp (op0 none (some 1) (some (.s 4)) (.mem .coherent [part0 .load]))) with poison := [(0, 0)] }).bad 64 = true)
    ∧ (let q := op0 (some (0, 0)) none (some (.v 4)) (.vals [(63, 7)])
       (withOp q).req 3 = some (0, q) ∧ (withOp q).asleep = false ∧ q.stage = .out ∧ (withOp q).blocked 0 q = false ∧ q.ord = .relaxed)
    ∧ (let q := { (op0 none (some 15) none (.fence false)) with stage := .performed }
       (withOp q).req 3 = some (0, q) ∧ q.stage = .performed ∧ ((withOp q).rc 0).life ≠ .saved)
    ∧ (let q := { (op0 (some (0, 0)) (some 31) none (.fence false)) with stage := .performed }
       (withOp q).req 3 = some (0, q) ∧ q.stage = .performed) := by
  refine ⟨?_, ?_, by decide +kernel, by decide +kernel, by decide +kernel⟩
  · intro op hop
    simp only [List.mem_cons, List.not_mem_nil, or_false] at hop
    rcases hop with rfl | rfl | rfl <;> exact ⟨_, by unfold State.plainAccess; refine ⟨rfl, ?_⟩; decide +kernel, by decide +kernel⟩
  · exact ⟨_, by unfold State.plainAccess; refine ⟨rfl, ?_⟩; decide +kernel, by decide +kernel⟩

/-- S4 with an A-marked LDX waiting in the decode queue. -/
def aheadState : State := S4.updDctx 0 0 (fun x => { x with q := [entry0 ((⟨.ls, 7, [0, 1, 1, 2, 3, 3, 0]⟩ : Raw).encode * 2 ^ 128)] })

theorem meets_CellSteps :
    (let s := aheadState
     ((s.rc 0).slot.isSome && (s.rc 0).field.dies.contains 0 && decide ((s.rc 0).life = .ready) && !(s.rc 0).diesStop && !s.asleep && (s.dctx 0 0).flag.isNone
       && (match (s.rc 0).nextAccess (s.dctx 0 0) with
         | some (a, e, _) => decide (inDiff a (s.dctx 0 0).e < 256) && (activeCells (s.rc 0) 0 e.diemask e.cellmask).all (fun l => !(s.rc 0).acquireWaits 0 l s.nextId
             && decide ((s.rc 0).tracked 0 l + ((s.dctx 0 0).ahead.filter (fun y => y.cell == l)).length < 64 * (s.rc 0).win.trk))
         | none => false)) = true)
    ∧ ((S4.rc 0).slot.isSome && !S4.asleep && (S4.cell 0 0 0).core.fly.isEmpty && (S4.cell 0 0 0).core.pend.isEmpty && !(S4.rc 0).acquireWaits 0 0 S4.nextId
       && (match (S4.cell 0 0 0).nextItem 1 with
         | some i => !S4.itemsHeld 0 0 0 ((S4.cell 0 0 0).core.desc 1) 1 (((S4.cell 0 0 0).consumer 1 i).getD S4.nextId) [i]
         | none => false)) = true
    ∧ (let s := S0.updCell 0 0 0 (fun y => { y with core := { y.core with rbTaken := 1 } })
       (s.cell 0 0 0).core.rbMade < (s.cell 0 0 0).core.rbTaken + 16) := by decide +kernel

/-- A macro-operation whose entry stands in the queue of cell 0, or runs, under operation 3. -/
def mx0 (op : Nat) (zero : Bool) : MxEntry :=
  { ops := tileOps 0 0 1 1 2 0 3 zero false false 0, op := op, ein := 0, row := 0, step := 0, grp := 0, gt := 0, req := 3 }
/-- S4 with that operation queued. -/
def queuedMx (op : Nat) (zero : Bool) : State :=
  { (S4.updCell 0 0 0 (fun y => { y with core := { y.core with mxq := [mx0 op zero] } })).updRec 0 (fun r =>
      { r with reqs := [op0 (some (0, 0)) (some 3) none (.macro_ op (mx0 op zero).ops [])] }) with nextId := 9 }
/-- S4 with that operation running. -/
def runningMx (op : Nat) (zero : Bool) : State :=
  { (S4.updCell 0 0 0 (fun y => { y with run := some (mx0 op zero) })).updRec 0 (fun r =>
      { r with reqs := [op0 (some (0, 0)) (some 3) none (.macro_ op (mx0 op zero).ops [])] }) with nextId := 9 }

theorem meets_MatrixSteps :
    ([(1, true), (3, true), (3, false)].all (fun p =>
      let s := queuedMx p.1 p.2
      decide ((s.cell 0 0 0).run = none ∧ (s.cell 0 0 0).core.mxq = [mx0 p.1 p.2] ∧ s.skips 0 3 = []) && (s.rc 0).slot.isSome && !s.asleep
      && !(s.rc 0).matrixStops (mx0 p.1 p.2)
      && ((s.rc 0).reqs.find? (fun q => q.id == (mx0 p.1 p.2).req)).any (fun q => q.stage == .out && !s.blocked 0 q)) = true)
    ∧ (let s := runningMx 4 false
       ((s.cell 0 0 0).run.isSome && !s.asleep && !(s.rc 0).matrixStops (mx0 4 false) && (s.dctx 0 0).flag.isNone && decide (s.skips 0 3 = [])) = true)
    ∧ (let s := (runningMx 1 true).updCell 0 0 0 (fun y => { y with items := [{ st := 1, t := 0, vals := [0], fault := some (0x11, 1, 64), empty := false }] })
       ((s.cell 0 0 0).run.isSome && !(s.rc 0).matrixStops (mx0 1 true) && (s.dctx 0 0).flag.isNone
         && (match s.macroRow 0 0 0 (mx0 1 true) with
           | (s', .error _) => (s'.dctx 0 0).flag.isNone && decide (0 < s'.recs.length)
           | _ => false)) = true) := by decide +kernel

/-- A reduction of group 2 over the given dies, with values on their way and at the sequencer. -/
def redOp (dies : List Nat) (air got : List (Nat × Word)) : Req := op0 none (some 6) (some (.s 12)) (.red 2 2 0 1 0 dies air got)

theorem meets_FieldSteps :
    (let s := (withOp (redOp [0] [] [])).updDctx 0 0 (fun x => { x with redAsk := [3] })
     (s.rc 0).redReq 2 = some (redOp [0] [] []) ∧ 3 ∈ (s.dctx 0 0).redAsk ∧ (s.dctx 0 0).dly = 0 ∧ inDiff 0 (s.dctx 0 0).e ≤ 0)
    ∧ ((withOp (redOp [0, 1] [(0, 5)] [])).rc 0).redReq 2 = some (redOp [0, 1] [(0, 5)] [])
    ∧ (((withOp (redOp [0] [(0, 5)] [])).rc 0).redReq 2 = some (redOp [0] [(0, 5)] []) ∧ silent (withOp (redOp [0] [(0, 5)] [])) = true
      ∧ ((withOp (redOp [] [] [])).rc 0).redReq 2 = some (redOp [] [] []) ∧ ((withOp (redOp [] [] [])).rc 0).life ≠ .saved)
    ∧ (let s := S0.updDctx 0 0 (fun x => { x with barPend := 1 })
       0 < (s.dctx 0 0).barPend)
    ∧ (let s := S0.updDctx 0 0 (fun x => { x with hold := some (.bar true [0]) })
       (s.dctx 0 0).barPend = 0 ∧ (s.dctx 0 0).hold = some (.bar true [0]) ∧ (s.dctx 0 0).barSteps = false ∧ s.releaseDone 0 0 [0] = true ∧ (s.rc 0).allReported 0 = true)
    ∧ (let s := S0.updDctx 0 0 (fun x => { x with hold := some (.bar false [0]) })
       (s.dctx 0 0).hold = some (.bar false [0]) ∧ s.releaseDone 0 0 [0] = true)
    ∧ (let s := S0.updDctx 0 0 (fun x => { x with hold := some .phase, phaseOpen := true })
       (s.rc 0).field.dies ≠ [] ∧ ∀ d ∈ (s.rc 0).field.dies, (s.rc 0).phaseArrived d = true) := by decide +kernel

/-- The map entry of the bundles of IN 0 to 2, at PC 5. -/
def mark0 : MarkEntry := { wpc := 5, npc := 6, idx := 17, count := 3, kind := false, shd := SeqCore.reset, first := 0, opsTo := 9 }

/-- S0 whose die has passed the marks up to IN k. -/
def passedTo (k : BitVec 48) : State :=
  let sh : Shadow := { mark := k, dc := [], cells := [], phaseOpen := false, xfers := 0, perms := 0, barSeq := 0 }
  (S0.updRec 0 (fun r => { r with marks := r.marks ++ [mark0] })).updDctx 0 0 (fun x => { x with passed := k, e := k + 1, shadows := x.shadows ++ [sh] })

theorem meets_MarkSteps :
    (let s := S0.updDctx 0 0 (fun x => { x with atMark := some 0, e := 1 })
     s.asleep = false ∧ (s.dctx 0 0).atMark = some 0 ∧ (s.dctx 0 0).shadows.length < 2 ∧ (s.dctx 0 0).closing = false)
    ∧ (let s := S0.updDctx 0 0 (fun x => { x with atMark := some 0, e := 1, hold := some .phase, phaseOpen := false })
       (s.dctx 0 0).closing = true ∧ (s.rc 0).xferOpen 0 0 = false)
    ∧ (((passedTo 0).rc 0).nextMark = some 0 ∧ ((passedTo 0).rc 0).slot.isSome = true ∧ inDiff 0 ((passedTo 0).rc 0).commonMark ≤ 0 ∧ ((passedTo 0).rc 0).field.dies.Nodup)
    ∧ (let s := (passedTo 0).updDctx 0 0 (fun x => { x with commits := [0] })
       (s.dctx 0 0).commits = 0 :: []) := by decide +kernel

theorem meets_StopSteps :
    (let s := fun (l : Life) (h : Bool) => (S0.updRec 0 (fun r => { r with life := l, hact := h })).updDctx 0 0 (fun x => { x with flag := some (flag0 false) })
     ((s .ready false).rc 0).slot.isSome = true ∧ ((s .ready false).dctx 0 0).flag = some (flag0 false) ∧ ((s .ready false).dctx 0 0).flagSent = false
     ∧ ((s .ready false).rc 0).hact = false ∧ ((s .ready false).rc 0).life = .ready
     ∧ ((s (.frozen (.rollback (flag0 false))) false).rc 0).life = .frozen (.rollback (flag0 false))
     ∧ ((s .halted true).rc 0).hact = true ∧ ((s .halted true).rc 0).heldF = none)
    ∧ (let s := S0.updDctx 0 0 (fun x => { x with fevents := [flag0 true] })
       (s.rc 0).slot.isSome = true ∧ (s.dctx 0 0).flag = none ∧ (s.dctx 0 0).fevents ≠ [] ∧ firstFlag (s.rc 0).events = some (flag0 true)
       ∧ (∀ p ∈ (s.rc 0).dies, p.2.flag = none) ∧ (s.rc 0).hact = false ∧ (s.rc 0).life = .ready)
    ∧ (let s := (passedTo 2).updRec 0 (fun r => { r with life := .frozen (.rollback (flag0 false)) })
       (s.rc 0).standsAt ((s.rc 0).rollbackMark 5) = true ∧ ((s.rc 0).entryOf ((s.rc 0).rollbackMark 5)) = some mark0 ∧ (s.rc 0).hact = false)
    ∧ (let s := S0.updRec 0 (fun r => { r with life := .frozen (.brk 0x21 1 0 0) })
       (s.rc 0).life = .frozen (.brk 0x21 1 0 0) ∧ (s.rc 0).drained = true ∧ (s.rc 0).hact = false) := by decide +kernel

theorem meets_SaveSteps :
    ((S0.rc 0).slot.isSome = true ∧ (S0.rc 0).life = .ready ∧ (S0.rc 0).life ≠ .waiting .start)
    ∧ (let s := S0.updRec 0 (fun r => { r with life := .waiting .start })
       (s.rc 0).slot.isSome = true ∧ (s.rc 0).life = .waiting .start)
    ∧ (let s := S0.updRec 0 (fun r => { r with life := .frozen (.preempt none false) })
       (s.rc 0).life = .frozen (.preempt none false) ∧ (s.rc 0).standsAt (s.rc 0).commonMark = true ∧ (s.rc 0).unsettled (s.rc 0).commonMark = false)
    ∧ (let m : QCmd := S0.queued .device { cls := 7, e := [0, 0x100000, 0x4000000, 0, 0, 0, 0, 0], items := [], acq := false, rel := false }
       let s := { (S0.updRec 0 (fun r => { r with life := .frozen (.preempt (some 0) false) })) with armRun := S0.armRun.set 7 (some m) }
       (s.rc 0).standsAt (s.rc 0).commonMark = true ∧ (s.rc 0).unsettled (s.rc 0).commonMark = false ∧ (s.rollForSave 0).saveCmd 0 = some m
       ∧ ((s.rollForSave 0).rc 0).imageSize ≤ (m.cmd.e.getD 2 0).toNat)
    ∧ (let s := fun (b : Bool) => S0.updRec 0 (fun r => { r with life := .frozen (.page (flag0 false) b), rcnt := 3 })
       ((s true).rc 0).life = .frozen (.page (flag0 false) true) ∧ ((s false).rc 0).life = .frozen (.page (flag0 false) false) ∧ (s false).sel = 0
       ∧ 0 < (s false).me.rcnt ∧ ((s false).rc 0).hact = false)
    ∧ (let m : QCmd := { (S0.queued .device { cls := 0, e := [], items := [], acq := false, rel := false }) with page := true }
       let s := S0.setRunning (.copy 0 2) (some m)
       s.pageWaiter 0 = some (.copy 0 2, m) ∧ m.ended = false ∧ (s.rc 0).life = .ready) := by decide +kernel

/-- A command of the firmware with a descriptor. -/
def cmd0 (cls : Nat) (e : List Word) : QCmd :=
  { (S0.queued .device { cls := cls, e := e, items := [], acq := false, rel := false }) with req := cmdFirmware }

/-- S1 with a WEIGHT page at 2^29 in the TLB of die 0. -/
def S9 : State := S1.updPdie 0 (fun x => { x with tlb := x.tlb ++ [(2 ^ 36 + 2, { word := 0x01000000003F, level := 2 })] })

/-- `Shape`, computed. -/
def shapeOk (s : State) : Bool :=
  decide (s.recs.length = 17 ∧ s.dies.length = 32 ∧ s.armq.length = 8 ∧ s.armRun.length = 8 ∧ s.mbx.length = 16 ∧ s.qslots.length = 32 ∧ s.pods.length = 8)

theorem engineRuns_of {s : State} {e : EngineId} {m : QCmd} (h1 : Shape s)
    (h2 : (engineOk e && !s.asleep && decide (s.running e = some m) && !s.isPaused e) = true) : s.engineRuns e m := by
  simp only [Bool.and_eq_true, Bool.not_eq_true', decide_eq_true_eq] at h2
  exact ⟨h1, h2.1.1.1, h2.1.1.2, h2.1.2, h2.2⟩

theorem meets_EngineSteps_queues :
    (let s := { S0 with armq := S0.armq.set 0 [cmd0 0 []] }
     Shape s ∧ s.asleep = false ∧ s.armq.getD 0 [] = cmd0 0 [] :: [] ∧ enginePlace (s.engineFor (cmd0 0 [])) = some (0, 0) ∧ s.released (cmd0 0 []) = true
     ∧ ((s.pdie 0).engine 0).queue.length < 32)
    ∧ (let s := S0.updPdie 0 (fun x => x.setEngine 0 { Engine.reset with queue := [cmd0 0 []] })
       Shape s ∧ s.asleep = false ∧ s.running (.copy 0 0) = none ∧ (s.takeHead (.copy 0 0)).map Prod.fst = some (cmd0 0 []) ∧ (cmd0 0 []).cmd.acq = false
       ∧ ((s.takeHead (.copy 0 0)).map (fun p => p.2.nearMoves (cmd0 0 []))) = some false) := by
  refine ⟨⟨by unfold Shape; decide +kernel, ?_⟩, ⟨by unfold Shape; decide +kernel, ?_⟩⟩ <;> decide +kernel

/-- S0 with command m running on copy engine 0 of die 0, under an operation of context 0 that is performed but for its posting. -/
def commanded (org : Option (Nat × Nat)) (m : QCmd) : State :=
  (withOp { (op0 org (some 1) none (.cmd m.cmd)) with stage := .performed }).setRunning (.copy 0 0) (some m)

theorem meets_EngineSteps_ends :
    (let m := { (cmd0 0 []) with ended := true }
     let s := S0.setRunning (.copy 0 0) (some m)
     s.engineRuns (.copy 0 0) m ∧ m.ended = true ∧ m.status = 0 ∧ m.req = cmdFirmware)
    ∧ (let m := { (cmd0 0 []) with ended := true, req := 3 }
       (commanded none m).engineRuns (.copy 0 0) m ∧ (commanded (some (0, 0)) m).engineRuns (.copy 0 0) m
       ∧ (m.ended = true ∧ m.status = 0 ∧ m.req ≠ cmdFirmware
         ∧ [none, some (0, 0)].all (fun o => match (commanded o m).req m.req with
           | some (c, q) => decide (c = 0 ∧ q.tok = some 1 ∧ q.org = o)
           | none => false) = true))
    ∧ (let m := cmd0 0 [0x4000000000, 0, 0x100000040, 0, 0, 0, 0, 0]
       let s := S9.setRunning (.copy 0 0) (some m)
       s.engineRuns (.copy 0 0) m ∧ m.ended = false ∧ m.page = false
       ∧ (match s.runCmd (.copy 0 0) m with
         | some (.page s' _) => shapeOk s'
         | _ => false) = true) := by
  refine ⟨⟨engineRuns_of (by unfold Shape; decide +kernel) (by decide +kernel), by decide +kernel⟩,
    ⟨engineRuns_of (by unfold Shape; decide +kernel) (by decide +kernel), engineRuns_of (by unfold Shape; decide +kernel) (by decide +kernel), by decide +kernel⟩,
    ⟨engineRuns_of (by unfold Shape; decide +kernel) (by decide +kernel), by decide +kernel⟩⟩
/-- A root table at 0x10000 of die 0, a table at 0x20000, and at the virtual addresses 0 and 2^28 the pages that S1's TLB holds. -/
def paged : State :=
  let m := memWrite (memWrite (memWrite [] 0x10000 8 0x20001) 0x20000 8 0xF) 0x20010 8 0x1000006F
  { S1 with mem := m, tenants := [(0, { tenant0 with rootPa := 0x10000 })] }

/-- A command of context 0 under operation 3. -/
def cmd3 (cls : Nat) (e : List Word) : QCmd := { (cmd0 cls e) with req := 3 }
/-- s with command m running on engine e, under an operation of context 0. -/
def runningIn (s : State) (e : EngineId) (m : QCmd) : State :=
  ({ (s.updRec 0 (fun r => { r with reqs := [op0 none (some 1) none (.cmd m.cmd)] })) with nextId := 9 }).setRunning e (some m)

theorem meets_EngineSteps_messages :
    (let m := cmd3 3 [16 * 2 + 1, 64, 0, 0, 0, 0, 0, 0]
     let s := runningIn (paged.updRec 1 (fun r => { r with life := .ready, slot := some 1, field := ⟨1, 0, 1, 1⟩ })) (.armature 3) m
     s.engineRuns (.armature 3) m ∧ m.ended = false ∧ m.cmd.cls = 3 ∧ m.w 0 < 64 ∧ m.w 1 % 64 = 0 ∧ m.w 1 < 2 ^ 52 ∧ touchesCtl (m.w 1) 64 = false
     ∧ m.zeroFrom 3 = true ∧ m.status = 0 ∧ (s.req m.req).isSome = true ∧ s.mbxDenied m.pasid 1 = false
     ∧ (match s.engBytes m (m.w 1) 1 with
       | (s', .bytes bs) => shapeOk s' && (s'.req m.req).isSome && decide (bs.length = 64) && !s'.mbxFull 1 2
       | _ => false) = true)
    ∧ (let m := cmd3 3 [16 * 2 + 1, 64, 0, 0, 0, 0, 0, 0]
       let s := runningIn ({ (paged.updRec 1 (fun r => { r with life := .ready, slot := some 1, field := ⟨1, 0, 1, 1⟩ })) with mbx := S0.mbx.set 1 15 }) (.armature 3) m
       s.engineRuns (.armature 3) m ∧ s.mbxDenied m.pasid 1 = false
       ∧ (match s.engBytes m (m.w 1) 1 with
         | (s', .bytes bs) => shapeOk s' && (s'.req m.req).isSome && decide (bs.length = 64) && s'.mbxFull 1 2
         | _ => false) = true)
    ∧ (let m := cmd3 3 [3, 0, 0, 0, 0, 0, 0, 0]
       let s := runningIn S1 (.armature 3) m
       s.engineRuns (.armature 3) m ∧ s.mbxDenied m.pasid 3 = true ∧ m.w 0 < 64 ∧ m.w 1 % 64 = 0 ∧ m.zeroFrom 3 = true ∧ (s.req m.req).isSome = true) := by
  refine ⟨⟨engineRuns_of (by unfold Shape; decide +kernel) (by decide +kernel), by decide +kernel⟩,
    ⟨engineRuns_of (by unfold Shape; decide +kernel) (by decide +kernel), by decide +kernel⟩,
    ⟨engineRuns_of (by unfold Shape; decide +kernel) (by decide +kernel), by decide +kernel⟩⟩

/-- A copy of context 0 that would write a line that die 0 watches. -/
def watching : State :=
  let m : QCmd := { (cmd0 0 [0x1000, 0x2000, 0x100000040, 0, 0, 0, 0, 0]) with req := 3 }
  let s := (withOp (op0 none none none (.cmd m.cmd))).updPdie 0 (fun x => { x with watch := [{ wbase := [0x2000, 0, 0, 0], wctl := [0xC000000000FF0FFF, 0, 0, 0] }] })
  s.setRunning (.copy 0 0) (some m)

theorem meets_EngineSteps_watch :
    let m := (watching.running (.copy 0 0)).getD (cmd0 0 [])
    watching.engineRuns (.copy 0 0) m ∧ m.ended = false ∧ m.cmd.cls = 0
    ∧ (match watching.runCpy (.copy 0 0) m with
      | .watch .. => true
      | _ => false) = true :=
  ⟨engineRuns_of (by unfold Shape; decide +kernel) (by decide +kernel), by decide +kernel⟩

/-- An install of one unit from address 0, accepted. -/
def installCmd : QCmd := { (cmd0 1 [0, 0x20000000, 0x2000000, 0, 0, 0, 0, 0]) with cmd := { cls := 1, e := [0, 0x20000000, 0x2000000, 0, 0, 0, 0, 0], items := [(1, 0, 0)], acq := false, rel := false } }

/-- S9 with the Kiln of die 0 running that install. -/
def installing : State := S9.setRunning (.kiln 0) (some installCmd)

/-- The source of that install is readable, page by page: S9's TLB holds its large page, and its memory holds nothing. -/
theorem installing_reads (va : Nat) (h : va < 2 ^ 25) :
    installing.engAt installCmd.agent (some 0) installCmd.pasid va (.item false clsDRAM) = (installing, .val va) := by
  have hc : inCtlPage va = false := decide_eq_false (by unfold ctlPage; omega)
  have ht : (installing.pdie 0).tlb = [(2 ^ 36, { word := 0xF, level := 2 }), (2 ^ 36 + 1, { word := 0x1000006F, level := 2 }),
      (2 ^ 36 + 2, { word := 0x01000000003F, level := 2 })] := by decide +kernel
  have hp : installCmd.pasid = 0 := by decide +kernel
  have hf : installing.tlbFind 0 installCmd.pasid va = some { word := 0xF, level := 2 } := by
    have k3 : tlbKey 0 va 3 = va / 2 ^ 16 := by simp [tlbKey]
    have k2 : tlbKey 0 va 2 = 2 ^ 36 := by simp only [tlbKey, if_true]; omega
    rw [State.tlbFind, hp, ht, k3, k2, mapFind, if_neg (by omega), if_pos (by omega)]
    rfl
  have hk : pageTarget installCmd.pasid va (0xF : Word) 2 = { key := va, cls := 0, va := va, ref := none } := by
    have hm : va % 2 ^ 28 = va := Nat.mod_eq_of_lt (by omega)
    have e1 : pteClass (15#64) = 0 := by decide
    have e2 : bitsOf (15#64) 56 2 = 0 := by decide
    have e3 : bitsOf (15#64) 54 2 = 0 := by decide
    have e4 : pteHome (15#64) = 0 := by decide
    have e5 : pteFrame (15#64) = 0 := by decide
    simp [pageTarget, e1, e2, e3, e4, e5, hm, clsHOST, clsPEER, dieKey] <;> omega
  simp only [State.engAt, hc, State.xlate, hf, hk]
  rfl

/-- It has no line in error. -/
theorem installing_sound (k : Nat) (h : k < 2 ^ 25) : installing.bad k = false := by
  have hp : installing.poison = [] := by decide +kernel
  have hm : k % 2 ^ 48 = k := Nat.mod_eq_of_lt (by omega)
  have hl : ¬ (0x010000000000 ≤ k ∧ k < 0x018000000000) := by omega
  simp [State.bad, hp, mapFind, hm, hl] <;> (intros; omega)

/-- So a unit's source is read whole. -/
theorem installing_unit : ∀ n src key, src + 4096 * n ≤ 2 ^ 25 → installing.unitPages 0 installCmd src key n = (installing, some none) := by
  have hm : installing.mem = [] := by decide +kernel
  have hl : installing.l2 = [] := by decide +kernel
  intro n
  induction n with
  | zero => intro src key _; rfl
  | succ n ih =>
    intro src key h
    have hb : (List.range 32).any (fun i => installing.bad (src + 128 * i)) = false := by
      simp only [List.any_eq_false, List.mem_range]
      intro i hi
      rw [installing_sound _ (by omega)]
      decide
    have hn : installing.noteRange src 4096 = installing := by simp [State.noteRange, hl]
    have hs : { installing with mem := memCopy installing.mem src key 4096 } = installing := by
      have : memCopy installing.mem src key 4096 = installing.mem := by rw [hm]; rfl
      rw [this]
    simp only [State.unitPages, installing_reads src (by omega), hb, hn, hs]
    exact ih (src + 4096) (key + 4096) (by omega)

theorem meets_HeapSteps_install :
    installing.health.hstate ≠ 2 ∧ installing.engineRuns (.kiln 0) installCmd ∧ installCmd.ended = false ∧ installCmd.cmd.cls = 1 ∧ installCmd.accepted = true ∧ installCmd.left = 1
    ∧ (match installing.engAt installCmd.agent (some 0) installCmd.pasid (installCmd.w 1 + installCmd.prog * unitBytes) .kiln with
      | (s', .val key) => decide (s' = installing ∧ key = 0x010000000000)
      | _ => false) = true
    ∧ installing.readers 0 (flashUnit 0x010000000000) = false
    ∧ installing.unitPages 0 installCmd (installCmd.w 0 + installCmd.prog * unitBytes) 0x010000000000 8192 = (installing, some none)
    ∧ Shape installing ∧ mapFind installing.tenants installCmd.pasid = some tenant0
    ∧ ((installing.pdie 0).program (flashUnit 0x010000000000) false installing.freeCtr).2.2 = false :=
  ⟨by decide +kernel, engineRuns_of (by unfold Shape; decide +kernel) (by decide +kernel), by decide +kernel, by decide +kernel, by decide +kernel, by decide +kernel, by decide +kernel,
    by decide +kernel, installing_unit _ _ _ (by decide +kernel), by unfold Shape; decide +kernel, by decide +kernel, by decide +kernel⟩

/-- The same where a started stream of cell 0 still reads that unit. -/
def installRead : State :=
  let m := memWrite paged.mem 0x20020 8 0x01000000003F
  { (installing.updCore 0 0 0 (fun q => q.setDesc 1 (desc0 (3 * 2 ^ 56 + 2 ^ 29)))) with mem := m, tenants := paged.tenants }

theorem meets_HeapSteps_install_readers :
    installRead.engineRuns (.kiln 0) installCmd
    ∧ (match installRead.engAt installCmd.agent (some 0) installCmd.pasid (installCmd.w 1 + installCmd.prog * unitBytes) .kiln with
      | (s', .val key) => shapeOk s' && s'.readers 0 (flashUnit key) && (mapFind s'.tenants installCmd.pasid).isSome
      | _ => false) = true :=
  ⟨engineRuns_of (by unfold Shape; decide +kernel) (by decide +kernel), by decide +kernel⟩

/-- The move of object 0x2A, with a new copy at 2^28 + 2^16; k lines are copied, and acks are awaited. -/
def moving (k : Nat) (acks : Option (List Nat)) : State :=
  let m := cmd0 2 [BitVec.ofNat 64 ref0, 0x10010000, 0, 0, 0, 0, 0, 0]
  let v : Move := { pasid := 0, hid := 0, obj := 0x2A, old := 0x10000000, new := 0x10010000, oldPages := [0x10000000], newPages := [0x10010000], lines := 4, done := k,
                    poisoned := false, no := 6, acks := acks }
  let s := { S1 with fwd := [(0x2A, mkFwd 7 0 2 512 0x10000000 0x10010000 k)] }
  s.updPdie 0 (fun x => x.setEngine 4 { Engine.reset with running := some m, move := some v })

theorem meets_HeapSteps_move :
    (let s := moving 2 none
     let m := cmd0 2 [BitVec.ofNat 64 ref0, 0x10010000, 0, 0, 0, 0, 0, 0]
     s.engineRuns (.pointing 0) m ∧ s.untraced
     ∧ (match ((s.pdie 0).engine 4).move with
       | some x => x.acks.isNone && (s.watchedLine 0 x m).isNone && decide (x.done + 1 < x.lines ∧ x.lines < 2 ^ 18 ∧ s.l2 = [])
       | none => false) = true)
    ∧ (let s := S0.updPdie 31 (fun x => { x with fwdInv := [(0, 0, 5, 6)] })
       Shape s ∧ (s.pdie 31).fwdInv = (0, 0, 5, 6) :: [])
    ∧ (let s := S0.updPdie 3 (fun x => { x with fwdAck := [(0, 0, 5, 6)] })
       Shape s ∧ (s.pdie 3).fwdAck = (0, 0, 5, 6) :: [] ∧ s.refInFlight 3 (0, 0, 5, 6) = false ∧ ((List.range 32).all (fun g => ((s.pdie g).engine 4).move.isNone)) = true)
    ∧ (let s := (moving 4 (some [3, 5])).updPdie 3 (fun x => { x with fwdAck := [(0, 0, 0x2A, 6)] })
       Shape s ∧ (s.pdie 3).fwdAck = (0, 0, 0x2A, 6) :: [] ∧ s.refInFlight 3 (0, 0, 0x2A, 6) = false
       ∧ (((s.pdie 0).engine 4).move.map (fun v => (v.acks, v.no))) = some (some [3, 5], 6)
       ∧ (((List.range 32).filter (fun g => ((s.pdie g).engine 4).move.isSome)) = [0])) := by
  refine ⟨⟨engineRuns_of (by unfold Shape; decide +kernel) (by decide +kernel), by unfold State.untraced; decide +kernel, by decide +kernel⟩,
    ⟨by unfold Shape; decide +kernel, by decide +kernel⟩,
    ⟨by unfold Shape; decide +kernel, by decide +kernel⟩, ⟨by unfold Shape; decide +kernel, by decide +kernel⟩⟩

theorem meets_HeapSteps_objects :
    (S1.heapValid 0 0 = true ∧ 63 < S1.heapCount 0 0 ∧ (S1.fwdEntry 0 0 63).state = 0 ∧ 0x10000000 % 128 = 0 ∧ S1.heapArena 0 0 ≤ 0x10000000
     ∧ 0x10000000 + 2 ^ 24 ≤ S1.heapArena 0 0 + S1.heapSize 0 0 ∧ S1.guarded 0 0x10000000 (2 ^ 24) = false)
    ∧ ((S1.fwdEntry 0 0 0x2A).state = 1 ∧ (S1.fwdEntry 0 0 0x2A).pins = 0) := by decide +kernel

theorem meets_TableSteps_dies :
    (Shape S0 ∧ (S0.pdie 31).retired = false)
    ∧ (let s := (paged.updRec 0 (fun r => { r with dictSize := 1, dict := [0] }))
       Shape s ∧ (s.rc 0).slot.isSome = true ∧ 0 ∈ (s.rc 0).field.dies ∧ 0 < (s.rc 0).dictSize
       ∧ ((s.noteRewrite 0 0).blockEntry (s.rc 0) 0).isSome = true)
    ∧ (let s := (S2.updRec 0 (fun r => { r with dictAddr := 0x4000000000 }))
       (s.rc 0).slot.isSome = true ∧ 1 < (s.rc 0).dictSize
       ∧ (s.noteRewrite 0 0).blockEntry (s.rc 0) 1 = none) :=
  ⟨⟨shape_S0, by decide +kernel⟩, ⟨by unfold Shape; decide +kernel, by decide +kernel⟩, by decide +kernel⟩

/-- `paged` with a load of context 0 at address 64 under way. -/
def walking : State := { (paged.updRec 0 (fun r => { r with reqs := [op0 none none none (.mem .coherent [part0 .load])] })) with nextId := 9 }

theorem meets_TableSteps_translations :
    (let s := S1.updPdie 31 (fun x => { x with tlbInv := [(0, some (tlbKey 0 0 2))], tlbAck := [(7, none)] })
     Shape s ∧ s.asleep = false ∧ (s.pdie 31).tlbInv = (0, some (tlbKey 0 0 2)) :: [] ∧ (s.pdie 31).tlbAck = (7, none) :: [] ∧ s.pageInUse 31 7 none = false ∧ s.mapinv = none)
    ∧ (let s := { (S1.updPdie 3 (fun x => { x with tlbAck := [(7, none)] })) with mapinv := some (7, none, [3, 4]) }
       Shape s ∧ s.pageInUse 3 7 none = false ∧ s.mapinv = some (7, none, [3, 4]) ∧ ∃ y ∈ [3, 4], y ≠ 3)
    ∧ (let s := { (S1.updPdie 3 (fun x => { x with tlbAck := [(7, none)] })) with mapinv := some (7, none, [3]) }
       s.pageInUse 3 7 none = false ∧ s.mapinv = some (7, none, [3]) ∧ ∀ y ∈ [3], y = 3)
    ∧ (let s := { S1 with pods := S1.pods.set 7 { Pod.reset with inv := [(0, some (tlbKey 0 0 2))], ack := [(7, none)] }, mapinv := some (7, none, [39]) }
       Shape s ∧ (s.pods.getD 7 .reset).inv = (0, some (tlbKey 0 0 2)) :: [] ∧ (s.pods.getD 7 .reset).ack = (7, none) :: [] ∧ s.mapinv = some (7, none, [32 + 7]))
    ∧ (∀ r ∈ S0.recs, r.reqs = [])
    ∧ (Shape walking ∧ walking.asleep = false ∧ walking.walkNamed 0 0 (0x40 % 2 ^ 52) = true ∧ (walking.walkKeys 0 (0x40 % 2 ^ 52)).all (fun k => !walking.bad k) = true
      ∧ walking.l2 = [] ∧ (match walking.walk 0 (0x40 % 2 ^ 52) with
      | .ok (leaf, w, level) => decide (leaf = 0x20000 ∧ w = 0xF ∧ level = 2)
      | .error _ => false) = true) := by
  refine ⟨⟨by unfold Shape; decide +kernel, by decide +kernel⟩, ⟨by unfold Shape; decide +kernel, by decide +kernel⟩, by decide +kernel,
    ⟨by unfold Shape; decide +kernel, by decide +kernel⟩, by decide +kernel, ⟨by unfold Shape; decide +kernel, by decide +kernel⟩⟩

theorem meets_TableSteps_rest :
    (let e : Word := 0xC000000000000005
     bitsOf e 60 3 < 5 ∧ bitsOf e 56 4 = 0 ∧ bitsOf e 60 3 = 4 ∧ tbit e 63 = true ∧ ∀ c, c < 16 → (S0.rc c).slot.isSome = true → 31 ∉ (S0.rc c).field.dies)
    ∧ (let s := { S0 with leases := [(5, { Lease.reset with owner := 3 })] }
       (mapGet .reset s.leases 5).owner ≠ 0x3F ∧ (mapGet .reset s.leases 5).grantee = none)
    ∧ (let s := S0.updDctx 0 0 (fun x => { x with snapAt := [(0, 1, 0, 0)] })
       s.asleep = false ∧ (s.dctx 0 0).snapAt = (0, 1, 0, 0) :: [] ∧ 0 ≤ inDiff (s.dctx 0 0).e 0 ∧ ((s.rc 0).bufs.getD 1 .reset).ctl.getLsbD 0 = false)
    ∧ (S0.asleep = false ∧ (S0.rc 0).slot.isSome = true ∧ 0 ∈ (S0.rc 0).field.dies ∧ S0.stallCause 0 0 = some 6) := by decide +kernel

theorem meets_OutsideSteps_messages :
    (S0.power = .run ∧ S0.carries = false ∧ hosted.power = .run ∧ hosted.carries = true ∧ hosted.ate.life ≠ .recovery ∧ hosted.mbxFull 0 3 = false ∧ (hosted.rc 0).life ≠ .free
      ∧ (hosted.rc 15).life = .free)
    ∧ (S0.qslots.any (fun q => tbit q.qa 63 && bitsOf q.qa 20 20 == 0 && bitsOf q.qa 0 16 == 9) = false
       ∧ (slotted 1).qslots.any (fun q => tbit q.qa 63 && bitsOf q.qa 20 20 == 0 && bitsOf q.qa 0 16 == 9) = true)
    ∧ ((S0.rc 0).slot.isSome = true ∧ 0 ∈ (S0.rc 0).field.dies ∧ (S0.rc 1).slot.isNone = true ∧ 31 ∉ (S0.rc 0).field.dies)
    ∧ (let p := { paged with fw := hosted.fw }
       S0.windowKeys 0 0 8 true = none ∧ (p.windowKeys 0 0 8 true).isSome = true ∧ ((p.windowKeys 0 0 8 true).getD []).Nodup ∧ (p.windowKeys 0 0 8 false).isSome = true
       ∧ p.power = .run ∧ p.l2 = [] ∧ S0.windowAt 0 0 (.atomic true) = none ∧ p.windowAt 0 0 (.atomic true) = some 0 ∧ p.bad 0 = false
       ∧ 0x0F0000000000 ≤ 0x0F0000060038 ∧ mmioPage 0x0F0000060038 < 7 ∧ 0x0F0000060038 % 8 = 0)
    ∧ (let s := fun (base : Nat) =>
         { paged with pods := S0.pods.set 7 { up := true, version := 0x0100, peer := 1, pasid := 0, base := base, size := 64, tlb := [], inv := [], ack := [] } }
       let pages := fun (base : Nat) => (s base).podPages 7 0 (pageBase (base + 0)) (pageCount (base + 0) 64)
       ((s 0x1000).pods.getD 7 .reset).up = true ∧ (s 0x1000).power = .run ∧ 0 + 64 ≤ ((s 0x1000).pods.getD 7 .reset).size
       ∧ ((s 0x1000).pods.getD 7 .reset).size < 1 + 64 ∧ (pages 0x1000).2 = some [0] ∧ (pages 0x4000000000).2 = none
       ∧ (∀ i, i < 64 → ∀ j, j < 64 → pageKey [0] 0x1000 i = pageKey [0] 0x1000 j → i = j)
       ∧ (S0.pods.getD 7 .reset).up = false ∧ ((s 0).pods.getD 7 .reset).inv = [] ∧ ((s 0).pods.getD 7 .reset).ack = []) := by
  decide +kernel

theorem meets_OutsideSteps_rest :
    (0x0F0000000000 ≤ 0x0F0000060000 ∧ mmioPage 0x0F0000060000 < 7 ∧ mmioPage 0x0F0000060000 ≠ 4 ∧ S0.ate.life ≠ .recovery ∧ S0.fw.cmd.length = 64 ∧ 0x38 + 8 ≤ 0x40)
    ∧ (let s := fun (l : AtelierLife) => { S0 with ate := { S0.ate with life := l } }
       (s .running).ate.life = .running ∧ (s .running).power ≠ .vault ∧ (s .stopped).ate.life = .stopped ∧ (s .running).tenants = []
       ∧ (∀ k, k < 32 → tbit ((s .running).qslots.getD k .reset).qa 63 = false)
       ∧ (let u := { (s .running) with tenants := S1.tenants, loads := [(0, [])] }
          u.tenants ≠ [] ∧ (∀ x ∈ u.loads, (mapFind u.tenants x.1).isSome = true) ∧ u.loads.find? (fun x => x.1 == 0) = some (0, []))
       ∧ (let u := { (s .running) with loads := [(5, [])] }
          ∀ x ∈ u.loads, mapFind u.tenants x.1 = none))
    ∧ (slotted 1).power = .run ∧ (slotted 1).ate.poll ≤ 2 ∧ (∀ k, k < 2 → tbit ((slotted 1).qslots.getD k .reset).qa 63 = false)
    ∧ (Shape (slotted 1) ∧ (slotted 1).untraced ∧ (slotted 1).l2 = [] ∧ tbit ((slotted 1).qslots.getD 2 .reset).qa 63 = true ∧ bitsOf ((slotted 1).qslots.getD 2 .reset).qa 41 4 ≠ 0)
    ∧ (let s := { paged with qslots := S0.qslots.set 31 { qa := BitVec.ofNat 64 (2 ^ 63 + 9), qb := BitVec.ofNat 64 (64 * 0x1000 + 4), qc := 0 } }
       (∀ k, k < 31 → tbit (s.qslots.getD k .reset).qa 63 = false) ∧ s.ate.poll ≤ 31 ∧ Shape s ∧ s.untraced ∧ s.l2 = [] ∧ tbit (s.qslots.getD 31 .reset).qa 63 = true ∧ bitsOf (s.qslots.getD 31 .reset).qa 41 4 = 0
       ∧ (match (s.engAt (ateIdx, none) none (bitsOf (s.qslots.getD 31 .reset).qa 20 20) (bitsOf (s.qslots.getD 31 .reset).qb 6 46 * 64 + 16) (.atomic true)).2 with
         | .val _ => true
         | _ => false) = true) := by
  unfold Shape State.untraced
  decide +kernel

theorem meets_PowerSteps :
    (let s := { State.reset with ltol := 1000, idleNs := 3000 }
     s.power.deeper = some .hush ∧ s.waking = false ∧ s.ckptRun = none ∧ Power.wakeNs .hush ≤ s.ltol.toNat ∧ Power.delay .hush ≤ s.idleNs ∧ s.isIdle = true)
    ∧ (let s := { State.reset with ltol := 400000000, idleNs := 1500000000, power := .rest }
       s.power.deeper = some .vault ∧ Power.wakeNs .vault ≤ s.ltol.toNat ∧ Power.delay .vault ≤ s.idleNs ∧ s.power ≠ .run)
    ∧ (let s := { State.reset with power := .vault, waking := true }
       Sys2Proof.Machine.Inv s ∧ s.waking = true ∧ s.ckptRun = none ∧ s.power = .vault ∧ Memory.wf s.ckpt = true)
    ∧ (let s := { State.reset with power := .nap, waking := true }
       Sys2Proof.Machine.Inv s ∧ s.waking = true ∧ s.ckptRun = none ∧ s.power ≠ .vault)
    ∧ (Sys2Proof.Machine.Inv { State.reset with ckptRun := some false } ∧ Sys2Proof.Machine.Inv { State.reset with ckptRun := some true, power := .vault }
       ∧ Sys2Proof.Machine.Inv State.reset ∧ ({ State.reset with ckptRun := some false }).ckptRun = some false ∧ ({ State.reset with ckptRun := some true, power := .vault }).allFrozen = true)
    ∧ (State.reset.ate.life = .boot ∧ State.reset.bootRecovery = false ∧ State.reset.imageOk State.reset.bootImage = false
       ∧ ({ State.reset with bootRecovery := true }).bootRecovery = true) := by
  unfold Sys2Proof.Machine.Inv
  decide +kernel

/-- The image whose length is that of its header and signature. -/
def emptyImage : List (BitVec 8) := [0x49, 0x46, 0x47, 0x4B, 1, 0, 0, 0, 0, 0, 0, 0, 0, 0, 0, 0] ++ List.replicate 2668 0

/-- It is accepted where its signature is: that verdict is the ROM key's (R462), which the model leaves open. -/
theorem meets_PowerSteps_image (h : Config.lmsVerifies (emptyImage.take 16) (List.replicate 2668 0) = true) : State.reset.imageOk emptyImage = true := by
  have h1 : emptyImage.take (imgHeader + imgNum emptyImage 12 4) = emptyImage.take 16 := by decide +kernel
  have h2 : (emptyImage.drop (imgHeader + imgNum emptyImage 12 4)).take imgSignature = List.replicate 2668 0 := by decide +kernel
  unfold State.imageOk
  rw [h1, h2, h]
  decide +kernel

/-- A command of the firmware interface with arguments, given where the Atelier runs and versions have been agreed. -/
def given0 (s : State) (op : Nat) (args : List Nat) : State :=
  let cmd := BitVec.ofNat 8 op :: List.replicate 7 0 ++ args.flatMap (fun a => leBytes 8 a)
  let fw := { s.fw with busy := true, negHost := 0x0100, negFw := 0x0100, cmd := cmd ++ List.replicate (64 - cmd.length) 0 }
  { s with fw := fw, ate := { s.ate with life := .running } }

theorem given_of {s : State} {op : Nat} (h : (decide (s.power = .run) && s.fw.busy && decide (imgNum s.fw.cmd 0 1 = op) && decide (s.ate.life = .running)) = true) : s.given op := by
  simp only [Bool.and_eq_true, decide_eq_true_eq] at h
  exact ⟨h.1.1.1, h.1.1.2, h.1.2, h.2⟩

theorem meets_FirmwareSteps_given :
    (∀ op ∈ [1, 2, 3, 4, 5, 6, 7, 8, 9, 10, 11, 12, 13], (given0 S1 op []).given op ∧ (given0 S1 op []).negotiated)
    ∧ (({ (given0 S1 2 []) with fw := { (given0 S1 2 []).fw with negFw := 0 } }).given 2 ∧ ¬ ({ (given0 S1 2 []) with fw := { (given0 S1 2 []).fw with negFw := 0 } }).negotiated) := by
  refine ⟨?_, given_of (by decide +kernel), fun h => h.1 rfl⟩
  intro op hop
  simp only [List.mem_cons, List.not_mem_nil, or_false] at hop
  rcases hop with rfl | rfl | rfl | rfl | rfl | rfl | rfl | rfl | rfl | rfl | rfl | rfl | rfl <;>
    exact ⟨given_of (by decide +kernel), by unfold State.negotiated; decide +kernel⟩

theorem meets_FirmwareSteps_tenants :
    (let s := given0 S1 2 [2 ^ 20 - 1, 31 * 2 ^ 48 + 0x10000, 2 ^ 40, 0, 0]
     s.arg 0 < 2 ^ 20 ∧ s.arg 1 < 2 ^ 53 ∧ s.arg 1 % 2 ^ 16 = 0 ∧ s.arg 2 % 2 ^ 40 = 0 ∧ s.arg 2 < 2 ^ 52 ∧ s.tenants.length < 256)
    ∧ (let s := given0 S1 3 [0]
       s.tenants.Pairwise (fun a b => a.1 < b.1) ∧ (mapFind s.tenants (s.arg 0)).isSome = true ∧ s.hasContexts (s.arg 0) = true)
    ∧ (let s := given0 { S1 with tenants := S1.tenants ++ [(7, tenant0)] } 3 [7]
       s.tenants.Pairwise (fun a b => a.1 < b.1) ∧ (mapFind s.tenants (s.arg 0)).isSome = true ∧ s.hasContexts (s.arg 0) = false)
    ∧ (let s := fun (h0 : Nat) => given0 { S1 with tenants := S1.tenants ++ [(7, tenant0)] } 4 [7 + 15 * 2 ^ 32, h0, 0x10000, 0x10000, 0]
       let place := fun (h0 : Nat) => (s h0).fwdPlace ((s h0).arg 1 / 2 ^ 40 % 32) 7 15 ((s h0).arg 1 % 2 ^ 40)
       let fits := s (2 ^ 63 + 4096)
       (mapFind fits.tenants (fits.arg 0 % 2 ^ 32)).isSome = true ∧ fits.arg 0 % 2 ^ 32 = 7 ∧ fits.arg 0 / 2 ^ 32 = 15 ∧ fits.arg 1 / 2 ^ 45 % 2 ^ 18 = 0
       ∧ fits.arg 2 % 65536 = 0 ∧ fits.arg 3 % 65536 = 0 ∧ fits.arg 4 < 2 ^ 52 ∧ fits.arg 1 / 2 ^ 63 = 1
       ∧ (fits.pdie (fits.arg 1 / 2 ^ 40 % 32)).retired = false ∧ fits.heapInUse 7 15 = false ∧ (place (2 ^ 63 + 4096)).isSome = true
       ∧ place (2 ^ 63 + 2 ^ 40 - 1) = none ∧ (s (2 ^ 63 + 2 ^ 40 - 1)).arg 1 / 2 ^ 45 % 2 ^ 18 = 0 ∧ (s 0).arg 1 / 2 ^ 63 = 0)
    ∧ (let s := given0 S1 4 [0, 0, 0, 0, 0]
       (mapFind s.tenants (s.arg 0 % 2 ^ 32)).isSome = true ∧ s.heapInUse 0 0 = true)
    ∧ (let s := given0 S1 6 [0, 2 ^ 32 - 1]
       mapFind s.tenants (s.arg 0) = some tenant0 ∧ s.arg 1 < 2 ^ 32) := by decide +kernel

theorem meets_FirmwareSteps_rest :
    (let s := given0 paged 5 [2 ^ 63]
     Shape s ∧ s.mapinv = none ∧ 2 ^ 63 ≤ s.arg 0 ∧ (mapFind s.tenants (s.arg 0 - 2 ^ 63)).isSome = true)
    ∧ (let s := given0 paged 5 [0, 0x20000, 0, 2]
     Shape s ∧ s.untraced ∧ s.l2 = [] ∧ s.mapinv = none ∧ (mapFind s.tenants (s.arg 0)).isSome = true ∧ s.arg 1 < 2 ^ 53 ∧ s.arg 1 % 16 = 0 ∧ s.arg 2 < 2 ^ 52 ∧ s.arg 3 = 2
     ∧ ∀ d, d < 40 → (memRead s.mem (s.arg 1 + 8) 8).testBit d = false)
    ∧ (let s := given0 { paged with mem := memWrite paged.mem 0x20008 8 0x8080000000 } 5 [0, 0x20000, 0, 3]
       s.arg 3 = 3 ∧ (memRead s.mem (s.arg 1 + 8) 8).testBit 31 = true ∧ (memRead s.mem (s.arg 1 + 8) 8).testBit 39 = true)
    ∧ (let s := given0 paged 7 [0, 1]
       (mapFind s.tenants (s.arg 0)).isSome = true ∧ s.arg 1 % 4096 ≠ 0 ∧ s.linked (s.arg 0) (s.arg 1) = none)
    ∧ (let s := given0 S0 8 [0, 0, 0]
       s.preempting = false ∧ s.armq.length = 8 ∧ (s.armq.getD 7 []).length < 16)
    ∧ (let s := given0 S0 10 [255]
       s.ckptRun = none ∧ s.arg 0 ≤ 255 ∧ s.svnValue < s.arg 0 ∧ (given0 S0 10 [0]).arg 0 ≤ (given0 S0 10 [0]).svnValue)
    ∧ ((given0 S0 11 []).signLeaf.isSome = true ∨ (given0 S0 11 []).signLeaf = none)
    ∧ ((given0 S0 12 [3]).arg 0 < 4 ∧ 7 < (given0 S0 12 [8]).arg 0 ∧ 4 ≤ (given0 S0 12 [7]).arg 0 ∧ (given0 S0 12 [7]).arg 0 ≤ 7 ∧ S0.meas.length = 8)
    ∧ (given0 S0 13 [2 ^ 32 - 1]).arg 0 < 2 ^ 32 :=
  ⟨⟨by unfold Shape; decide +kernel, by decide +kernel⟩, ⟨by unfold Shape; decide +kernel, by unfold State.untraced; decide +kernel, by decide +kernel⟩,
    by decide +kernel, by decide +kernel, by decide +kernel, by decide +kernel, by decide +kernel, by decide +kernel, by decide +kernel⟩

/-- A linked image at 0x8000 of `paged`: one context of record 1, one control-store word at PC 9. -/
def linkedImage : State :=
  let put := fun (m : List Host.Cell) (p : Nat × Nat) => memWrite m p.1 8 p.2
  let m := [(0x8000, 0x14B474C49), (0x8008, 1), (0x8010, 0x1000), (0x8018, 1), (0x8020, 9), (0x8040, 1), (0x8048, 0x0101000001010001), (0x8050, 0x0104020101010101),
    (0x8058, 0xA000), (0x8068, 9), (0x9008, 0x1000304200000000), (0xA000, 1)].foldl put paged.mem
  { paged with mem := m }

theorem meets_FirmwareSteps_launch :
    let s := given0 linkedImage 7 [0, 0x8000]
    s.rangeMissing (s.arg 0) (s.arg 1, 4096) = false
    ∧ (match s.linked (s.arg 0) (s.arg 1) with
      | some (n, off, words, pc) =>
        let ts := (List.range n).filterMap (fun i => s.template (s.arg 0) (s.arg 1) i)
        !s.rangeMissing (s.arg 0) (s.arg 1, 64 + 128 * n) && !s.rangeMissing (s.arg 0) (s.arg 1 + off, min (16 * words) (2 ^ 22))
        && ts.all (fun x => !(s.launchRanges (s.arg 0) (x.headD 0 % 16) (s.arg 1)).any (s.rangeMissing (s.arg 0))) && decide (pc + words ≤ 2 ^ 18 ∧ ts.length = n)
        && (match s.vaWords (s.arg 0) (s.arg 1 + off) (2 * words) with
          | some _ => (match s.launchAll (s.arg 0) [] ts with
            | .ok s' => decide ((s'.rc 1).life = .waiting .start)
            | .error _ => false)
          | none => false)
      | none => false) = true := by decide +kernel

/-- That image with bits of E0 set which must be 0: its launch ends with RANGE. -/
theorem meets_FirmwareSteps_launch_refused :
    let s := given0 { linkedImage with mem := memWrite linkedImage.mem 0x8040 8 (1 + 2 ^ 40) } 7 [0, 0x8000]
    (match s.linked (s.arg 0) (s.arg 1) with
      | some (n, _, _, _) =>
        let ts := (List.range n).filterMap (fun i => s.template (s.arg 0) (s.arg 1) i)
        ts.all (fun x => !(s.launchRanges (s.arg 0) (x.headD 0 % 16) (s.arg 1)).any (s.rangeMissing (s.arg 0))) && decide (ts.length = n)
        && (match s.launchAll (s.arg 0) [] ts with
          | .ok _ => false
          | .error (_, k) => decide (k = kRANGE))
      | none => false) = true := by decide +kernel

/-- S1 with operation 3 of cell 0. -/
def cellReq (body : Body) (dest : Option RegId) : Req := op0 (some (0, 0)) none dest body

/-- `cellPerforms`, computed for operation 3 of cell 0. -/
def performsOk (s : State) (q : Req) : Bool :=
  decide (s.req 3 = some (0, q)) && !s.asleep && decide (q.stage = .out) && !s.blocked 0 q && decide (q.org = some (0, 0) ∧ q.ord = .relaxed ∧ q.flags = 0)
  && decide (s.l2 = [] ∧ (s.cell 0 0 0).lines = []) && !((s.rc 0).bufs.getD 0 .reset).ctl.getLsbD 0 && !(s.rc 0).replaying && !((s.rc 0).bufs.getD 2 .reset).ctl.getLsbD 0

theorem performs_of {s : State} {q : Req} (h : performsOk s q = true) : s.cellPerforms 3 0 0 0 q := by
  simp only [performsOk, Bool.and_eq_true, Bool.not_eq_true', decide_eq_true_eq] at h
  obtain ⟨⟨⟨⟨⟨⟨⟨⟨h1, h2⟩, h3⟩, h4⟩, h5⟩, h6⟩, h7⟩, h8⟩, h9⟩ := h
  exact ⟨h1, h2, h3, h4, h5.1, h5.2.1, h5.2.2, h6.1, h6.2, by decide, by decide, by decide, h7, h8, h9⟩

/-- S1 with one way of cell 0 given to its cache. -/
def cached (q : Req) : State := (withOp q).updCore 0 0 0 (fun y => { y with cways := 1 })

theorem meets_OperationSteps_cells :
    (∀ op ∈ [AccOp.store, .rmw .add], (withOp (cellReq (.mem .coherent [part0 op]) (some (.x 4)))).cellPerforms 3 0 0 0 (cellReq (.mem .coherent [part0 op]) (some (.x 4))))
    ∧ (part0 .store).tgt.ref = none ∧ (part0 .store).tgt.cls = clsDRAM ∧ (withOp (cellReq (.vals []) none)).bad 64 = false
    ∧ (let q := cellReq (.mem .scratch [{ lane := 0, tgt := nearTarget 0 0 0 256, n := 4, op := .store, val := 9 }]) none
       (withOp q).cellPerforms 3 0 0 0 q)
    ∧ (let q := cellReq (.mem .gather [{ (part0 .store) with n := 4 }]) none
       (cached q).cellPerforms 3 0 0 0 q ∧ cacheable (part0 .store).tgt.cls = true ∧ 0 < ((cached q).cell 0 0 0).core.cways)
    ∧ (let q := cellReq (.mem .gather [{ (part0 .load) with n := 4, lane := 63 }]) (some (.v 4))
       (cached q).cellPerforms 3 0 0 0 q ∧ q.again = false ∧ (cached q).bad 64 = false ∧ ((cached q).rc 0).ownBefore 0 0 3 = [])
    ∧ (let q := cellReq (.fullEmpty 5 false) none
       (withOp q).cellPerforms 3 0 0 0 q) := by
  refine ⟨fun op hop => ?_, by decide +kernel, by decide +kernel, by decide +kernel, performs_of (by decide +kernel), ⟨performs_of (by decide +kernel), by decide +kernel⟩,
    ⟨performs_of (by decide +kernel), by decide +kernel⟩, performs_of (by decide +kernel)⟩
  simp only [List.mem_cons, List.not_mem_nil, or_false] at hop
  rcases hop with rfl | rfl <;> exact performs_of (by decide +kernel)

theorem meets_OperationSteps_transfers :
    (let q := cellReq (.xfer 2 1 0 [] 128 256) none
     (withOp q).cellPerforms 3 0 0 0 q ∧ ∀ i, i < 256 / 128 → (withOp q).bad (nearKey 0 0 0 + 128 + 128 * i) = false)
    ∧ (let q := cellReq (.xfer 3 1 0 [] 128 256) none
       let y : Sent := { ein := 0, op := 2, pat := 1, ord := 0, cell := 0, vals := [], bytes := List.replicate 256 7 }
       let s := ((withOp q).updRec 0 (fun r => { r with routes := [(1, 0, 0)] })).updDctx 0 0 (fun x => { x with sent := [y] })
       s.cellPerforms 3 0 0 0 q ∧ (s.rc 0).srcDie 1 0 = some 0
       ∧ ((s.rc 0).die 0).sent.find? (fun z => z.op == 2 && z.pat == 1 && z.ord == 0 && z.cell == 0) = some y ∧ y.bytes ≠ []) :=
  ⟨⟨performs_of (by decide +kernel), by decide +kernel⟩, ⟨performs_of (by decide +kernel), by decide +kernel⟩⟩

/-- S4 with two started streams of BFP items of 32 elements, the items of one row and one operand fetched, and a product or an output under operation 3. -/
def producing (op row grp : Nat) : State :=
  let d : Desc := [BitVec.ofNat 64 (10 * 2 ^ 60 + 2 ^ 59), 0, 0x003F003F, 0, 0x0000000400000020, 0, 0, 0x8000000000000000]
  let o : Desc := [BitVec.ofNat 64 (6 * 2 ^ 56 + 2 ^ 55), 0, 0x003F003F, 0, 0x0000010000000004, 0, 0, 0x8000000000000000]
  let x : MxEntry := { ops := tileOps 0 0 1 1 2 3 3 false false false 2, op := op, ein := 0, row := row, step := 0, grp := grp, gt := 0x030002, req := 3 }
  let it := fun (st t : Nat) => ({ st := st, t := t, vals := List.replicate 32 1 ++ [127], fault := none, empty := false } : Item)
  { ((S4.updCell 0 0 0 (fun y => { y with run := some x, core := ((y.core.setDesc 1 d).setDesc 2 d).setDesc 3 o
                                          items := (List.range 4).map (it 1) ++ (List.range 64).map (it 2) })).updRec 0 (fun r =>
      { r with reqs := [op0 (some (0, 0)) (some 3) none (.macro_ op x.ops [])] })) with nextId := 9 }

/-- The row that `producing` runs. -/
def producingRow (op row grp : Nat) : MxEntry :=
  { ops := tileOps 0 0 1 1 2 3 3 false false false 2, op := op, ein := 0, row := row, step := 0, grp := grp, gt := 0x030002, req := 3 }

theorem meets_MatrixSteps_products :
    [(1, 31, 0), (2, 0, 0), (3, 1, 0), (3, 2, 2)].all (fun p =>
      let s := producing p.1 p.2.1 p.2.2
      let x := producingRow p.1 p.2.1 p.2.2
      let A := (s.cell 0 0 0).core.desc 1
      let B := (s.cell 0 0 0).core.desc 2
      decide ((s.cell 0 0 0).run = some x ∧ (s.dctx 0 0).flag = none ∧ s.skips 0 3 = []) && !s.asleep && !(s.rc 0).matrixStops x
      && decide (x.grp < opsGroups x.ops) && decide (gtRows x.gt (tileRows x.ops) x.grp ≠ 0) && decide (rowItems A = 4)
      && decide (dCur A + 4 ≤ dLen A ∧ dLen A < 2 ^ 48 ∧ dCur B + 16 * 4 ≤ dLen B)
      && (match s.getItems 0 0 0 A 1 3 (List.range 4), s.getItems 0 0 0 B 2 3 (List.range 64) with
        | (s1, as), (s2, bs) => decide (s1 = s ∧ s2 = s) && (as ++ bs).all (fun i => i.fault.isNone && !i.empty))) = true := by decide +kernel

theorem meets_MatrixSteps_output :
    let s := producing 7 31 0
    let O := (s.cell 0 0 0).core.desc 3
    (s.cell 0 0 0).run = some (producingRow 7 31 0) ∧ (s.dctx 0 0).flag = none ∧ s.skips 0 3 = [] ∧ s.asleep = false ∧ (s.rc 0).matrixStops (producingRow 7 31 0) = false
    ∧ dClass O = 6 ∧ dFmt O = 0 ∧ dCur O + 16 ≤ dLen O ∧ dLen O < 2 ^ 48
    ∧ (∀ j, j < 16 → dAddr O (dCur O + j) + 4 ≤ ((s.rc 0).win.ways - (s.cell 0 0 0).core.cways) * 65536)
    ∧ (∀ j, j < 16 → ∀ k, k < 16 → j ≠ k → dAddr O (dCur O + j) + 4 ≤ dAddr O (dCur O + k) ∨ dAddr O (dCur O + k) + 4 ≤ dAddr O (dCur O + j)) := by decide +kernel

theorem meets_MarkSteps_behind_a_fault :
    let s := (passedTo 0).updDctx 0 0 (fun x => { x with flag := some (flag0 false) })
    (s.rc 0).nextMark = some 0 ∧ ∀ d ∈ (s.rc 0).field.dies, ∀ f, (s.dctx 0 d).flag = some f → 0 < inDiff f.at_ 0 := by
  refine ⟨by decide +kernel, ?_⟩
  have h : ∀ d ∈ (((passedTo 0).updDctx 0 0 (fun x => { x with flag := some (flag0 false) })).rc 0).field.dies, d = 0 := by decide +kernel
  intro d hd f hf
  have hd := h d hd
  subst hd
  have : (((passedTo 0).updDctx 0 0 (fun x => { x with flag := some (flag0 false) })).dctx 0 0).flag = some (flag0 false) := by decide +kernel
  rw [this] at hf
  cases hf
  decide +kernel

/-- `works`, from its computed parts. -/
theorem works_of {s : State} {e : EngineId} {m : QCmd} {cls : Nat} (h1 : Shape s)
    (h2 : (engineOk e && !s.asleep && decide (s.running e = some m) && !s.isPaused e) = true) (h3 : m.ended = false ∧ m.cmd.cls = cls ∧ m.status = 0) : s.works e m cls :=
  ⟨engineRuns_of h1 h2, h3.1, h3.2.1, h3.2.2⟩

theorem meets_EngineSteps_copy :
    let m := cmd3 0 [0x40, 0x2008, 0x100000020, 0, 0, 0, 0, 0]
    let s := runningIn paged (.copy 0 0) m
    s.works (.copy 0 0) m 0 ∧ m.prog = 0 ∧ m.code = 0 ∧ m.cpy.rows = 1 ∧ m.cpy.rb = 32 ∧ m.cpy.snear = false ∧ m.cpy.dnear = false ∧ m.cpy.uc = 0 ∧ m.cpy.disc = false
    ∧ m.cpy.src % 128 + 32 ≤ 128 ∧ m.cpy.dst % 128 + 32 ≤ 128 ∧ m.cpy.refused m (s.cmdScratch m) = false ∧ s.watched (.copy 0 0) m m.cpy.dst 32 = none
    ∧ (match s.engAt m.agent (some 0) m.pasid m.cpy.src .engRead with
      | (s1, .val k) => (match s1.engAt m.agent (some 0) m.pasid m.cpy.dst .engWrite with
        | (s2, .val _) => shapeOk s2 && s2.l2.isEmpty && !s2.bad k && (s2.req m.req).isSome
        | _ => false)
      | _ => false) = true :=
  ⟨works_of (by unfold Shape; decide +kernel) (by decide +kernel) (by decide +kernel), by decide +kernel⟩

/-- `paged` with a BINSCAT of one item to 4 bins of 8 items at 0x1000, counts at 0x4000, ov items of overflow at 0x6000. -/
def scattering (b ov : Nat) : State × QCmd :=
  let e := ([0x1000, 0x4000, 8 * 2 ^ 32 + 4, 0x6000, ov, 0x5000, 0, 0] : List Nat).map (BitVec.ofNat 64)
  let m := { (cmd3 8 e) with cmd := { cls := 8, e := e, items := [(63, b, 77)], acq := false, rel := false } }
  (runningIn paged (.copy 0 0) m, m)

theorem meets_EngineSteps_bins :
    (let s := runningIn paged (.copy 0 0) (cmd3 8 [])
     s.untraced ∧ (match s.engAt (cmd3 8 []).agent (engineDie (.copy 0 0)) (cmd3 8 []).pasid 0x100 (.atomic true) with
      | (s1, .val k) => !s1.bad k && s1.l2.isEmpty && decide (s1 = s)
      | _ => false) = true)
    ∧ (∀ p ∈ [(0, 2), (9, 2), (9, 0)], (scattering p.1 p.2).1.works (.copy 0 0) (scattering p.1 p.2).2 8)
    ∧ (∀ va w, (scattering 0 2).1.watched (.copy 0 0) (scattering 0 2).2 va w = none)
    ∧ ([(0, 2), (9, 2), (9, 0)].all (fun p =>
      let s := (scattering p.1 p.2).1
      let m := (scattering p.1 p.2).2
      !m.binRefused
      && (match s.engCount (.copy 0 0) m (if p.1 < 4 then m.w 1 + 4 * p.1 else m.w 5) with
        | (s2, .val n) => (match (if p.1 < 4 then s2.engAt m.agent (some 0) m.pasid (m.w 0 + 4 * (p.1 * 8 + n)) .engWrite
            else if n < p.2 then s2.engAt m.agent (some 0) m.pasid (m.w 3 + 8 * n) .engWrite else s2.engCount (.copy 0 0) m (m.w 5 + 4)) with
          | (s3, .val _) => shapeOk s3 && s3.l2.isEmpty && (s3.req m.req).isSome && decide (n = 0 ∧ s2.dies.map Die.watch = s.dies.map Die.watch)
          | _ => false)
        | _ => false)) = true) := by
  refine ⟨⟨by unfold State.untraced; decide +kernel, by decide +kernel⟩, ?_, ?_, by decide +kernel⟩
  · intro p hp
    simp only [List.mem_cons, List.not_mem_nil, or_false] at hp
    rcases hp with rfl | rfl | rfl <;> exact works_of (by unfold Shape; decide +kernel) (by decide +kernel) (by decide +kernel)
  · intro va w
    have h : ((scattering 0 2).1.watches 0 0) = .reset := by decide +kernel
    have hr : ((scattering 0 2).1.req (scattering 0 2).2.req).map Prod.fst = some 0 := by decide +kernel
    cases hq : (scattering 0 2).1.req (scattering 0 2).2.req with
    | none => simp [State.watched, hq]
    | some x =>
      obtain ⟨c, q⟩ := x
      rw [hq] at hr
      simp only [Option.map_some, Option.some.injEq] at hr
      subst hr
      have he : engineDie (.copy 0 0) = some 0 := by decide +kernel
      simp only [State.watched, hq, he, h]
      rw [Watches.hit, List.findSome?_eq_none_iff]
      intro i _
      have hi : ∀ j, j < 4 → tbit (Watches.reset.wctl.getD j 0) 63 = false := by decide +kernel
      have hn : (List.range 4).any (fun j => tbit (Watches.reset.wctl.getD j 0) 63 && tbit (Watches.reset.wctl.getD j 0) 62
          && decide (bitsOf (Watches.reset.wbase.getD j 0) 0 52 ≤ va + i
            ∧ va + i < bitsOf (Watches.reset.wbase.getD j 0) 0 52 + bitsOf (Watches.reset.wctl.getD j 0) 0 12 + 1)
          && tbit (Watches.reset.wctl.getD j 0) (16 + (va + i) % 8)) = false := by
        rw [List.any_eq_false]
        intro j hj
        simp only [hi j (List.mem_range.mp hj), Bool.false_and, Bool.false_eq_true, not_false_eq_true]
      exact if_neg (by rw [hn]; decide)

/-- `paged` with a PODSEND of 64 bytes through port 2. -/
def sending (up : Bool) : State × QCmd :=
  let m := cmd3 5 [0x40, 2, 0x1000, 64, 0, 0, 0, 0]
  (runningIn { paged with pods := S0.pods.set 2 { Pod.reset with up := up, version := 0x0100, size := 65536 } } (.armature 5) m, m)

/-- `paged` with an ENQ whose packet goes to slot 2 of the ring at 0x2000. -/
def enqueuing : State × QCmd :=
  let e := ([9, 1, 2, 3, 4, 5, 6, 7] : List Nat).map (BitVec.ofNat 64)
  let m := { (cmd3 4 e) with cmd := { cls := 4, e := e, items := [(0x1000, 18, 4)], acq := false, rel := false } }
  (runningIn { paged with mem := memWrite paged.mem 0x1000 8 0x2000 } (.armature 4) m, m)

theorem meets_EngineSteps_ports_and_rings :
    ((sending true).1.works (.armature 5) (sending true).2 5 ∧ (sending false).1.works (.armature 5) (sending false).2 5)
    ∧ ((sending true).2.code = 0 ∧ touchesCtl ((sending true).2.w 0) ((sending true).2.w 3) = false ∧ (sending true).2.zeroFrom 5 = true ∧ ((sending true).2.w 3) % 64 = 0
      ∧ ((sending true).1.req 3).isSome = true
      ∧ (match (sending true).1.engBytes (sending true).2 0x40 1 with
        | (s', .bytes _) => shapeOk s' && (s'.req 3).isSome
        | _ => false) = true)
    ∧ enqueuing.1.works (.armature 4) enqueuing.2 4
    ∧ (match enqueuing.1.engAt enqueuing.2.agent none enqueuing.2.pasid 0x1000 .engRead with
      | (s1, .val k) => s1.l2.isEmpty
        && (match (s1.noteRead k 0 false false).engAt enqueuing.2.agent none enqueuing.2.pasid (memRead s1.mem k 8 % 2 ^ 52 + 64 * (18 % 2 ^ 4)) .engWrite with
          | (s2, .val _) => shapeOk s2 && (s2.req 3).isSome
          | _ => false)
      | _ => false) = true :=
  ⟨⟨works_of (by unfold Shape; decide +kernel) (by decide +kernel) (by decide +kernel), works_of (by unfold Shape; decide +kernel) (by decide +kernel) (by decide +kernel)⟩,
    by decide +kernel, works_of (by unfold Shape; decide +kernel) (by decide +kernel) (by decide +kernel), by decide +kernel⟩

/-- A CTXSTART by context 0 in `linkedImage` , or the GO of record 1, which waits for it. -/
def starting (s : State) (e : List Nat) : State × QCmd :=
  let m := cmd3 6 (e.map (BitVec.ofNat 64))
  (runningIn s (.armature 6) m, m)

/-- The same with record 1 waiting for its GO. -/
def waitingStart : State := linkedImage.updRec 1 (fun r => { r with life := .waiting .start, resumeLife := .ready, slot := some 1 })

theorem meets_EngineSteps_starts :
    ((starting linkedImage [1, 0x0101000001010001, 0x0104020101010101, 0x8000, 0, 0, 0, 0]).1.works (.armature 6)
      (starting linkedImage [1, 0x0101000001010001, 0x0104020101010101, 0x8000, 0, 0, 0, 0]).2 6)
    ∧ (let x := starting linkedImage [1, 0x0101000001010001, 0x0104020101010101, 0x8000, 0, 0, 0, 0]
       x.1.startRefused x.2 = false ∧ x.1.startMissing x.2 = false ∧ (x.1.req 3).isSome = true
       ∧ (match x.1.ctxstart x.2.pasid x.2.cmd.e with
         | (s', code) => shapeOk s' && (s'.req 3).isSome && decide (code = 0)) = true)
    ∧ (let x := starting linkedImage [1, 0x0101000001010001, 0x0104020101010101, 0xFFFFFFFFF0000, 0, 0, 0, 0]
       x.1.startRefused x.2 = true ∧ (x.1.req 3).isSome = true)
    ∧ (linkedImage.ctxstart 0 ([2, 0, 0, 0x8000, 0, 0, 0, 0].map (BitVec.ofNat 64))).2 ≠ 0
    ∧ ((waitingStart.rc 1).life = .waiting .start ∧ (waitingStart.rc 1).held = false ∧ (waitingStart.rc 1).pasid.toNat = 0 ∧ (waitingStart.rc 1).resumeLife = .ready
      ∧ (waitingStart.ctxstart 0 ([0x80, 0, 0, 0, 0, 2, 0, 0].map (BitVec.ofNat 64))).2 = 0) :=
  ⟨works_of (by unfold Shape; decide +kernel) (by decide +kernel) (by decide +kernel), by decide +kernel, by decide +kernel, by decide +kernel, by decide +kernel⟩

theorem meets_invariants :
    Sys2Proof.Machine.Inv S0 ∧ Shape S0 ∧ leads (step S0) (fun _ => true) = true :=
  ⟨by unfold Sys2Proof.Machine.Inv; decide +kernel, shape_S0, by decide +kernel⟩


end Sys2Proof.Tests
end

section

/- The proofs are elaborated one after another: all at once, they take more threads at a time than the check's memory holds. -/
set_option Elab.async false

namespace Sys2Proof.Machine

/-- Byte i of a number written to memory stands at offset i (R3). -/
theorem memGet_memWrite_byte : ∀ (n : Nat) (m : List Host.Cell) (a v i : Nat), i < n →
    memGet (memWrite m a n v) (a + i) = BitVec.ofNat 8 (v / 256 ^ i)
  | n + 1, m, a, v, 0, _ => by
    rw [memWrite, memGet_memWrite_outside n _ _ _ _ (by omega), memGet_memSet]
    simp
  | n + 1, m, a, v, i + 1, h => by
    rw [memWrite, show a + (i + 1) = a + 1 + i by omega, memGet_memWrite_byte n _ _ _ i (by omega), Nat.div_div_eq_div_mul,
      Nat.pow_succ']

end Sys2Proof.Machine

open Sys2Proof.Machine in
/-- Settles O60: the bytes of a number stand in ascending order, by induction on their number. -/
theorem memoryReadsBack : Obligations.MemoryReadsBack := by
  intro m a n v
  refine ⟨?_, fun i => memGet_memWrite_byte n m a v i, fun x => memGet_memWrite_outside n m a v x⟩
  rw [memRead_memWrite, show 256 = 2 ^ 8 from rfl, ← Nat.pow_mul]


/-! # What every step keeps (R1, R3)

Both invariants of the state are carried by one relation: `Keeps s₀ s` says that `s` is as good as `s₀`. It unfolds to the memory and
the lengths of the lists of units alone, so that an update of any other field is the same statement. Each function of the
model that answers a state has one lemma, which is used as `h.f`: what `h` says of its argument holds of its result. -/

namespace Sys2Proof.Machine

/-- The lengths of the lists of units that `Shape` speaks of. -/
def State.units (s : State) : List Nat :=
  [s.recs.length, s.dies.length, s.armq.length, s.armRun.length, s.mbx.length, s.qslots.length, s.pods.length]

/-- A memory and lengths of lists of units that keep what s has of `Inv` and `Shape`. -/
def KeepsParts (s : State) (m : List Host.Cell) (recs dies armq armRun mbx qslots pods : Nat) : Prop :=
  (Inv s → Memory.wf m = true) ∧ (Shape s → [recs, dies, armq, armRun, mbx, qslots, pods] = [17, 32, 8, 8, 16, 32, 8])

/-- State t keeps what s has of `Inv` and `Shape`. -/
def Keeps (s t : State) : Prop :=
  KeepsParts s t.mem t.recs.length t.dies.length t.armq.length t.armRun.length t.mbx.length t.qslots.length t.pods.length

theorem shape_iff_units (s : State) : Shape s ↔ s.units = [17, 32, 8, 8, 16, 32, 8] := by
  simp [Shape, State.units]

namespace Keeps

theorem refl (s : State) : Keeps s s := ⟨id, (shape_iff_units s).mp⟩

theorem inv {s t : State} (h : Keeps s t) (hs : Inv s) : Inv t := h.1 hs

theorem shape {s t : State} (h : Keeps s t) (hs : Shape s) : Shape t := (shape_iff_units t).mpr (h.2 hs)

variable {s₀ s t : State}

/-- What h says, for a state of which only other fields differ. -/
theorem same (h : Keeps s₀ s) :
    KeepsParts s₀ s.mem s.recs.length s.dies.length s.armq.length s.armRun.length s.mbx.length s.qslots.length s.pods.length := h

/-- An update of the memory that keeps its canonical form. -/
theorem of_mem (h : Keeps s₀ s) (hm : Memory.wf s.mem = true → Memory.wf t.mem = true) (hu : t.units = s.units) : Keeps s₀ t :=
  ⟨hm ∘ h.1, fun i => hu.trans (h.2 i)⟩

/-- An update of units that leaves the memory and the lengths alone. -/
theorem of_units (h : Keeps s₀ s) (hm : t.mem = s.mem) (hu : t.units = s.units) : Keeps s₀ t :=
  h.of_mem (fun w => hm ▸ w) hu

/-- The first of a pair that the equation names. -/
theorem fst {α : Type} {x : State × α} {a : α} (h : Keeps s₀ x.1) (e : x = (t, a)) : Keeps s₀ t := by
  subst e; exact h

/-- A loop over a list, each round of which keeps the invariants. -/
theorem foldl_mem {α : Type} {f : State → α → State} {l : List α} (h : Keeps s₀ s) (hf : ∀ t, ∀ a ∈ l, Keeps s₀ t → Keeps s₀ (f t a)) :
    Keeps s₀ (l.foldl f s) := by
  induction l generalizing s with
  | nil => exact h
  | cons a l ih => exact ih (hf s a (List.mem_cons_self ..) h) fun t b hb => hf t b (List.mem_cons_of_mem _ hb)

theorem foldl {α : Type} {f : State → α → State} {l : List α} (h : Keeps s₀ s) (hf : ∀ t a, Keeps s₀ t → Keeps s₀ (f t a)) :
    Keeps s₀ (l.foldl f s) := h.foldl_mem fun t a _ => hf t a

/-- The same where a round carries a value beside the state. -/
theorem foldl_fst {α β : Type} {f : State × β → α → State × β} {l : List α} {x : State × β} (h : Keeps s₀ x.1)
    (hf : ∀ t b a, Keeps s₀ t → Keeps s₀ (f (t, b) a).1) : Keeps s₀ (l.foldl f x).1 := by
  induction l generalizing x with
  | nil => exact h
  | cons a l ih => exact ih (hf x.1 x.2 a h)

/-! ## Registers, records and memory -/

theorem setRec (h : Keeps s₀ s) {c r} : Keeps s₀ (s.setRec c r) := h.of_units rfl (by simp [State.units])
theorem updRec (h : Keeps s₀ s) {c f} : Keeps s₀ (s.updRec c f) := h.setRec
theorem updSeq (h : Keeps s₀ s) {c f} : Keeps s₀ (s.updSeq c f) := h.updRec
theorem updDctx (h : Keeps s₀ s) {c d f} : Keeps s₀ (s.updDctx c d f) := h.updRec
theorem updCell (h : Keeps s₀ s) {c d l f} : Keeps s₀ (s.updCell c d l f) := h.updDctx
theorem updCore (h : Keeps s₀ s) {c d l f} : Keeps s₀ (s.updCore c d l f) := h.updCell
theorem updPdie (h : Keeps s₀ s) {d f} : Keeps s₀ (s.updPdie d f) := h.of_units rfl (by simp [State.units, State.updPdie])
theorem updReq (h : Keeps s₀ s) {c id f} : Keeps s₀ (s.updReq c id f) := h.updRec
theorem dropReq (h : Keeps s₀ s) {c id} : Keeps s₀ (s.dropReq c id) := h.updRec
theorem newReq (h : Keeps s₀ s) {c q} : Keeps s₀ (s.newReq c q) := h.setRec

theorem memWrite (h : Keeps s₀ s) {k n v} : Keeps s₀ { s with mem := Machine.memWrite s.mem k n v } :=
  h.of_mem (memWrite_wf n s.mem k v) rfl
theorem memPutBytes (h : Keeps s₀ s) {k bs} : Keeps s₀ { s with mem := Machine.memPutBytes s.mem k bs } :=
  h.of_mem (memPutBytes_wf bs s.mem k) rfl
theorem memPutCells (h : Keeps s₀ s) {cs} : Keeps s₀ { s with mem := Machine.memPutCells s.mem cs } :=
  h.of_mem (memPutCells_wf cs s.mem) rfl
theorem memFilter (h : Keeps s₀ s) {p} : Keeps s₀ { s with mem := s.mem.filter p } := h.of_mem (memory_filter_wf s.mem p) rfl
theorem memClear (h : Keeps s₀ s) {k n} : Keeps s₀ { s with mem := Machine.memClear s.mem k n } := h.memFilter
theorem memCopy (h : Keeps s₀ s) {a b n} : Keeps s₀ { s with mem := Machine.memCopy s.mem a b n } :=
  h.of_mem (memCopy_wf s.mem a b n) rfl

theorem poke (h : Keeps s₀ s) {k n v} : Keeps s₀ (s.poke k n v) := h.memWrite
theorem pokes (h : Keeps s₀ s) {k bs} : Keeps s₀ (s.pokes k bs) := h.memPutBytes
theorem pokeCells (h : Keeps s₀ s) {cs} : Keeps s₀ (s.pokeCells cs) := h.memPutCells

theorem pokeBytes (h : Keeps s₀ s) {k bs bad} : Keeps s₀ (s.pokeBytes k bs bad) := by
  unfold State.pokeBytes
  split <;> exact h.pokes

/-! ## Traces, traps and the entry of operations -/

theorem bufWords {pasid base : Nat} : ∀ {ws : List Nat} {i : Nat} {s : State}, Keeps s₀ s → Keeps s₀ (s.bufWords pasid base i ws)
  | [], _, _, h => h
  | w :: ws, i, s, h => by
    unfold State.bufWords
    split
    · exact bufWords h.poke
    · exact bufWords h

theorem emit (h : Keeps s₀ s) {c n type die cell spec ws} : Keeps s₀ (s.emit c n type die cell spec ws) := by
  unfold State.emit
  dsimp only
  split
  · exact h
  split
  · exact h.bufWords.updRec
  split
  · exact h.bufWords.bufWords.updRec
  split
  · exact h.bufWords.updRec
  · exact h.updRec

theorem freeInfo (h : Keeps s₀ s) {n} : Keeps s₀ (s.freeInfo n).1 := by
  unfold State.freeInfo
  split <;> exact h

theorem takeTrap (h : Keeps s₀ s) {c t} : Keeps s₀ (s.takeTrap c t) := by
  unfold State.takeTrap
  dsimp only
  split
  · exact h.setRec
  split
  · exact h.freeInfo.setRec.emit.emit
  · exact h.freeInfo.setRec.emit

theorem wordFault (h : Keeps s₀ s) {c slot f} : Keeps s₀ (s.wordFault c slot f) := by
  unfold State.wordFault
  dsimp only
  split
  · exact h.updRec
  · exact h.takeTrap

theorem toDies (h : Keeps s₀ s) {c f} : Keeps s₀ (s.toDies c f) := h.updRec
theorem broadcast (h : Keeps s₀ s) {c idx lit n} : Keeps s₀ (s.broadcast c idx lit n) := h.toDies.setRec
theorem addMark (h : Keeps s₀ s) {c m} : Keeps s₀ (s.addMark c m) := h.updRec

/-! ## The L2, the staging caches and an access of memory -/

theorem l2Asks (h : Keeps s₀ s) : Keeps s₀ s.l2Asks.1 := h

theorem l2Fill (h : Keeps s₀ s) {line uc disc below bad} : Keeps s₀ (s.l2Fill line uc disc below bad) := by
  unfold State.l2Fill
  split <;> exact h

theorem l2Load (h : Keeps s₀ s) {line uc disc} : Keeps s₀ (s.l2Load line uc disc) := h.l2Fill
theorem l2Discard (h : Keeps s₀ s) {line l} : Keeps s₀ (s.l2Discard line l) := h.memPutBytes

theorem l2Held (h : Keeps s₀ s) {known} : Keeps s₀ (s.l2Held known).1 := by
  unfold State.l2Held
  split
  · exact h
  · exact h.l2Asks

theorem l2Read (h : Keeps s₀ s) {key uc disc known} : Keeps s₀ (s.l2Read key uc disc known) := by
  have hh := h.l2Held (known := known)
  unfold State.l2Read
  dsimp only
  split
  · exact h
  split
  · split
    · exact h
    split
    · exact hh
    · exact hh.l2Load
  split
  · exact hh.l2Load
  split
  · split
    · split
      · exact hh.l2Discard
      · exact hh
    · exact hh
  all_goals exact hh

theorem l2Write (h : Keeps s₀ s) {key uc disc} : Keeps s₀ (s.l2Write key uc disc) := by
  unfold State.l2Write
  dsimp only
  split
  · exact h
  split
  · exact h
  split
  · exact h.l2Asks
  · exact h.l2Asks.l2Load

theorem l2Store (h : Keeps s₀ s) {key uc disc} : Keeps s₀ (s.l2Store key uc disc) := by
  unfold State.l2Store
  dsimp only
  split
  · exact h
  split
  · split
    · exact h.l2Asks.l2Fill
    · exact h.l2Asks.l2Load
  split
  · exact h
  · exact h.l2Load

theorem stageRead (h : Keeps s₀ s) {key} : Keeps s₀ (s.stageRead key) := by
  unfold State.stageRead
  split <;> exact h

theorem noteRead (h : Keeps s₀ s) {key uc disc again} : Keeps s₀ (s.noteRead key uc disc again) := by
  unfold State.noteRead
  dsimp only
  split
  · exact h
  split
  · exact h.l2Read
  split
  · exact h.l2Asks.l2Read
  · exact h.l2Asks.stageRead.l2Read

theorem setFwd (h : Keeps s₀ s) {pasid hid obj f} : Keeps s₀ (s.setFwd pasid hid obj f) := h

theorem kick (h : Keeps s₀ s) {pasid qid} : Keeps s₀ (s.kick pasid qid) := by
  unfold State.kick
  split
  · exact h.of_units rfl (by simp [State.units])
  split
  · exact h
  split <;> exact h

theorem mmioWrite (h : Keeps s₀ s) {pasid priv key n v} : Keeps s₀ (s.mmioWrite pasid priv key n v) := by
  unfold State.mmioWrite
  -- Not under the match: the kernel would evaluate the page number, which subtracts a large base.
  extract_lets -underBinder
  split
  · exact h
  split
  · extract_lets
    split
    · exact h
    · exact h.updDctx
  · extract_lets
    split
    · exact h
    · exact h.of_units rfl (by simp [State.units])
  · exact h.kick
  · split
    · exact h.updRec
    · exact h
  · extract_lets
    split
    · exact h
    split
    · exact h
    · exact h.updPdie
  · exact h

theorem readT (h : Keeps s₀ s) {pasid t n uc disc again} : Keeps s₀ (s.readT pasid t n uc disc again).1 := by
  unfold State.readT
  dsimp only
  split
  · exact h
  split
  · exact h
  · exact h.noteRead

theorem writeT (h : Keeps s₀ s) {pasid t n v} : Keeps s₀ (s.writeT pasid t n v) := by
  unfold State.writeT
  dsimp only
  split
  · exact h.mmioWrite
  · exact h.poke

theorem rmwT (h : Keeps s₀ s) {pasid t n f v} : Keeps s₀ (s.rmwT pasid t n f v).1 := by
  unfold State.rmwT
  dsimp only
  split
  · exact h
  · exact h.noteRead.poke

theorem part (h : Keeps s₀ s) {pasid p} : Keeps s₀ (s.part pasid p).1 := by
  unfold State.part
  split
  · exact h.readT
  · exact h.l2Write.writeT
  · exact h.rmwT

end Keeps
end Sys2Proof.Machine


namespace Sys2Proof.Machine
namespace Keeps
variable {s₀ s t : State}

/-! ## Leases, translations and the checks of an access -/

theorem coherenceTrace (h : Keeps s₀ s) {c org line kind time sc} : Keeps s₀ (s.coherenceTrace c org line kind time sc) := h.updRec.emit
theorem timePasses (h : Keeps s₀ s) {c org} : Keeps s₀ (s.timePasses c org) := h

theorem noteCoherent (h : Keeps s₀ s) {c org sc key op} : Keeps s₀ (s.noteCoherent c org sc key op) := by
  unfold State.noteCoherent
  extract_lets line x d slice home a p copy p1 s1 near t second take s2 s3
  have h2 : Keeps s₀ s2 := h.same
  have h3 : Keeps s₀ s3 := by
    unfold s3
    split
    · exact h2.coherenceTrace
    · exact h2
  split
  · exact h
  split
  · split
    · exact h.same
    · refine coherenceTrace ?_
      exact h.same
  · split
    · exact h3.coherenceTrace
    · exact h3

theorem returnLine (h : Keeps s₀ s) {line} : Keeps s₀ (s.returnLine line) := by
  unfold State.returnLine
  extract_lets x s1
  have h1 : Keeps s₀ s1 := h.same
  split
  · exact h1.coherenceTrace
  · exact h1

theorem returnOwned (h : Keeps s₀ s) {d} : Keeps s₀ (s.returnOwned d) := h.foldl fun _ _ h => h.returnLine
theorem dropCopies (h : Keeps s₀ s) {b} : Keeps s₀ (s.dropCopies b) := h

theorem walkReads {ag : Agent} : ∀ {ks : List Nat} {s : State}, Keeps s₀ s → Keeps s₀ (s.walkReads ag ks).1
  | [], _, h => h
  | k :: ks, s, h => by
    unfold State.walkReads
    split
    · exact h
    · exact walkReads h.noteRead.noteCoherent

theorem setCompanion (h : Keeps s₀ s) {ag leaf bit} : Keeps s₀ (s.setCompanion ag leaf bit) := h.noteRead.poke.noteCoherent

theorem walkFor (h : Keeps s₀ s) {ag pasid va x} (e : s.walkFor ag pasid va = .ok x) : Keeps s₀ x.1 := by
  unfold State.walkFor at e
  split at e
  · cases e
  next s' hw =>
    split at e
    · cases e
    · cases e
      exact (h.walkReads).fst hw

theorem fillTlb (h : Keeps s₀ s) {ag die pasid va x} (e : s.fillTlb ag die pasid va = .ok x) : Keeps s₀ x.1 := by
  unfold State.fillTlb at e
  split at e
  · cases e
  next hw =>
    cases e
    exact (h.walkFor hw).setCompanion.noteCoherent.updPdie

theorem xlate (h : Keeps s₀ s) {ag die pasid va x} (e : s.xlate ag die pasid va = .ok x) : Keeps s₀ x.1 := by
  unfold State.xlate at e
  split at e
  · cases e
    exact h
  · exact h.fillTlb e

theorem atsFind (h : Keeps s₀ s) {pasid va} (e : s.atsFind pasid va = some t) : Keeps s₀ t := by
  unfold State.atsFind at e
  dsimp only at e
  split at e
  · cases e
    exact h
  split at e
  · cases e
  · cases e
    exact h

theorem walkAll {ag : Agent} {die pasid : Nat} : ∀ {as : List AccReq} {s : State} {x}, Keeps s₀ s → s.walkAll ag die pasid as = .ok x → Keeps s₀ x.1
  | [], _, _, h, e => by
    cases e
    exact h
  | a :: as, s, x, h, e => by
    unfold State.walkAll at e
    split at e
    · cases e
    next s1 w level hx =>
      have h1 := h.xlate hx
      dsimp only at e
      split at e
      · cases e
      next s2 ha =>
        have h2 : Keeps s₀ s2 := by
          split at ha
          · exact h1.atsFind ha
          · cases ha
            exact h1
        split at e
        · cases e
        next hr =>
          cases e
          exact (walkAll h2 hr :)

theorem check (h : Keeps s₀ s) {ag die pasid as x} (e : s.check ag die pasid as = .ok x) : Keeps s₀ x.1 := by
  unfold State.check at e
  split at e
  · cases e
  split at e
  · cases e
  split at e
  · cases e
  split at e
  · cases e
  next hw =>
    split at e
    · cases e
    split at e
    · cases e
    split at e
    · cases e
    · cases e
      exact h.walkAll hw

/-! ## The managed heap -/

theorem noteEntry (h : Keeps s₀ s) {ag pasid hid obj sc op} : Keeps s₀ (s.noteEntry ag pasid hid obj sc op) := by
  unfold State.noteEntry
  split
  · exact h
  · exact h.noteCoherent

theorem setFwdCache (h : Keeps s₀ s) {ag m} : Keeps s₀ (s.setFwdCache ag m) := by
  unfold State.setFwdCache
  split
  · exact h.updRec
  · exact h.updCell

theorem cachedEntry (h : Keeps s₀ s) {ag pasid r} : Keeps s₀ (s.cachedEntry ag pasid r).1 := by
  unfold State.cachedEntry
  dsimp only
  split
  · split
    · exact h
    · exact h.noteEntry.setFwdCache
  · exact h.noteEntry.setFwdCache

theorem dropEntry (h : Keeps s₀ s) {d pasid k} : Keeps s₀ (s.dropEntry d pasid k) :=
  h.of_units rfl (by simp [State.units, State.dropEntry])

theorem barrier (h : Keeps s₀ s) {ag pasid r off n x} (e : s.barrier ag pasid r off n = .ok x) : Keeps s₀ x.1 := by
  unfold State.barrier at e
  split at e
  · cases e
  dsimp only at e
  split at e
  · cases e
  split at e
  · cases e
  split at e
  · cases e
  · cases e
    exact h.cachedEntry

theorem routeAll {ag : Agent} {pasid r n : Nat} {write : Bool} : ∀ {os : List (Nat × Nat)} {s : State} {x},
    Keeps s₀ s → s.routeAll ag pasid r n write os = .ok x → Keeps s₀ x.1
  | [], _, _, h, e => by
    cases e
    exact h
  | (lane, off) :: os, s, x, h, e => by
    unfold State.routeAll at e
    split at e
    · cases e
    next hb =>
      split at e
      · cases e
      next hr =>
        cases e
        exact (routeAll (h.barrier hb) hr :)

theorem refTargets (h : Keeps s₀ s) {ag die pasid r n write offs x} (e : s.refTargets ag die pasid r n write offs = .ok x) :
    Keeps s₀ x.1 := by
  unfold State.refTargets at e
  split at e
  · cases e
  next hr =>
    split at e
    · cases e
    next hc =>
      cases e
      exact (h.routeAll hr).check hc

theorem pinHome (h : Keeps s₀ s) {pasid r x} (e : s.pinHome pasid r = some x) : Keeps s₀ x.1 := by
  unfold State.pinHome at e
  dsimp only at e
  split at e
  · cases e
    exact h
  split at e
  · cases e
  split at e
  · cases e
    exact h
  · cases e
    exact h.setFwd

theorem unpinHome (h : Keeps s₀ s) {pasid r} : Keeps s₀ (s.unpinHome pasid r).1 := by
  unfold State.unpinHome
  dsimp only
  split
  · exact h
  split
  · exact h
  · exact h.setFwd

theorem logged (h : Keeps s₀ s) {c kind die cell inn pc vals x} (e : s.logged c kind die cell inn pc vals = .ok x) : Keeps s₀ x.1 := by
  unfold State.logged at e
  dsimp only at e
  split at e
  · split at e
    · split at e
      · cases e
        exact h.setRec
      · cases e
    · cases e
  · cases e
    exact h.emit

theorem stopAtelier (h : Keeps s₀ s) : Keeps s₀ s.stopAtelier :=
  h.of_units rfl (by simp [State.units, State.stopAtelier])

end Keeps
end Sys2Proof.Machine


namespace Sys2Proof.Machine

/-! ## What a word does

A meaning of a slot is safe when the state that its checks answer and each function among its effects keep the invariants. -/

/-- The functions of a slot's effects keep the invariants. -/
structure FxSafe (f : SeqFx) : Prop where
  mem : ∀ {s₀ s}, Keeps s₀ s → Keeps s₀ (f.mem s) := by exact id
  post : ∀ {s₀ s}, Keeps s₀ s → Keeps s₀ (f.post s) := by exact id
  fin : ∀ {s₀ s}, Keeps s₀ s → Keeps s₀ (f.fin s) := by exact id

/-- A meaning of a slot keeps the invariants. -/
def SeqSafe (m : SeqMeaning) : Prop := ∀ s₀ s e x, Keeps s₀ s → m e s = .ok x → Keeps s₀ x.1 ∧ FxSafe x.2

/-- A step's outcome keeps the invariants: where it is a state, that state does. -/
def Ends (s₀ : State) : Host.Outcome State Fault Refusal → Prop
  | .next t => Keeps s₀ t
  | _ => True

theorem Ends.keeps {s₀ t : State} {o : Host.Outcome State Fault Refusal} (h : Ends s₀ o) (e : o = .next t) : Keeps s₀ t := by
  subst e
  exact h

theorem SeqSafe.pureFx {f : SeqEnv → SeqFx} (hf : ∀ e, FxSafe (f e)) : SeqSafe (pureFx f) := by
  intro s₀ s e x h hx
  cases hx
  exact ⟨h, hf e⟩

theorem SeqSafe.nothing : SeqSafe fxNone := SeqSafe.pureFx fun _ => {}

theorem slotOrder_mem {fxs : List SeqFx} {f : SeqFx} (h : f ∈ slotOrder fxs) : f ∈ fxs := by
  unfold slotOrder at h
  split at h
  · simp only [List.mem_cons, List.not_mem_nil, or_false] at h ⊢
    tauto
  · exact h

namespace Keeps
variable {s₀ s t : State}

theorem seqFault (h : Keeps s₀ s) {c slot f} : Keeps s₀ (s.seqFault c slot f) := by
  unfold State.seqFault
  split
  · exact h.stopAtelier
  · exact h.wordFault

theorem runSlots {e : SeqEnv} : ∀ {ws : List WSlot} {s : State} {x}, (∀ w ∈ ws, SeqSafe w.fx) → Keeps s₀ s →
    Machine.runSlots e ws s = .ok x → Keeps s₀ x.1 ∧ ∀ f ∈ x.2, FxSafe f
  | [], _, _, _, h, hx => by
    cases hx
    exact ⟨h, by simp⟩
  | w :: ws, s, x, hw, h, hx => by
    have hws : ∀ v ∈ ws, SeqSafe v.fx := fun v hv => hw v (List.mem_cons_of_mem _ hv)
    unfold Machine.runSlots at hx
    split at hx
    · split at hx
      · cases hx
      next s1 f hm =>
        obtain ⟨h1, hf⟩ := hw w (List.mem_cons_self ..) _ _ _ _ h hm
        split at hx
        · cases hx
        next hr =>
          cases hx
          obtain ⟨h2, hfs⟩ := runSlots hws h1 hr
          exact ⟨h2, List.forall_mem_cons.mpr ⟨hf, hfs⟩⟩
    · split at hx
      · cases hx
      next hr =>
        cases hx
        obtain ⟨h2, hfs⟩ := runSlots hws h hr
        exact ⟨h2, List.forall_mem_cons.mpr ⟨{}, hfs⟩⟩

theorem finishWord (h : Keeps s₀ s) {c fxs npc uw} (hf : ∀ f ∈ fxs, FxSafe f) : Keeps s₀ (s.finishWord c fxs npc uw) := by
  unfold State.finishWord
  extract_lets at_ inn s1 op s2 s3 s4 s5 s6 s7
  have h1 : Keeps s₀ s1 := h.foldl_mem fun t f hm ht => (hf f hm).mem ht
  have h3 : Keeps s₀ s3 := h1.updSeq.foldl fun t f ht => ht.updRec
  have h4 : Keeps s₀ s4 := h3.updRec
  have h5 : Keeps s₀ s5 := by
    unfold s5
    split
    · exact h4.updRec
    · exact h4
  have h6 : Keeps s₀ s6 := h5.foldl fun t f ht => by
    split
    · exact ht.newReq
    · exact ht
  have h7 : Keeps s₀ s7 := h6.foldl_mem fun t f hm ht => (hf f hm).post ht
  exact h7.foldl_mem fun t f hm ht => (hf f hm).fin ht

theorem mergeHold (h : Keeps s₀ s) {c x o} (e : s.mergeHold c x = some o) : Ends s₀ o := by
  unfold State.mergeHold at e
  extract_lets at e
  split at e
  · cases e
    exact h.setRec.takeTrap
  split at e
  · cases e
    exact h.setRec
  split at e
  · cases e
    exact h.setRec
  split at e
  · cases e
    trivial
  · cases e

theorem illegalWord (h : Keeps s₀ s) {c slot x} : Ends s₀ (s.illegalWord c slot x) := by
  unfold State.illegalWord
  split
  · trivial
  split
  next hm => exact h.mergeHold hm
  · exact h.seqFault

theorem issueWord (h : Keeps s₀ s) {c s0 s1 x na} (h0 : SeqSafe s0.fx) (h1 : SeqSafe s1.fx) (hx : SeqSafe x.fx) (hn : SeqSafe na.fx) :
    Ends s₀ (s.issueWord c s0 s1 x na) := by
  unfold State.issueWord
  extract_lets
  split
  · trivial
  split
  next hm => exact h.mergeHold hm
  split
  · exact h.seqFault
  split
  · exact h.seqFault
  next hr =>
    obtain ⟨h2, hf⟩ := h.runSlots (by simp [h0, h1, hx, hn]) hr
    extract_lets
    split
    · exact h.seqFault
    · exact h2.finishWord fun f hm => hf f (slotOrder_mem hm)

/-- A sequencer instruction executed alone. -/
theorem issueSlot (h : Keeps s₀ s) {r fx} (hf : SeqSafe fx) : Ends s₀ (s.issueSlot r fx) := by
  have hi : ∀ c : Prop, ∀ _ : Decidable c, SeqSafe (if c then fx else fxNone) := fun c _ => by
    split
    · exact hf
    · exact SeqSafe.nothing
  unfold State.issueSlot
  extract_lets
  split
  · exact h.illegalWord
  · exact h.issueWord (hi _ _) SeqSafe.nothing (hi _ _) (hi _ _)

/-! ## Special registers, masks, broadcasts -/

theorem ridxTarget (h : Keeps s₀ s) {x y} (e : s.ridxTarget x = some y) : Keeps s₀ y.1 := by
  unfold State.ridxTarget at e
  extract_lets at e
  split at e
  · cases e
  next hw =>
    have h1 := h.walkFor hw
    dsimp only at e
    split at e
    · cases e
    · obtain ⟨t, ht, rfl⟩ := Option.map_eq_some_iff.mp e
      split at ht
      · exact h1.atsFind ht
      · cases ht
        exact h1

theorem storeRidx (h : Keeps s₀ s) {x} : Keeps s₀ (s.storeRidx x) := by
  unfold State.storeRidx
  split
  · exact h
  next hr =>
    split at hr
    · exact (h.ridxTarget hr).newReq
    · cases hr

theorem slotWrite (h : Keeps s₀ s) {n v} : Keeps s₀ (s.slotWrite n v) := by
  unfold State.slotWrite
  extract_lets i x s1
  have h1 : Keeps s₀ s1 := h.of_units rfl (by simp [State.units, s1])
  split
  · exact h1.storeRidx
  · exact h1

theorem bcastWord (h : Keeps s₀ s) {c idx lit n wpc m} : Keeps s₀ (s.bcastWord c idx lit n wpc m) := by
  unfold State.bcastWord
  extract_lets
  split
  · exact h.broadcast.addMark
  · exact h.broadcast

theorem effectMark (h : Keeps s₀ s) {e} : Keeps s₀ (s.effectMark e) := by
  unfold State.effectMark
  extract_lets
  split
  · exact h
  · exact h.addMark.toDies.updRec

end Keeps

/-- An effect word that has no other effect on the state. -/
theorem FxSafe.effectFx {e q ws} : FxSafe (effectFx e q ws) := { post := fun h => h.effectMark }

namespace SeqSafe

theorem csrOp {num d f} : SeqSafe (csrOp num d f) := by
  intro s₀ s e x h hx
  unfold Machine.csrOp at hx
  extract_lets old out at hx
  have ho : ∀ t v, FxSafe (out t v).2 := fun t v =>
    { post := fun ht => by
        dsimp only [out]
        split
        · split
          · exact ht.slotWrite
          · exact ht
        · exact ht }
  split at hx
  · split at hx
    · cases hx
    next hl =>
      cases hx
      exact ⟨h.logged hl, ho _ _⟩
  · cases hx
    exact ⟨h, ho _ _⟩

theorem feat {d n} : SeqSafe (fxFeat d n) := by
  intro s₀ s e x h hx
  cases hx
  exact ⟨h, {}⟩

theorem bcast {rep idx} : SeqSafe (fxBcast rep idx) := SeqSafe.pureFx fun _ => { post := fun h => h.bcastWord }

theorem litFx {e : SeqEnv} {w : Nat} {m : Bool} :
    FxSafe { post := fun s => { s.bcastWord e.c litIdx (some w) 1 e.q.pc m with litBusy := 4 } } :=
  { post := fun h => h.bcastWord.same }

theorem lit : SeqSafe fxLit := by
  intro s₀ s e x h hx
  cases hx
  exact ⟨h, litFx⟩

theorem red {grp op ty dc ts d} : SeqSafe (fxRed grp op ty dc ts d) := by
  intro s₀ s e x h hx
  unfold fxRed at hx
  split at hx
  · cases hx
  · cases hx
    exact ⟨h, { post := fun ht => ht.effectMark.updRec.toDies }⟩

end SeqSafe
end Sys2Proof.Machine


namespace Sys2Proof.Machine
namespace Keeps
variable {s₀ s t : State}

/-! ## The near store and the accesses of a cell -/

theorem claimCmd (h : Keeps s₀ s) {c q} : Keeps s₀ (s.claimCmd c q) := by
  unfold State.claimCmd
  split
  · exact h.updPdie
  · exact h

theorem noteUnderwait (h : Keeps s₀ s) {c d l ein uw} : Keeps s₀ (s.noteUnderwait c d l ein uw) := by
  unfold State.noteUnderwait
  split
  · exact h.updRec
  · exact h

theorem cellActs (h : Keeps s₀ s) {c d l fxs uw pop} : Keeps s₀ (s.cellActs c d l fxs uw pop) :=
  h.updCell.foldl fun t f ht => by
    split
    · exact ht.claimCmd.newReq
    · exact ht

theorem cellEffects (h : Keeps s₀ s) {c d l ein fxs uw em pop} : Keeps s₀ (s.cellEffects c d l ein fxs uw em pop) :=
  h.updDctx.noteUnderwait.cellActs

theorem idleCells (h : Keeps s₀ s) {c d ein active} : Keeps s₀ (s.idleCells c d ein active) := h.updDctx
theorem dieFault (h : Keeps s₀ s) {c d ein f} : Keeps s₀ (s.dieFault c d ein f) := h.updDctx

theorem dropLine (h : Keeps s₀ s) {c d l line} : Keeps s₀ (s.dropLine c d l line) := by
  unfold State.dropLine
  split
  · exact h
  · exact h.pokeCells.updCell

theorem writeBack (h : Keeps s₀ s) {c d l line} : Keeps s₀ (s.writeBack c d l line) := h.dropLine
theorem cleanNear (h : Keeps s₀ s) {c d l} : Keeps s₀ (s.cleanNear c d l) := h.pokeCells.updCell
theorem flushNear (h : Keeps s₀ s) {c d l} : Keeps s₀ (s.flushNear c d l) := h.pokeCells.updCell
theorem writeBackAt (h : Keeps s₀ s) {c d l k n} : Keeps s₀ (s.writeBackAt c d l k n) := h.foldl fun _ _ ht => ht.writeBack
theorem staleNear (h : Keeps s₀ s) {c d l line} : Keeps s₀ (s.staleNear c d l line) := h.updCell

theorem makeRoom (h : Keeps s₀ s) {c d l line} : Keeps s₀ (s.makeRoom c d l line) := by
  unfold State.makeRoom
  extract_lets y same i s1
  split
  · exact h
  split
  · exact dropLine (s := s1) h.same
  · exact h.same

theorem gatherRead (h : Keeps s₀ s) {c d l k again} : Keeps s₀ (s.gatherRead c d l k again).1 := by
  unfold State.gatherRead
  extract_lets line x filled s1 fill s2 s3 v
  split
  · exact h
  · have h1 : Keeps s₀ s1 := by
      unfold s1
      split
      · exact h
      · exact h.makeRoom
    have h2 : Keeps s₀ s2 := by
      unfold s2
      split
      · exact h1
      · exact h1.noteRead
    exact h2.updCell

theorem gatherWrite (h : Keeps s₀ s) {c d l k v} : Keeps s₀ (s.gatherWrite c d l k v) := h.makeRoom.updCell

theorem acquireSteps (h : Keeps s₀ s) {c d l sc} : Keeps s₀ (s.acquireSteps c d l sc) := by
  unfold State.acquireSteps
  extract_lets
  split
  · exact h.updCell
  · exact h.updCell.flushNear

theorem cellRead (h : Keeps s₀ s) {c d l before path t n uc disc again} :
    Keeps s₀ (s.cellRead c d l before path t n uc disc again).1 := by
  unfold State.cellRead
  extract_lets pasid own t' k s1
  split
  · split
    next hr => exact h.gatherRead.fst hr
    next hr => exact h.gatherRead.fst hr
  · have h1 : Keeps s₀ s1 := h.writeBackAt
    split
    next hr => exact h1.readT.fst hr
    next hr => exact h1.readT.fst hr

theorem cellWrite (h : Keeps s₀ s) {c d l path t n v} : Keeps s₀ (s.cellWrite c d l path t n v) := by
  unfold State.cellWrite
  extract_lets
  split
  · split
    · exact h.gatherWrite
    · exact h.writeT
  · exact h.writeT.updCell
  · exact h.writeBackAt.l2Store.writeT
  · exact h.writeBackAt.l2Write.writeT

theorem event (h : Keeps s₀ s) {c d code detail info ein die} : Keeps s₀ (s.event c d code detail info ein die) := h.updDctx

theorem remoteMatch (h : Keeps s₀ s) {c own die ein key va n} : Keeps s₀ (s.remoteMatch c own die ein key va n) := by
  unfold State.remoteMatch
  extract_lets
  split
  · exact h
  split
  · exact h.event
  · exact h

/-! ## What an operation notes, and the loads of a cell -/

theorem noteParts (h : Keeps s₀ s) {ag sc ps} : Keeps s₀ (s.noteParts ag sc ps) := h.foldl fun _ _ ht => ht.noteCoherent

theorem dropBad (h : Keeps s₀ s) {c q} : Keeps s₀ (s.dropBad c q) := by
  unfold State.dropBad
  split
  · exact h
  · exact h

theorem received (h : Keeps s₀ s) {c q vs x} (e : s.received c q vs = .ok x) : Keeps s₀ x.1 := by
  unfold State.received at e
  split at e
  · cases e
    exact h
  split at e
  · cases e
    exact h
  split at e
  · cases e
  next hl =>
    cases e
    exact h.logged hl

theorem loadParts {c d l : Nat} {q : Req} {path : Path} : ∀ {ps : List Part} {s : State}, Keeps s₀ s →
    Keeps s₀ (s.loadParts c d l q path ps).1
  | [], _, h => h
  | p :: ps, s, h => by
    unfold State.loadParts
    split
    next hr => exact h.cellRead.fst hr
    next hr =>
      have h1 := h.cellRead.fst hr
      split
      next hp => exact (loadParts h1).fst hp
      next hp => exact (loadParts h1).fst hp

theorem readNow (h : Keeps s₀ s) {c d l q} : Keeps s₀ (s.readNow c d l q).1 := by
  unfold State.readNow
  split
  · split
    next hp => exact h.loadParts.fst hp
    next hp =>
      have h1 := h.loadParts.fst hp
      dsimp only
      split
      · exact h1.noteParts
      · exact h1
  · exact h

theorem discardAhead (h : Keeps s₀ s) {c d l id ein b} : Keeps s₀ (s.discardAhead c d l id ein b) := h.updDctx

end Keeps

/-! ## What a bundle does -/

/-- A meaning of a bundle's slot keeps the invariants: the state that its checks in a cell answer, and its effect for the
die. -/
structure SlotSafe (m : SlotMeaning) : Prop where
  cell : ∀ {s₀ s e x}, Keeps s₀ s → m.cell e s = .ok x → Keeps s₀ x.1 := by
    intro s₀ s e x h hx
    cases hx
    exact h
  group : ∀ {s₀ s e}, Keeps s₀ s → Keeps s₀ (m.group e s) := by exact id

namespace Keeps
variable {s₀ s t : State}

theorem runCells {c d : Nat} {r : Rec} {dx : DieCtx} {ein : BitVec 48} {raws : List Raw} {b : BSlot} (hb : SlotSafe b.fx) :
    ∀ {ls : List Nat} {s : State} {x}, Keeps s₀ s → Machine.runCells c d r dx ein raws b ls s = .ok x → Keeps s₀ x.1
  | [], _, _, h, e => by
    cases e
    exact h
  | l :: ls, s, x, h, e => by
    unfold Machine.runCells at e
    dsimp only at e
    split at e
    · cases e
    next s1 f hf =>
      have h1 : Keeps s₀ s1 := by
        split at hf
        · cases hf
          exact h
        · exact hb.cell h hf
      split at e
      · cases e
      next hr =>
        cases e
        exact (runCells hb h1 hr :)

theorem runBundle {c d : Nat} {r : Rec} {dx : DieCtx} {ein : BitVec 48} {raws : List Raw} {cells : List Nat} :
    ∀ {bs : List BSlot} {s : State} {x}, (∀ b ∈ bs, SlotSafe b.fx) → Keeps s₀ s →
      Machine.runBundle c d r dx ein raws cells bs s = .ok x → Keeps s₀ x.1
  | [], _, _, _, h, e => by
    cases e
    exact h
  | b :: bs, s, x, hb, h, e => by
    unfold Machine.runBundle at e
    split at e
    · cases e
    next hc =>
      have h1 := runCells (hb b (List.mem_cons_self ..)) h hc
      split at e
      · cases e
      next hr =>
        cases e
        exact (runBundle (fun b' hb' => hb b' (List.mem_cons_of_mem _ hb')) h1 hr :)

theorem issueBundle (h : Keeps s₀ s) {c d ein dm cm bs} (hb : ∀ b ∈ bs, SlotSafe b.fx) : Ends s₀ (s.issueBundle c d ein dm cm bs) := by
  unfold State.issueBundle
  extract_lets r dx cells genv isMark raws stores uwOf emOf
  split
  · exact h.dieFault
  split
  · exact h.dieFault
  split
  · exact h.updDctx
  split
  · trivial
  split
  · trivial
  split
  · exact h.dieFault
  split
  · exact h.dieFault
  split
  · exact h.dieFault
  next hr =>
    have h1 := h.runBundle hb hr
    extract_lets s1 s2 s3
    have h2 : Keeps s₀ s1 := h1.foldl fun t l ht => ht.cellEffects
    have h3 : Keeps s₀ s2 := h2.idleCells.foldl fun t l ht => ht.discardAhead
    have h4 : Keeps s₀ s3 := h3.updDctx
    exact h4.foldl_mem fun t b hm ht => (hb b hm).group ht

/-- An instruction of a bundle executed alone. -/
theorem issueLane (h : Keeps s₀ s) {r fx} (hf : SlotSafe fx) : Ends s₀ (s.issueLane r fx) := by
  unfold State.issueLane
  extract_lets c d q e
  split
  · trivial
  split
  · exact h.dieFault
  have hb : Ends s₀ (s.issueBundle c d e q.diemask q.cellmask [⟨r, slotNo r.kind, fx⟩]) := h.issueBundle (by simp [hf])
  split
  next hi =>
    split
    · exact (hb.keeps hi).updDctx
    · exact hb.keeps hi
  · exact hb

end Keeps
end Sys2Proof.Machine


namespace Sys2Proof.Machine

/-- A check that fails where its condition holds has answered by its other branch. -/
theorem ok_of_ite {ε α : Type} {c : Prop} [Decidable c] {f : ε} {x : Except ε α} {y : α} (e : (if c then .error f else x) = .ok y) :
    x = .ok y := by
  split at e
  · cases e
  · exact e

namespace Keeps
variable {s₀ s t : State}

/-! ## The MEM operations of the sequencer -/

theorem seqTarget (h : Keeps s₀ s) {e a n kind x} (hx : s.seqTarget e a n kind = .ok x) : Keeps s₀ x.1 := by
  unfold State.seqTarget at hx
  split at hx
  · split at hx
    · cases hx
    · cases hx
      exact h
  · split at hx
    · cases hx
    next hc =>
      cases hx
      exact h.check hc

theorem seqRef (h : Keeps s₀ s) {e r off n w x} (hx : s.seqRef e r off n w = .ok x) : Keeps s₀ x.1 := by
  unfold State.seqRef at hx
  split at hx
  · cases hx
  next hr =>
    cases hx
    exact h.refTargets hr

end Keeps

namespace SeqSafe

theorem ldg {n ord sc ts d a} : SeqSafe (ldg n ord sc ts d a) := by
  intro s₀ s e x h hx
  unfold Machine.ldg at hx
  split at hx
  · cases hx
  next ht =>
    cases hx
    exact ⟨h.seqTarget ht, {}⟩

theorem stg {n ord sc ts d a} : SeqSafe (stg n ord sc ts d a) := by
  intro s₀ s e x h hx
  unfold Machine.stg at hx
  split at hx
  · cases hx
  next ht =>
    cases hx
    exact ⟨h.seqTarget ht, .effectFx⟩

theorem seqAtomic {n b f ord sc ts dest a v} : SeqSafe (seqAtomic n b f ord sc ts dest a v) := by
  intro s₀ s e x h hx
  unfold Machine.seqAtomic at hx
  split at hx
  · cases hx
  next ht =>
    cases hx
    exact ⟨h.seqTarget ht, .effectFx⟩

theorem seqAtomic2 {b f ord sc ts d e2 a} : SeqSafe (seqAtomic2 b f ord sc ts d e2 a) := seqAtomic

theorem acas {ord sc ts d e2 a} : SeqSafe (fxAcas ord sc ts d e2 a) := fun _ _ _ _ h hx => seqAtomic _ _ _ _ h hx

theorem fence {ord sc ts} : SeqSafe (fxMemFence ord sc ts) := SeqSafe.pureFx fun e => by
  dsimp only
  split
  · exact {}
  · exact .effectFx

theorem seqRefLoad {n ord sc ts r d dest} : SeqSafe (seqRefLoad n ord sc ts r d dest) := by
  intro s₀ s e x h hx
  unfold Machine.seqRefLoad at hx
  split at hx
  · cases hx
  next ht =>
    cases hx
    exact ⟨h.seqRef ht, {}⟩

theorem seqRefStore {n ord sc ts r d v} : SeqSafe (seqRefStore n ord sc ts r d v) := by
  intro s₀ s e x h hx
  unfold Machine.seqRefStore at hx
  split at hx
  · cases hx
  next ht =>
    cases hx
    exact ⟨h.seqRef ht, .effectFx⟩

theorem pin {ord sc ts d r} : SeqSafe (fxMemPin ord sc ts d r) := by
  intro s₀ s e x h hx
  unfold fxMemPin at hx
  split at hx
  · cases hx
  · cases hx
    exact ⟨h, .effectFx⟩

theorem unpin {ord sc ts r} : SeqSafe (fxMemUnpin ord sc ts r) := by
  intro s₀ s e x h hx
  unfold fxMemUnpin at hx
  split at hx
  · cases hx
  · cases hx
    exact ⟨h, .effectFx⟩

end SeqSafe

/-! ## Streams -/

namespace Keeps
variable {s₀ s t : State}

theorem transferTargets (h : Keeps s₀ s) {c d l D ts x} (e : s.transferTargets c d l D ts = .ok x) : Keeps s₀ x.1 := by
  unfold State.transferTargets at e
  extract_lets at e
  split at e
  · split at e
    · cases e
    · cases e
      exact h
  · split at e
    · cases e
    next hc =>
      cases e
      exact h.check hc

theorem fetchItem (h : Keeps s₀ s) {c d l D st t before again} : Keeps s₀ (s.fetchItem c d l D st t before again).1 := by
  unfold State.fetchItem
  split
  · exact h
  next s1 tss ht =>
    have h1 : Keeps s₀ s1 := h.transferTargets ht
    extract_lets ts pasid own ks s2 vs em s3
    have h2 : Keeps s₀ s2 := h1.foldl fun t k ht => ht.writeBackAt
    split
    · exact h2
    · have h3 : Keeps s₀ s3 := h2.foldl fun t k ht => ht.noteRead
      split
      · split
        · exact h3
        next hl => exact h3.logged hl
      · exact h3

theorem getItem (h : Keeps s₀ s) {c d l D st t before} : Keeps s₀ (s.getItem c d l D st t before).1 := by
  unfold State.getItem
  split
  · split
    · exact h
    · exact h.fetchItem
  · exact h.fetchItem

theorem getItems {c d l : Nat} {D : Desc} {st before : Nat} : ∀ {ts : List Nat} {s : State}, Keeps s₀ s →
    Keeps s₀ (s.getItems c d l D st before ts).1
  | [], _, h => h
  | t :: ts, s, h => by
    unfold State.getItems
    exact (getItems h.getItem :)

theorem keepItem (h : Keeps s₀ s) {c d l i} : Keeps s₀ (s.keepItem c d l i) := h.updCell

theorem descTargets (h : Keeps s₀ s) {e a kind x} (hx : Machine.descTargets e s a kind = .ok x) : Keeps s₀ x.1 := by
  unfold Machine.descTargets at hx
  extract_lets at hx
  exact h.check (ok_of_ite hx)

end Keeps

namespace SlotSafe

/-- A slot whose checks change nothing. -/
theorem of_cell {m : SlotMeaning} (hg : m.group = fun _ s => s) (hc : ∀ e s x, m.cell e s = .ok x → x.1 = s) : SlotSafe m where
  cell h e := by
    rw [hc _ _ _ e]
    exact h
  group h := by
    rw [hg]
    exact h

theorem stset {g a st} : SlotSafe (fxStset g a st) := of_cell rfl fun e s x hx => by
  cases ok_of_ite (ok_of_ite (ok_of_ite hx))
  rfl

theorem stget {g d st} : SlotSafe (fxStget g d st) := of_cell rfl fun e s x hx => by
  cases ok_of_ite hx
  rfl

theorem stgo {g st tk} : SlotSafe (fxStgo g st tk) := of_cell rfl fun e s x hx => by
  cases ok_of_ite (ok_of_ite hx)
  rfl

theorem stsave {g a st tk} : SlotSafe (fxStsave g a st tk) where
  cell h e := by
    have e := ok_of_ite e
    split at e
    · cases e
    next hd =>
      split at e
      · cases e
      · cases e
        exact h.descTargets hd

theorem stload {g a st tk} : SlotSafe (fxStload g a st tk) where
  cell h e := by
    have e := ok_of_ite e
    split at e
    · cases e
    next hd =>
      cases e
      exact h.descTargets hd

theorem ldv {g acc d st tk} : SlotSafe (fxLdv g acc d st tk) where
  cell h e := by
    unfold fxLdv at e
    dsimp only at e
    split at e
    · cases e
    split at e
    · split at e
      · cases e
      · cases e
      next ht _ =>
        cases e
        exact h.transferTargets ht
    · split at e
      · cases e
      · cases e
        exact h.getItems

theorem stv {g a st tk} : SlotSafe (fxStv g a st tk) where
  cell h e := by
    unfold fxStv at e
    dsimp only at e
    split at e
    · cases e
    split at e
    · cases e
    next ht =>
      split at e
      · cases e
      · cases e
        exact h.transferTargets ht

end SlotSafe
end Sys2Proof.Machine


namespace Sys2Proof.Machine

/-! ## The memory operations of a cell -/

/-- The checks of an A-marked load keep the invariants. -/
def LoadSafe (L : CellLoad) : Prop := ∀ s₀ s e x, Keeps s₀ s → L.body e s = .ok x → Keeps s₀ x.1

namespace Keeps
variable {s₀ s t : State}

theorem take (h : Keeps s₀ s) {L e b fl vs x} (hx : CellLoad.take L e s b fl vs = .ok x) : Keeps s₀ x.1 := by
  unfold CellLoad.take at hx
  split at hx
  · cases hx
  next hr =>
    cases hx
    exact h.received hr

theorem cellTarget (h : Keeps s₀ s) {e ea n kind x} (hx : Machine.cellTarget e s ea n kind = .ok x) : Keeps s₀ x.1 := by
  unfold Machine.cellTarget at hx
  split at hx
  · cases hx
  next hc =>
    cases hx
    exact h.check hc

theorem laneParts (h : Keeps s₀ s) {e a b kind op v x} (hx : Machine.laneParts e s a b kind op v = .ok x) : Keeps s₀ x.1 := by
  unfold Machine.laneParts at hx
  split at hx
  · cases hx
  next hc =>
    cases hx
    exact h.check hc

theorem refs (h : Keeps s₀ s) {e : CellEnv} {r n w offs x} (hx : e.refs s r n w offs = .ok x) : Keeps s₀ x.1 := h.refTargets hx

theorem refRow (h : Keeps s₀ s) {e a b op v x} (hx : Machine.refRow e s a b op v = .ok x) : Keeps s₀ x.1 := by
  have hx := ok_of_ite hx
  split at hx
  · cases hx
  next hr =>
    cases hx
    exact h.refs hr

end Keeps

namespace LoadSafe

theorem cohLoad {tk d a sz imm} : LoadSafe (cohLoad tk d a sz imm) := by
  intro s₀ s e x h hx
  unfold Machine.cohLoad at hx
  dsimp only at hx
  split at hx
  · cases hx
  next ht =>
    cases hx
    exact h.cellTarget ht

theorem refLoad {tk dest n a b} : LoadSafe (refLoad tk dest n a b) := by
  intro s₀ s e x h hx
  unfold Machine.refLoad at hx
  dsimp only at hx
  split at hx
  · cases hx
  next hr =>
    cases hx
    exact h.refs hr

end LoadSafe

namespace SlotSafe

theorem cellFx {f} : SlotSafe (cellFx f) := {}

theorem loadFx {acc L} (hL : LoadSafe L) : SlotSafe (loadFx acc L) where
  cell h e := by
    unfold Machine.loadFx at e
    dsimp -zeta only at e
    extract_lets ahead at e
    split at e
    · split at e
      · cases e
      · cases e
        exact h
    next hb =>
      split at e
      · cases e
        exact hL _ _ _ _ h hb
      split at e
      · cases e
      · exact h.take e
    · cases e
    next hb =>
      have h1 := hL _ _ _ _ h hb
      extract_lets q at e
      split at e
      · cases e
        exact h1
      split at e
      · cases e
      next hr => exact (h1.readNow.fst hr).take e

theorem ldx {g acc d a tk sz imm} : SlotSafe (fxLdx g acc d a tk sz imm) where
  cell h e := by
    unfold fxLdx at e
    dsimp only at e
    split at e
    · split at e
      · cases e
      · cases e
        exact h
    · exact (loadFx LoadSafe.cohLoad).cell h e

theorem cohStore {ord sc d a tk sz imm} : SlotSafe (cohStore ord sc d a tk sz imm) where
  cell h e := by
    unfold Machine.cohStore at e
    dsimp only at e
    split at e
    · cases e
    next ht =>
      split at e
      · cases e
      · cases e
        exact h.cellTarget ht

theorem stx {g d a tk sz imm} : SlotSafe (fxStx g d a tk sz imm) where
  cell h e := by
    unfold fxStx at e
    dsimp only at e
    split at e
    · split at e
      · cases e
        exact h
      · cases e
    · exact cohStore.cell h e

theorem ldxAcq {g d a tk sc sz imm} : SlotSafe (fxLdxAcq g d a tk sc sz imm) where
  cell h e := by
    unfold fxLdxAcq at e
    dsimp only at e
    split at e
    · cases e
    next hb =>
      cases e
      exact LoadSafe.cohLoad _ _ _ _ h hb

theorem ldvn {g acc d a tk imm} : SlotSafe (fxLdvn g acc d a tk imm) where
  cell h e := by
    refine (loadFx ?_).cell h e
    intro s₀ s e x h hx
    dsimp only at hx
    split at hx
    · cases hx
    · cases hx
      exact h

theorem stvn {g d a tk imm} : SlotSafe (fxStvn g d a tk imm) := of_cell rfl fun e s x hx => by
  unfold fxStvn at hx
  dsimp only at hx
  split at hx
  · cases hx
  · cases hx
    rfl

theorem setFull {full a tk imm} : SlotSafe (setFull full a tk imm) := of_cell rfl fun e s x hx => by
  unfold Machine.setFull at hx
  dsimp only at hx
  split at hx
  · cases hx
  · cases hx
    rfl

theorem gather {g acc d a b tk} : SlotSafe (fxGather g acc d a b tk) := loadFx fun s₀ s e x h hx => by
  dsimp only at hx
  split at hx
  · cases hx
  next hl =>
    cases hx
    exact h.laneParts hl

theorem laneWrite {d a b tk sc kind op path gated} : SlotSafe (laneWrite d a b tk sc kind op path gated) where
  cell h e := by
    unfold Machine.laneWrite at e
    dsimp only at e
    split at e
    · cases e
    next hl =>
      split at e
      · cases e
      · cases e
        exact h.laneParts hl

theorem cellAtomic {n b f sc tk dest a v} : SlotSafe (cellAtomic n b f sc tk dest a v) where
  cell h e := by
    unfold Machine.cellAtomic at e
    dsimp only at e
    split at e
    · cases e
    next ht =>
      split at e
      · cases e
      · cases e
        exact h.cellTarget ht

theorem refStore {tk n a b v} : SlotSafe (refStore tk n a b v) where
  cell h e := by
    unfold Machine.refStore at e
    dsimp only at e
    split at e
    · cases e
    next hr =>
      split at e
      · cases e
      · cases e
        exact h.refs hr

theorem ldrv {g acc d a b tk} : SlotSafe (fxLdrv g acc d a b tk) := loadFx fun s₀ s e x h hx => by
  dsimp only at hx
  split at hx
  · cases hx
  next hr =>
    cases hx
    exact h.refRow hr

theorem strv {g d a b tk} : SlotSafe (fxStrv g d a b tk) where
  cell h e := by
    unfold fxStrv at e
    dsimp only at e
    split at e
    · cases e
    next hr =>
      split at e
      · cases e
      · cases e
        exact h.refRow hr

theorem pin {g d a tk} : SlotSafe (fxLsPin g d a tk) := of_cell rfl fun e s x hx => by
  unfold fxLsPin at hx
  dsimp only at hx
  split at hx
  · cases hx
  · cases hx
    rfl

theorem unpin {g a tk} : SlotSafe (fxLsUnpin g a tk) := of_cell rfl fun e s x hx => by
  unfold fxLsUnpin at hx
  dsimp only at hx
  split at hx
  · cases hx
  · cases hx
    rfl

/-! ## Waits, tokens, barriers -/

theorem wait {tk thr} : SlotSafe (fxWait tk thr) := {}

theorem waitf {a imm} : SlotSafe (fxWaitf a imm) := of_cell rfl fun e s x hx => by
  unfold fxWaitf at hx
  dsimp only at hx
  split at hx
  · cases hx
  · cases hx
    rfl

theorem dly {n} : SlotSafe (fxDly n) := {}
theorem mark : SlotSafe fxMark := {}
theorem abar : SlotSafe fxAbar := {}

theorem tokrd {g tk d} : SlotSafe (fxTokrd g tk d) where
  cell h e := by
    unfold fxTokrd at e
    dsimp only at e
    split at e
    · cases e
    next hl =>
      cases e
      exact h.logged hl

theorem setc {g dc op a} : SlotSafe (fxSetc g dc op a) where
  group h := by
    unfold fxSetc
    dsimp only
    split
    · exact h.updDctx
    · exact h

theorem bar {sc} : SlotSafe (fxBar sc) where
  group h := by
    unfold fxBar
    dsimp only
    split
    · exact h.updDctx
    · exact h

theorem phaseX : SlotSafe fxPhaseX where
  group h := h.updDctx

theorem phaseC : SlotSafe fxPhaseC where
  group h := h.updDctx

theorem trapc {g code} : SlotSafe (fxTrapc g code) where
  group h := by
    unfold fxTrapc
    dsimp only
    split
    · exact h.updDctx
    · exact h

end SlotSafe
end Sys2Proof.Machine


namespace Sys2Proof.Machine

/-! ## The matrix unit -/

namespace Keeps
variable {s₀ s t : State}

theorem moveStream (h : Keeps s₀ s) {c d l st f} : Keeps s₀ (s.moveStream c d l st f) := h.updDctx
theorem accPut (h : Keeps s₀ s) {c d l id vs flags} : Keeps s₀ (s.accPut c d l id vs flags) := h.updCell.updRec.updReq

theorem productRow (h : Keeps s₀ s) {c d l x i zero} : Keeps s₀ (s.productRow c d l x i zero).1 := by
  unfold State.productRow
  extract_lets q a b A B N e0
  split
  next s1 as ha =>
    have h1 : Keeps s₀ s1 := h.getItems.fst ha
    split
    next s2 bs hb =>
      have h2 : Keeps s₀ s2 := h1.getItems.fst hb
      extract_lets s3 at_ low rs s4
      have h3 : Keeps s₀ s3 := h2.foldl fun t it ht => ht.keepItem
      have h4 : Keeps s₀ s4 := h3.accPut
      split
      · exact h3
      split
      · exact h3
      · dsimp only
        exact h4.moveStream

theorem endStep (h : Keeps s₀ s) {c d l x} : Keeps s₀ (s.endStep c d l x) := by
  unfold State.endStep
  exact h.moveStream.moveStream

theorem outTargets {c d l : Nat} {D : Desc} : ∀ {ts : List Nat} {s : State} {x}, Keeps s₀ s → s.outTargets c d l D ts = .ok x → Keeps s₀ x.1
  | [], _, _, h, e => by
    cases e
    exact h
  | t :: ts, s, x, h, e => by
    unfold State.outTargets at e
    split at e
    · cases e
    next ht =>
      split at e
      · cases e
      next hr =>
        cases e
        exact (outTargets (h.transferTargets ht) hr :)

theorem outRow (h : Keeps s₀ s) {c d l x} : Keeps s₀ (s.outRow c d l x).1 := by
  unfold State.outRow
  extract_lets st O N e0 ts at_
  split
  · exact h
  next s1 tss ht =>
    have h1 : Keeps s₀ s1 := h.outTargets ht
    dsimp only
    split
    · exact h1
    · dsimp only
      exact (h1.foldl fun t p ht => ht.foldl fun t a ht => ht.cellWrite).accPut.moveStream

theorem skipGroups {c d l : Nat} : ∀ {n : Nat} {x : MxEntry} {s : State}, Keeps s₀ s → Keeps s₀ (s.skipGroups c d l n x).1
  | 0, _, _, h => h
  | n + 1, x, s, h => by
    unfold State.skipGroups
    split
    · exact (skipGroups h.moveStream :)
    · exact h

theorem macroRow (h : Keeps s₀ s) {c d l x} : Keeps s₀ (s.macroRow c d l x).1 := by
  unfold State.macroRow
  extract_lets M N
  split
  · exact h.accPut
  · split
    next hr => exact h.outRow.fst hr
    next hr => exact h.outRow.fst hr
  · split
    next s1 y hs =>
      have h1 : Keeps s₀ s1 := h.skipGroups.fst hs
      split
      · exact h1
      split
      next hr => exact (h1.productRow.fst hr).updCell
      next hr =>
        have h2 := h1.productRow.fst hr
        split
        · exact h2.endStep
        · exact h2
  · split
    next hr => exact h.productRow.fst hr
    next hr =>
      have h1 := h.productRow.fst hr
      split
      · exact h1.endStep
      · exact h1

end Keeps

namespace SlotSafe

theorem macroOp {op ops tk} : SlotSafe (macroOp op ops tk) := of_cell rfl fun e s x hx => by
  unfold Machine.macroOp at hx
  dsimp only at hx
  split at hx
  · cases hx
  · cases hx
    rfl

theorem of_checks {f : CellEnv → State → Except FInfo (State × CellFx)} (hf : ∀ e s x, f e s = .ok x → x.1 = s) :
    SlotSafe { cell := f } := of_cell rfl hf

theorem mmaGrp {g base m n a b tk zero neg bt gc} : SlotSafe (fxMmaGrp g base m n a b tk zero neg bt gc) := by
  unfold fxMmaGrp
  refine of_checks fun e s x hx => ?_
  extract_lets -underBinder ops at hx
  split at hx
  · cases hx
  · cases ok_of_ite hx
    rfl

theorem accrd {g base v row} : SlotSafe (fxAccrd g base v row) := of_cell rfl fun e s x hx => by
  cases ok_of_ite hx
  rfl

theorem accwr {g base v row} : SlotSafe (fxAccwr g base v row) := of_cell rfl fun e s x hx => by
  cases ok_of_ite hx
  rfl

theorem wswap : SlotSafe fxWswap where
  group h := by
    unfold fxWswap
    dsimp -zeta only
    extract_lets
    split
    · exact h
    · exact h.updPdie.updDctx

end SlotSafe

/-! ## Engine commands and transfers -/

namespace FxSafe

theorem engRefused {e bp note} (hn : ∀ {s₀ s}, Keeps s₀ s → Keeps s₀ (note s)) : FxSafe (engRefused e bp note) :=
  { post := fun h => hn h.effectMark }

theorem engAccepted {e cls ts bp sc m note} (hn : ∀ {s₀ s}, Keeps s₀ s → Keeps s₀ (note s)) : FxSafe (engAccepted e cls ts bp sc m note) :=
  { post := fun {s₀ s} h => hn <| (h.effectMark (e := e)).of_units rfl (by simp [State.units, Machine.effectFx]) }

end FxSafe

namespace SeqSafe

theorem eng {cls desc ts acq rel sc bp} : SeqSafe (eng cls desc ts acq rel sc bp) := by
  intro s₀ s e x h hx
  unfold Machine.eng at hx
  extract_lets d m at hx
  split at hx
  · cases hx
    refine ⟨h, ?_⟩
    dsimp only
    refine FxSafe.engRefused fun h => ?_
    split
    · exact h.updPdie
    · exact h
  · cases hx
    exact ⟨h, FxSafe.engAccepted id⟩

theorem enq {desc ts acq rel sc bp} : SeqSafe (fxEnq desc ts acq rel sc bp) := by
  intro s₀ s e x h hx
  unfold fxEnq at hx
  extract_lets d pasid qid slot full rsv ok at hx
  split at hx
  · cases hx
  next hl =>
    have h1 := h.logged hl
    split at hx
    · cases hx
      refine ⟨h1, ?_⟩
      dsimp only
      refine FxSafe.engRefused fun h => ?_
      split
      · exact h.kick
      · exact h
    · cases hx
      refine ⟨h1, ?_⟩
      dsimp only
      exact FxSafe.engAccepted fun h => h.of_units rfl (by simp [State.units])

end SeqSafe

namespace Keeps
variable {s₀ s t : State}

theorem send (h : Keeps s₀ s) {c d x} : Keeps s₀ (s.send c d x) := h.updDctx
theorem countXfer (h : Keeps s₀ s) {perm g} : Keeps s₀ (Machine.countXfer perm g s) := h.updDctx

end Keeps

namespace SlotSafe

theorem lanesXfer {op d a pat tk} : SlotSafe (lanesXfer op d a pat tk) where
  cell h e := by
    cases e
    exact h.send
  group h := h.countXfer

theorem xmit {g a b pat tk} : SlotSafe (fxXmit g a b pat tk) where
  cell h e := by
    unfold fxXmit at e
    dsimp only at e
    split at e
    · cases e
    · cases e
      exact h.send
  group h := h.countXfer

theorem recv {g a pat tk} : SlotSafe (fxRecv g a pat tk) where
  cell h e := by
    cases ok_of_ite (ok_of_ite e)
    exact h.send
  group h := h.countXfer

theorem xfCmd {cls xd tk sc acq rel bk items} : SlotSafe (xfCmd cls xd tk sc acq rel bk items) where
  cell h e := by
    unfold Machine.xfCmd at e
    dsimp only at e
    split at e
    · cases e
      exact h.updPdie
    · cases e
      exact h.of_units rfl (by simp [State.units, State.updPdie])

end SlotSafe
end Sys2Proof.Machine


namespace Sys2Proof.Machine

/-! ## Returns, waits and the local data store -/

namespace Keeps
variable {s₀ s t : State}

theorem tagSnapshot (h : Keeps s₀ s) {c n pass no} : Keeps s₀ (s.tagSnapshot c n pass no) := h.updRec
theorem unpause (h : Keeps s₀ s) {c} : Keeps s₀ (s.unpause c) := h.of_units rfl (by simp [State.units, State.unpause])

theorem rebroadcast (h : Keeps s₀ s) {c idx n npc} : Keeps s₀ (s.rebroadcast c idx n npc) := by
  unfold State.rebroadcast
  split
  · exact h
  extract_lets
  split
  · exact h.broadcast
  · exact h.broadcast.addMark

theorem enterF (h : Keeps s₀ s) {c f xpc} : Keeps s₀ (s.enterF c f xpc) := by
  unfold State.enterF
  dsimp only
  split
  · exact h.updRec.timePasses.takeTrap
  · exact h.updRec.takeTrap

theorem returnFromTrap (h : Keeps s₀ s) {c} : Keeps s₀ (s.returnFromTrap c) := by
  unfold State.returnFromTrap
  extract_lets r watch s1 s2 s3 s4
  have h2 : Keeps s₀ s2 := h.unpause.updRec
  split
  · split
    · exact h2.updRec.enterF
    · exact h2.updRec.updRec
  split
  · exact h2.updRec.enterF
  · refine updRec ?_
    unfold s4
    split
    · exact h2.rebroadcast
    · exact h2

theorem resumeIdle (h : Keeps s₀ s) {c m} : Keeps s₀ (s.resumeIdle c m) := by
  unfold State.resumeIdle
  extract_lets
  split
  · exact h.updRec.seqFault
  next hl => exact ((h.logged hl).foldl fun t p ht => ht.poke).timePasses.updRec

end Keeps

namespace SeqSafe

theorem call {off} : SeqSafe (fxCall off) := by
  intro s₀ s e x h hx
  cases ok_of_ite hx
  exact ⟨h, {}⟩

theorem ret : SeqSafe fxRet := by
  intro s₀ s e x h hx
  unfold fxRet at hx
  split at hx
  · cases hx
  · cases hx
    exact ⟨h, {}⟩

theorem lend {loop off} : SeqSafe (fxLend loop off) := by
  intro s₀ s e x h hx
  unfold fxLend at hx
  generalize e.q.lend loop = x at hx
  obtain ⟨l, again, ps⟩ := x
  cases hx
  refine ⟨h, { mem := fun {s₀ s} ht => ?_, fin := fun {s₀ s} ht => ?_ }⟩
  · dsimp only
    split
    · exact ht
    · exact ht.same
  · dsimp -zeta only
    extract_lets t
    have h1 : Keeps s₀ t := by
      unfold t
      split
      · exact ht
      · exact ht.tagSnapshot
    split
    · exact h1.updRec
    · exact h1

theorem trap {code} : SeqSafe (fxTrap code) := SeqSafe.pureFx fun _ => { fin := fun h => h.takeTrap }
theorem rft : SeqSafe fxRft := SeqSafe.pureFx fun _ => { fin := fun h => h.returnFromTrap }
theorem halt : SeqSafe fxHalt := SeqSafe.pureFx fun _ => { fin := fun h => h.updRec }

theorem idle {m} : SeqSafe (fxIdle m) := SeqSafe.pureFx fun _ =>
  { fin := fun h => by
      dsimp only
      split
      · exact h.resumeIdle
      · exact h.updRec }

theorem ldsLoad {d a off n signed} : SeqSafe (ldsLoad d a off n signed) := by
  intro s₀ s e x h hx
  unfold Machine.ldsLoad at hx
  dsimp only at hx
  split at hx
  · cases hx
  · cases hx
    exact ⟨h, {}⟩

theorem ldsStore {v a off n} : SeqSafe (ldsStore v a off n) := by
  intro s₀ s e x h hx
  unfold Machine.ldsStore at hx
  dsimp only at hx
  split at hx
  · cases hx
  · cases hx
    exact ⟨h, { mem := fun ht => ht.memWrite }⟩

/-- A meaning that answers only results and changes of the record. -/
theorem results {f : SeqEnv → SeqFx} (hf : ∀ e, FxSafe (f e) := by exact fun _ => {}) : SeqSafe (Machine.pureFx f) := SeqSafe.pureFx hf

/-! ## Every decoded slot -/

theorem seqFxScalar {op o} : SeqSafe (seqFxScalar op o) := by
  unfold Machine.seqFxScalar
  split
  case h_47 | h_48 | h_49 | h_50 | h_51 => exact ldsLoad
  case h_52 | h_53 | h_54 | h_55 => exact ldsStore
  all_goals exact results

theorem seqFxNa {op o} : SeqSafe (seqFxNa op o) := by
  unfold Machine.seqFxNa
  split
  · exact results
  · exact results
  · exact results
  · exact call
  · exact ret
  · exact lend
  · exact trap
  · exact rft
  · exact halt
  · exact idle
  · exact nothing

theorem seqFxX {op o} : SeqSafe (seqFxX op o) := by
  unfold Machine.seqFxX
  split
  · exact results
  · exact bcast
  · exact lit
  · exact results
  · exact results
  · exact red
  · exact feat
  · exact nothing

theorem seqFxMem {op o} : SeqSafe (seqFxMem op o) := by
  unfold Machine.seqFxMem
  split
  case h_1 | h_2 | h_3 | h_4 => exact ldg
  case h_5 | h_6 | h_7 | h_8 => exact stg
  case h_9 | h_10 | h_11 | h_12 | h_13 | h_14 | h_15 => exact seqAtomic2
  case h_16 => exact acas
  case h_19 => exact fence
  case h_20 | h_24 => exact seqRefLoad
  case h_21 | h_25 => exact seqRefStore
  case h_22 => exact pin
  case h_23 => exact unpin
  case h_28 => exact nothing
  all_goals exact seqAtomic

theorem seqFxEng {op o} : SeqSafe (seqFxEng op o) := by
  unfold Machine.seqFxEng
  split
  case h_5 => exact enq
  case h_9 => exact nothing
  all_goals exact eng

theorem seqFxCsr {op o} : SeqSafe (seqFxCsr op o) := by
  unfold Machine.seqFxCsr
  split
  case h_5 => exact nothing
  all_goals exact csrOp

theorem seqFxCtx {op o} : SeqSafe (seqFxCtx op o) := by
  unfold Machine.seqFxCtx
  split <;> exact results

theorem seqFx {r} : SeqSafe (seqFx r) := by
  unfold Machine.seqFx
  dsimp only
  split
  · exact seqFxScalar
  · exact seqFxNa
  · exact seqFxX
  · exact seqFxMem
  · exact seqFxEng
  · exact seqFxCsr
  · exact seqFxCtx
  · exact nothing

end SeqSafe

namespace SlotSafe

theorem cellFxOfV {op o} : SlotSafe (cellFxOfV op o) := by
  unfold Machine.cellFxOfV
  split <;> exact cellFx

theorem cellFxOfConv {op o} : SlotSafe (cellFxOfConv op o) := by
  unfold Machine.cellFxOfConv
  split <;> exact cellFx

theorem cellFxOfMx {op o} : SlotSafe (cellFxOfMx op o) := by
  unfold Machine.cellFxOfMx
  split
  case h_3 => exact mmaGrp
  case h_5 => exact accrd
  case h_6 => exact accwr
  case h_8 => exact wswap
  case h_9 => exact cellFx
  case h_10 => exact {}
  all_goals exact macroOp

theorem cellFxOfLs {op o} : SlotSafe (cellFxOfLs op o) := by
  unfold Machine.cellFxOfLs
  split
  case h_1 => exact ldv
  case h_2 => exact stv
  case h_3 => exact ldvn
  case h_4 => exact stvn
  case h_5 => exact gather
  case h_6 | h_16 | h_17 => exact laneWrite
  case h_7 => exact ldx
  case h_8 => exact stx
  case h_9 => exact ldxAcq
  case h_10 => exact cohStore
  case h_12 | h_13 | h_14 | h_15 | h_18 | h_39 | h_40 => exact cellAtomic
  case h_19 => exact stset
  case h_20 => exact stget
  case h_21 => exact stgo
  case h_22 => exact stsave
  case h_23 => exact stload
  case h_25 | h_26 => exact setFull
  case h_28 | h_32 => exact loadFx LoadSafe.refLoad
  case h_29 | h_33 => exact refStore
  case h_30 => exact ldrv
  case h_31 => exact strv
  case h_34 => exact pin
  case h_35 => exact unpin
  all_goals exact {}

theorem cellFxOfXf {op o} : SlotSafe (cellFxOfXf op o) := by
  unfold Machine.cellFxOfXf
  split
  · exact lanesXfer
  · exact xmit
  · exact recv
  · exact lanesXfer
  · exact xfCmd
  · exact xfCmd
  · exact xfCmd
  · exact xfCmd
  · exact cellFx
  · exact {}

theorem cellFxOfCt {op o} : SlotSafe (cellFxOfCt op o) := by
  unfold Machine.cellFxOfCt
  split
  case h_1 => exact wait
  case h_2 => exact waitf
  case h_3 => exact dly
  case h_4 => exact mark
  case h_6 => exact tokrd
  case h_7 => exact setc
  case h_8 => exact bar
  case h_9 => exact phaseX
  case h_10 => exact phaseC
  case h_11 => exact abar
  case h_12 => exact trapc
  all_goals exact {}

theorem cellFxOf {r} : SlotSafe (cellFxOf r) := by
  unfold Machine.cellFxOf
  dsimp only
  split
  · exact cellFxOfV
  · exact cellFxOfConv
  · exact cellFxOfMx
  · exact cellFxOfLs
  · exact cellFxOfXf
  · exact cellFxOfCt
  · exact {}

end SlotSafe
end Sys2Proof.Machine


namespace Sys2Proof.Machine

/-! ## The steps that issue -/

namespace Keeps
variable {s₀ s t : State}

theorem issueBits (h : Keeps s₀ s) {c w} : Ends s₀ (s.issueBits c w) := by
  unfold State.issueBits
  split
  · exact h.illegalWord
  · exact h.issueWord SeqSafe.seqFx SeqSafe.seqFx SeqSafe.seqFx SeqSafe.seqFx

theorem execWordIssue (h : Keeps s₀ s) {c} : Ends s₀ (execWordIssue c s) := by
  unfold Machine.execWordIssue
  split
  · trivial
  · exact h.issueBits

theorem execWaitsSatisfied (h : Keeps s₀ s) {c} : Ends s₀ (execWaitsSatisfied c s) := by
  unfold Machine.execWaitsSatisfied
  iterate 4 split; · trivial
  exact h.updRec.issueBits

theorem execIdleResume (h : Keeps s₀ s) {c} : Ends s₀ (execIdleResume c s) := by
  unfold Machine.execIdleResume
  split
  · trivial
  split
  · split
    · exact h.resumeIdle
    · trivial
  · trivial

theorem refresh (h : Keeps s₀ s) {c} : Keeps s₀ (s.refresh c) := by
  unfold State.refresh
  extract_lets
  split
  all_goals first
    | exact h.setRec
    | exact h

theorem countIdle (h : Keeps s₀ s) : Keeps s₀ s.countIdle := by
  unfold State.countIdle
  split
  · exact h
  · exact h

theorem execMergeCycle (h : Keeps s₀ s) : Ends s₀ (execMergeCycle s) := by
  unfold Machine.execMergeCycle
  extract_lets s1 res s2 s3 ready now s4
  have h1 : Keeps s₀ s1 := by
    unfold s1
    refine countIdle ?_
    exact h.same
  have h3 : Keeps s₀ s3 := (h1.foldl fun t c ht => ht.updRec).foldl fun t c ht => ht.refresh
  have h4 : Keeps s₀ s4 := h3.foldl fun t c ht => ht.updRec
  split
  · exact h1
  split
  · trivial
  · exact h4.same

theorem execOccupancyReport (h : Keeps s₀ s) {c} : Ends s₀ (execOccupancyReport c s) := by
  unfold Machine.execOccupancyReport
  iterate 3 split; · trivial
  exact h.updRec

theorem execBroadcastFrameArrival (h : Keeps s₀ s) {c d} : Ends s₀ (execBroadcastFrameArrival c d s) := by
  unfold Machine.execBroadcastFrameArrival
  split
  · trivial
  split
  · trivial
  split
  · trivial
  split
  · trivial
  · exact h.updDctx

theorem bundleSlotsOf_safe {b : Bundle} : ∀ x ∈ bundleSlotsOf b, SlotSafe x.fx := by
  intro x hx
  unfold bundleSlotsOf at hx
  obtain ⟨p, -, hp⟩ := List.mem_filterMap.mp hx
  obtain ⟨r, -, rfl⟩ := Option.map_eq_some_iff.mp hp
  exact SlotSafe.cellFxOf

theorem takenHead (h : Keeps s₀ s) {c d used} : Keeps s₀ (s.takenHead c d used) := by
  unfold State.takenHead
  split
  · exact h
  · exact h.updDctx

theorem issueHead (h : Keeps s₀ s) {c d} : Ends s₀ (s.issueHead c d) := by
  unfold State.issueHead
  split
  · trivial
  extract_lets -underBinder x
  split
  · trivial
  split
  · trivial
  extract_lets used
  split
  · exact h.dieFault.takenHead
  next b hd =>
    split
    next hi => exact ((h.issueBundle bundleSlotsOf_safe).keeps hi).takenHead
    next => exact h.issueBundle bundleSlotsOf_safe

theorem execBundleIssue (h : Keeps s₀ s) {c d} : Ends s₀ (execBundleIssue c d s) := by
  unfold Machine.execBundleIssue
  split
  · trivial
  · exact h.issueHead

theorem endWait (h : Keeps s₀ s) {c d w} : Ends s₀ (s.endWait c d w) := by
  unfold State.endWait
  iterate 3 split; · trivial
  split
  next hi =>
    split
    · trivial
    · exact h.updDctx.issueHead.keeps hi
  next => exact h.updDctx.issueHead

theorem execFixedLatencyLand (h : Keeps s₀ s) {c die} : Ends s₀ (execFixedLatencyLand c die s) := by
  unfold Machine.execFixedLatencyLand
  split
  · trivial
  split
  · extract_lets
    split
    · exact h.updSeq
    · trivial
  split
  · trivial
  split
  · trivial
  split
  · trivial
  · exact h.updDctx

/-! ## Performing an operation -/

theorem lateFault (h : Keeps s₀ s) {c q f} : Keeps s₀ (s.lateFault c q f) := by
  unfold State.lateFault
  split
  · exact h.updDctx
  split
  · exact h.stopAtelier
  · exact h.updRec

theorem watchRemote (h : Keeps s₀ s) {c q p} : Keeps s₀ (s.watchRemote c q p) := by
  unfold State.watchRemote
  extract_lets
  split
  · exact h
  · exact h.remoteMatch

theorem cellParts {c d l : Nat} {q : Req} {path : Path} : ∀ {ps : List Part} {s : State}, Keeps s₀ s →
    Keeps s₀ (s.cellParts c d l q path ps).1
  | [], _, h => h
  | p :: ps, s, h => by
    unfold State.cellParts
    split
    next s1 v hm =>
      have h1 : Keeps s₀ s1 := by
        split at hm
        · exact h.cellRead.fst hm
        · exact h.cellWrite.fst hm
        · exact (h.writeBackAt.rmwT.watchRemote).fst hm
      split
      · exact h1
      split
      next hr => exact (cellParts h1).fst hr
      next hr => exact (cellParts h1).fst hr

theorem seqParts {c : Nat} {q : Req} : ∀ {ps : List Part} {s : State}, Keeps s₀ s → Keeps s₀ (s.seqParts c q ps).1
  | [], _, h => h
  | p :: ps, s, h => by
    unfold State.seqParts
    extract_lets -underBinder pasid
    split
    next s1 v hm =>
      have h1 : Keeps s₀ s1 := by
        split at hm
        · split at hm
          · exact h.fst hm
          · exact h.mmioWrite.fst hm
        · refine fst ?_ hm
          dsimp only
          split
          · exact h.part.watchRemote
          · exact h.part
      split
      · exact h1
      split
      next hr => exact (seqParts h1).fst hr
      next hr => exact (seqParts h1).fst hr

theorem takeTicket {c n : Nat} : ∀ {ds : List Nat} {s : State}, Keeps s₀ s → Keeps s₀ (s.takeTicket c n ds).1
  | [], _, h => h
  | g :: gs, s, h => by
    unfold State.takeTicket
    extract_lets
    split
    · exact h.updDctx
    · exact (takeTicket h :)

theorem shrinkNear (h : Keeps s₀ s) {c d l old new} : Keeps s₀ (s.shrinkNear c d l old new) := by
  unfold State.shrinkNear
  extract_lets ls
  refine foldl ?_ fun t x ht => ht.dropLine
  exact h.same

theorem resizeWays (h : Keeps s₀ s) {c d l old new} : Keeps s₀ (s.resizeWays c d l old new) := by
  unfold State.resizeWays
  extract_lets ways lo hi s1 s2
  have h1 : Keeps s₀ s1 := by
    unfold s1
    split
    · exact h.shrinkNear
    · exact h
  have h2 : Keeps s₀ s2 := h1.memClear.same
  exact h2.updCell

theorem deliver (h : Keeps s₀ s) {c d l a size bs} : Keeps s₀ (s.deliver c d l a size bs) := h.pokes.updCell.updDctx

theorem doXfer (h : Keeps s₀ s) {c d l q op pat ord lanes a n x} (e : s.doXfer c d l q op pat ord lanes a n = some x) :
    Keeps s₀ x.1 := by
  unfold State.doXfer at e
  extract_lets -underBinder r at e
  split at e
  · split at e
    · cases e
      exact h
    extract_lets x at e
    split at e
    · cases e
    · cases e
      exact h
  · split at e
    · cases e
      exact h.updDctx
    · cases e
      exact h.updDctx
  · split at e
    · cases e
      exact h
    · cases e
      exact h
  · extract_lets sent never at e
    clear_value sent never
    split at e
    · split at e
      · cases e
      · cases e
        exact h.deliver
    · split at e
      · cases e
        exact h
      · cases e

theorem eventOf (h : Keeps s₀ s) {c d ein die} {f : Option FInfo} :
    Keeps s₀ (match f with | some f => s.event c d f.1 f.2.1 f.2.2 ein die | none => s) := by
  split
  · exact h.event
  · exact h

theorem doCell (h : Keeps s₀ s) {c d l q x} (e : s.doCell c d l q = some x) : Keeps s₀ x.1 := by
  unfold State.doCell at e
  extract_lets -underBinder s1 at e
  have h1 : Keeps s₀ s1 := by
    unfold s1
    split
    · exact h.cleanNear
    · exact h
  split at e
  · split at e
    next hp =>
      cases e
      exact h1.cellParts.fst hp
    next hp =>
      cases e
      have h2 := h1.cellParts.fst hp
      dsimp only
      split
      · exact h2.acquireSteps
      · exact h2
  · split at e
    next hg =>
      have h2 := h1.getItems.fst hg
      split at e
      · cases e
        exact h2
      · cases e
        exact h2.updCell
  · split at e
    · cases e
    · cases e
      exact h1
  · split at e
    · cases e
    · cases e
      exact h1
  · split at e
    · cases e
      exact h1
    · cases e
  · split at e
    next hp =>
      cases e
      exact h1.cellParts.fst hp
    next hp =>
      cases e
      exact h1.cellParts.fst hp
  · cases e
    exact h1.resizeWays
  · cases e
    exact h1.flushNear
  · cases e
    exact h1.updCell
  · cases e
    exact h1.takeTicket
  · split at e
    · cases e
    next hp =>
      cases e
      exact (h1.pinHome hp).eventOf
  · cases e
    exact h1.unpinHome.eventOf
  · exact h1.doXfer e
  all_goals cases e

theorem doSeq (h : Keeps s₀ s) {c q x} (e : s.doSeq c q = some x) : Keeps s₀ x.1 := by
  unfold State.doSeq at e
  extract_lets -underBinder o at e
  split at e
  · split at e
    next hp =>
      cases e
      exact h.seqParts.fst hp
    next hp =>
      cases e
      exact h.seqParts.fst hp
  · split at e
    · cases e
    · cases e
      exact h
  · split at e
    · cases e
    next hp =>
      cases e
      exact (h.pinHome hp).eventOf
  · cases e
    exact h.unpinHome.eventOf
  · cases e

theorem noteReq (h : Keeps s₀ s) {c q} : Keeps s₀ (s.noteReq c q) := by
  unfold State.noteReq
  extract_lets
  split
  · exact h.noteParts
  · exact h.timePasses
  · exact h.noteEntry
  · exact h.noteEntry
  · exact h

theorem land (h : Keeps s₀ s) {c q vs flags} : Keeps s₀ (s.land c q vs flags) := by
  unfold State.land
  extract_lets
  split
  · exact h.updRec
  · exact h.updDctx

theorem fenceAcquired (h : Keeps s₀ s) {c q} : Keeps s₀ (s.fenceAcquired c q) := by
  unfold State.fenceAcquired
  extract_lets s1
  have h1 : Keeps s₀ s1 := by
    unfold s1
    split
    · exact h.acquireSteps
    · exact h
  exact h1.timePasses.updReq

theorem execLoadResultLands (h : Keeps s₀ s) {r} : Ends s₀ (execLoadResultLands r s) := by
  unfold Machine.execLoadResultLands
  split
  · trivial
  next c q hq =>
    split
    · trivial
    split
    · exact h.fenceAcquired
    split
    · trivial
    split
    · trivial
    have hd : ∀ x, (match q.org with | some (d, l) => s.doCell c d l q | none => s.doSeq c q) = some x → Keeps s₀ x.1 := by
      intro x e
      split at e
      · exact h.doCell e
      · exact h.doSeq e
    split
    · trivial
    next hm => exact (hd _ hm).dropBad.land.updReq.lateFault
    next hm =>
      extract_lets s2
      have h2 : Keeps s₀ s2 := (hd _ hm).noteReq
      split
      · exact h2.updReq.lateFault
      next hr => exact (h2.received hr).land.updReq

end Keeps
end Sys2Proof.Machine


namespace Sys2Proof.Machine
namespace Keeps
variable {s₀ s t : State}

/-! ## Tokens and reductions -/

theorem postHome (h : Keeps s₀ s) {r org n} (e : s.postHome r org n = some (some t)) : Keeps s₀ t := by
  unfold State.postHome at e
  split at e
  · cases e
  · cases e
  · cases e
    exact h.poke

theorem endReq (h : Keeps s₀ s) {c q} : Keeps s₀ (s.endReq c q) := by
  unfold State.endReq
  extract_lets
  split
  · exact h.dropReq.updRec
  · exact h.dropReq

theorem postReq (h : Keeps s₀ s) {c q} : Keeps s₀ (s.postReq c q) := by
  unfold State.postReq
  split
  · exact h.endReq
  · exact h.setRec.endReq

theorem postImage (h : Keeps s₀ s) {k r q keep} : Keeps s₀ (s.postImage k r q keep) := by
  unfold State.postImage
  extract_lets drop kept
  have hk : ∀ n, Keeps s₀ (kept n) := fun n => h.same
  split
  · exact h
  split
  next hp =>
    have h1 := h.postHome hp
    exact h1
  · exact hk _
  · split
    · exact hk _
    · exact h

theorem execTokPost (h : Keeps s₀ s) {r} : Ends s₀ (execTokPost r s) := by
  unfold Machine.execTokPost
  split
  · trivial
  split
  · split
    · split
      · exact h.postImage
      · trivial
    · trivial
  · split
    · trivial
    · exact h.postReq

theorem finishRed (h : Keeps s₀ s) {c q op ty got} : Keeps s₀ (s.finishRed c q op ty got) := by
  unfold State.finishRed
  split
  · exact h.postReq.lateFault
  next hl => exact (h.logged hl).land.postReq

theorem execRedSample (h : Keeps s₀ s) {c grp d} : Ends s₀ (execRedSample c grp d s) := by
  unfold Machine.execRedSample
  iterate 3 split; · trivial
  split
  · extract_lets
    split
    · trivial
    · exact h.updReq.updDctx
  · trivial

theorem execRedValueArrival (h : Keeps s₀ s) {c grp d} : Ends s₀ (execRedValueArrival c grp d s) := by
  unfold Machine.execRedValueArrival
  iterate 3 split; · trivial
  split
  · split
    · exact h.finishRed
    split
    · trivial
    extract_lets
    split
    · exact h.finishRed
    · exact h.updReq
  · trivial

/-! ## Marks, commits and rollback -/

theorem execMarkPass (h : Keeps s₀ s) {c d} : Ends s₀ (execMarkPass c d s) := by
  unfold Machine.execMarkPass
  iterate 2 split; · trivial
  extract_lets
  iterate 3 split; · trivial
  exact h.updDctx

theorem commit (h : Keeps s₀ s) {c k} : Keeps s₀ (s.commit c k) := h.updRec.updRec

theorem execMarkCommit (h : Keeps s₀ s) {c} : Ends s₀ (execMarkCommit c s) := by
  unfold Machine.execMarkCommit
  iterate 2 split; · trivial
  extract_lets
  iterate 3 split; · trivial
  exact h.commit

theorem commitAccOne (h : Keeps s₀ s) {c d l w} : Keeps s₀ (s.commitAccOne c d l w) := h.updRec.updCell

theorem commitAcc (h : Keeps s₀ s) {c d l k} : Keeps s₀ (s.commitAcc c d l k) := by
  unfold State.commitAcc
  extract_lets
  split
  · exact h
  · exact (h.foldl fun t w ht => ht.commitAccOne).updDctx

theorem execCommitArrival (h : Keeps s₀ s) {c d} : Ends s₀ (execCommitArrival c d s) := by
  unfold Machine.execCommitArrival
  iterate 3 split; · trivial
  exact h.updDctx.updRec.foldl fun t l ht => ht.commitAcc

theorem dropQueued (h : Keeps s₀ s) {ids} : Keeps s₀ (s.dropQueued ids) := h.of_units rfl (by simp [State.units, State.dropQueued])

theorem rollTo (h : Keeps s₀ s) {c k} : Keeps s₀ (s.rollTo c k).1 := by
  unfold State.rollTo
  extract_lets -underBinder r
  split
  · exact h
  · exact h.dropQueued.setRec

theorem execRollback (h : Keeps s₀ s) {c} : Ends s₀ (execRollback c s) := by
  unfold Machine.execRollback
  split
  · trivial
  extract_lets -underBinder r
  split
  · extract_lets -underBinder k held
    split
    · trivial
    split
    next hr =>
      have h1 := h.rollTo.fst hr
      extract_lets
      split
      · exact h1.updRec.updRec
      · exact h1.updRec.takeTrap
  · trivial

theorem flagRb (h : Keeps s₀ s) {c d f} : Ends s₀ (s.flagRb c d f) := by
  unfold State.flagRb
  extract_lets
  split
  · exact h.updDctx.updRec
  split
  · exact h.updDctx.updRec
  · trivial
  · trivial
  · trivial
  · exact h.updDctx.updRec

theorem flagF (h : Keeps s₀ s) {c} : Ends s₀ (s.flagF c) := by
  unfold State.flagF
  extract_lets -underBinder r
  split
  · trivial
  split
  · trivial
  extract_lets
  split
  · exact h.updRec
  split
  · trivial
  · exact h.updRec.enterF

theorem execFaultFlag (h : Keeps s₀ s) {c d} : Ends s₀ (execFaultFlag c d s) := by
  unfold Machine.execFaultFlag
  iterate 3 split; · trivial
  extract_lets
  split
  · split
    · trivial
    · exact h.flagRb
  · split
    · trivial
    · exact h.flagF

theorem stopAt (h : Keeps s₀ s) {c code} : Ends s₀ (s.stopAt c code) := by
  unfold State.stopAt
  split
  · trivial
  extract_lets -underBinder
  split
  · iterate 2 split; · trivial
    exact h.takeTrap.emit
  · trivial

/-! ## Barriers and supersteps -/

theorem releaseCells (h : Keeps s₀ s) {c d cells} : Keeps s₀ (s.releaseCells c d cells) := h.foldl fun _ _ ht => ht.cleanNear

theorem execBarReport (h : Keeps s₀ s) {c d} : Ends s₀ (execBarReport c d s) := by
  unfold Machine.execBarReport
  iterate 2 split; · trivial
  extract_lets
  split
  · exact h.updDctx
  split
  · iterate 2 split; · trivial
    exact h.releaseCells.updDctx
  · trivial

theorem departBar (h : Keeps s₀ s) {c d cells sc} : Keeps s₀ (s.departBar c d cells sc) :=
  (h.foldl fun _ _ ht => ht.acquireSteps.timePasses).updDctx

theorem barGone (h : Keeps s₀ s) {c} : Keeps s₀ (s.barGone c) := by
  unfold State.barGone
  split
  · exact h.refresh
  · exact h

theorem execBarRelease (h : Keeps s₀ s) {c d} : Ends s₀ (execBarRelease c d s) := by
  unfold Machine.execBarRelease
  iterate 2 split; · trivial
  split
  · split
    · exact (h.foldl fun t p ht => ht.departBar).barGone
    · trivial
  · split
    · exact h.releaseCells.departBar.barGone
    · trivial
  · trivial

theorem execPhaseRelease (h : Keeps s₀ s) {c} : Ends s₀ (execPhaseRelease c s) := by
  unfold Machine.execPhaseRelease
  iterate 2 split; · trivial
  extract_lets
  split
  · trivial
  · exact h.updRec

end Keeps
end Sys2Proof.Machine


namespace Sys2Proof.Machine
namespace Keeps
variable {s₀ s t : State}

/-! ## The access stream, streams and the matrix queue -/

theorem readAhead (h : Keeps s₀ s) {c d l ein r} : Keeps s₀ (s.readAhead c d l ein r) := by
  unfold State.readAhead
  extract_lets -underBinder plain e keep
  split
  · exact h
  have hk : ∀ {t read done ls vs f}, Keeps s₀ t → Keeps s₀ (keep t read done ls vs f) := fun ht => ht.updDctx
  clear_value keep
  split
  · exact hk h
  next hc =>
    have h1 := SlotSafe.cellFxOf.cell h hc
    split
    · exact h
    split
    · extract_lets -underBinder q
      split
      · exact hk h
      split
      next hr => exact hk (h1.readNow.fst hr).dropBad
      next hr => exact hk (h1.readNow.fst hr)
    · exact h

theorem execAccessStreamIssue (h : Keeps s₀ s) {c d} : Ends s₀ (execAccessStreamIssue c d s) := by
  unfold Machine.execAccessStreamIssue
  split
  · trivial
  extract_lets -underBinder r x still
  split
  · trivial
  split
  · trivial
  extract_lets -underBinder cells
  iterate 4 split; · trivial
  exact (h.foldl fun t l ht => ht.readAhead).updDctx

theorem execStreamFetch (h : Keeps s₀ s) {c d cell st} : Ends s₀ (execStreamFetch c d cell st s) := by
  unfold Machine.execStreamFetch
  split
  · trivial
  extract_lets -underBinder r y
  iterate 3 split; · trivial
  split
  · trivial
  extract_lets -underBinder D before
  iterate 2 split; · trivial
  exact h.getItem.keepItem

theorem execMatrixOpStart (h : Keeps s₀ s) {c d cell} : Ends s₀ (execMatrixOpStart c d cell s) := by
  unfold Machine.execMatrixOpStart
  split
  · trivial
  extract_lets -underBinder r y
  split
  · split
    · trivial
    iterate 2 split; · trivial
    extract_lets s1
    have h1 : Keeps s₀ s1 := h.updCell
    dsimp only [Ends]
    split
    · exact h1.accPut
    · exact h1
  · trivial

theorem execMatrixRowComplete (h : Keeps s₀ s) {c d cell} : Ends s₀ (execMatrixRowComplete c d cell s) := by
  unfold Machine.execMatrixRowComplete
  iterate 3 split; · trivial
  split
  next hr => exact (h.macroRow.fst hr).updCell
  next hr => exact (h.macroRow.fst hr).updCell.updReq
  next hr => exact (h.macroRow.fst hr).updDctx

theorem execRbqRefill (h : Keeps s₀ s) {c d cell} : Ends s₀ (execRbqRefill c d cell s) := by
  unfold Machine.execRbqRefill
  iterate 2 split; · trivial
  extract_lets
  split
  · trivial
  · exact h.updCore

/-! ## Context images and the end of a context -/

theorem putAt (h : Keeps s₀ s) {key ws} : Keeps s₀ (s.putAt key ws) := h.foldl fun _ _ ht => ht.memWrite
theorem wipe (h : Keeps s₀ s) {k} : Keeps s₀ (s.wipe k) := h.memClear

theorem freeAt {key : Nat → Nat} : ∀ {n off : Nat} {s : State}, Keeps s₀ s → Keeps s₀ (s.freeAt key off n)
  | 0, _, _, h => h
  | n + 1, off, s, h => by
    unfold State.freeAt
    refine freeAt ?_
    exact h.memPutBytes.same

theorem writeImage (h : Keeps s₀ s) {c va pages} : Keeps s₀ (s.writeImage c va pages) := by
  unfold State.writeImage
  extract_lets r key s1 cells no s2 s3 s4
  have h1 : Keeps s₀ s1 := h.foldl fun t p ht => ht.flushNear
  have h2 : Keeps s₀ s2 := h1.foldl fun t i ht => ht.wipe
  have h3 : Keeps s₀ s3 := h2.foldl fun t p ht => ht.freeAt
  have h4 : Keeps s₀ s4 := h3.putAt
  exact h4.same

theorem goOn (h : Keeps s₀ s) {c} : Keeps s₀ (s.goOn c) := by
  unfold State.goOn
  extract_lets
  split
  · exact h.setRec
  split
  · exact h.setRec.rebroadcast
  · exact h.setRec

theorem settleOne (h : Keeps s₀ s) {c q} : Keeps s₀ (s.settleOne c q) := by
  unfold State.settleOne
  extract_lets
  split
  · split
    next hm =>
      split at hm
      · exact h.doCell hm
      · exact h.doSeq hm
    · exact h
  · exact h

theorem settle (h : Keeps s₀ s) {c} : Keeps s₀ (s.settle c) :=
  (h.foldl fun _ _ ht => ht.settleOne).foldl fun _ _ ht => ht.flushNear

theorem endContext (h : Keeps s₀ s) {c} : Keeps s₀ (s.endContext c) := h.settle.dropQueued.unpause.memClear.setRec
theorem endFor (h : Keeps s₀ s) {c code xin info} : Keeps s₀ (s.endFor c code xin info) := by
  refine endContext ?_
  exact h.same

theorem execPreemptionRequest (h : Keeps s₀ s) {c} : Ends s₀ (execPreemptionRequest c s) := by
  unfold Machine.execPreemptionRequest
  split
  · trivial
  extract_lets
  split
  · trivial
  · exact h.setRec

theorem rollForSave (h : Keeps s₀ s) {c} : Keeps s₀ (s.rollForSave c) := h.rollTo.updRec

theorem setArmRun (h : Keeps s₀ s) {i m} : Keeps s₀ { s with armRun := s.armRun.set i m } := h.of_units rfl (by simp [State.units])

theorem saveContext (h : Keeps s₀ s) {c m} : Keeps s₀ (s.saveContext c m) := by
  unfold State.saveContext
  extract_lets r va ended s1 s2
  have he : ∀ {t code prog}, Keeps s₀ t → Keeps s₀ (ended t code prog) := fun ht => ht.setArmRun
  clear_value ended
  split
  · exact he h.goOn
  · exact he (h.unpause.writeImage.memClear).setRec

theorem execPreemptHalt (h : Keeps s₀ s) {c} : Ends s₀ (execPreemptHalt c s) := by
  unfold Machine.execPreemptHalt
  split
  · trivial
  extract_lets -underBinder r
  split
  · extract_lets -underBinder k s1
    have h1 : Keeps s₀ s1 := h.rollForSave
    split
    · trivial
    split
    · exact h1.updRec
    split
    · exact h1.goOn
    · exact h1.saveContext
  · trivial

/-! ## Placing a context -/

theorem giveDie (h : Keeps s₀ s) {d pasid} : Keeps s₀ (s.giveDie d pasid) := by
  unfold State.giveDie
  split
  · exact h
  extract_lets f s1
  have h1 : Keeps s₀ s1 := h.updPdie
  refine dropCopies (returnOwned ?_)
  exact h1.same

theorem clearFor (h : Keeps s₀ s) {c pasid field launch} : Keeps s₀ (s.clearFor c pasid field launch) := by
  unfold State.clearFor
  extract_lets s1 s2
  have h2 : Keeps s₀ s2 := (h.foldl fun t d ht => ht.giveDie).dropCopies.memClear
  split
  · exact (h2.memClear.memClear).of_units rfl (by simp [State.units])
  · exact h2

theorem launchCtx (h : Keeps s₀ s) {c e0 e1 e2 ts hold} (e : s.launchCtx c e0 e1 e2 ts hold = .ok t) : Keeps s₀ t := by
  unfold State.launchCtx at e
  extract_lets -underBinder r pasid field group w f prio lds at e
  split at e
  · cases e
  split at e
  · cases e
  split at e
  · split at e
    · cases e
    extract_lets -underBinder core v0 at e
    split at e
    · cases e
    · cases e
    extract_lets old r' s1 at e
    have h1 : Keeps s₀ s1 := h.settle.clearFor.setRec
    cases e
    refine h1.of_mem (fun hw => ?_) rfl
    dsimp only
    split
    · exact hw
    · exact memPutBytes_wf _ _ _ hw
  · cases e

theorem loadCells (h : Keeps s₀ s) {c old va} : Keeps s₀ (s.loadCells c old va) := h.foldl fun _ _ ht => ht.memPutBytes.updCell

theorem agentsPass (h : Keeps s₀ s) {c} : Keeps s₀ (s.agentsPass c) := h.timePasses.foldl fun _ _ ht => ht.timePasses
theorem taken (h : Keeps s₀ s) {no r} : Keeps s₀ (s.taken no r) := h

theorem restoreCtx (h : Keeps s₀ s) {c e0 e1 e2 va hold} (e : s.restoreCtx c e0 e1 e2 va hold = .ok t) : Keeps s₀ t := by
  unfold State.restoreCtx at e
  extract_lets -underBinder r pasid field group at e
  split at e
  · cases e
  split at e
  · cases e
  split at e
  · extract_lets -underBinder g w fo og at e
    split at e
    · cases e
    split at e
    · cases e
    split at e
    · cases e
    split at e
    · split at e
      · cases e
      extract_lets hact rv life new new' s1 s2 s3 s4 at e
      split at e
      · cases e
      have h1 : Keeps s₀ s1 := h.clearFor.setRec
      have h2 : Keeps s₀ s2 := h1.foldl fun t d ht => by
        split
        · exact ht
        · exact ht.updPdie
      have h3 : Keeps s₀ s3 := h2.loadCells
      have h4 : Keeps s₀ s4 := by
        refine agentsPass ?_
        exact h3.same
      cases e
      split
      · exact h4
      · exact h4.goOn
    · cases e
  · cases e

theorem goMask (h : Keeps s₀ s) {pasid mask} : Keeps s₀ (s.goMask pasid mask) := h.foldl fun t c ht => by
  dsimp only
  split
  · exact ht.goOn
  · exact ht

theorem ctxstart (h : Keeps s₀ s) {pasid e} : Keeps s₀ (s.ctxstart pasid e).1 := by
  unfold State.ctxstart
  extract_lets -underBinder g e0 c hold p out
  split
  · exact h
  split
  · split
    · exact h
    · exact h.goMask
  split
  · exact h
  have ho : ∀ t, out = .ok t → Keeps s₀ t := by
    intro t e
    unfold out at e
    split at e
    · exact h.restoreCtx e
    split at e
    · cases e
    split at e
    · cases e
    · exact h.launchCtx e
  clear_value out
  split
  · exact ho _ rfl
  · exact h

end Keeps
end Sys2Proof.Machine


namespace Sys2Proof.Machine

/-- The state that an engine's work leaves keeps the invariants. -/
def RunKeeps (s₀ : State) : EngRun → Prop
  | .page s _ | .watch s _ _ | .over s _ => Keeps s₀ s

namespace Keeps
variable {s₀ s t : State}

/-! ## Engines -/

theorem setArmq (h : Keeps s₀ s) {i q} : Keeps s₀ { s with armq := s.armq.set i q } := h.of_units rfl (by simp [State.units])

theorem setRunning (h : Keeps s₀ s) {e m} : Keeps s₀ (s.setRunning e m) := by
  unfold State.setRunning
  split
  · exact h.setArmRun
  · split
    · exact h.updPdie
    · exact h

theorem updEngine (h : Keeps s₀ s) {e f} : Keeps s₀ (s.updEngine e f) := by
  unfold State.updEngine
  split
  · exact h.updPdie
  · exact h

theorem execArmatureCommandForward (h : Keeps s₀ s) {cls} : Ends s₀ (execArmatureCommandForward cls s) := by
  unfold Machine.execArmatureCommandForward
  iterate 3 split; · trivial
  split
  · trivial
  iterate 2 split; · trivial
  refine updPdie ?_
  exact h.setArmq.same

theorem foldl_earlier_mem : ∀ (l : List (QCmd × State)) (a : QCmd × State), l.foldl earlier a ∈ a :: l
  | [], a => List.mem_cons_self ..
  | b :: l, a => by
    have hm := foldl_earlier_mem l (earlier a b)
    unfold earlier at hm ⊢
    rw [List.foldl_cons]
    rcases List.mem_cons.mp hm with he | he
    · rw [he]
      split <;> simp
    · simp [he]

theorem takeHead (h : Keeps s₀ s) {e x} (hx : s.takeHead e = some x) : Keeps s₀ x.2 := by
  unfold State.takeHead at hx
  split at hx
  · split at hx
    · split at hx
      · cases hx
        exact h.setArmq
      · cases hx
    · cases hx
  · split at hx
    · cases hx
    split at hx
    · cases hx
    next hl =>
      cases hx
      obtain ⟨d, -, hd⟩ := List.mem_filterMap.mp (hl ▸ foldl_earlier_mem _ _)
      split at hd
      · split at hd
        · injection hd with hd
          rw [← hd]
          exact h.updPdie
        · cases hd
      · cases hd

theorem engAt (h : Keeps s₀ s) {ag die pasid va kind} : Keeps s₀ (s.engAt ag die pasid va kind).1 := by
  unfold State.engAt
  split
  · exact h
  extract_lets -underBinder page
  have hp : ∀ x, page = .ok x → Keeps s₀ x.1 := by
    intro x e
    unfold page at e
    split at e
    · exact h.xlate e
    · split at e
      next hw =>
        cases e
        exact h.walkFor hw
      · cases e
  clear_value page
  split
  · exact h
  have h1 := hp _ rfl
  dsimp only at h1 ⊢
  split
  · exact h1
  next s2 ha =>
    have h2 : Keeps s₀ s2 := by
      split at ha
      · exact h1.atsFind ha
      · cases ha
        exact h1
    split
    · exact h2
    · exact h2

theorem watchEvent (h : Keeps s₀ s) {e m va} : Keeps s₀ (s.watchEvent e m va) := by
  unfold State.watchEvent
  split
  · exact h.event
  · exact h

theorem postCmd (h : Keeps s₀ s) {id} : Keeps s₀ (s.postCmd id) := by
  unfold State.postCmd
  split
  · exact h.postReq
  · split
    · exact h.postImage
    · exact h

theorem recordValue (h : Keeps s₀ s) {m} : Keeps s₀ (s.recordValue m).1 := by
  unfold State.recordValue
  split
  · exact h
  split
  next hl => exact h.logged hl
  · exact h.lateFault

theorem fwDone (h : Keeps s₀ s) {code} : Keeps s₀ (s.fwDone code) := h

theorem retire (h : Keeps s₀ s) {e m} : Keeps s₀ (s.retire e m) := by
  unfold State.retire
  extract_lets s1
  have h1 : Keeps s₀ s1 := h.setRunning.updEngine
  split
  · exact h1.fwDone
  · exact h1.postCmd

theorem engWrote (h : Keeps s₀ s) {m k n} : Keeps s₀ (s.engWrote m k n) := by
  unfold State.engWrote
  split
  · exact h.foldl fun t i ht => ht.staleNear
  · exact h

theorem engPoke (h : Keeps s₀ s) {m k n v} : Keeps s₀ (s.engPoke m k n v) := h.l2Write.poke.engWrote

theorem endCmd (h : Keeps s₀ s) {e m} (hx : s.endCmd e m = some t) : Keeps s₀ t := by
  unfold State.endCmd at hx
  extract_lets -underBinder a at hx
  split at hx
  · cases hx
    exact h.retire
  split at hx
  next he =>
    split at hx
    · cases hx
    · cases hx
      exact (h.engAt.fst he).setRunning
  next he =>
    cases hx
    exact (h.engAt.fst he).retire
  next he =>
    cases hx
    exact (h.engAt.fst he).retire
  next s1 k he =>
    have h1 := (h.engAt.fst he).recordValue (m := m)
    split at hx
    next s2 v hr =>
      have h2 : Keeps s₀ s2 := h1.fst hr
      cases hx
      refine retire ?_
      split
      · exact h2.engPoke.watchEvent
      · exact h2.engPoke

theorem engGo {x : State × EngVal} {m next} (h : Keeps s₀ x.1) : Keeps s₀ (EngVal.go x m next).1 := by
  unfold EngVal.go
  split <;> exact h

theorem copyKey (h : Keeps s₀ s) {e m near write va} : Keeps s₀ (s.copyKey e m near write va).1 := by
  unfold State.copyKey
  split
  · split <;> exact h
  · exact h.engAt

theorem copyFull (h : Keeps s₀ s) {x m dst n} : Keeps s₀ (s.copyFull x m dst n) := by
  unfold State.copyFull
  split
  · exact h.updCell
  · exact h

theorem copyOne (h : Keeps s₀ s) {e x m src dst n} : Keeps s₀ (s.copyOne e x m src dst n).1 := by
  unfold State.copyOne
  split
  next s1 k hk =>
    have h1 : Keeps s₀ s1 := h.copyKey.fst hk
    split
    next s2 k' hk' =>
      have h2 : Keeps s₀ s2 := h1.copyKey.fst hk'
      extract_lets bad bs s3 s4 s5
      have h3 : Keeps s₀ s3 := by
        unfold s3
        split
        · exact h2.noteRead
        · exact h2
      have h4 : Keeps s₀ s4 := by
        unfold s4
        split
        · exact h3.l2Write
        · exact h3
      exact h4.pokeBytes.engWrote.copyFull
    · exact engGo h1.copyKey
  · exact engGo h.copyKey

theorem copyRun {e : EngineId} {x : Cpy} {stop : Bool} {skid : Option Nat} : ∀ {n : Nat} {s : State} {m : QCmd}, Keeps s₀ s →
    RunKeeps s₀ (copyRun e x stop skid n s m)
  | 0, _, _, h => h
  | n + 1, s, m, h => by
    unfold Machine.copyRun
    split
    · exact h
    split
    extract_lets -underBinder out
    split
    · exact h
    split
    · exact h
    split
    next hc => exact h.copyOne.fst hc
    next hc =>
      have h1 := h.copyOne.fst hc
      split
      · exact h1
      · exact (copyRun h1 :)

theorem runCpy (h : Keeps s₀ s) {e m} : RunKeeps s₀ (s.runCpy e m) := by
  unfold State.runCpy
  extract_lets
  split
  · exact h
  · exact h.copyRun

theorem engCount (h : Keeps s₀ s) {e m va} : Keeps s₀ (s.engCount e m va).1 := by
  unfold State.engCount
  split
  next s1 k he =>
    have h1 : Keeps s₀ s1 := h.engAt.fst he
    split
    · exact h1
    extract_lets old s2 own
    have h2 : Keeps s₀ s2 := h1.noteRead.engPoke.noteCoherent
    dsimp only
    split
    · exact h2.remoteMatch
    · exact h2
  next => exact h.engAt

theorem engPut (h : Keeps s₀ s) {e m va n v} : Keeps s₀ (s.engPut e m va n v).1 := by
  unfold State.engPut
  split
  next he => exact (h.engAt.fst he).engPoke
  next => exact h.engAt

theorem binStep (h : Keeps s₀ s) {e m} : Keeps s₀ (s.binStep e m).2.1 := by
  unfold State.binStep
  split
  · exact h
  extract_lets -underBinder bins cap u withItems count put k o
  have hc : ∀ va base, Keeps s₀ (count va base).2.1 := fun _ _ => engGo h.engCount
  have hp : ∀ va n v, Keeps s₀ (put va n v).2.1 := fun _ _ _ => engGo h.engPut
  clear_value count put
  split
  · split <;> exact hc _ _
  split
  · split
    · exact hp _ _ _
    · exact hc _ _
  · split
    · exact hp _ _ _
    · exact engGo h.engCount

theorem binRun {e : EngineId} : ∀ {n : Nat} {s : State} {m : QCmd}, Keeps s₀ s → RunKeeps s₀ (binRun e n s m)
  | 0, _, _, h => h
  | n + 1, s, m, h => by
    unfold Machine.binRun
    have h1 := h.binStep (e := e) (m := m)
    generalize s.binStep e m = b at h1
    obtain ⟨wr, out⟩ := b
    dsimp only
    split
    · exact h
    split
    · exact h1
    · split
      · exact h1
      · exact (binRun h1 :)

theorem runBin (h : Keeps s₀ s) {e m} : RunKeeps s₀ (s.runBin e m) := by
  unfold State.runBin
  split
  · exact h
  · exact h.binRun

theorem binLine {e : EngineId} {line : Nat} : ∀ {n : Nat} {s : State} {m : QCmd} {best : EngRun}, Keeps s₀ s → RunKeeps s₀ best →
    RunKeeps s₀ (binLine e line n s m best)
  | 0, _, _, _, _, hb => hb
  | n + 1, s, m, best, h, hb => by
    unfold Machine.binLine
    have h1 := h.binStep (e := e) (m := m)
    split
    · exact hb
    next hm =>
      rw [hm] at h1
      extract_lets best'
      have hb' : RunKeeps s₀ best' := by
        unfold best'
        split
        · split
          · exact h1
          · exact hb
        · exact hb
      split
      · exact hb'
      · exact (binLine h1 hb' :)

theorem engBytes {m : QCmd} : ∀ {n : Nat} {s : State} {va : Nat}, Keeps s₀ s → Keeps s₀ (s.engBytes m va n).1
  | 0, _, _, h => h
  | n + 1, s, va, h => by
    unfold State.engBytes
    split
    · exact h
    next he => exact h.engAt.fst he
    next he => exact h.engAt.fst he
    next s1 k he =>
      have h1 : Keeps s₀ s1 := h.engAt.fst he
      have h2 : Keeps s₀ (if va % 128 = 64 ∨ n = 0 then s1.noteRead k 0 false false else s1) := by
        split
        · exact h1.noteRead
        · exact h1
      split
      · exact h1
      extract_lets bs
      have h3 := engBytes (m := m) (n := n) (va := va + 64) h2
      split
      · exact h
      next hr => exact fst h3 hr
      next => exact h3

theorem deliverMbx (h : Keeps s₀ s) {c m bs} : Keeps s₀ (s.deliverMbx c m bs) :=
  h.memPutBytes.of_units rfl (by simp [State.units, State.deliverMbx])

theorem runMbx (h : Keeps s₀ s) {m} : RunKeeps s₀ (s.runMbx m) := by
  unfold State.runMbx
  extract_lets -underBinder c b
  split
  · exact h
  split
  · exact h
  split
  next hb => exact h.engBytes.fst hb
  next hb => exact h.engBytes.fst hb
  next hb =>
    have h1 := h.engBytes.fst hb
    split
    · exact h1
    · exact h1.deliverMbx

theorem runPod (h : Keeps s₀ s) {m} : RunKeeps s₀ (s.runPod m) := by
  unfold State.runPod
  extract_lets -underBinder port toMbx n p
  split
  · exact h
  split
  · exact h
  split
  next hb => exact h.engBytes.fst hb
  next hb => exact h.engBytes.fst hb
  next hb =>
    have h1 := h.engBytes.fst hb
    extract_lets i s1
    have h2 : Keeps s₀ s1 := h1.same
    split
    · exact h2
    split
    · exact h2
    · exact h2.pokes

theorem runEnq (h : Keeps s₀ s) {m} : RunKeeps s₀ (s.runEnq m) := by
  unfold State.runEnq
  split
  split
  next he => exact h.engAt.fst he
  next he => exact h.engAt.fst he
  next he => exact h.engAt.fst he
  next he =>
    have h1 := h.engAt.fst he
    extract_lets -underBinder va
    split
    next he => exact h1.noteRead.engAt.fst he
    next he => exact h1.noteRead.engAt.fst he
    next he => exact h1.noteRead.engAt.fst he
    next he =>
      extract_lets p0 s1
      have h2 : Keeps s₀ s1 := (h1.noteRead.engAt.fst he).foldl fun t i ht => ht.poke
      exact h2.poke.kick

end Keeps
end Sys2Proof.Machine


namespace Sys2Proof.Machine
namespace Keeps
variable {s₀ s t : State}

/-! ## Health, the weight flash and INSTALL -/

theorem refreshHealth (h : Keeps s₀ s) : Keeps s₀ s.refreshHealth := h

theorem pageKeys {ag : Agent} {die : Option Nat} {pasid : Nat} {kind : AccKind} : ∀ {n : Nat} {s : State} {va : Nat}, Keeps s₀ s →
    Keeps s₀ (s.pageKeys ag die pasid va kind n).1
  | 0, _, _, h => h
  | n + 1, s, va, h => by
    unfold State.pageKeys
    split
    next he => exact h.engAt.fst he
    next he => exact h.engAt.fst he
    next he => exact h.engAt.fst he
    next he =>
      have h1 := pageKeys (ag := ag) (die := die) (pasid := pasid) (kind := kind) (n := n) (va := va + 65536) (h.engAt.fst he)
      split
      next hr => exact fst h1 hr
      next => exact h1

theorem installPages (h : Keeps s₀ s) {d m} : Keeps s₀ (s.installPages d m).1 := by
  unfold State.installPages
  split
  next he => exact h.pageKeys.fst he
  next he => exact h.pageKeys.fst he
  next he => exact h.pageKeys.fst he
  next he =>
    have h1 := h.pageKeys.fst he
    split
    next he => exact h1.pageKeys.fst he
    next he => exact h1.pageKeys.fst he
    next he => exact h1.pageKeys.fst he
    next he => exact h1.pageKeys.fst he

theorem updTenant (h : Keeps s₀ s) {pasid f} : Keeps s₀ (s.updTenant pasid f) := by
  unfold State.updTenant
  split
  · exact h
  · exact h

theorem acceptInstall (h : Keeps s₀ s) {d m} : RunKeeps s₀ (s.acceptInstall d m) := by
  unfold State.acceptInstall
  extract_lets -underBinder u
  split
  · exact h
  split
  · exact h
  split
  next he => exact h.installPages.fst he
  next he => exact h.installPages.fst he
  next he =>
    have h1 := h.installPages.fst he
    split
    · exact h1
    split
    · exact h1
    split
    · exact h1
    · exact h1.updTenant

theorem release (h : Keeps s₀ s) {m} : Keeps s₀ (s.release m) := by
  unfold State.release
  split
  · exact h.updTenant
  · exact h

theorem noteRange (h : Keeps s₀ s) {key n} : Keeps s₀ (s.noteRange key n) := h.foldl fun _ _ ht => ht.noteRead

theorem unitPages {d : Nat} {m : QCmd} : ∀ {n : Nat} {s : State} {src key : Nat}, Keeps s₀ s → Keeps s₀ (s.unitPages d m src key n).1
  | 0, _, _, _, h => h
  | n + 1, s, src, key, h => by
    unfold State.unitPages
    split
    next he => exact h.engAt.fst he
    next he => exact h.engAt.fst he
    next he => exact h.engAt.fst he
    next he =>
      split
      · exact h.engAt.fst he
      · exact (unitPages (h.engAt.fst he).memCopy.noteRange :)

theorem stopInstall (h : Keeps s₀ s) {d m code} : Keeps s₀ (s.stopInstall d m code) := h.release.setRunning
theorem freshUnit (h : Keeps s₀ s) {key} : Keeps s₀ (s.freshUnit key) := h

theorem commitUnit (h : Keeps s₀ s) {d m x unit remap} : Keeps s₀ (s.commitUnit d m x unit remap) := by
  unfold State.commitUnit
  extract_lets die s1 s2 again va cmd m1 m2 s3
  have h3 : Keeps s₀ s3 := h.updPdie.updTenant.refreshHealth.setRunning
  split
  · exact h3.watchEvent.updEngine
  · exact h3

theorem spoilUnit (h : Keeps s₀ s) {d x unit} : Keeps s₀ (s.spoilUnit d x unit) := h.updPdie.refreshHealth

/-- A state of which the memory is put back to one of before. -/
theorem withMem (h : Keeps s₀ t) (hs : Keeps s₀ s) : Keeps s₀ { t with mem := s.mem } := ⟨hs.1, h.2⟩

theorem execInstallUnitCommit (h : Keeps s₀ s) {d out} : Ends s₀ (execInstallUnitCommit d out s) := by
  unfold Machine.execInstallUnitCommit
  iterate 3 split; · trivial
  split
  · trivial
  split
  · exact h.stopInstall
  split
  next he =>
    split
    · trivial
    · exact (h.engAt.fst he).setRunning
  next he => exact (h.engAt.fst he).stopInstall
  next he => exact (h.engAt.fst he).stopInstall
  next s1 key he =>
    have h1 : Keeps s₀ s1 := h.engAt.fst he
    extract_lets -underBinder unit
    split
    · exact h1.stopInstall
    split
    · exact h1.stopInstall
    split
    next hu =>
      split
      · trivial
      · exact ((h1.unitPages.fst hu).withMem h1).setRunning
    next hu => exact ((h1.unitPages.fst hu).withMem h1).stopInstall
    next s2 hu =>
      have h2 : Keeps s₀ s2 := h1.unitPages.fst hu
      split
      extract_lets s3
      have h3 : Keeps s₀ s3 := h2.same
      split
      · exact (h3.withMem h1).spoilUnit.stopInstall
      · exact h3.freshUnit.commitUnit

/-! ## Moving an object and the heap service -/

theorem sendFwdInv (h : Keeps s₀ s) {ds pasid hid obj} : Keeps s₀ (s.sendFwdInv ds pasid hid obj) := by
  unfold State.sendFwdInv
  extract_lets x
  refine foldl ?_ fun t d ht => ht.updPdie
  exact h.same

theorem putEntry (h : Keeps s₀ s) {m pasid hid obj f} : Keeps s₀ (s.putEntry m pasid hid obj f) := h.setFwd.noteEntry

theorem acceptReloc (h : Keeps s₀ s) {d m} : RunKeeps s₀ (s.acceptReloc d m) := by
  unfold State.acceptReloc
  split
  · exact h
  extract_lets -underBinder r f lines
  split
  next he => exact h.pageKeys.fst he
  next he => exact h.pageKeys.fst he
  next he => exact h.pageKeys.fst he
  next he =>
    have h1 := h.pageKeys.fst he
    split
    next he => exact h1.pageKeys.fst he
    next he => exact h1.pageKeys.fst he
    next he => exact h1.pageKeys.fst he
    next he =>
      have h2 := h1.pageKeys.fst he
      split
      · exact h2
      split
      · exact h2
      · exact h2.putEntry.updEngine

theorem scramble {x : Move} : ∀ {n j : Nat} {s : State}, Keeps s₀ s → Keeps s₀ (s.scramble x j n)
  | 0, _, _, h => h
  | n + 1, j, s, h => by
    unfold State.scramble
    refine scramble (pokes ?_)
    exact h.same

theorem endMove (h : Keeps s₀ s) {d x} : Keeps s₀ (s.endMove d x) := by
  unfold State.endMove
  extract_lets s1 s2
  have h2 : Keeps s₀ s2 := h.scramble.updEngine
  split
  · exact h2.setRunning
  · exact h2

theorem copyLine (h : Keeps s₀ s) {d x m} : Keeps s₀ (s.copyLine d x m) := by
  unfold State.copyLine
  extract_lets f k bad bs k' s1 x1 s2 s3 s4 ds x2 s5
  have h2 : Keeps s₀ s2 := h.noteRead.pokeBytes.engWrote.setRunning
  have h3 : Keeps s₀ s3 := h2.putEntry
  have h5 : Keeps s₀ s5 := h2.putEntry.sendFwdInv.updEngine
  split
  · exact h3.updEngine
  split
  · exact h5.endMove
  · exact h5

theorem execRelocLineCopy (h : Keeps s₀ s) {d} : Ends s₀ (execRelocLineCopy d s) := by
  unfold Machine.execRelocLineCopy
  iterate 2 split; · trivial
  extract_lets
  split
  · iterate 3 split; · trivial
    exact h.copyLine
  · trivial

theorem execFwdInvalidation (h : Keeps s₀ s) {d} : Ends s₀ (execFwdInvalidation d s) := by
  unfold Machine.execFwdInvalidation
  iterate 3 split; · trivial
  exact h.dropEntry.updPdie

theorem ackFreed (h : Keeps s₀ s) {d no} : Keeps s₀ (s.ackFreed d no) := h

theorem ackMove (h : Keeps s₀ s) {d no} : Keeps s₀ (s.ackMove d no) := h.ackFreed.foldl fun t g ht => by
  dsimp only
  split
  · split
    · split
      · exact ht.endMove
      · exact ht.updEngine
    · exact ht
  · exact ht

theorem execFwdInvalidationAck (h : Keeps s₀ s) {d} : Ends s₀ (execFwdInvalidationAck d s) := by
  unfold Machine.execFwdInvalidationAck
  iterate 4 split; · trivial
  exact h.updPdie.ackMove

theorem execHeapAllocate (h : Keeps s₀ s) {pasid hid obj base size} : Ends s₀ (execHeapAllocate pasid hid obj base size s) := by
  unfold Machine.execHeapAllocate
  extract_lets
  iterate 4 split; · trivial
  exact h.setFwd

theorem execHeapFree (h : Keeps s₀ s) {pasid hid obj} : Ends s₀ (execHeapFree pasid hid obj s) := by
  unfold Machine.execHeapFree
  extract_lets f s1 ds gone
  iterate 2 split; · trivial
  have h1 : Keeps s₀ s1 := h.setFwd
  refine sendFwdInv ?_
  exact h1.same

end Keeps
end Sys2Proof.Machine


namespace Sys2Proof.Machine

theorem RunKeeps.watched {s₀ s : State} {r : EngRun} {m va} (h : RunKeeps s₀ r) (e : r = .watch s m va) : Keeps s₀ s := by
  subst e
  exact h

namespace Keeps
variable {s₀ s t : State}

/-! ## The commands of engines -/

theorem execEngineCommandStart (h : Keeps s₀ s) {e} : Ends s₀ (execEngineCommandStart e s) := by
  unfold Machine.execEngineCommandStart
  iterate 3 split; · trivial
  split
  · trivial
  next m s1 ht =>
    have h1 : Keeps s₀ s1 := h.takeHead ht
    extract_lets s2 s3 bad
    have h2 : Keeps s₀ s2 := by
      unfold s2
      split
      · exact h1.cleanNear
      · exact h1
    have h3 : Keeps s₀ s3 := by
      unfold s3
      split
      · exact h2.timePasses
      · exact h2
    iterate 2 split; · trivial
    exact h3.setRunning

theorem runStart (h : Keeps s₀ s) {m} : RunKeeps s₀ (s.runStart m) := by
  unfold State.runStart
  split
  · exact h
  split
  · exact h
  · exact h.ctxstart

theorem runSave (h : Keeps s₀ s) {m r} (e : s.runSave m = some r) : RunKeeps s₀ r := by
  unfold State.runSave at e
  extract_lets -underBinder c r mine at e
  split at e
  · cases e
  split at e
  · cases e
    exact h
  split at e
  · cases e
    exact h
  split at e
  next he =>
    cases e
    exact h.pageKeys.fst he
  next he =>
    cases e
    exact h.pageKeys.fst he
  next he =>
    cases e
    exact h.pageKeys.fst he
  next he =>
    split at e
    · cases e
      exact (h.pageKeys.fst he).setRec
    · cases e

theorem runCmd (h : Keeps s₀ s) {e m r} (hr : s.runCmd e m = some r) : RunKeeps s₀ r := by
  unfold State.runCmd at hr
  split at hr
  · cases hr
    exact h.runCpy
  · cases hr
    exact h.runBin
  · split at hr
    · cases hr
    · cases hr
      exact h.acceptInstall
  · split at hr
    · cases hr
    · cases hr
      exact h.acceptReloc
  · cases hr
    exact h.runMbx
  · cases hr
    exact h.runEnq
  · cases hr
    exact h.runPod
  · cases hr
    exact h.runStart
  · exact h.runSave hr

theorem execEngineCommandComplete (h : Keeps s₀ s) {e} : Ends s₀ (execEngineCommandComplete e s) := by
  unfold Machine.execEngineCommandComplete
  iterate 4 split; · trivial
  split
  · split
    next he => exact h.endCmd he
    · trivial
  split
  · trivial
  next hr =>
    have h1 : Keeps s₀ _ := h.runCmd hr
    split
    · trivial
    · exact h1.setRunning
  next hr =>
    have h1 : Keeps s₀ _ := h.runCmd hr
    split
    · trivial
    · exact h1.setRunning
  next hr =>
    have h1 : Keeps s₀ _ := h.runCmd hr
    split
    · split
      next he => exact h1.endCmd he
      · exact h1.setRunning
    · exact h1.setRunning

theorem pauseAt (h : Keeps s₀ s) {e m va} : Keeps s₀ (s.pauseAt e m va) := h.setRunning.watchEvent.updEngine

theorem afterWatch {e m va r} (h : RunKeeps s₀ r) : Keeps s₀ (afterWatch e m va r) := by
  unfold Machine.afterWatch
  split <;> exact pauseAt h

theorem execWatchEngine (h : Keeps s₀ s) {e} : Ends s₀ (execWatchEngine e s) := by
  unfold Machine.execWatchEngine
  iterate 4 split; · trivial
  split
  · split
    next hr =>
      have h1 : Keeps s₀ _ := (h.runCpy).watched hr
      exact afterWatch h1.copyRun
    · trivial
  · split
    next hr =>
      have h1 : Keeps s₀ _ := (h.runBin).watched hr
      exact afterWatch (h1.binLine h1)
    · trivial
  · extract_lets
    split
    · split
      · trivial
      split
      · trivial
      · exact h.copyLine.watchEvent.updEngine
    · trivial
  · trivial

theorem answerEngine (h : Keeps s₀ s) {e m ans} : Keeps s₀ (s.answerEngine e m ans) := by
  unfold State.answerEngine
  split
  · exact h.setRunning
  split
  · exact h.setRunning
  · exact h.release.setRunning

theorem answerContext (h : Keeps s₀ s) {c f seq ans} : Keeps s₀ (s.answerContext c f seq ans) := by
  unfold State.answerContext
  extract_lets
  split
  · split
    · exact h.setRec
    · exact h.rebroadcast.updRec
  · exact h.setRec.takeTrap
  · exact h.endFor

theorem execPageRequestAnswer (h : Keeps s₀ s) {c ans} : Ends s₀ (execPageRequestAnswer c ans s) := by
  unfold Machine.execPageRequestAnswer
  split
  · trivial
  split
  · exact h.answerContext
  split
  · exact h.answerEngine
  split
  · dsimp only [Ends]
    split
    · exact h
    · exact h.postImage
  · trivial

/-! ## Retirement, dictionary entries and repair -/

theorem retireDie (h : Keeps s₀ s) {d} : Keeps s₀ (s.retireDie d) := by
  unfold State.retireDie
  extract_lets s1 s2
  have h1 : Keeps s₀ s1 := by
    refine h.foldl fun t c ht => ?_
    dsimp only
    split
    · exact ht.freeInfo.endFor
    · exact ht
  clear_value s1
  have h2 : Keeps s₀ s2 := h1.updPdie
  clear_value s2
  refine refreshHealth (returnOwned ?_)
  exact h2

theorem execDieRetirement (h : Keeps s₀ s) {d} : Ends s₀ (execDieRetirement d s) := by
  unfold Machine.execDieRetirement
  iterate 2 split; · trivial
  exact h.retireDie

theorem noteDie (h : Keeps s₀ s) {d} : Keeps s₀ (s.noteDie d) := h.of_units rfl (by simp [State.units, State.noteDie])

theorem noteRewrite (h : Keeps s₀ s) {c d} : Keeps s₀ (s.noteRewrite c d) := by
  unfold State.noteRewrite
  extract_lets n
  refine updDctx (noteDie ?_)
  exact h.same

theorem execDictEntryRewrite (h : Keeps s₀ s) {c d hub x} : Ends s₀ (execDictEntryRewrite c d hub x s) := by
  unfold Machine.execDictEntryRewrite
  split
  · trivial
  extract_lets r s1
  have h1 : Keeps s₀ s1 := h.noteRewrite
  split
  · trivial
  split
  · exact h1
  split
  · exact h1.updRec
  · exact h1.retireDie

theorem execRepairDecision (h : Keeps s₀ s) {d ix ent} : Ends s₀ (execRepairDecision d ix ent s) := by
  unfold Machine.execRepairDecision
  split
  · trivial
  extract_lets
  iterate 2 split; · trivial
  exact h.updPdie.refreshHealth

end Keeps
end Sys2Proof.Machine


namespace Sys2Proof.Machine
namespace Keeps
variable {s₀ s t : State}

/-! ## Translations and counters -/

theorem setPods (h : Keeps s₀ s) {i p} : Keeps s₀ { s with pods := s.pods.set i p } := h.of_units rfl (by simp [State.units])

theorem execTlbInvalidation (h : Keeps s₀ s) {d} : Ends s₀ (execTlbInvalidation d s) := by
  unfold Machine.execTlbInvalidation
  iterate 2 split; · trivial
  split
  · extract_lets
    split
    · trivial
    · exact h.setPods
  · split
    · trivial
    · exact h.updPdie

theorem ackMapinv (h : Keeps s₀ s) {d pasid page} : Keeps s₀ (s.ackMapinv d pasid page) := by
  unfold State.ackMapinv
  split
  · split
    · extract_lets
      split
      · exact fwDone (s := { s with mapinv := none }) h.same
      · exact h
    · exact h
  · exact h

theorem execTlbInvalidationAck (h : Keeps s₀ s) {d} : Ends s₀ (execTlbInvalidationAck d s) := by
  unfold Machine.execTlbInvalidationAck
  iterate 2 split; · trivial
  split
  · extract_lets
    split
    · trivial
    · exact h.setPods.ackMapinv
  · split
    · trivial
    split
    · trivial
    · exact h.updPdie.ackMapinv

theorem execAtsInvalidation (h : Keeps s₀ s) {pasid page} : Ends s₀ (execAtsInvalidation pasid page s) := by
  unfold Machine.execAtsInvalidation
  split
  · trivial
  · exact h.same

theorem execTableWalk (h : Keeps s₀ s) {d pasid va} : Ends s₀ (execTableWalk d pasid va s) := by
  unfold Machine.execTableWalk
  extract_lets -underBinder va'
  iterate 3 split; · trivial
  split
  · trivial
  next hf => exact h.fillTlb hf

theorem bankCycle (h : Keeps s₀ s) {d l b} : Keeps s₀ (s.bankCycle d l b) := h.foldl fun t q ht => by
  dsimp only
  split
  · exact ht
  · exact ht

theorem banksCycle (h : Keeps s₀ s) {d} : Keeps s₀ (s.banksCycle d) := h.foldl fun _ _ ht => ht.bankCycle

theorem execBankSnapshot (h : Keeps s₀ s) {c d} : Ends s₀ (execBankSnapshot c d s) := by
  unfold Machine.execBankSnapshot
  iterate 2 split; · trivial
  extract_lets -underBinder r x
  split
  · trivial
  split
  · trivial
  extract_lets cells sums big s1 s2
  have h1 : Keeps s₀ s1 := h.emit
  have h2 : Keeps s₀ s2 := h1.same
  exact h2.updDctx

theorem noteCorrected (h : Keeps s₀ s) {d} : Keeps s₀ (s.noteCorrected d) := by
  unfold State.noteCorrected
  extract_lets e s1
  have h1 : Keeps s₀ s1 := h.same
  split
  · exact h1
  · exact h1.noteDie

theorem execDieCycle (h : Keeps s₀ s) {d} : Ends s₀ (execDieCycle d s) := by
  unfold Machine.execDieCycle
  iterate 2 split; · trivial
  extract_lets s1 s2
  have h1 : Keeps s₀ s1 := by
    refine h.foldl fun t c ht => ?_
    extract_lets r s'
    have h' : Keeps s₀ s' := by
      unfold s'
      split
      · exact ht.updDctx
      · exact ht
    split
    · split
      · exact h'.updDctx
      · exact h'
    · exact ht
  have h2 : Keeps s₀ s2 := h1.banksCycle.noteCorrected
  exact h2.updPdie

/-! ## The translation cache -/

theorem cacheObj (h : Keeps s₀ s) {pasid quota key obj} : Keeps s₀ (s.cacheObj pasid quota key obj) := by
  unfold State.cacheObj
  split
  · exact h
  · exact h

theorem translateFor (h : Keeps s₀ s) {pasid sec} : Keeps s₀ (s.translateFor pasid sec).1 := by
  unfold State.translateFor
  split
  · exact h
  split
  · exact h
  split
  · exact h
  · exact h.cacheObj

theorem serveLoad (h : Keeps s₀ s) : Keeps s₀ s.serveLoad := by
  unfold State.serveLoad
  extract_lets -underBinder owned lost s1
  have h1 : Keeps s₀ s1 := h.same
  clear_value s1
  split
  · exact h1
  split
  · exact h1
  next x _ => exact h1.translateFor (pasid := x.1) (sec := x.2)

theorem dropTrans (h : Keeps s₀ s) {pasid} : Keeps s₀ (s.dropTrans pasid) := h

/-! ## What comes from outside -/

theorem outside (h : Keeps s₀ t) : Ends s₀ (s.outside t) := by
  unfold State.outside
  split
  · trivial
  · exact h

theorem hostStep (hs : Keeps s₀ s) (h : Keeps s₀ t) {b} : Ends s₀ (s.hostStep b t) := by
  unfold State.hostStep
  refine outside ?_
  cases b
  · exact hs.same
  · exact h.same

theorem setMbx (h : Keeps s₀ s) {c f} : Keeps s₀ { s with mbx := s.mbx.modify c f } := h.of_units rfl (by simp [State.units])

theorem execMailboxDelivery (h : Keeps s₀ s) {c m msg} : Ends s₀ (execMailboxDelivery c m msg s) := by
  unfold Machine.execMailboxDelivery
  split
  · trivial
  · exact h.hostStep h.deliverMbx

theorem execMbxstatStore (h : Keeps s₀ s) {c v} : Ends s₀ (execMbxstatStore c v s) := by
  unfold Machine.execMbxstatStore
  split
  · trivial
  · exact h.hostStep h.setMbx

theorem execKick (h : Keeps s₀ s) {pasid qid} : Ends s₀ (execKick pasid qid s) := by
  unfold Machine.execKick
  split
  · trivial
  · exact h.hostStep h.kick

theorem execTicketBlockStore (h : Keeps s₀ s) {c d n v} : Ends s₀ (execTicketBlockStore c d n v s) := by
  unfold Machine.execTicketBlockStore
  split
  · trivial
  · exact h.hostStep h.updDctx

theorem execHostPostedWrite (h : Keeps s₀ s) {pasid off bytes relaxed} : Ends s₀ (execHostPostedWrite pasid off bytes relaxed s) := by
  unfold Machine.execHostPostedWrite
  split
  · exact h.hostStep h.pokeCells
  · exact h.hostStep h

theorem answerHost (h : Keeps s₀ s) {bs} : Keeps s₀ (s.answerHost bs) := h

theorem hostLoad (h : Keeps s₀ s) {pasid off n} : Keeps s₀ (s.hostLoad pasid off n) := by
  unfold State.hostLoad
  split
  · exact (h.foldl fun t l ht => ht.noteRead).answerHost
  · exact h.answerHost

theorem hostAtomic (h : Keeps s₀ s) {pasid off n f new} : Keeps s₀ (s.hostAtomic pasid off n f new) := by
  unfold State.hostAtomic
  split
  · split
    · exact h.answerHost
    · exact h.noteRead.l2Write.poke.noteCoherent.answerHost
  · exact h.answerHost

theorem execHostRead (h : Keeps s₀ s) {pasid off acc} : Ends s₀ (execHostRead pasid off acc s) := by
  unfold Machine.execHostRead
  split
  · exact h.hostStep h.hostLoad
  · exact h.hostStep h.hostAtomic
  · exact h.hostStep h.hostAtomic
  · exact h.hostStep h.hostAtomic
  · exact h.hostStep h.answerHost
  · iterate 2 split; · trivial
    exact h.hostStep h.answerHost

/-! ## Pod ports -/

theorem podXlate (h : Keeps s₀ s) {port pasid va x} (e : s.podXlate port pasid va = some x) : Keeps s₀ x.1 := by
  unfold State.podXlate at e
  extract_lets -underBinder p at e
  split at e
  · cases e
    exact h
  split at e
  · cases e
  next hw =>
    cases e
    exact (h.walkFor hw).setCompanion.noteCoherent.of_units rfl (by simp [State.units])

theorem podPages {port pasid : Nat} : ∀ {n : Nat} {s : State} {va : Nat}, Keeps s₀ s → Keeps s₀ (s.podPages port pasid va n).1
  | 0, _, _, h => h
  | n + 1, s, va, h => by
    unfold State.podPages
    split
    · exact h
    next hx =>
      have h1 := h.podXlate hx
      extract_lets t
      split
      · exact h1
      have h2 := podPages (port := port) (pasid := pasid) (n := n) (va := va + 65536) h1
      split
      next hr => exact fst h2 hr
      next => exact h2

theorem podWrite (h : Keeps s₀ s) {port off bytes} : Keeps s₀ (s.podWrite port off bytes) := by
  unfold State.podWrite
  extract_lets -underBinder p va
  split
  · exact h
  split
  next hp => exact h.podPages.fst hp
  next hp => exact (h.podPages.fst hp).pokeCells

theorem execPodArrival (h : Keeps s₀ s) {port mbx off bytes} : Ends s₀ (execPodArrival port mbx off bytes s) := by
  unfold Machine.execPodArrival
  iterate 2 split; · trivial
  split
  · split
    · trivial
    refine outside ?_
    split
    · exact h
    · exact h.deliverMbx
  · exact outside h.podWrite

theorem execPodLinkUp (h : Keeps s₀ s) {port lo hi peer} : Ends s₀ (execPodLinkUp port lo hi peer s) := by
  unfold Machine.execPodLinkUp
  split
  · trivial
  extract_lets
  split
  · trivial
  split
  · exact h
  · exact h.setPods.same

theorem execPodLinkLoss (h : Keeps s₀ s) {port} : Ends s₀ (execPodLinkLoss port s) := by
  unfold Machine.execPodLinkLoss
  split
  · trivial
  extract_lets p s1 s2
  have h2 : Keeps s₀ s2 := h.of_units rfl (by simp [State.units, s2, s1, State.loseSends])
  split
  · trivial
  · exact h2.foldl fun t x ht => ht.ackMapinv

/-! ## Registers and the Atelier -/

theorem controlWrite (h : Keeps s₀ s) {off n v} : Keeps s₀ (s.controlWrite off n v) := by
  unfold State.controlWrite
  extract_lets
  split
  · split
    · exact h
    · exact h
  split
  · exact h
  split
  · split
    · exact h
    · exact h
  split
  · exact h
  · exact h

theorem execRegisterWrite (h : Keeps s₀ s) {pa d n v} : Ends s₀ (execRegisterWrite pa d n v s) := by
  unfold Machine.execRegisterWrite
  iterate 2 split; · trivial
  split
  · exact h.hostStep h.controlWrite
  iterate 2 split; · trivial
  exact h.hostStep h.mmioWrite

theorem readKicks (h : Keeps s₀ s) : Keeps s₀ s.readKicks := h

theorem execAtelierFrameTick (h : Keeps s₀ s) : Ends s₀ (execAtelierFrameTick s) := by
  unfold Machine.execAtelierFrameTick
  iterate 3 split; · trivial
  exact h.readKicks.serveLoad.same

theorem reserve (h : Keeps s₀ s) {n q} : Keeps s₀ (s.reserve n q) := by
  unfold State.reserve
  split
  · exact h
  split
  next he =>
    have h1 := h.engAt.fst he
    extract_lets widx used run q' s1
    have h2 : Keeps s₀ s1 := h1.of_units rfl (by simp [State.units, s1])
    split
    · exact h1
    · exact h2.noteRead.poke.noteCoherent
  next he => exact h.engAt.fst he

theorem execQueueSlotPoll (h : Keeps s₀ s) {n} : Ends s₀ (execQueueSlotPoll n s) := by
  unfold Machine.execQueueSlotPoll
  split
  · trivial
  extract_lets
  iterate 2 split; · trivial
  refine outside (reserve ?_)
  exact h.of_units rfl (by simp [State.units])

theorem execAtelierFault (h : Keeps s₀ s) : Ends s₀ (execAtelierFault s) := by
  unfold Machine.execAtelierFault
  split
  · trivial
  · exact h.stopAtelier

theorem startAtelier (h : Keeps s₀ s) : Keeps s₀ s.startAtelier := h.setRec.same

theorem execAtelierReloadComplete (h : Keeps s₀ s) : Ends s₀ (execAtelierReloadComplete s) := by
  unfold Machine.execAtelierReloadComplete
  split
  · trivial
  extract_lets s1 s2
  have h2 : Keeps s₀ s2 := h.same
  exact h2.refreshHealth.startAtelier

end Keeps
end Sys2Proof.Machine


namespace Sys2Proof.Machine
namespace Keeps
variable {s₀ s t : State}

/-! ## Power and boot -/

theorem freezeAll (h : Keeps s₀ s) : Keeps s₀ s.freezeAll := h.foldl fun t c ht => by
  dsimp only
  split
  · exact ht.setRec
  · exact ht

theorem execPowerStateEntry (h : Keeps s₀ s) : Ends s₀ (execPowerStateEntry s) := by
  unfold Machine.execPowerStateEntry
  split
  · trivial
  iterate 4 split; · trivial
  have hf := h.freezeAll
  generalize s.freezeAll = t at hf
  split
  · exact hf
  · exact h

theorem execWakeEvent (h : Keeps s₀ s) : Ends s₀ (execWakeEvent s) := by
  unfold Machine.execWakeEvent
  split
  · trivial
  · exact h

theorem wearCheckpoint (h : Keeps s₀ s) : Keeps s₀ s.wearCheckpoint := by
  unfold State.wearCheckpoint
  refine refreshHealth (foldl ?_ fun t d ht => ht.updPdie)
  exact h.same

theorem execCheckpointComplete (h : Keeps s₀ s) : Ends s₀ (execCheckpointComplete s) := by
  unfold Machine.execCheckpointComplete
  split
  · trivial
  extract_lets keep
  have hk : Keeps s₀ keep := by
    unfold keep
    refine wearCheckpoint ?_
    exact h.same
  split
  · split
    · exact hk
    · trivial
  · exact hk.fwDone

theorem thaw (h : Keeps s₀ s) : Keeps s₀ s.thaw := h.foldl fun t c ht => by
  split
  · exact ht.goOn
  · exact ht

theorem execWakeComplete (h : Keeps s₀ s) : Ends s₀ (execWakeComplete s) := by
  unfold Machine.execWakeComplete
  iterate 2 split; · trivial
  extract_lets back
  have hb : Keeps s₀ back := h.same
  split
  · refine thaw ?_
    exact (h.memFilter.memPutCells).same
  · exact hb

theorem execPowerLoss (h : Keeps s₀ s) : Ends s₀ (execPowerLoss s) := by
  refine ⟨fun i => memory_filter_wf s.mem _ (h.inv i), fun i => ?_⟩
  obtain ⟨-, hd, -⟩ := h.shape i
  simp [State.reset, hd]

theorem extend (h : Keeps s₀ s) {n d} : Keeps s₀ (s.extend n d) := h
theorem setLeafReserved (h : Keeps s₀ s) {level v} : Keeps s₀ (s.setLeafReserved level v) := h

theorem leavesAtBoot (h : Keeps s₀ s) : Keeps s₀ s.leavesAtBoot := by
  unfold State.leavesAtBoot
  extract_lets n
  refine foldl ?_ fun t l ht => ?_
  · exact h.same
  · refine setLeafReserved ?_
    exact ht.same

theorem bootTables (h : Keeps s₀ s) : Keeps s₀ s.bootTables := by
  unfold State.bootTables
  extract_lets n s1
  have h1 : Keeps s₀ s1 := h.same
  refine refreshHealth (h1.foldl fun t d ht => ?_)
  split
  · exact ht.updPdie
  · exact ht

theorem tryBoot (h : Keeps s₀ s) : Keeps s₀ s.tryBoot := by
  unfold State.tryBoot
  extract_lets img s1 s2 s3 s4
  have h1 : Keeps s₀ s1 := h.leavesAtBoot.bootTables
  clear_value s1
  have h2 : Keeps s₀ s2 := h1.same
  have h3 : Keeps s₀ s3 := h2.extend
  have h4 : Keeps s₀ s4 := h3.extend
  split
  · exact h4.extend.extend.startAtelier
  · exact h.same

theorem execBoot (h : Keeps s₀ s) : Ends s₀ (execBoot s) := by
  unfold Machine.execBoot
  split
  · trivial
  split
  · exact h.same
  · exact h.tryBoot

theorem execRecoveryImage (h : Keeps s₀ s) : Ends s₀ (execRecoveryImage s) := by
  unfold Machine.execRecoveryImage
  split
  · trivial
  · exact h.tryBoot

/-! ## The commands of the firmware interface -/

theorem ends_next (h : Keeps s₀ t) : Ends s₀ (.next t) := h

theorem ends_ite {c : Prop} [Decidable c] {a b : Host.Outcome State Fault Refusal} (ha : Ends s₀ a) (hb : Ends s₀ b) :
    Ends s₀ (if c then a else b) := by
  split
  · exact ha
  · exact hb

theorem command (h : Keeps s₀ s) {op run} (hr : Ends s₀ (run s)) : Ends s₀ (s.command op run) := by
  unfold State.command
  iterate 3 split; · trivial
  split
  · exact h.fwDone
  · exact hr

theorem execNegotiate (h : Keeps s₀ s) : Ends s₀ (execNegotiate s) := by
  refine h.command (ends_next (fwDone ?_))
  exact h.same

theorem execTenantSet (h : Keeps s₀ s) : Ends s₀ (execTenantSet s) :=
  h.command <| ends_ite (ends_next h.fwDone) <| ends_ite (ends_next h.fwDone) <| ends_next h.same

theorem execTenantRemove (h : Keeps s₀ s) : Ends s₀ (execTenantRemove s) := h.command <| by
  extract_lets
  split
  · exact h.fwDone
  split
  · exact h.fwDone
  · exact h.same

theorem execHeapSet (h : Keeps s₀ s) : Ends s₀ (execHeapSet s) := h.command <| by
  extract_lets -underBinder
  split
  · exact h.fwDone
  split
  · exact h.fwDone
  split
  · exact h.fwDone
  split
  · exact h.fwDone
  · exact h.same

theorem execBudgetSet (h : Keeps s₀ s) : Ends s₀ (execBudgetSet s) := h.command <| by
  split
  · exact h.fwDone
  · exact h.updTenant.fwDone

theorem sendInv (h : Keeps s₀ s) {d x} : Keeps s₀ (s.sendInv d x) := by
  unfold State.sendInv
  split
  · exact h.updPdie
  · exact h.of_units rfl (by simp [State.units])

theorem setMapinv (h : Keeps s₀ s) {x} : Keeps s₀ { s with mapinv := x } := h

theorem execMapinv (h : Keeps s₀ s) : Ends s₀ (execMapinv s) := h.command <| by
  refine ends_ite trivial (ends_ite (ends_next h.fwDone) ?_)
  extract_lets page old agreed ds s1 s2
  have h1 : Keeps s₀ s1 := by
    unfold s1
    split
    · exact h
    · exact h.noteRead.poke.noteCoherent
  have h2 : Keeps s₀ s2 := h1.foldl fun t d ht => ht.sendInv
  clear_value s2
  exact ends_ite (ends_next h2.fwDone) (ends_next h2.setMapinv)

theorem launchAll {pasid : Nat} : ∀ {ts : List (List Nat)} {s : State} {placed : List Nat}, Keeps s₀ s →
    (∀ x, s.launchAll pasid placed ts = .ok x → Keeps s₀ x) ∧ ∀ x, s.launchAll pasid placed ts = .error x → Keeps s₀ x.1
  | [], s, placed, h => by
    constructor
    · intro x e
      cases e
      exact h
    · intro x e
      cases e
  | t :: ts, s, placed, h => by
    have hf : Keeps s₀ (placed.foldl State.endContext s) := h.foldl fun _ _ ht => ht.endContext
    unfold State.launchAll
    extract_lets fail
    have hfail : ∀ k, (∀ x, fail k = .ok x → Keeps s₀ x) ∧ ∀ x, fail k = .error x → Keeps s₀ x.1 := by
      intro k
      constructor
      · intro x e
        cases e
      · intro x e
        cases e
        exact hf
    clear_value fail
    split
    · exact hfail _
    split
    next hl => exact launchAll (h.launchCtx hl)
    · exact hfail _

theorem loadStore (h : Keeps s₀ s) {pc ws} : Keeps s₀ (s.loadStore pc ws) := h
theorem launchFailed (h : Keeps s₀ s) {k} : Keeps s₀ (s.launchFailed k) := h

theorem execLaunch (h : Keeps s₀ s) : Ends s₀ (execLaunch s) := h.command <| by
  extract_lets -underBinder p va
  split
  · exact h.fwDone
  split
  · trivial
  split
  · exact h.launchFailed
  extract_lets -underBinder ts
  split
  · trivial
  split
  · exact h.launchFailed
  split
  · exact h.launchFailed
  split
  · exact h.launchFailed
  split
  next he =>
    have h1 := h.launchAll.2 _ he
    dsimp only [Ends]
    split
    · exact h.launchFailed
    · exact h1.loadStore.launchFailed
  next he => exact (h.launchAll.1 _ he).loadStore.goMask.fwDone

theorem execPreempt (h : Keeps s₀ s) : Ends s₀ (execPreempt s) := h.command <| by
  iterate 2 split; · trivial
  exact h.of_units rfl (by simp [State.units])

theorem execCheckpoint (h : Keeps s₀ s) : Ends s₀ (execCheckpoint s) := h.command <| by
  split
  · trivial
  · exact h.same

theorem execSvnCommit (h : Keeps s₀ s) : Ends s₀ (execSvnCommit s) := h.command <| by
  extract_lets
  split
  · exact h.fwDone
  split
  · exact h.same
  split
  · exact h.same
  · exact h.same

theorem takeLeaf (h : Keeps s₀ s) {level x} (e : s.takeLeaf level = some x) : Keeps s₀ x.1 := by
  unfold State.takeLeaf at e
  extract_lets n s1 at e
  have h1 : Keeps s₀ s1 := by
    unfold s1
    split
    · exact h.setLeafReserved
    · exact h
  split at e
  · cases e
  · cases e
    exact h1.same

theorem signLeaf (h : Keeps s₀ s) {x} (e : s.signLeaf = some x) : Keeps s₀ x.1 := by
  unfold State.signLeaf at e
  split at e
  next ht =>
    cases e
    exact h.takeLeaf ht
  split at e
  · cases e
  next ht =>
    obtain ⟨p, hp, rfl⟩ := Option.map_eq_some_iff.mp e
    refine takeLeaf ?_ hp
    exact (h.takeLeaf ht).same

theorem execAttest (h : Keeps s₀ s) : Ends s₀ (execAttest s) := h.command <| by
  split
  · exact h.fwDone
  next hl =>
    have h1 := h.signLeaf hl
    exact h1.same

theorem execMeasExtend (h : Keeps s₀ s) : Ends s₀ (execMeasExtend s) := h.command <| by
  split
  · exact h.fwDone
  · exact h.extend.fwDone

theorem execLtolSet (h : Keeps s₀ s) : Ends s₀ (execLtolSet s) := h.command <| by
  split
  · exact h.fwDone
  · exact h.same

end Keeps
end Sys2Proof.Machine


namespace Sys2Proof.Machine
namespace Keeps
variable {s₀ s t : State}

/-! ## Every step -/

theorem execOwnershipReturn (h : Keeps s₀ s) {line} : Ends s₀ (execOwnershipReturn line s) := by
  unfold Machine.execOwnershipReturn
  iterate 2 split; · trivial
  exact h.returnLine

/-- Whatever a step executes, the state it answers keeps the invariants. -/
theorem exec (h : Keeps s₀ s) (i : Instr) : Ends s₀ (exec i s) := by
  unfold Machine.exec
  cases i
  all_goals dsimp only
  case wordIssue => exact h.execWordIssue
  case bundleIssue => exact h.execBundleIssue
  case mergeCycle => exact h.execMergeCycle
  case broadcastFrameArrival => exact h.execBroadcastFrameArrival
  case occupancyReport => exact h.execOccupancyReport
  case accessStreamIssue => exact h.execAccessStreamIssue
  case fixedLatencyLand => exact h.execFixedLatencyLand
  case loadResultLands => exact h.execLoadResultLands
  case tokPost => exact h.execTokPost
  case waitSatisfied => exact h.endWait
  case waitsSatisfied => exact h.execWaitsSatisfied
  case waitfSatisfied => exact h.endWait
  case idleResume => exact h.execIdleResume
  case mailboxDelivery => exact h.execMailboxDelivery
  case redSample => exact h.execRedSample
  case redValueArrival => exact h.execRedValueArrival
  case barReport => exact h.execBarReport
  case barRelease => exact h.execBarRelease
  case phaseRelease => exact h.execPhaseRelease
  case markPass => exact h.execMarkPass
  case markCommit => exact h.execMarkCommit
  case commitArrival => exact h.execCommitArrival
  case faultFlag => exact h.execFaultFlag
  case rollback => exact h.execRollback
  case preemptionRequest => exact h.execPreemptionRequest
  case preemptHalt => exact h.execPreemptHalt
  case pageRequestAnswer => exact h.execPageRequestAnswer
  case dieRetirement => exact h.execDieRetirement
  case dictEntryRewrite => exact h.execDictEntryRewrite
  case armatureCommandForward => exact h.execArmatureCommandForward
  case engineCommandStart => exact h.execEngineCommandStart
  case engineCommandComplete => exact h.execEngineCommandComplete
  case installUnitCommit => exact h.execInstallUnitCommit
  case relocLineCopy => exact h.execRelocLineCopy
  case fwdInvalidation => exact h.execFwdInvalidation
  case fwdInvalidationAck => exact h.execFwdInvalidationAck
  case tlbInvalidation => exact h.execTlbInvalidation
  case tlbInvalidationAck => exact h.execTlbInvalidationAck
  case atsInvalidation => exact h.execAtsInvalidation
  case tableWalk => exact h.execTableWalk
  case streamFetch => exact h.execStreamFetch
  case matrixOpStart => exact h.execMatrixOpStart
  case matrixRowComplete => exact h.execMatrixRowComplete
  case rbqRefill => exact h.execRbqRefill
  case ownershipReturn => exact h.execOwnershipReturn
  case bankSnapshot => exact h.execBankSnapshot
  case breakTaken => exact h.stopAt
  case stepTaken => exact h.stopAt
  case watchEngine => exact h.execWatchEngine
  case atelierFrameTick => exact h.execAtelierFrameTick
  case queueSlotPoll => exact h.execQueueSlotPoll
  case kick => exact h.execKick
  case mbxstatStore => exact h.execMbxstatStore
  case ticketBlockStore => exact h.execTicketBlockStore
  case hostPostedWrite relaxed => exact h.execHostPostedWrite (relaxed := relaxed)
  case hostRead => exact h.execHostRead
  case podArrival => exact h.execPodArrival
  case podLinkUp => exact h.execPodLinkUp
  case podLinkLoss => exact h.execPodLinkLoss
  case atelierFault => exact h.execAtelierFault
  case atelierReloadComplete => exact h.execAtelierReloadComplete
  case powerStateEntry => exact h.execPowerStateEntry
  case wakeEvent => exact h.execWakeEvent
  case wakeComplete => exact h.execWakeComplete
  case checkpointComplete => exact h.execCheckpointComplete
  case boot => exact h.execBoot
  case recoveryImage => exact h.execRecoveryImage
  case heapAllocate => exact h.execHeapAllocate
  case heapFree => exact h.execHeapFree
  case repairDecision => exact h.execRepairDecision
  case registerWrite => exact h.execRegisterWrite
  case negotiate => exact h.execNegotiate
  case tenantSet => exact h.execTenantSet
  case tenantRemove => exact h.execTenantRemove
  case heapSet => exact h.execHeapSet
  case mapinv => exact h.execMapinv
  case budgetSet => exact h.execBudgetSet
  case launch => exact h.execLaunch
  case preempt => exact h.execPreempt
  case checkpoint => exact h.execCheckpoint
  case svnCommit => exact h.execSvnCommit
  case attest => exact h.execAttest
  case measExtend => exact h.execMeasExtend
  case ltolSet => exact h.execLtolSet
  case powerLoss => exact h.execPowerLoss
  case dieCycle => exact h.execDieCycle
  case nop | mov | movi | movl | movlh | movlt | addi | add | sub | and | or | xor | andn | shl | shr | sar | shli | shri | sari | mul | mulhu |
      mulhs | divu | remu | min | max | minu | maxu | clz | popc | sel | cmpEq | cmpNe | cmpLt | cmpLe | cmpLtu | cmpLeu | tstb | pmov | pand |
      por | pxor | pandn | ptos | stop | lsetup | seq | jmp | br | xnop | k28 | waits | dmset | dmget | cmset | cmget | tmand | tmget | prio =>
    exact h.issueSlot .results
  case ldB | ldH | ldW | ldD | ldsW => exact h.issueSlot .ldsLoad
  case stB | stH | stW | stD => exact h.issueSlot .ldsStore
  case call => exact h.issueSlot .call
  case ret => exact h.issueSlot .ret
  case lend => exact h.issueSlot .lend
  case trap => exact h.issueSlot .trap
  case rft => exact h.issueSlot .rft
  case halt => exact h.issueSlot .halt
  case idle => exact h.issueSlot .idle
  case bcast => exact h.issueSlot .bcast
  case lit => exact h.issueSlot .lit
  case red => exact h.issueSlot .red
  case csrr | csrw | csrs | csrc => exact h.issueSlot .csrOp
  case feat => exact h.issueSlot .feat
  case ldgB | ldgH | ldgW | ldgD => exact h.issueSlot .ldg
  case stgB | stgH | stgW | stgD => exact h.issueSlot .stg
  case afadd | amin | amax | aand | aor | axor | aswap => exact h.issueSlot .seqAtomic2
  case acas => exact h.issueSlot .acas
  case amaxf | memAmaxrr | memJraise | memJdone => exact h.issueSlot .seqAtomic
  case memFence => exact h.issueSlot .fence
  case memLdref | memLdr => exact h.issueSlot .seqRefLoad
  case memStref | memStr => exact h.issueSlot .seqRefStore
  case memPin => exact h.issueSlot .pin
  case memUnpin => exact h.issueSlot .unpin
  case engCpy | engInstall | engReloc | mbxsend | podsend | ctxstart | ctxstartRestore | ctxstartGo | ctxsave => exact h.issueSlot .eng
  case enq => exact h.issueSlot .enq
  case vmov | vmovi | vbcst | vlane | vcoord | vadd | vsub | vmullo | vmulhi | vmin | vmax | vabsd | vaddsat | vand | vor | vxor | vandn | vshl |
      vshr | vsar | vshli | vpopc | vclz | vsel | vshf | vrot | vcmpEq | vcmpNe | vcmpLt | vcmpLe | vcmpLtu | vcmpLeu | vfcmpEq | vfcmpLt |
      vfcmpLe | vfcmpUn | vfadd | vfsub | vfmul | vfma | vfms | vfnma | vfmin | vfmax | vfabs | vfneg | vfdiv | vfsqrt | vfrsqrt | vfexp2 | vflog2
      | vfclass | vrsumF32 | vrmaxF32 | vramax | vrsumI | vrmaxI | xmov | xmovi | xadd | xsub | xmul | xand | cellXor | xshl | xshr | xcmp |
      xfromv | xtok | vcvtF32I32 | vcvtI32F32 | vcvtBf16F32 | vcvtF32Bf16 | vsplit3 | vamaxb | vscale | qbfp | dqbfp | vcvtI8F32 | vrng |
      vcvtF32I8 | mxprog | lsFence | resize | nsflush | refmov | reftag | take | rbseed | tokadd | kand | kor | kxor | kandn | knot | kmov | kset
      | kfromx | ktox | kpopc =>
    exact h.issueLane .cellFx
  case mma | mmaNest | accz | accout => exact h.issueLane .macroOp
  case mmaGrp => exact h.issueLane .mmaGrp
  case accrd => exact h.issueLane .accrd
  case accwr => exact h.issueLane .accwr
  case wswap => exact h.issueLane .wswap
  case ldv => exact h.issueLane .ldv
  case stv => exact h.issueLane .stv
  case ldvn => exact h.issueLane .ldvn
  case stvn => exact h.issueLane .stvn
  case gather => exact h.issueLane .gather
  case scatter | vafadd | vamaxf => exact h.issueLane .laneWrite
  case ldx => exact h.issueLane .ldx
  case stx => exact h.issueLane .stx
  case ldxAcq => exact h.issueLane .ldxAcq
  case stxRel => exact h.issueLane .cohStore
  case xafadd | xamax | xacas | xaswap | lsAmaxrr | lsJraise | lsJdone => exact h.issueLane .cellAtomic
  case stset => exact h.issueLane .stset
  case stget => exact h.issueLane .stget
  case stgo => exact h.issueLane .stgo
  case stsave => exact h.issueLane .stsave
  case stload => exact h.issueLane .stload
  case sete | setf => exact h.issueLane .setFull
  case lsLdr | lsLdref => exact h.issueLane (.loadFx .refLoad)
  case lsStr | lsStref => exact h.issueLane .refStore
  case ldrv => exact h.issueLane .ldrv
  case strv => exact h.issueLane .strv
  case lsPin => exact h.issueLane .pin
  case lsUnpin => exact h.issueLane .unpin
  case perm | cshuf => exact h.issueLane .lanesXfer
  case xmit => exact h.issueLane .xmit
  case recv => exact h.issueLane .recv
  case xfCpy | binscat | xfReloc | xfInstall => exact h.issueLane .xfCmd
  case wait => exact h.issueLane .wait
  case waitf => exact h.issueLane .waitf
  case dly => exact h.issueLane .dly
  case mark => exact h.issueLane .mark
  case tokrd => exact h.issueLane .tokrd
  case setc => exact h.issueLane .setc
  case bar => exact h.issueLane .bar
  case phaseX => exact h.issueLane .phaseX
  case phaseC => exact h.issueLane .phaseC
  case abar => exact h.issueLane .abar
  case trapc => exact h.issueLane .trapc

theorem nextStep (h : Keeps s₀ s) : Keeps s₀ s.nextStep.2 := by
  unfold State.nextStep
  split
  · exact h
  · exact h

theorem step (e : step s = .next t) : Keeps s t := ((refl s).nextStep.exec _).keeps e

end Keeps
end Sys2Proof.Machine

open Sys2Proof.Machine in
/-- Settles O57: every update of the memory in the model is a write, a removal or a copy that keeps its canonical form. -/
theorem stepsKeepMemoryCanonical : Obligations.StepsKeepMemoryCanonical := by
  intro s t hs e
  exact (Keeps.step e).inv hs

open Sys2Proof.Machine in
/-- Settles O58: every update of a list of units in the model sets, modifies or maps its elements. -/
theorem stepsKeepTheUnits : Obligations.StepsKeepTheUnits := by
  intro s t hs e
  exact (Keeps.step e).shape hs


namespace Sys2Proof.Machine

/-! ## Broadcasts

What an item sent down the tree leaves of the record and of the dies, what the end of a position leaves of the sequencer registers, and
what a word leaves whose one slot does nothing but broadcast once the word has taken effect. -/

/-- What a result that lands changes of the sequencer registers. -/
def SeqCore.SameRest (p q : SeqCore) : Prop := q = { p with s := q.s, p := q.p, h := q.h, pend := q.pend, fly := q.fly }

theorem SeqCore.SameRest.trans {p q r : SeqCore} (h : p.SameRest q) (g : q.SameRest r) : p.SameRest r := by
  unfold SeqCore.SameRest at *
  rw [g, h]

theorem SeqCore.SameRest.foldl {α : Type} {f : SeqCore → α → SeqCore} (hf : ∀ (q : SeqCore) (a : α), q.SameRest (f q a)) (l : List α) (q : SeqCore) :
    q.SameRest (l.foldl f q) := by
  induction l generalizing q with
  | nil => rfl
  | cons a l ih => exact (hf q a).trans (ih _)

theorem SeqCore.put_sameRest (q : SeqCore) (r : RegId) (v : Nat) : q.SameRest (q.put r v) := by
  cases r with
  | p n => simp only [SeqCore.put, SeqCore.wP]; split <;> rfl
  | _ => rfl

theorem SeqCore.landOne_sameRest (q : SeqCore) (f : Fly) : q.SameRest (q.landOne f) := by
  have h := SeqCore.SameRest.foldl (fun q (p : Nat × Nat) => q.put_sameRest f.reg p.2) f.vals q
  exact h.trans (by unfold SeqCore.SameRest; rfl)

theorem SeqCore.endPos_sameRest (q : SeqCore) : q.SameRest q.endPos := by
  have h : q.SameRest { q with fly := flyTick q.fly } := rfl
  exact h.trans (SeqCore.SameRest.foldl SeqCore.landOne_sameRest _ _)

/-- The record whose dies ds have received item f at a cycle. -/
def Rec.sendAll (ds : List Nat) (x : Nat × Frame) (r : Rec) : Rec :=
  ds.foldl (fun r d => r.setDie d { r.die d with frames := (r.die d).frames ++ [x] }) r

theorem Rec.sendAll_rest (ds : List Nat) (x : Nat × Frame) (r : Rec) : r.sendAll ds x = { r with dies := (r.sendAll ds x).dies } := by
  induction ds generalizing r with
  | nil => rfl
  | cons d ds ih => exact (ih _).trans rfl

theorem Rec.sendAll_frames (ds : List Nat) (x : Nat × Frame) (r : Rec) (hds : ds.Nodup) (d : Nat) :
    ((r.sendAll ds x).die d).frames = (r.die d).frames ++ (if d ∈ ds then [x] else []) := by
  induction ds generalizing r with
  | nil => simp [Rec.sendAll]
  | cons a ds ih =>
    obtain ⟨ha, hds⟩ := List.nodup_cons.1 hds
    have := ih (r.setDie a { r.die a with frames := (r.die a).frames ++ [x] }) hds
    change ((Rec.sendAll ds x _).die d).frames = _
    rw [this]
    by_cases hd : d = a
    · subst hd
      simp [ha]
    · simp [hd, Rec.die_setDie_ne]

theorem State.toDies_eq (s : State) (c : Nat) (f : Frame) :
    s.toDies c f = s.updRec c (fun r => r.sendAll r.field.dies (s.clk, f)) := rfl

/-- The item of a broadcast of n repetitions of a bundle by context c. -/
def State.itemOf (s : State) (c idx : Nat) (lit : Option Nat) (n : Nat) : Frame :=
  .bundle { idx := idx, lit := lit, reps := n, inn := (s.rc c).core.inn, diemask := (s.rc c).core.diemask
            cellmask := (s.rc c).core.cellmask, no := s.bcastNo }

/-- The record of a context that has broadcast an item of n repetitions. -/
def Rec.broadcasted (r : Rec) (clk : Nat) (f : Frame) (n : Nat) : Rec :=
  { r with dies := (r.sendAll r.field.dies (clk, f)).dies
           core := { r.core with inn := r.core.inn + BitVec.ofNat 48 n }, sent := r.sent ++ [(clk, 1)] }

theorem State.broadcast_eq (s : State) (c idx : Nat) (lit : Option Nat) (n : Nat) (hc : c < s.recs.length) :
    s.broadcast c idx lit n
      = { s.updRec c (fun r => r.broadcasted s.clk (s.itemOf c idx lit n) n) with bcastNo := s.bcastNo + 1 } := by
  have two := s.updRec_updRec c (fun r => r.sendAll r.field.dies (s.clk, s.itemOf c idx lit n))
    (fun r => { r with core := { r.core with inn := r.core.inn + BitVec.ofNat 48 n }, sent := r.sent ++ [(s.clk, 1)] }) hc
  have one : ∀ r : Rec, r.broadcasted s.clk (s.itemOf c idx lit n) n
      = { (r.sendAll r.field.dies (s.clk, s.itemOf c idx lit n)) with
          core := { (r.sendAll r.field.dies (s.clk, s.itemOf c idx lit n)).core with
                    inn := (r.sendAll r.field.dies (s.clk, s.itemOf c idx lit n)).core.inn + BitVec.ofNat 48 n }
          sent := (r.sendAll r.field.dies (s.clk, s.itemOf c idx lit n)).sent ++ [(s.clk, 1)] } := by
    intro r
    rw [Rec.sendAll_rest]
    rfl
  simp only [one, ← two]
  rfl

end Sys2Proof.Machine


namespace Sys2Proof.Machine

/-- The record of a context whose word r, of no results, has taken effect. -/
def State.wordRec (s : State) (r : Raw) (npc : BitVec 18) : Rec :=
  { s.me with core := { s.core.endPos with pc := npc
                                           sstat := if readsPending s.core r then wbit s.core.sstat 0 true else s.core.sstat }
              wordcnt := s.me.wordcnt + 1
              notes := if readsPending s.core r then (s.me.note (.underwait s.core.inn none)).notes else s.me.notes }

theorem State.wordDone_nothing (s : State) (r : Raw) (npc : BitVec 18) :
    s.wordDone r (fun x => x.issued []) npc = s.setRec s.sel (s.wordRec r npc) := by
  have h : s.core.endPos.sstat = s.core.sstat := by rw [s.core.endPos_sameRest]
  unfold State.wordRec
  rw [← h]
  rfl

/-- A word whose slot does nothing but what follows once the word has taken effect. -/
theorem State.finishOne_post (s : State) (r : Raw) (g : State → State) (npc : BitVec 18) (hl : s.sel < s.recs.length) :
    s.finishOne s.sel { post := g } npc (readsPending s.core r) = g (s.setRec s.sel (s.wordRec r npc)) := by
  have h : s.finishOne s.sel { post := g } npc (readsPending s.core r) = g (s.finishOne s.sel {} npc (readsPending s.core r)) := rfl
  rw [h, s.finishOne_set r [] id none npc hl]
  exact congrArg g (s.wordDone_nothing r npc)

/-- The restart-mark entry of a mark bundle that record x has just broadcast (R373). -/
def State.bundleMark (s : State) (x : Rec) (idx n : Nat) : MarkEntry :=
  { wpc := s.core.pc, npc := x.core.pc, idx := idx, count := n, kind := false, shd := x.core, first := s.core.inn, opsTo := s.nextId }

/-- The record of a context whose word r has broadcast n repetitions of a bundle. -/
def State.bcastRec (s : State) (r : Raw) (npc : BitVec 18) (idx : Nat) (lit : Option Nat) (n : Nat) (mark : Bool) : Rec :=
  let x := (s.wordRec r npc).broadcasted s.clk (s.bundleItem idx lit n) n
  if mark then { x with marks := x.marks ++ [s.bundleMark x idx n] } else x

theorem State.wordRec_inn (s : State) (r : Raw) (npc : BitVec 18) :
    (s.wordRec r npc).core.inn = s.core.inn ∧ (s.wordRec r npc).core.diemask = s.core.diemask
    ∧ (s.wordRec r npc).core.cellmask = s.core.cellmask := by
  unfold State.wordRec
  rw [s.core.endPos_sameRest]
  exact ⟨rfl, rfl, rfl⟩

/-- The broadcast of a word, once the word has taken effect. -/
theorem State.bcastWord_eq (s : State) (r : Raw) (npc : BitVec 18) (idx : Nat) (lit : Option Nat) (n : Nat) (mark : Bool)
    (hl : s.sel < s.recs.length) :
    (s.setRec s.sel (s.wordRec r npc)).bcastWord s.sel idx lit n s.core.pc mark
      = { s.setRec s.sel (s.bcastRec r npc idx lit n mark) with bcastNo := s.bcastNo + 1 } := by
  obtain ⟨hinn, hdie, hcell⟩ := s.wordRec_inn r npc
  have hrc := s.rc_setRec_self s.sel (s.wordRec r npc) hl
  have hitem : (s.setRec s.sel (s.wordRec r npc)).itemOf s.sel idx lit n = s.bundleItem idx lit n := by
    unfold State.itemOf State.bundleItem
    rw [hrc, hinn, hdie, hcell]
    rfl
  have hb : (s.setRec s.sel (s.wordRec r npc)).broadcast s.sel idx lit n
      = { s.setRec s.sel ((s.wordRec r npc).broadcasted s.clk (s.bundleItem idx lit n) n) with bcastNo := s.bcastNo + 1 } := by
    rw [State.broadcast_eq _ _ _ _ _ (by simpa using hl), hitem]
    simp only [State.updRec, hrc]
    simp [State.setRec]
  unfold State.bcastWord
  rw [hb, hrc, hinn]
  cases mark with
  | false => simp [State.bcastRec]
  | true =>
    have hrc' : ∀ x : Rec, ({ s.setRec s.sel x with bcastNo := s.bcastNo + 1 } : State).rc s.sel = x :=
      fun x => s.rc_setRec_self s.sel x hl
    simp only [if_true, State.addMark, State.updRec, hrc', State.bcastRec]
    simp [State.setRec, State.bundleMark]

/-- What a broadcast leaves, of state t. -/
structure BroadcastLeaves (s t : State) (r : Raw) (npc : BitVec 18) (idx : Nat) (lit : Option Nat) (n : Nat) (mark : Bool) : Prop where
  word : s.wordLeaves t r [] none npc
  inn : t.core.inn = s.core.inn + BitVec.ofNat 48 n
  items : s.sentDown t [s.bundleItem idx lit n]
  sent : t.me.sent = s.me.sent ++ [(s.clk, 1)]
  reqs : t.me.reqs = s.me.reqs
  unmarked : mark = false → t.me.marks = s.me.marks
  marked : mark = true → ∃ m, t.me.marks = s.me.marks ++ [m] ∧ m.wpc = s.core.pc ∧ m.npc = npc
    ∧ m.idx = idx ∧ m.count = n ∧ m.kind = false ∧ m.first = s.core.inn ∧ m.shd = t.core

/-- What the sequencer registers are after a word that has broadcast. -/
theorem State.bcastRec_core (s : State) (r : Raw) (npc : BitVec 18) (idx : Nat) (lit : Option Nat) (n : Nat) (mark : Bool) :
    (s.bcastRec r npc idx lit n mark).core = { (s.wordRec r npc).core with inn := s.core.inn + BitVec.ofNat 48 n } := by
  rw [← (s.wordRec_inn r npc).1]
  unfold State.bcastRec Rec.broadcasted
  cases mark <;> rfl

theorem State.bcastRec_rest (s : State) (r : Raw) (npc : BitVec 18) (idx : Nat) (lit : Option Nat) (n : Nat) (mark : Bool) :
    (s.bcastRec r npc idx lit n mark).wordcnt = s.me.wordcnt + 1 ∧ (s.bcastRec r npc idx lit n mark).life = s.me.life
    ∧ (s.bcastRec r npc idx lit n mark).sent = s.me.sent ++ [(s.clk, 1)] ∧ (s.bcastRec r npc idx lit n mark).reqs = s.me.reqs
    ∧ (s.bcastRec r npc idx lit n mark).dies = ((s.wordRec r npc).sendAll s.me.field.dies (s.clk, s.bundleItem idx lit n)).dies := by
  unfold State.bcastRec Rec.broadcasted
  cases mark <;> exact ⟨rfl, rfl, rfl, rfl, rfl⟩

/-- The word's part of what a broadcast leaves. -/
theorem State.bcast_wordLeaves (s t : State) (r : Raw) (npc : BitVec 18) (idx : Nat) (lit : Option Nat) (n : Nat) (mark : Bool)
    (hi : s.canIssue) (hrec : t.recs = s.recs.set s.sel (s.bcastRec r npc idx lit n mark)) (hsel : t.sel = s.sel) :
    s.wordLeaves t r [] none npc := by
  have hl := s.rc_lt s.sel hi.2.1
  have hrc : t.rc = (s.setRec s.sel (s.bcastRec r npc idx lit n mark)).rc := by
    funext k
    simp only [State.rc, hrec, State.setRec]
  have hme : t.me = s.bcastRec r npc idx lit n mark := by
    rw [State.me, hsel, hrc, State.rc_setRec_self _ _ _ hl]
  have hcore : t.core = { (s.wordRec r npc).core with inn := s.core.inn + BitVec.ofNat 48 n } := by
    rw [State.core, hme, s.bcastRec_core]
  obtain ⟨hcnt, hlife, -, -, -⟩ := s.bcastRec_rest r npc idx lit n mark
  refine ⟨?_, by rw [hme, hcnt], by rw [hme, hlife, hi.2.2.1], ?_, ?_, ?_, ?_, ?_, ?_⟩
  · rw [hcore]
    unfold State.wordRec
    rw [s.core.endPos_sameRest]
  · intro _ _
    rw [hcore]
    rfl
  · intro _ _
    rw [hcore]
    rfl
  · intro _ _
    rw [hcore]
    rfl
  · intro _ h
    cases h
  · intro _ h
    cases h
  · intro k hk
    rw [hrc, State.rc_setRec_ne _ _ _ _ hk]

/-- A state whose records are those of the broadcast is as the broadcast leaves it. -/
theorem State.broadcastLeaves (s t : State) (r : Raw) (npc : BitVec 18) (idx : Nat) (lit : Option Nat) (n : Nat) (mark : Bool)
    (hi : s.canIssue) (hrec : t.recs = s.recs.set s.sel (s.bcastRec r npc idx lit n mark)) (hsel : t.sel = s.sel) :
    BroadcastLeaves s t r npc idx lit n mark := by
  have hl := s.rc_lt s.sel hi.2.1
  have hme : t.me = s.bcastRec r npc idx lit n mark := by
    have := s.rc_setRec_self s.sel (s.bcastRec r npc idx lit n mark) hl
    rw [State.me, hsel]
    simpa only [State.rc, hrec, State.setRec] using this
  have hcore := s.bcastRec_core r npc idx lit n mark
  obtain ⟨-, -, hsent, hreqs, hdies⟩ := s.bcastRec_rest r npc idx lit n mark
  refine { word := s.bcast_wordLeaves t r npc idx lit n mark hi hrec hsel, inn := ?_, items := ?_, sent := by rw [hme, hsent],
           reqs := by rw [hme, hreqs], unmarked := ?_, marked := ?_ }
  · rw [State.core, hme, hcore]
  · intro hnd d
    have hd : t.dctx s.sel d = (s.bcastRec r npc idx lit n mark).die d := by
      rw [← hme, ← hsel]
      rfl
    rw [hd, Rec.die, hdies]
    exact Rec.sendAll_frames s.me.field.dies (s.clk, s.bundleItem idx lit n) (s.wordRec r npc) hnd d
  · rintro rfl
    rw [hme]
    rfl
  · rintro rfl
    refine ⟨s.bundleMark ((s.wordRec r npc).broadcasted s.clk (s.bundleItem idx lit n) n) idx n, ?_, rfl, rfl, rfl, rfl, rfl, rfl, ?_⟩
    · rw [hme]
      rfl
    · rw [State.core, hme]
      rfl

/-- Issuing a word whose slot broadcasts. -/
theorem State.issueSlot_post (s : State) (r : Raw) (fx : SeqMeaning) (g : State → State) (hi : s.canIssue) (hp : s.passes r)
    (hk : r.kind = .x) (hop : r.op = 1 ∨ r.op = 2) (hlit : s.litBusy = 0) (hcred : s.me.credit s.clk = true)
    (hidx : bcastIdxOk s.me r = true) (htok : s.tokenFault s.me r = false)
    (hf : fx { c := s.sel, rc := s.me, lit := r.kind == .x && r.op == 2 } s = .ok (s, { post := g })) :
    s.issueSlot r fx = .next (g (s.setRec s.sel (s.wordRec r (s.core.pc + (if r.op = 2 then 4 else 1))))) := by
  have hna : (r.kind == .na && r.op == 7 && !s.me.hact) = false := by simp [hk]
  have hw : waitsHolds s.core r = true := by
    rcases hop with h | h <;> simp [waitsHolds, hk, h]
  have hbad : csrBad s.sel r = false := by simp [csrBad, hk]
  have hact : slotActs s.core r = true := by simp [slotActs, hk]
  rw [s.issueSlot_ok s r fx _ hi hp hw (fun _ => ⟨hcred, hlit⟩) hbad hidx hna htok hact hf, s.finishOne_post r g _ (s.rc_lt s.sel hi.2.1)]
  simp [hk]

/-- A broadcast that has issued leaves what `BroadcastLeaves` says. -/
theorem State.bcastWord_leaves (s : State) (r : Raw) (npc : BitVec 18) (idx : Nat) (lit : Option Nat) (n : Nat) (mark : Bool)
    (hi : s.canIssue) :
    ∃ u, (s.setRec s.sel (s.wordRec r npc)).bcastWord s.sel idx lit n s.core.pc mark = u
      ∧ BroadcastLeaves s u r npc idx lit n mark ∧ BroadcastLeaves s { u with litBusy := 4 } r npc idx lit n mark
      ∧ u.nextId = s.nextId ∧ u.mem = s.mem :=
  ⟨_, s.bcastWord_eq r npc idx lit n mark (s.rc_lt s.sel hi.2.1), s.broadcastLeaves _ r npc idx lit n mark hi rfl rfl,
    s.broadcastLeaves _ r npc idx lit n mark hi rfl rfl, rfl, rfl⟩

/-- Settles O20: the word's effects are its broadcast alone, once the position has ended (`issueSlot_post`), and the broadcast leaves what
`BroadcastLeaves` says. -/
theorem bcastSends : Obligations.BcastSends := by
  refine ⟨fun rep idx s r hr hi hp hlit hcred hidx htok => ?_, fun s r hr hi hp hlit hcred htok => ?_⟩
  · obtain rfl : Raw.mk .x 1 [rep, idx] = r := Option.some.inj hr
    have hok : bcastIdxOk s.me ⟨.x, 1, [rep, idx]⟩ = true := by simpa [bcastIdxOk, nopIdx] using hidx
    have htf : s.tokenFault s.me ⟨.x, 1, [rep, idx]⟩ = false := by
      have hts : Raw.ts ⟨.x, 1, [rep, idx]⟩ = none := rfl
      have htok' : tokenUse (s.me.bundleBits idx none) &&& ~~~(s.me.core.tokmask.extractLsb' 16 32) = 0 := htok
      simp [State.tokenFault, hts, htok']
    have hx := s.issueSlot_post _ (fxBcast rep idx) _ hi hp rfl (.inl rfl) hlit hcred hok htf rfl
    obtain ⟨u, hu, leaves, -, hid, hmem⟩ := s.bcastWord_leaves ⟨.x, 1, [rep, idx]⟩ s.nextPc idx none (rep + 1)
      (markBit (s.me.bundleBits idx none)) hi
    exact ⟨u, hx.trans (congrArg _ hu), leaves.word, leaves.inn, leaves.items, leaves.sent, leaves.reqs, hid, hmem,
      leaves.unmarked, leaves.marked⟩
  · obtain rfl : Raw.mk .x 2 [] = r := Option.some.inj hr
    have htf : s.tokenFault s.me ⟨.x, 2, []⟩ = false := by
      have hts : Raw.ts ⟨.x, 2, []⟩ = none := rfl
      have htok' : tokenUse (s.literalAt s.me.core.pc) &&& ~~~(s.me.core.tokmask.extractLsb' 16 32) = 0 := htok
      simp [State.tokenFault, hts, htok']
    have hx := s.issueSlot_post _ fxLit _ hi hp rfl (.inr rfl) hlit hcred rfl htf rfl
    obtain ⟨u, hu, -, leaves, hid, hmem⟩ := s.bcastWord_leaves ⟨.x, 2, []⟩ (s.core.pc + 4) 0xFFFF (some (s.literalAt s.core.pc)) 1
      (markBit (s.literalAt s.core.pc)) hi
    exact ⟨{ u with litBusy := 4 }, hx.trans (congrArg (fun v : State => Host.Outcome.next { v with litBusy := 4 }) hu), leaves.word,
      leaves.inn, leaves.items, leaves.sent, Nat.succ_pos 3, hmem, leaves.unmarked⟩

end Sys2Proof.Machine


namespace Sys2Proof.Machine

/-! ## Bundles whose slot acts in the cells alone

What such a bundle leaves, from the general facts about a bundle of one slot. -/

/-- A slot that does nothing for the die as a whole: no wait, no check, no effect, no stop, one position. -/
def SlotMeaning.CellsOnly (fx : SlotMeaning) : Prop := fx = { cell := fx.cell, empty := fx.empty }

/-- A die that has issued a bundle after which nothing waits goes on. -/
theorem BundleLeaves.goesOn {s t : State} {r : Raw} {fx : SlotMeaning} {F : Nat → CellFx} (h : BundleLeaves s r fx F t) :
    (t.dctx s.sel s.selDie).hold = fx.after (s.genv r) ∧ (t.dctx s.sel s.selDie).e = s.myDie.e + 1 :=
  ⟨congrArg DieCtx.hold h.die, congrArg DieCtx.e h.die⟩

/-- The selected context of a die that can issue a bundle is resident. -/
theorem State.canBundle.sel_lt {s : State} {r : Raw} (h : s.canBundle r) : s.sel < s.recs.length := by
  obtain ⟨hcan, -⟩ := h
  refine s.rc_lt s.sel ?_
  by_contra hslot
  have hnone : (s.rc s.sel).slot.isNone = true := by simpa using hslot
  simp [State.cannotBundle, hnone] at hcan

/-- Issuing a bundle whose slot acts in the cells alone. -/
theorem State.issueLane_cells (s : State) (r : Raw) (fx : SlotMeaning) (F : Nat → CellFx) (hc : s.canBundle r) (hfx : fx.CellsOnly)
    (hemp : ∀ l ∈ s.myCells, s.emptyReads r fx l = false)
    (hcell : ∀ l ∈ s.myCells, s.lanesOf r l ≠ [] ∨ movesCursor r = true → fx.cell (s.env r l) s = .ok (s, F l)) :
    s.issueLane r fx = .next (s.bundleDone r fx F) := by
  rw [hfx] at hcell hemp ⊢
  have hold := (s.bundleDone_leaves r { cell := fx.cell, empty := fx.empty } F hc.sel_lt).goesOn.1
  refine s.issueLane_ok r _ F hc (fun l hl _ => hemp l hl) rfl rfl hcell ⟨fun hw => ?_, fun hw => ?_⟩
  · cases hold.symm.trans hw
  · cases hold.symm.trans hw

/-- A bundle that enters no operation leaves the rest of the machine, and the die goes on. -/
theorem BundleLeaves.quiet {s t : State} {r : Raw} {fx : SlotMeaning} {F : Nat → CellFx} (h : BundleLeaves s r fx F t)
    (hn : ∀ l ∈ s.myCells, (s.laneFx r F l).req = .none) : s.advanced t ∧ s.quiet t := by
  obtain ⟨hreqs, hid, hdies⟩ := h.none hn
  have hme : t.me = t.rc s.sel := congrArg t.rc h.sel
  have hdie : t.myDie = t.dctx s.sel s.selDie := by rw [State.myDie, h.sel, h.selDie]
  refine ⟨⟨?_, h.sel, h.selDie⟩, h.mem, hdies, ?_, ?_, h.others, hid⟩
  · rw [hdie, h.goesOn.2]
  · rw [State.core, hme]
    change (t.rc s.sel).rest.core = s.me.rest.core
    rw [h.rest]
  · rw [hme, hreqs]

/-- The cells after a bundle of results alone. -/
theorem BundleLeaves.cellsAfter {s t : State} {r : Raw} {fx : SlotMeaning} {F : Nat → CellFx} (h : BundleLeaves s r fx F t)
    (ws : Nat → List Write) (hws : ∀ l ∈ s.myCells, s.laneFx r F l = { writes := ws l }) :
    s.cellsAfter t (fun l => (s.at l).core.after (ws l) (s.underwaits r l) (popsEntry r)) := by
  have hat : ∀ l, t.at l = t.cell s.sel s.selDie l := fun l => by rw [State.at, h.sel, h.selDie]
  refine ⟨fun l hl => ?_, fun l hl => by rw [hat, h.idle l hl], h.far⟩
  obtain ⟨id, hid⟩ := h.active l hl
  rw [hat, hid, hws l hl, Cell.afterBundle_writes]

/-! ## Slots of results alone -/

/-- A slot whose effects in a cell are results alone. -/
def writesFx (f : CellEnv → List Write) : SlotMeaning := cellFx (fun e => { writes := f e })

/-- Instruction i, in the slot r, issues a bundle of meaning fx; it posts nothing where it is idle, and moves no cursor. -/
structure RunsAs (i : Instr) (r : Raw) (fx : SlotMeaning) : Prop where
  exec : ∀ s, exec i s = s.issueLane r fx
  posts : postsAnyway r = none
  stays : movesCursor r = false

theorem RunsAs.congr {i : Instr} {r : Raw} {fx fx' : SlotMeaning} (h : RunsAs i r fx) (e : fx = fx') : RunsAs i r fx' := e ▸ h

/-- A bundle of results alone issues them in the active cells with active lanes. -/
theorem RunsAs.results {i : Instr} {r : Raw} {f : CellEnv → List Write} (h : RunsAs i r (writesFx f)) (s : State) (hc : s.canBundle r) :
    ∃ t, Machine.exec i s = .next t ∧ s.advanced t ∧ s.quiet t
      ∧ s.cellsAfter t (fun l => (s.at l).core.after (if s.lanesOf r l = [] then [] else f (s.env r l)) (s.underwaits r l) (popsEntry r)) := by
  let F : Nat → CellFx := fun l => { writes := f (s.env r l) }
  have hlane : ∀ l, s.laneFx r F l = { writes := if s.lanesOf r l = [] then [] else f (s.env r l) } := by
    intro l
    unfold State.laneFx
    rw [h.stays]
    by_cases hl : s.lanesOf r l = []
    · simp [hl, idleFx, h.posts]
    · simp [hl, F]
  have hleaves := s.bundleDone_leaves r (writesFx f) F hc.sel_lt
  obtain ⟨hadv, hquiet⟩ := hleaves.quiet (fun l _ => by rw [hlane])
  have hrun := s.issueLane_cells r (writesFx f) F hc rfl (fun l _ => Bool.and_false _) (fun l _ _ => rfl)
  exact ⟨_, (h.exec s).trans hrun, hadv, hquiet, hleaves.cellsAfter _ (fun l _ => hlane l)⟩

/-- A bundle that reaches no cell, of a slot that acts in the cells alone, passes the position. -/
theorem State.issueLane_noCells (s : State) (r : Raw) (fx : SlotMeaning) (hc : s.canBundle r) (hfx : fx.CellsOnly) (hno : s.myCells = []) :
    ∃ t, s.issueLane r fx = .next t ∧ s.advanced t ∧ s.quiet t ∧ s.cellsAfter t (fun l => (s.at l).core.endPos) := by
  have hnone : ∀ l, l ∉ s.myCells := by simp [hno]
  have hleaves := s.bundleDone_leaves r fx (fun _ => {}) hc.sel_lt
  obtain ⟨hadv, hquiet⟩ := hleaves.quiet (fun l hl => absurd hl (hnone l))
  obtain ⟨-, hidle, hfar⟩ := hleaves.cellsAfter (fun _ => []) (fun l hl => absurd hl (hnone l))
  exact ⟨_, s.issueLane_cells r fx _ hc hfx (fun l hl => absurd hl (hnone l)) (fun l hl => absurd hl (hnone l)), hadv, hquiet,
    fun l hl => absurd hl (hnone l), hidle, hfar⟩

end Sys2Proof.Machine


namespace Sys2Proof.Machine

/-! ## The shapes of a cell's results -/

/-- The flags of all active lanes, gathered. -/
theorem foldl_flags (f : Nat → Nat × Nat) (ls : List Nat) :
    (ls.map (fun i => (i, f i))).foldl (fun (fl : Nat) r => fl ||| r.2.2) 0 = (ls.map (fun i => (f i).2)).foldl (· ||| ·) 0 := by
  rw [List.foldl_map, List.foldl_map]

theorem foldl_noFlags (ls : List Nat) : (ls.map (fun _ => 0)).foldl (· ||| ·) 0 = 0 := by
  induction ls with
  | nil => rfl
  | cons l ls ih => simpa using ih

theorem vOp_eq (d lat : Nat) (f : CellCore → Nat → Nat × Nat) :
    vOp d lat f = writesFx (fun e => [e.result (.v d) (e.lanes.map (fun l => (l, (f e.q l).1))) lat
      ((e.lanes.map (fun l => (f e.q l).2)).foldl (· ||| ·) 0)]) := by
  unfold vOp writesFx
  simp only [foldl_flags, List.map_map]
  rfl

theorem vElem_eq (ty : Ty) (d lat : Nat) (f : CellCore → Nat → Nat → Int) :
    vElem ty d lat f = writesFx (fun e => [e.result (.v d)
      (e.lanes.map (fun l => (l, laneOf ty.width (32 / ty.width) (fun j => (f e.q l j % 2 ^ ty.width).toNat)))) lat 0]) := by
  unfold vElem vOp0
  rw [vOp_eq]
  simp only [foldl_noFlags]
  rfl

theorem kOp_eq (d lat : Nat) (f : CellCore → Nat → Bool × Nat) :
    kOp d lat f = writesFx (fun e => [e.result (.k d) (e.lanes.map (fun l => (l, if (f e.q l).1 then 1 else 0))) lat
      ((e.lanes.map (fun l => (f e.q l).2)).foldl (· ||| ·) 0)]) := by
  unfold kOp writesFx
  simp only [List.foldl_map, List.map_map]
  rfl

theorem xOp_eq (d lat : Nat) (f : CellCore → List Nat → Nat × Nat) :
    xOp d lat f = writesFx (fun e => [e.result (.x d) [(0, (f e.q e.lanes).1)] lat (f e.q e.lanes).2]) := rfl

/-! ## Integers cut to a width -/

theorem wrapElem_eq (w : Nat) (i : Int) : wrapElem w i = (BitVec.ofInt w i).toNat := by
  simp [wrapElem, BitVec.toNat_ofInt]

theorem tyMin_le_tyMax (ty : Ty) : tyMin ty ≤ tyMax ty := by
  cases ty <;> decide

theorem fxVaddsat_eq (g : Nat) (ty : Ty) (d a b : Nat) :
    fxVaddsat g ty d a b = vElem ty d 2 (fun q i j => max (tyMin ty) (min (tyMax ty) (el ty q a i j + el ty q b i j))) := by
  have h := tyMin_le_tyMax ty
  have clamp : ∀ x : Int, min (max x (tyMin ty)) (tyMax ty) = max (tyMin ty) (min (tyMax ty) x) := by
    intro x
    omega
  unfold fxVaddsat vInt
  simp only [clamp]
  rfl

/-- A shift right by more than a width leaves the sign. -/
theorem sext_div_of_le {x w c : Nat} (hc : w - 1 ≤ c) : sext x w / 2 ^ c = if sext x w < 0 then -1 else 0 := by
  have hlo := BitVec.le_toInt (BitVec.ofNat w x)
  have hhi := BitVec.toInt_lt (x := BitVec.ofNat w x)
  have hp : (2 : Int) ^ (w - 1) ≤ 2 ^ c := pow_le_pow_right₀ (by norm_num) hc
  have h0 : (0 : Int) < 2 ^ c := by positivity
  unfold sext
  split
  · next hneg => exact Int.ediv_eq_neg_one_of_neg_of_le hneg (by omega)
  · next hpos => exact Int.ediv_eq_zero_of_lt (by omega) (by omega)

theorem fxVsar_eq (g : Nat) (ty : Ty) (d a b : Nat) :
    fxVsar g ty d a b
      = vElem ty d 2 (fun q i j => sext (eu ty q a i j) ty.width / 2 ^ min (eu ty q b i j) (ty.width - 1)) := by
  have sar : ∀ x c : Nat, (if c < ty.width then sext x ty.width / 2 ^ c else if sext x ty.width < 0 then -1 else 0)
      = sext x ty.width / 2 ^ min c (ty.width - 1) := by
    intro x c
    split
    · next hc => rw [Nat.min_eq_left (by omega)]
    · next hc => rw [Nat.min_eq_right (by omega), sext_div_of_le (Nat.le_refl _)]
  unfold fxVsar vShift
  simp only [sar]
  rfl

end Sys2Proof.Machine


namespace Sys2Proof.Machine

/-! ## The instructions by the shape of their results -/

/-- The element-wise operations are the model's as they stand, but for VADDSAT and VSAR, whose forms order their cases otherwise. -/
theorem elemForm_runs {i : Instr} {r : Raw} {ty : Ty} {d lat : Nat} {f : CellCore → Nat → Nat → Int}
    (hf : elemForm i = some (ty, d, lat, f)) (hr : i.raw = some r) : RunsAs i r (vElem ty d lat f) := by
  cases i
  all_goals cases hf
  case vaddsat g a b =>
    cases hr
    exact RunsAs.congr ⟨fun _ => rfl, rfl, rfl⟩ (fxVaddsat_eq g ty d a b)
  case vsar g a b =>
    cases hr
    exact RunsAs.congr ⟨fun _ => rfl, rfl, rfl⟩ (fxVsar_eq g ty d a b)
  all_goals
    cases hr
    exact ⟨fun _ => rfl, rfl, rfl⟩

end Sys2Proof.Machine


namespace Sys2Proof.Machine

/-- A lane without its sign bit. -/
theorem toNat_and_abs (x : Lane) : (x &&& 0x7FFFFFFF).toNat = x.toNat % 2 ^ 31 :=
  Nat.and_two_pow_sub_one_eq_mod x.toNat 31

/-- The upper half of a lane. -/
theorem toNat_and_upper (x : Lane) : (x &&& 0xFFFF0000).toNat = x.toNat / 2 ^ 16 * 2 ^ 16 := by
  have h : x &&& (0xFFFF0000 : Lane) = (x >>> 16) <<< 16 := by
    ext i hi
    interval_cases i <;> simp
  have hx := x.isLt
  rw [h]
  simp only [BitVec.toNat_shiftLeft, BitVec.toNat_ushiftRight, Nat.shiftLeft_eq, Nat.shiftRight_eq_div_pow]
  omega

theorem fxVfabs_eq (g d a : Nat) : fxVfabs g d a = vOp d 2 (fun q i => ((q.rV a i &&& 0x7FFFFFFF).toNat, 0)) := by
  simp only [toNat_and_abs]
  rfl

theorem fxVcvtF32Bf16_eq (g d a : Nat) :
    fxVcvtF32Bf16 g d a = vOp d 3 (fun q i =>
      let w := ((q.rV a i) &&& 0xFFFF0000).toNat
      if (f32Val w).isSnan then (qNaN, fNV) else (w, 0)) := by
  simp only [toNat_and_upper]
  rfl

/-- The results by whole lanes are the model's as they stand, but for the two that clear bits of the lane. -/
theorem laneForm_runs {i : Instr} {r : Raw} {d lat : Nat} {f : CellCore → Nat → Nat × Nat}
    (hf : laneForm i = some (d, lat, f)) (hr : i.raw = some r) : RunsAs i r (vOp d lat f) := by
  cases i
  all_goals cases hf
  case vfabs g a =>
    cases hr
    exact RunsAs.congr ⟨fun _ => rfl, rfl, rfl⟩ (fxVfabs_eq g d a)
  case vcvtF32Bf16 g a =>
    cases hr
    exact RunsAs.congr ⟨fun _ => rfl, rfl, rfl⟩ (fxVcvtF32Bf16_eq g d a)
  all_goals
    cases hr
    exact ⟨fun _ => rfl, rfl, rfl⟩

end Sys2Proof.Machine


namespace Sys2Proof.Machine

/-- A compare of elements read unsigned is the compare of the numbers. -/
theorem vCmp_unsigned (ty : Ty) (a b m : Nat) (f : Int → Int → Bool) (g : Nat → Nat → Bool) (h : ∀ x y : Nat, f x y = g x y) :
    vCmp ty a b m false f = kOp m 2 (fun q i => (allElems ty (fun j => g (eu ty q a i j) (eu ty q b i j)), 0)) := by
  simp only [← h]
  rfl

theorem fxXcmp_eq (k : Nat) (cc : Cc) (a b m : Nat) :
    fxXcmp k cc a b m = kOp m 1 (fun q _ => (match cc with
      | .eq => decide (q.rX a = q.rX b)
      | .ne => decide (q.rX a ≠ q.rX b)
      | .lt => decide ((q.rX a).toInt < (q.rX b).toInt)
      | .le => decide ((q.rX a).toInt ≤ (q.rX b).toInt)
      | .ltu => decide ((q.rX a).toNat < (q.rX b).toNat)
      | .leu => decide ((q.rX a).toNat ≤ (q.rX b).toNat), 0)) := by
  have hne : ∀ x y : Word, (x != y) = decide (x ≠ y) := by
    intro x y
    rw [bne, beq_eq_decide, decide_not]
  unfold fxXcmp
  cases cc with
  | ne => simp only [hne]
  | _ => rfl

theorem fxKset_eq (g d hi lo : Nat) : fxKset g d hi lo = kOp d 1 (fun _ i => (decide (lo ≤ i) && decide (i ≤ hi), 0)) := by
  unfold fxKset
  simp only [Bool.decide_and]

/-- The lane masks are the model's as they stand, but for the unsigned compares, which the model makes of integers, XCMP and KSET. -/
theorem maskForm_runs {i : Instr} {r : Raw} {d lat : Nat} {f : CellCore → Nat → Bool × Nat}
    (hf : maskForm i = some (d, lat, f)) (hr : i.raw = some r) : RunsAs i r (kOp d lat f) := by
  cases i
  all_goals cases hf
  all_goals
    cases hr
    refine RunsAs.congr ⟨fun _ => rfl, rfl, rfl⟩ ?_
  case vcmpEq => exact vCmp_unsigned _ _ _ _ _ (fun x y => x == y) (fun x y => by simp [beq_eq_decide])
  case vcmpNe => exact vCmp_unsigned _ _ _ _ _ (fun x y => x != y) (fun x y => by simp [bne, beq_eq_decide])
  case vcmpLtu => exact vCmp_unsigned _ _ _ _ _ (fun x y => decide (x < y)) (fun x y => by simp)
  case vcmpLeu => exact vCmp_unsigned _ _ _ _ _ (fun x y => decide (x ≤ y)) (fun x y => by simp)
  case xcmp => exact fxXcmp_eq _ _ _ _ _
  case kset => exact fxKset_eq _ _ _ _
  all_goals rfl

/-! ## Cell scalars -/

theorem fxVrsumF32_eq (g : Nat) (rm : Rm) (d a : Nat) :
    fxVrsumF32 g rm d a = xOp d 10 (fun q lanes => treeSum (q.mode rm) 6
      ((List.range 64).map (fun i => if i ∈ lanes then (q.rV a i).toNat else 0x80000000))) := by
  unfold fxVrsumF32
  simp only [List.contains_iff_mem]

theorem fxVramax_eq (g d a : Nat) :
    fxVramax g d a = xOp d 6 (fun q lanes => f32Largest (lanes.map (fun i => (q.rV a i &&& 0x7FFFFFFF).toNat))) := by
  simp only [toNat_and_abs]
  rfl

theorem fxVrsumI_eq (g : Nat) (ty : Ty) (d a : Nat) :
    fxVrsumI g ty d a = xOp d 6 (fun q lanes =>
      ((BitVec.ofInt 64 ((lanes.map (fun i => elemVal (tySigned ty) 32 (q.rV a i).toNat)).sum)).toNat, 0)) := by
  simp only [List.sum_eq_foldl]
  rfl

theorem fxXsub_eq (g d a b : Nat) :
    fxXsub g d a b = xOp d 1 (fun q _ => (((q.rX a).toNat + (2 ^ 64 - (q.rX b).toNat)) % 2 ^ 64, 0)) := by
  simp only [Nat.add_comm (BitVec.toNat (CellCore.rX _ a)), ← BitVec.toNat_sub]
  rfl

theorem fxXshl_eq (g d a b : Nat) :
    fxXshl g d a b = xOp d 1 (fun q _ => ((q.rX a).toNat * 2 ^ ((q.rX b).toNat % 64) % 2 ^ 64, 0)) := by
  simp only [← Nat.shiftLeft_eq, ← BitVec.toNat_shiftLeft]
  rfl

theorem fxXshr_eq (g d a b : Nat) :
    fxXshr g d a b = xOp d 1 (fun q _ => ((q.rX a).toNat / 2 ^ ((q.rX b).toNat % 64), 0)) := by
  simp only [← Nat.shiftRight_eq_div_pow, ← BitVec.toNat_ushiftRight]
  rfl

theorem popcount_toNat (x : Word) : popcount 64 x.toNat = (BitVec.ofNat 64 ((List.range 64).countP (fun i => tbit x i))).toNat := by
  have hle : (List.range 64).countP (fun i => tbit x i) ≤ 64 := List.countP_le_length.trans_eq List.length_range
  rw [BitVec.toNat_ofNat, Nat.mod_eq_of_lt (by omega), popcount, List.countP_eq_length_filter]
  rfl

theorem fxKpopc_eq (g d a : Nat) : fxKpopc g d a = xOp d 1 (fun q _ => (popcount 64 (q.rK a).toNat, 0)) := by
  simp only [popcount_toNat]
  rfl

/-- The cell scalars are the model's as they stand, but for those whose forms state the words' arithmetic in numbers. -/
theorem scalarForm_runs {i : Instr} {r : Raw} {d lat : Nat} {f : CellCore → List Nat → Nat × Nat}
    (hf : scalarForm i = some (d, lat, f)) (hr : i.raw = some r) : RunsAs i r (xOp d lat f) := by
  cases i
  all_goals cases hf
  all_goals
    cases hr
    refine RunsAs.congr ⟨fun _ => rfl, rfl, rfl⟩ ?_
  case vrsumF32 => exact fxVrsumF32_eq _ _ _ _
  case vramax => exact fxVramax_eq _ _ _
  case vrsumI => exact fxVrsumI_eq _ _ _ _
  case xsub => exact fxXsub_eq _ _ _ _
  case xshl => exact fxXshl_eq _ _ _ _
  case xshr => exact fxXshr_eq _ _ _ _
  case kpopc => exact fxKpopc_eq _ _ _
  all_goals rfl

end Sys2Proof.Machine


namespace Sys2Proof.Machine

/-! ## The other slots of results -/

theorem fxVsplit3_eq (g d a : Nat) :
    fxVsplit3 g d a = writesFx (fun e =>
        let t := fun l => split3 (e.q.rV a l).toNat
        [e.result (.v d) (e.lanes.map (fun l => (l, (t l).1.1))) 4 ((e.lanes.map (fun l => (t l).2)).foldl (· ||| ·) 0),
         e.result (.v (d + 1)) (e.lanes.map (fun l => (l, (t l).1.2.1))) 4 0,
         e.result (.v (d + 2)) (e.lanes.map (fun l => (l, (t l).1.2.2))) 4 0]) := by
  unfold fxVsplit3 writesFx
  simp only [List.map_map, List.foldl_map]
  rfl

theorem fxVamaxb_eq (g : Nat) (bs : Bool) (d a : Nat) :
    fxVamaxb g bs d a = writesFx (fun e =>
        let m := fun l => blockAmax e.q a (e.lanes.filter (fun j => j / blockSize bs == l / blockSize bs))
        [e.result (.v d) (e.lanes.map (fun l => (l, (m l).1))) 6 ((e.lanes.map (fun l => (m l).2)).foldl (· ||| ·) 0)]) := by
  unfold fxVamaxb writesFx
  simp only [List.map_map, List.foldl_map]
  rfl

theorem fxQbfp_eq (g : Nat) (rm : Rm) (bs : Bool) (mb d a : Nat) :
    fxQbfp g rm bs mb d a = writesFx (fun e =>
        let blk := fun l => e.lanes.filter (fun j => j / blockSize bs == l / blockSize bs)
        let sc := fun l => qScale e.q a mb (blk l)
        let ms := fun l => qMant rm (e.q.rb l) mb (sc l).1 (e.q.rV a l).toNat
        let all := (List.range 64).filter (fun l => !(blk l).isEmpty)
        [e.result (.v d) (e.lanes.map (fun l => (l, (ms l).1))) 6
          ((e.lanes.map (fun l => (ms l).2)).foldl (· ||| ·) 0 ||| (if all.any (fun l => (sc l).2) then 0x200 else 0)),
         e.result (.v (d + 1)) (all.map (fun l => (l, (sc l).1))) 6 0]) := by
  unfold fxQbfp writesFx
  simp only [List.map_map, List.foldl_map]
  rfl

/-- An instruction of results alone writes them in a bundle of its own. -/
theorem cellWrites_runs {i : Instr} {r : Raw} {f : CellEnv → List Write} (hf : cellWrites i = some f) (hr : i.raw = some r) :
    RunsAs i r (writesFx f) := by
  unfold cellWrites at hf
  split at hf
  case h_1 ty d lat g h =>
    cases hf
    exact (elemForm_runs h hr).congr (vElem_eq ty d lat g)
  case h_2 d lat g h _ =>
    cases hf
    exact (laneForm_runs h hr).congr (vOp_eq d lat g)
  case h_3 d lat g h _ _ =>
    cases hf
    exact (maskForm_runs h hr).congr (kOp_eq d lat g)
  case h_4 d lat g h _ _ _ =>
    cases hf
    exact (scalarForm_runs h hr).congr (xOp_eq d lat g)
  case h_5 =>
    cases i
    all_goals cases hf
    all_goals
      cases hr
      refine RunsAs.congr ⟨fun _ => rfl, rfl, rfl⟩ ?_
    case vsplit3 => exact fxVsplit3_eq _ _ _
    case vamaxb => exact fxVamaxb_eq _ _ _ _
    case qbfp => exact fxQbfp_eq _ _ _ _ _ _
    all_goals rfl

end Sys2Proof.Machine


namespace Sys2Proof.Machine

/-! ## Bundles that reach no cell -/

/-- The slots that do nothing for the die as a whole: those of the V, LS and MX kinds but WSWAP. -/
def actsInCells (r : Raw) : Bool :=
  r.kind == .v || r.kind == .conv || r.kind == .ls || (r.kind == .mx && r.op != 8)

/-- The meaning of such a slot acts in the cells alone. -/
theorem exec_cellsOnly {i : Instr} {r : Raw} (hr : i.raw = some r) (h : actsInCells r = true) :
    ∃ fx : SlotMeaning, (∀ s, exec i s = s.issueLane r fx) ∧ fx.CellsOnly := by
  cases i
  case vmov | vmovi | vbcst | vlane | vcoord | vadd | vsub | vmullo | vmulhi | vmin | vmax | vabsd | vaddsat | vand | vor | vxor |
      vandn | vshl | vshr | vsar | vshli | vpopc | vclz | vsel | vshf | vrot | vcmpEq | vcmpNe | vcmpLt | vcmpLe | vcmpLtu |
      vcmpLeu | vfcmpEq | vfcmpLt | vfcmpLe | vfcmpUn | vfadd | vfsub | vfmul | vfma | vfms | vfnma | vfmin | vfmax | vfabs |
      vfneg | vfdiv | vfsqrt | vfrsqrt | vfexp2 | vflog2 | vfclass | vrsumF32 | vrmaxF32 | vramax | vrsumI | vrmaxI | xmov | xmovi
      | xadd | xsub | xmul | xand | cellXor | xshl | xshr | xcmp | xfromv | xtok | vcvtF32I32 | vcvtI32F32 | vcvtBf16F32 |
      vcvtF32Bf16 | vsplit3 | vamaxb | vscale | qbfp | dqbfp | vcvtI8F32 | vrng | vcvtF32I8 | mma | mmaNest | mmaGrp | accz |
      accrd | accwr | accout | mxprog | ldv | stv | ldvn | stvn | gather | scatter | ldx | stx | ldxAcq | stxRel | lsFence |
      xafadd | xamax | xacas | xaswap | vafadd | vamaxf | lsAmaxrr | stset | stget | stgo | stsave | stload | resize | sete | setf
      | nsflush | lsLdr | lsStr | ldrv | strv | lsLdref | lsStref | lsPin | lsUnpin | refmov | reftag | take | lsJraise | lsJdone
      =>
    cases hr
    exact ⟨_, fun _ => rfl, rfl⟩
  all_goals cases hr
  all_goals cases h

/-- Settles O29: each instruction's meaning is the results that its form says (`cellWrites_runs`), and a bundle of results alone issues
them in the active cells (`RunsAs.results`); a bundle that reaches no cell, of a slot that acts in the cells alone, passes the position. -/
theorem cellResults : Obligations.CellResults := by
  refine ⟨fun i s r f hr hf hc => (cellWrites_runs hf hr).results s hc, fun i s r hr hk hc hno => ?_⟩
  have hin : actsInCells r = true := by
    rcases hk with h | h | h | ⟨h, hop⟩
    · simp [actsInCells, h]
    · simp [actsInCells, h]
    · simp [actsInCells, h]
    · simp [actsInCells, h, hop]
  obtain ⟨fx, hrun, hfx⟩ := exec_cellsOnly hr hin
  rw [hrun s]
  exact s.issueLane_noCells r fx hc hfx hno

end Sys2Proof.Machine

end

section
set_option Elab.async false

namespace Sys2Proof.Machine

/-! ## The state after reset -/

/-- After reset every record is as R18 gives a FREE one. -/
theorem State.reset_rc (c : Nat) : State.reset.rc c = .reset :=
  List.getElem?_getD_replicate_default_eq (d := Rec.reset) 17 c

/-- After reset no mailbox holds a message. -/
theorem State.reset_mbxFull (c m : Nat) : State.reset.mbxFull c m = false := by
  have hbox : State.reset.mbx.getD c 0 = 0 := List.getElem?_getD_replicate_default_eq (d := (0 : Mbx)) 16 c
  rw [State.mbxFull, hbox]
  exact BitVec.getLsbD_zero

end Sys2Proof.Machine

open Sys2Proof.Machine in
/-- Settles O59: the records are those of `Rec.reset` (`State.reset_rc`), the mailboxes are empty (`State.reset_mbxFull`), and the rest stands in
`State.reset`. -/
theorem stateAfterReset : Obligations.StateAfterReset := by
  refine ⟨rfl, ⟨rfl, rfl, rfl, rfl, rfl, rfl, rfl⟩, fun c _ => ?_, rfl, rfl, State.reset_mbxFull, rfl, rfl⟩
  rw [State.reset_rc]
  exact ⟨rfl, rfl, rfl, rfl, fun _ => rfl, rfl⟩

namespace Sys2Proof.Machine

/-! ## Precise faults of a word

What taking a trap leaves, from what a record written to a buffer leaves: memory and that buffer aside, nothing changes. -/

theorem State.bufWords_recs (ws : List Nat) : ∀ (s : State) (pasid base i : Nat),
    (s.bufWords pasid base i ws).recs = s.recs ∧ (s.bufWords pasid base i ws).sel = s.sel := by
  induction ws with
  | nil => exact fun _ _ _ _ => ⟨rfl, rfl⟩
  | cons w ws ih =>
    intro s pasid base i
    rw [State.bufWords]
    cases s.devKey pasid (base + 8 * i) with
    | none => exact ih s pasid base (i + 1)
    | some k => exact ih (s.poke k 8 w) pasid base (i + 1)

/-- State t differs from s in the record buffers of context c and outside the context records alone. -/
structure BuffersMove (c : Nat) (s t : State) : Prop where
  rc : t.rc c = { s.rc c with bufs := (t.rc c).bufs }
  others : ∀ k, k ≠ c → t.rc k = s.rc k
  sel : t.sel = s.sel
  length : t.recs.length = s.recs.length

theorem BuffersMove.refl (c : Nat) (s : State) : BuffersMove c s s := ⟨rfl, fun _ _ => rfl, rfl, rfl⟩

theorem BuffersMove.trans {c : Nat} {s t u : State} (h : BuffersMove c s t) (g : BuffersMove c t u) : BuffersMove c s u :=
  ⟨by rw [g.rc, h.rc], fun k hk => (g.others k hk).trans (h.others k hk), g.sel.trans h.sel, g.length.trans h.length⟩

/-- An update of the buffers in a state with the same records. -/
theorem BuffersMove.of_updRec {c : Nat} {s t : State} (hc : c < s.recs.length) (hrecs : t.recs = s.recs) (hsel : t.sel = s.sel)
    (f : Rec → List Buf) : BuffersMove c s (t.updRec c (fun r => { r with bufs := f r })) := by
  have hrc : ∀ k, t.rc k = s.rc k := fun k => by rw [State.rc, hrecs]; rfl
  refine ⟨?_, fun k hk => ?_, hsel, by simp [hrecs]⟩
  · rw [State.rc_updRec_self _ _ _ (by rwa [hrecs]), hrc]
  · rw [State.rc_updRec_ne _ _ _ _ hk, hrc]

theorem State.emit_buffersMove (s : State) (c n type die : Nat) (cell : Option Nat) (spec : Nat) (ws : List Nat) (hc : c < s.recs.length) :
    BuffersMove c s (s.emit c n type die cell spec ws) := by
  unfold State.emit
  dsimp only
  split
  · exact .refl c s
  split
  · obtain ⟨hrecs, hsel⟩ := State.bufWords_recs _ s _ _ _
    exact .of_updRec hc hrecs hsel _
  split
  · obtain ⟨hrecs, hsel⟩ := State.bufWords_recs _ s _ _ _
    obtain ⟨hrecs', hsel'⟩ := State.bufWords_recs _ (s.bufWords _ _ _ _) _ _ _
    exact .of_updRec hc (hrecs'.trans hrecs) (hsel'.trans hsel) _
  split
  · obtain ⟨hrecs, hsel⟩ := State.bufWords_recs _ s _ _ _
    exact .of_updRec hc hrecs hsel _
  · exact .of_updRec hc rfl rfl _

/-- A buffer that is not enabled takes no record (R444). -/
theorem State.emit_disabled (s : State) (c n type die : Nat) (cell : Option Nat) (spec : Nat) (ws : List Nat)
    (h : ((s.rc c).bufs.getD n .reset).ctl.getLsbD 0 = false) : s.emit c n type die cell spec ws = s := by
  unfold State.emit
  simp only [h, Bool.not_false, true_or, if_true]

/-- The state in which a trap entry (R429) writes its trace records: that the registers have taken the cause. -/
def State.trapEntered (s : State) (c : Nat) (t : Trap) : State :=
  (s.freeInfo t.info).1.setRec c
    { s.rc c with core := { (if t.slot = slDie then (s.rc c).core else (s.rc c).core.drained) with pc := (s.rc c).xvec }
                  life := .ready, hact := true, xpcWritten := false
                  xcause := t.cause, xin := t.xin, xinfo := (s.freeInfo t.info).2, xpc := t.xpc }

/-- Only the trace records of a trap entry depend on whether the trace buffer is enabled. -/
theorem State.takeTrap_buffersMove (s : State) (c : Nat) (t : Trap) (hc : c < s.recs.length) (hh : (s.rc c).hact = false) :
    BuffersMove c (s.trapEntered c t) (s.takeTrap c t)
    ∧ (((s.rc c).bufs.getD 0 .reset).ctl.getLsbD 0 = false → s.takeTrap c t = s.trapEntered c t) := by
  have hlen : c < (s.trapEntered c t).recs.length := by
    unfold State.trapEntered State.freeInfo
    split <;> simpa using hc
  have hbufs : ((s.trapEntered c t).rc c).bufs = (s.rc c).bufs := by
    unfold State.trapEntered
    rw [State.rc_setRec_self]
    unfold State.freeInfo
    split <;> exact hc
  have hrec := fun (type : Nat) (ws : List Nat) (u : State) (hu : c < u.recs.length) =>
    u.emit_buffersMove c 0 type (u.rc c).field.origin none 0 ws hu
  have hoff := fun (type : Nat) (ws : List Nat) (u : State) (hu : ((u.rc c).bufs.getD 0 .reset).ctl.getLsbD 0 = false) =>
    u.emit_disabled c 0 type (u.rc c).field.origin none 0 ws hu
  let ws := [t.xin.toNat, t.cause.toNat, (s.freeInfo t.info).2.toNat]
  let u := (s.trapEntered c t).emit c 0 0x10 ((s.trapEntered c t).rc c).field.origin none 0 ws
  have htake : s.takeTrap c t = if t.code = cWATCH then u.emit c 0 0x12 (u.rc c).field.origin none 0 ws else u := by
    unfold State.takeTrap
    simp only [hh, Bool.false_eq_true, if_false]
    rfl
  have h1 := hrec 0x10 ws _ hlen
  rw [htake]
  constructor
  · split
    · exact h1.trans (hrec 0x12 ws u (by rw [h1.length]; exact hlen))
    · exact h1
  · intro hctl
    have hu : u = s.trapEntered c t := hoff 0x10 ws _ (by rwa [hbufs])
    rw [hu]
    split
    · exact hoff 0x12 ws _ (by rwa [hbufs])
    · rfl

/-- A trap of the sequencer outside a handler (R429), taken at the PC. -/
theorem State.takeTrap_traps (s : State) (code detail slot info : Nat) (hl : s.sel < s.recs.length) (hh : s.me.hact = false)
    (hcode : code < 256) (hdetail : detail < 256) (hslot : slot < 4) :
    s.traps (s.takeTrap s.sel { code := code, detail := detail, slot := slot, die := 0xFF, xin := s.core.inn, info := info, xpc := s.core.pc })
      s.me code detail slot s.core.pc (if info = noInfo then none else some info) := by
  let t : Trap := { code := code, detail := detail, slot := slot, die := 0xFF, xin := s.core.inn, info := info, xpc := s.core.pc }
  obtain ⟨hmove, hoff⟩ := s.takeTrap_buffersMove s.sel t hl hh
  have hsel' : (s.trapEntered s.sel t).sel = s.sel := by
    unfold State.trapEntered State.freeInfo; split <;> rfl
  have hmem' : (s.trapEntered s.sel t).mem = s.mem := by
    unfold State.trapEntered State.freeInfo; split <;> rfl
  have hlen : s.sel < (s.freeInfo info).1.recs.length := by
    unfold State.freeInfo; split <;> exact hl
  have hothers : ∀ k, k ≠ s.sel → (s.trapEntered s.sel t).rc k = s.rc k := by
    intro k hk
    unfold State.trapEntered
    rw [State.rc_setRec_ne _ _ _ _ hk]
    unfold State.freeInfo; split <;> rfl
  have hcause : t.cause = BitVec.ofNat 32 (code + detail * 2 ^ 8 + slot * 2 ^ 16 + 0xFF * 2 ^ 24) := by
    simp only [Trap.cause, t]
    rw [Nat.mod_eq_of_lt hcode, Nat.mod_eq_of_lt hdetail, Nat.mod_eq_of_lt (by omega : slot < 8)]
  have hnd : t.slot ≠ slDie := by simp only [t, slDie]; omega
  have hrec : (s.trapEntered s.sel t).rc s.sel
      = { s.me with core := { s.core.drained with pc := s.me.xvec }, life := .ready, hact := true, xpcWritten := false
                    xcause := BitVec.ofNat 32 (code + detail * 2 ^ 8 + slot * 2 ^ 16 + 0xFF * 2 ^ 24)
                    xin := s.core.inn, xpc := s.core.pc, xinfo := (s.freeInfo info).2 } := by
    unfold State.trapEntered
    rw [State.rc_setRec_self _ _ _ hlen, hcause, if_neg hnd]
    rfl
  have hself := congrArg (s.takeTrap s.sel t).rc (hmove.sel.trans hsel')
  have hrc := hmove.rc
  rw [hrec] at hrc
  have hinfo : ((s.takeTrap s.sel t).rc s.sel).xinfo = (s.freeInfo info).2 := congrArg Rec.xinfo hrc
  refine ⟨?_, ?_, fun k hk => (hmove.others k hk).trans (hothers k hk), fun hctl => ?_⟩
  · rw [State.me, hself, hinfo]
    exact hrc
  · intro n hn
    rw [State.me, hself, hinfo]
    by_cases hi : info = noInfo
    · simp [hi] at hn
    · simp only [hi, if_false, Option.some.injEq] at hn
      subst hn
      simp [State.freeInfo, hi]
  · rw [hoff hctl, hmem', State.me, hsel', hrec]
    exact ⟨rfl, rfl⟩

/-- A precise fault of the word at the PC other than PAGE (R42, R431). -/
theorem State.seqFault_faultsWith (s : State) (slot : Nat) (f : FInfo) (hi : s.canIssue) (hpage : f.1 ≠ cPAGE)
    (hcode : f.1 < 256) (hdetail : f.2.1 < 256) (hslot : slot < 4) :
    s.faultsWith (.next (s.seqFault s.sel slot f)) f.1 f.2.1 slot (if f.2.2 = noInfo then none else some f.2.2) := by
  obtain ⟨hsel, hres, -⟩ := hi
  have hne : s.sel ≠ ateIdx := by simp only [ateIdx]; omega
  have htrap : s.seqFault s.sel slot f
      = s.takeTrap s.sel { code := f.1, detail := f.2.1, slot := slot, die := 0xFF, xin := s.core.inn, info := f.2.2, xpc := s.core.pc } := by
    rw [State.seqFault, if_neg hne, State.wordFault, if_neg hpage]
    rfl
  rw [htrap]
  refine ⟨fun hh => ⟨_, rfl, s.takeTrap_traps f.1 f.2.1 slot f.2.2 (s.rc_lt s.sel hres) hh hcode hdetail hslot⟩, fun hh => ?_⟩
  have hh' : (s.rc s.sel).hact = true := hh
  unfold State.takeTrap
  dsimp only
  rw [if_pos hh']
  rfl

/-! ## Words that broadcast (R18, R29, R50, R67, R112) -/

/-- An X slot executed alone issues in a word whose other slots are empty. -/
theorem State.issueSlot_xSlot (s : State) (r : Raw) (fx : SeqMeaning) (hk : r.kind = .x) (hleg : r.legal = true) :
    s.issueSlot r fx = s.issueWord s.sel ⟨.nop, slS0, fxNone⟩ ⟨.nop, slS1, fxNone⟩ ⟨r, slX, fx⟩ ⟨.seq, slNA, fxNone⟩ := by
  obtain ⟨-, -, hx⟩ := wordOf_blank r
  obtain ⟨h0, h1, hx, hna⟩ := hx (by simp [hk]) (by simp [hk])
  simp only [State.issueSlot, hleg, hk, h0, h1, hx, hna]
  rfl

/-- A word that the merge stage does not take is answered as the merge stage says. -/
theorem State.issueWord_held (s : State) (s0 s1 x na : WSlot) (o : Host.Outcome State Fault Refusal) (hi : s.canIssue)
    (h : s.mergeHold s.sel x.raw = some o) : s.issueWord s.sel s0 s1 x na = o := by
  unfold State.issueWord
  simp only [s.canIssue_ok hi, h]

/-- A word that fails a check of R42 faults. -/
theorem State.issueWord_checked (s : State) (s0 s1 x na : WSlot) (slot : Nat) (f : FInfo) (hi : s.canIssue)
    (hm : s.mergeHold s.sel x.raw = none) (h : s.wordChecks s.sel s.me [s0, s1, x, na] = some (slot, f)) :
    s.issueWord s.sel s0 s1 x na = .next (s.seqFault s.sel slot f) := by
  have h' : s.wordChecks s.sel (s.rc s.sel) [s0, s1, x, na] = some (slot, f) := h
  unfold State.issueWord
  simp only [s.canIssue_ok hi, hm, h']

/-- A slot that broadcasts passes the checks of R42 that do not look at what it broadcasts. -/
theorem broadcasts_passes (r : Raw) (h : broadcasts r = true) :
    r.kind = .x ∧ (∀ c, csrBad c r = false) ∧ privileged r = false ∧ ∀ q, waitsHolds q r = true := by
  obtain ⟨k, op, ops⟩ := r
  simp only [broadcasts, Bool.and_eq_true, Bool.or_eq_true, beq_iff_eq] at h
  obtain ⟨rfl, rfl | rfl⟩ := h
  · exact ⟨rfl, fun _ => rfl, rfl, fun _ => rfl⟩
  · exact ⟨rfl, fun _ => rfl, rfl, fun _ => rfl⟩

/-- What the merge stage does with a word that broadcasts (R18, R29, R50). -/
theorem State.mergeHold_broadcasts (s : State) (r : Raw) (hi : s.canIssue) (h : broadcasts r = true) :
    s.mergeHold s.sel r = if s.me.credit s.clk = false then some (.next (s.setRec s.sel { s.me with life := .waiting s.me.creditWait }))
      else if 0 < s.litBusy then some (.refused (.notEnabled "a literal occupies the frame")) else none := by
  obtain ⟨-, -, -, -, hflag⟩ := hi
  have hflag' : (s.rc s.sel).seqFlag = none := hflag
  obtain ⟨-, -, -, hwaits⟩ := broadcasts_passes r h
  have hcredit : s.me.credit s.clk = (s.rc s.sel).credit s.clk := rfl
  unfold State.mergeHold
  dsimp only
  split
  · next f hf =>
    rw [hflag'] at hf
    cases hf
  · rw [hwaits, h, hcredit]
    cases (s.rc s.sel).credit s.clk
    · rfl
    · simp

/-- The checks of R42 on a word that broadcasts: the index (R67), then the tokens (R112). -/
theorem State.wordChecks_broadcasts (s : State) (r : Raw) (fx : SeqMeaning) (hsel : s.sel < 16) (h : broadcasts r = true) :
    (bcastIdxOk s.me r = false → s.wordChecks s.sel s.me [⟨.nop, slS0, fxNone⟩, ⟨.nop, slS1, fxNone⟩, ⟨r, slX, fx⟩, ⟨.seq, slNA, fxNone⟩]
      = some (slX, cILLBUNDLE, 0, noInfo))
    ∧ (bcastIdxOk s.me r = true → s.tokenFault s.me r = true →
      s.wordChecks s.sel s.me [⟨.nop, slS0, fxNone⟩, ⟨.nop, slS1, fxNone⟩, ⟨r, slX, fx⟩, ⟨.seq, slNA, fxNone⟩]
      = some (slX, cTOKOWN, 0, noInfo)) := by
  obtain ⟨hk, hcsr, hpriv, -⟩ := broadcasts_passes r h
  have hne : s.sel ≠ ateIdx := by simp only [ateIdx]; omega
  obtain ⟨ncsr, nidx, npriv, nrft, -⟩ := blankSlot_checks s s.sel s.me .nop (.inl rfl)
  obtain ⟨qcsr, qidx, qpriv, qrft, -⟩ := blankSlot_checks s s.sel s.me .seq (.inr (.inr (.inl rfl)))
  have slots : slS0 ≠ slNA ∧ slS1 ≠ slNA ∧ slX ≠ slNA ∧ slS0 ≠ slX ∧ slS1 ≠ slX := by decide
  obtain ⟨h0, h1, hx, h0x, h1x⟩ := slots
  have hna : (SlotKind.x == SlotKind.na) = false := rfl
  constructor
  · intro hidx
    simp [State.wordChecks, h0, h1, hx, hne, hcsr, ncsr, qcsr, nidx, hidx]
  · intro hidx htok
    simp [State.wordChecks, h0, h1, hx, h0x, h1x, hne, hcsr, hk, hna, ncsr, qcsr, nidx, qidx, hidx, hpriv, npriv, qpriv, nrft, qrft, htok]

/-- A word that broadcasts with credit and whose checks fail faults in slot X. -/
theorem State.issueSlot_broadcastFaults (s : State) (r : Raw) (fx : SeqMeaning) (code : Nat) (hi : s.canIssue) (hleg : r.legal = true)
    (h : broadcasts r = true) (hlit : s.litBusy = 0) (hcred : s.me.credit s.clk = true) (hcode : code < 0x10)
    (hchk : s.wordChecks s.sel s.me [⟨.nop, slS0, fxNone⟩, ⟨.nop, slS1, fxNone⟩, ⟨r, slX, fx⟩, ⟨.seq, slNA, fxNone⟩]
      = some (slX, code, 0, noInfo)) :
    s.faultsWith (s.issueSlot r fx) code 0x00 2 none := by
  have hmerge : s.mergeHold s.sel r = none := by
    rw [s.mergeHold_broadcasts r hi h, hcred, hlit]
    rfl
  rw [s.issueSlot_xSlot r fx (broadcasts_passes r h).1 hleg, s.issueWord_checked _ _ _ _ slX (code, 0, noInfo) hi hmerge hchk]
  have hpage : code ≠ cPAGE := by simp only [cPAGE]; omega
  exact s.seqFault_faultsWith slX (code, 0, noInfo) hi hpage (by show code < 256; omega) (by show 0 < 256; omega) (by decide)

/-- A word that broadcasts and that the merge stage does not take now (R18, R29, R50). -/
theorem State.issueSlot_broadcastHeld (s : State) (r : Raw) (fx : SeqMeaning) (hi : s.canIssue) (hleg : r.legal = true)
    (h : broadcasts r = true) :
    (s.me.credit s.clk = false → s.issueSlot r fx = .next (s.setRec s.sel { s.me with life := .waiting s.me.creditWait }))
    ∧ (s.me.credit s.clk = true → 0 < s.litBusy → s.issueSlot r fx = .refused (.notEnabled "a literal occupies the frame")) := by
  have hmerge := s.mergeHold_broadcasts r hi h
  rw [s.issueSlot_xSlot r fx (broadcasts_passes r h).1 hleg]
  refine ⟨fun hcred => ?_, fun hcred hlit => ?_⟩
  · rw [if_pos hcred] at hmerge
    exact s.issueWord_held _ _ _ _ _ hi hmerge
  · rw [hcred, if_neg Bool.noConfusion, if_pos hlit] at hmerge
    exact s.issueWord_held _ _ _ _ _ hi hmerge

end Sys2Proof.Machine

open Sys2Proof Sys2Proof.Machine in
/-- Settles O21: what a word that broadcasts answers is decided by the merge stage (`issueSlot_broadcastHeld`) or by the checks of R42
(`wordChecks_broadcasts`, `issueSlot_broadcastFaults`), before its slot has effect. -/
theorem bcastHeldOrFaults : Obligations.BcastHeldOrFaults := by
  refine ⟨fun i s r hform hr hi hleg => ?_, fun rep idx s r hr hi hleg hlit hcred => ?_, fun s r hr hi hleg hlit hcred htok => ?_⟩
  · have hrun : broadcasts r = true ∧ ∃ fx, exec i s = s.issueSlot r fx := by
      obtain rfl | ⟨rep, idx, rfl⟩ := hform
      · obtain rfl : Raw.mk .x 2 [] = r := Option.some.inj hr
        exact ⟨rfl, fxLit, rfl⟩
      · obtain rfl : Raw.mk .x 1 [rep, idx] = r := Option.some.inj hr
        exact ⟨rfl, fxBcast rep idx, rfl⟩
    obtain ⟨hb, fx, hexec⟩ := hrun
    obtain ⟨hwait, hrefuse⟩ := s.issueSlot_broadcastHeld r fx hi hleg hb
    rw [hexec]
    exact ⟨hwait, fun hcred hlit => ⟨_, hrefuse hcred hlit⟩⟩
  · obtain rfl : Raw.mk .x 1 [rep, idx] = r := Option.some.inj hr
    obtain ⟨hbad, htoken⟩ := s.wordChecks_broadcasts _ (fxBcast rep idx) hi.1 (rfl : broadcasts ⟨.x, 1, [rep, idx]⟩ = true)
    refine ⟨fun hsize hnop => ?_, fun hidx htok => ?_⟩
    · have hout : bcastIdxOk s.me ⟨.x, 1, [rep, idx]⟩ = false := by
        simp [bcastIdxOk, nopIdx, hnop, hsize]
      exact s.issueSlot_broadcastFaults _ (fxBcast rep idx) cILLBUNDLE hi hleg rfl hlit hcred (by decide) (hbad hout)
    · have hin : bcastIdxOk s.me ⟨.x, 1, [rep, idx]⟩ = true := by simpa [bcastIdxOk, nopIdx] using hidx
      have htf : s.tokenFault s.me ⟨.x, 1, [rep, idx]⟩ = true := by
        unfold State.tokenFault
        exact Bool.or_eq_true_iff.mpr (.inr (bne_iff_ne.mpr htok))
      exact s.issueSlot_broadcastFaults _ (fxBcast rep idx) cTOKOWN hi hleg rfl hlit hcred (by decide) (htoken hin htf)
  · obtain rfl : Raw.mk .x 2 [] = r := Option.some.inj hr
    obtain ⟨-, htoken⟩ := s.wordChecks_broadcasts _ fxLit hi.1 (rfl : broadcasts ⟨.x, 2, []⟩ = true)
    have htf : s.tokenFault s.me ⟨.x, 2, []⟩ = true := by
      unfold State.tokenFault
      exact Bool.or_eq_true_iff.mpr (.inr (bne_iff_ne.mpr htok))
    exact s.issueSlot_broadcastFaults _ fxLit cTOKOWN hi hleg rfl hlit hcred (by decide) (htoken rfl htf)
end

section
set_option Elab.async false

namespace Sys2Proof.Machine

/-! ## Frames that arrive (R26, R328, R422) -/

/-- What the notice of a mark leaves of a die. -/
theorem DieCtx.noticeMark_rest (x : DieCtx) (m : BitVec 48) :
    x.noticeMark m = { x with sinceMark := (x.noticeMark m).sinceMark, sinceStores := (x.noticeMark m).sinceStores
                              atMark := (x.noticeMark m).atMark, dlyMark := (x.noticeMark m).dlyMark, markAsk := (x.noticeMark m).markAsk } := by
  unfold DieCtx.noticeMark
  dsimp only
  split
  · rfl
  split
  · split <;> rfl
  · rfl

/-- A die once item f has arrived, with the items fs still on their way. -/
def State.frameTaken (s : State) (c d : Nat) (fs : List (Nat × Frame)) : Frame → DieCtx → DieCtx
  | .bundle e, x => { x with frames := fs, q := x.q ++ [e] }
  | .red id, x =>
    let x := { x with frames := fs }
    if s.samples c d id then { x with redAsk := x.redAsk ++ [id] } else x
  | .mark m, x => ({ x with frames := fs } : DieCtx).noticeMark m

/-- An item that is due arrives. -/
theorem exec_broadcastFrameArrival (c d sent : Nat) (s : State) (f : Frame) (fs : List (Nat × Frame)) (hc : c < 16) (hd : d < 32)
    (hf : (s.dctx c d).frames = (sent, f) :: fs) (ha : s.asleep = false) (hdue : sent + 36 ≤ s.clk) :
    exec (.broadcastFrameArrival c d) s = .next (s.updDctx c d (s.frameTaken c d fs f)) := by
  have hunit : ¬(16 ≤ c ∨ 32 ≤ d) := by omega
  have hnow : ¬ s.clk < sent + 36 := by omega
  change execBroadcastFrameArrival c d s = _
  unfold execBroadcastFrameArrival
  simp only [hunit, ha, hf, hnow, if_false, Bool.false_eq_true]
  cases f <;> rfl

/-- What the arrival of an item leaves of a die. -/
theorem State.frameTaken_rest (s : State) (c d : Nat) (fs : List (Nat × Frame)) (f : Frame) (x : DieCtx) :
    (s.frameTaken c d fs f x).frames = fs ∧ (s.frameTaken c d fs f x).cells = x.cells ∧ (s.frameTaken c d fs f x).e = x.e
    ∧ ((∀ e, f ≠ .bundle e) → (s.frameTaken c d fs f x).q = x.q) := by
  cases f with
  | bundle e => exact ⟨rfl, rfl, rfl, fun h => absurd rfl (h e)⟩
  | red id =>
    simp only [State.frameTaken]
    split <;> exact ⟨rfl, rfl, rfl, fun _ => rfl⟩
  | mark m =>
    rw [State.frameTaken, DieCtx.noticeMark_rest]
    exact ⟨rfl, rfl, rfl, fun _ => rfl⟩

/-- A die with an item on its way belongs to a record of the state. -/
theorem State.frames_lt (s : State) (c d : Nat) (h : (s.dctx c d).frames ≠ []) : c < s.recs.length := by
  by_contra hc
  have hrc : s.rc c = .reset := by simp [State.rc, List.getD, List.getElem?_eq_none (by omega : s.recs.length ≤ c)]
  exact h (by rw [State.dctx, hrc]; rfl)

/-- The notice of a mark that the die has not passed and does not stand at: it stands at it, or will. -/
theorem DieCtx.noticeMark_new (x : DieCtx) (m : BitVec 48) (hp : x.passed ≠ m) (ha : x.atMark ≠ some m) :
    (x.e - 1 = m → x.dly = 0 → (x.noticeMark m).atMark = some m) ∧ (x.e - 1 ≠ m → (x.noticeMark m).markAsk = x.markAsk ++ [m]) := by
  have hnew : ¬(x.passed = m ∨ x.atMark = some m) := not_or.mpr ⟨hp, ha⟩
  unfold DieCtx.noticeMark
  dsimp only
  rw [if_neg hnew]
  constructor
  · intro he hdly
    rw [if_pos he, if_pos hdly]
  · intro he
    rw [if_neg he]

/-! ## The head of a decode queue -/

/-- A check that stops nothing, and those after it. -/
theorem ite_some_eq_none {α : Type} {p : Prop} [Decidable p] {a : α} {b : Option α} :
    (if p then some a else b) = none ↔ ¬p ∧ b = none := by
  by_cases h : p <;> simp [h]

/-- A die that can take a bundle of a context. -/
theorem State.cannotBundle_none {s : State} {c d : Nat} (h : s.cannotBundle c d = none) :
    c < 16 ∧ (s.rc c).slot.isSome = true ∧ s.asleep = false ∧ (s.dctx c d).hold = none := by
  unfold State.cannotBundle at h
  obtain ⟨hreach, h⟩ := ite_some_eq_none.mp h
  obtain ⟨hstop, h⟩ := ite_some_eq_none.mp h
  obtain ⟨hhold, -⟩ := ite_some_eq_none.mp h
  simp only [not_or, Bool.not_eq_true] at hreach hstop hhold
  obtain ⟨hc, hslot, -⟩ := hreach
  exact ⟨by omega, by simpa using hslot, hstop.2, by simpa [State.dctx] using hhold⟩

/-- A head bundle that does not wait leaves its queue. -/
theorem State.takenHead_eq (s : State) (c d used : Nat) (h : (s.dctx c d).hold = none) :
    s.takenHead c d used = s.updDctx c d (fun y => { y with q := popBundle y.q, cycAt := s.clk + 1, cycSlots := used }) := by
  have hwait : ¬((s.dctx c d).hold = some .wait ∨ (s.dctx c d).hold = some .waitf) := by simp [h]
  rw [State.takenHead, if_neg hwait]

/-- A head bundle that does not decode is flagged (R63). -/
theorem State.issueHead_illegal {s : State} {c d : Nat} {e : QEntry} {es : List QEntry} {why : DecodeError} (hcan : s.cannotBundle c d = none)
    (hq : (s.dctx c d).q = e :: es) (hy : s.mustYield c d e = none) (hdec : decodeBundle ((s.rc c).bundleBits e.idx e.lit) = .error why) :
    s.issueHead c d = .next ((s.dieFault c d (s.dctx c d).e (cILLBUNDLE, 0, noInfo)).takenHead c d ((s.rc c).entryUsed e)) := by
  unfold State.issueHead
  simp only [hcan, hq, hy, hdec]

/-- A head bundle whose issue answers a state leaves its queue. -/
theorem State.issueHead_issues {s t : State} {c d : Nat} {e : QEntry} {es : List QEntry} {b : Bundle} (hcan : s.cannotBundle c d = none)
    (hq : (s.dctx c d).q = e :: es) (hy : s.mustYield c d e = none) (hdec : decodeBundle ((s.rc c).bundleBits e.idx e.lit) = .ok b)
    (hb : s.issueBundle c d (s.dctx c d).e e.diemask e.cellmask (bundleSlotsOf b) = .next t) :
    s.issueHead c d = .next (t.takenHead c d ((s.rc c).entryUsed e)) := by
  unfold State.issueHead
  simp only [hcan, hq, hy, hdec, hb]

/-- BUNDLE_ISSUE of a die that the package has. -/
theorem exec_bundleIssue (c d : Nat) (s : State) (hc : c < 16) (hd : d < 32) : exec (.bundleIssue c d) s = s.issueHead c d := by
  change execBundleIssue c d s = _
  rw [execBundleIssue, if_neg (by omega)]

/-- The selected die in a state with the same selection. -/
theorem State.myDie_of_sel {s t : State} (hsel : t.sel = s.sel) (hdie : t.selDie = s.selDie) : t.myDie = t.dctx s.sel s.selDie := by
  rw [State.myDie, hsel, hdie]

/-! ## A bundle with no slot (R62, R82)

It does in the cells what a bundle of one slot without effect does, for which MARK's slot stands. -/

/-- A slot that does nothing in the cells. -/
def inertSlot : Raw := ⟨.ct, 4, []⟩

/-- The state after a bundle with no slot that reaches the cells ls. -/
def State.emptyDone (s : State) (ls : List Nat) : State :=
  let t := s.lanesDone inertSlot {} (fun _ => {}) s ls
  let t := ls.foldl (fun (t : State) l => t.discardAhead s.sel s.selDie l s.nextId s.myDie.e (s.myDie.rereads [] s.myDie.e l))
    (t.idleCells s.sel s.selDie s.myDie.e ls)
  t.updDctx s.sel s.selDie (fun x => x.issued s.myDie.e (s.myDie.markAsk.contains s.myDie.e) 0 1 none)

theorem State.laneFx_inert (s : State) (l : Nat) : s.laneFx inertSlot (fun _ => {}) l = {} := by
  unfold State.laneFx
  split <;> rfl

theorem State.underwaits_inert (s : State) (l : Nat) : s.underwaits inertSlot l = false := by
  have hreads : cellReads (s.at l).core inertSlot (s.lanesOf inertSlot l) = [] := by
    unfold cellReads
    split <;> rfl
  unfold State.underwaits cellReadsPending
  rw [hreads]
  rfl

theorem State.emptyReads_none (s : State) (r : Raw) (l : Nat) : s.emptyReads r {} l = false := Bool.and_false _

/-- A slot without effects leaves of a cell what no slot leaves. -/
theorem State.cellEffects_nil (t : State) (c d l : Nat) (ein : BitVec 48) :
    t.cellEffects c d l ein [] false false false = t.cellEffects c d l ein [{}] false false false := rfl

/-- The effects of no slot on the cells of a bundle. -/
theorem State.lanesDone_inert (s : State) (ls : List Nat) (t : State) :
    ls.foldl (fun (t : State) l => t.cellEffects s.sel s.selDie l s.myDie.e [] false false false) t
      = s.lanesDone inertSlot {} (fun _ => {}) t ls := by
  refine List.foldl_ext _ _ _ (fun t l _ => ?_)
  rw [s.laneFx_inert, s.underwaits_inert, s.emptyReads_none, t.cellEffects_nil]
  rfl

theorem roomFor_nil (r : Rec) (d : Nat) (ein : BitVec 48) (cells : List Nat) : roomFor r d ein cells [] = true := by
  simp [roomFor]

theorem runBundle_nil (c d : Nat) (r : Rec) (dx : DieCtx) (ein : BitVec 48) (cells : List Nat) (s : State) :
    runBundle c d r dx ein [] cells [] s = .ok (s, []) := rfl

/-- Issuing a bundle with no slot. -/
theorem State.issueBundle_nil (s : State) (dm : BitVec 32) (cm : Word) (hmark : s.myDie.sinceMark < 1024) (hstores : s.myDie.sinceStores ≤ 128) :
    s.issueBundle s.sel s.selDie s.myDie.e dm cm [] = .next (s.emptyDone (activeCells s.me s.selDie dm cm)) := by
  have hlim : ((!(s.myDie.markAsk.contains s.myDie.e) && decide (1024 ≤ s.myDie.sinceMark)) || decide (128 < s.myDie.sinceStores + 0)) = false := by
    have h1 : ¬1024 ≤ s.myDie.sinceMark := by omega
    have h2 : ¬128 < s.myDie.sinceStores + 0 := by omega
    rw [decide_eq_false h1, decide_eq_false h2, Bool.and_false]
    rfl
  have hlanes := s.lanesDone_inert (activeCells s.me s.selDie dm cm) s
  have m1 : s.rc s.sel = s.me := rfl
  have m2 : s.me.die s.selDie = s.myDie := rfl
  have hillegal : bundleIllegal s.me s.myDie [] = false := rfl
  have hstores : gatedCount s s.sel s.selDie (activeCells s.me s.selDie dm cm) [] = 0 := rfl
  have hmx : s.mxRoom s.sel s.selDie (activeCells s.me s.selDie dm cm) [] = true := rfl
  unfold State.issueBundle
  simp only [m1, m2, List.map_nil, List.any_nil, Bool.false_or, hillegal, Bool.false_eq_true, if_false, hstores, hlim, List.findSome?_nil, roomFor_nil,
    Bool.not_true, hmx, runBundle_nil, List.foldl_nil]
  have heff : ∀ l, effectsOf [] l = [] := fun _ => rfl
  have huw : ((activeCells s.me s.selDie dm cm).any fun l => tbit (s.cell s.sel s.selDie l).core.cctl 8 && false) = false := by simp
  simp only [heff, hlanes, huw, Bool.false_eq_true, if_false]
  rfl

/-- What a bundle with no slot leaves: the position has passed in every cell of the die, the die is at its next bundle, and the rest of the
machine stands. -/
structure EmptyLeaves (s t : State) : Prop where
  mem : t.mem = s.mem
  sel : t.sel = s.sel
  selDie : t.selDie = s.selDie
  dies : t.dies = s.dies
  nextId : t.nextId = s.nextId
  length : t.recs.length = s.recs.length
  others : ∀ k, k ≠ s.sel → t.rc k = s.rc k
  rest : (t.rc s.sel).rest = s.me.rest
  reqs : (t.rc s.sel).reqs = s.me.reqs
  cells : ∀ l, t.cell s.sel s.selDie l = { s.at l with core := (s.at l).core.endPos }
  die : (t.dctx s.sel s.selDie).bare = (s.myDie.issued s.myDie.e (s.myDie.markAsk.contains s.myDie.e) 0 1 none).bare

theorem State.emptyDone_leaves (s : State) (ls : List Nat) (hn : ls.Nodup) (hc : s.sel < s.recs.length) : EmptyLeaves s (s.emptyDone ls) := by
  obtain ⟨a1, a2, a3, a4, -, a6, a7, -, -, a10, -, a12, a13⟩ := s.lanesDone_facts inertSlot {} (fun _ => {}) ls s hn hc
  obtain ⟨breqs, bid, bdies⟩ := a10 (fun l _ => by rw [s.laneFx_inert])
  let t1 := s.lanesDone inertSlot {} (fun _ => {}) s ls
  let t2 := t1.idleCells s.sel s.selDie s.myDie.e ls
  let t3 := ls.foldl (fun (t : State) l => t.discardAhead s.sel s.selDie l s.nextId s.myDie.e (s.myDie.rereads [] s.myDie.e l)) t2
  have hc1 : s.sel < t1.recs.length := a1 ▸ hc
  have hlen2 : t2.recs.length = t1.recs.length := t1.updDctx_length ..
  have h3 : SameButAhead s.sel s.selDie t2 t3 := State.discardAll_same s.sel s.selDie s.nextId s.myDie.e _ ls t2 (hlen2 ▸ hc1)
  have hc3 : s.sel < t3.recs.length := by rw [h3.length, hlen2]; exact hc1
  have hT : s.emptyDone ls
      = t3.updDctx s.sel s.selDie (fun x => x.issued s.myDie.e (s.myDie.markAsk.contains s.myDie.e) 0 1 none) := rfl
  have hrc := t3.rc_updDctx_self s.sel s.selDie (fun x => x.issued s.myDie.e (s.myDie.markAsk.contains s.myDie.e) 0 1 none) hc3
  have hdctx := t3.dctx_updDctx_self s.sel s.selDie (fun x => x.issued s.myDie.e (s.myDie.markAsk.contains s.myDie.e) 0 1 none) hc3
  have hrc2 := t1.rc_updDctx_self s.sel s.selDie (fun x => x.passCells s.myDie.e (fun l => !ls.contains l)) hc1
  have hpass : ∀ l, t1.cell s.sel s.selDie l = if l ∈ ls then { s.at l with core := (s.at l).core.endPos } else s.at l := by
    intro l
    split
    next hl =>
      obtain ⟨id, hid⟩ := a7 l hl
      have hcell : t1.cell s.sel s.selDie l = _ := hid
      rw [hcell, s.laneFx_inert, s.underwaits_inert]
      exact Cell.afterBundle_writes (s.at l) [] id false false
    next hl => exact a6 l hl
  constructor
  · exact h3.mem.trans a2
  · exact h3.sel.trans a12
  · exact h3.selDie.trans (s.lanesDone_selDie inertSlot {} (fun _ => {}) ls s)
  · exact h3.dies.trans bdies
  · exact h3.nextId.trans bid
  · rw [hT, State.updDctx_length, h3.length, hlen2]
    exact a1
  · intro k hk
    rw [hT, t3.rc_updDctx_ne _ _ _ _ hk, h3.others k hk]
    exact (t1.rc_updDctx_ne _ _ _ _ hk).trans (a3 k hk)
  · rw [hT, hrc]
    exact h3.rest.trans ((congrArg Rec.rest hrc2).trans a4)
  · rw [hT, hrc]
    exact h3.reqs.trans ((congrArg Rec.reqs hrc2).trans breqs)
  · intro l
    have hcells : (s.emptyDone ls).cell s.sel s.selDie l = t3.cell s.sel s.selDie l := by
      rw [State.cell, hT, hdctx]
      rfl
    have hidle := t1.idleCells_cell s.sel s.selDie l s.myDie.e ls hc1
    rw [hcells, h3.cell s.selDie l, hidle, hpass l]
    by_cases hl : l ∈ ls <;> simp [hl]
  · rw [hT, hdctx]
    have hidle := t1.idleCells_die s.sel s.selDie s.myDie.e ls hc1
    refine DieCtx.issued_bare _ _ _ _ _ _ _ ?_
    rw [DieCtx.bare_of_settled h3.near, ← DieCtx.bare_settled (t2.dctx s.sel s.selDie), hidle]
    exact a13

/-! ## A bundle of one slot at the head of a decode queue -/

theorem decodeSlot_kind {k : SlotKind} {w : Nat} {r : Raw} (h : decodeSlot k w = .ok (some r)) : r.kind = k := by
  unfold decodeSlot at h
  split at h
  · split at h <;> cases h
  · split at h
    next r' hr =>
      cases h
      unfold decodeRaw at hr
      split at hr
      · cases hr
      · dsimp only at hr
        split at hr
        · cases hr
        · split at hr
          · cases hr
          · split at hr
            · cases hr
              rfl
            · cases hr
    · cases h

/-- The slots of a bundle that decodes hold rows of their kinds; none but the CT slot holds a CT row (R63, R71). -/
theorem decodeBundle_noCt {w : Nat} {b : Bundle} (h : decodeBundle w = .ok b) (r : Raw) (hr : r.kind = .ct) :
    b.v0 ≠ some r ∧ b.v1 ≠ some r ∧ b.mx ≠ some r ∧ b.ls ≠ some r ∧ b.xf ≠ some r := by
  have hslot : ∀ {k : SlotKind} {w : Nat} {o : Option Raw}, decodeSlot k w = .ok o → k ≠ .ct → o ≠ some r := by
    rintro k w _ hd hk rfl
    exact hk ((decodeSlot_kind hd).symm.trans hr)
  have hv1 : v1Kind (fld w 256 64) ≠ .ct := by
    unfold v1Kind
    split <;> decide
  unfold decodeBundle at h
  split at h
  next v0 v1 mx ls xf ct h0 h1 h2 h3 h4 h5 =>
    cases h
    exact ⟨hslot h0 (by decide), hslot h1 hv1, hslot h2 (by decide), hslot h3 (by decide), hslot h4 (by decide)⟩
  all_goals cases h

/-- The slots of a bundle that decodes and holds one CT slot alone. -/
theorem bundleSlotsOf_ct {w : Nat} {b : Bundle} {r : Raw} (h : decodeBundle w = .ok b) (hone : b.single = some r) (hr : r.kind = .ct) :
    bundleSlotsOf b = [⟨r, slotNo r.kind, cellFxOf r⟩] := by
  obtain ⟨n0, n1, n2, n3, n4⟩ := decodeBundle_noCt h r hr
  obtain ⟨v0, v1, mx, ls, xf, ct⟩ := b
  unfold Bundle.single at hone
  split at hone
  · exact absurd ‹v0 = _› (hone ▸ n0)
  · exact absurd ‹v1 = _› (hone ▸ n1)
  · exact absurd ‹mx = _› (hone ▸ n2)
  · exact absurd ‹ls = _› (hone ▸ n3)
  · exact absurd ‹xf = _› (hone ▸ n4)
  next i e0 e1 e2 e3 e4 e5 =>
    obtain rfl := Option.some.inj hone
    simp only at e0 e1 e2 e3 e4 e5
    subst e0 e1 e2 e3 e4 e5
    rw [hr]
    rfl
  · cases hone

/-- An update of a die that keeps what it waits for. -/
theorem State.hold_updDctx (s : State) (c d : Nat) (f : DieCtx → DieCtx) (hf : ∀ x, (f x).hold = x.hold) :
    ((s.updDctx c d f).dctx c d).hold = (s.dctx c d).hold := by
  by_cases hc : c < s.recs.length
  · rw [s.dctx_updDctx_self c d f hc, hf]
  · have hrecs : (s.updDctx c d f).recs = s.recs := List.set_eq_of_length_le (by omega)
    simp only [State.dctx, State.rc, hrecs]

/-- What `issueLane` answers of a bundle that waits for nothing is what its bundle does. -/
theorem State.issueBundle_of_issueLane {s t : State} {r : Raw} {fx : SlotMeaning} (hc : s.canBundle r) (h : s.issueLane r fx = .next t)
    (hhold : (t.dctx s.sel s.selDie).hold = none) :
    s.issueBundle s.sel s.selDie s.myDie.e s.core.diemask s.core.cellmask [⟨r, slotNo r.kind, fx⟩] = .next t := by
  have hl := hc.sel_lt
  obtain ⟨hcan, hleg, -⟩ := hc
  change s.issueBundle s.sel s.selDie (s.dctx s.sel s.selDie).e (s.rc s.sel).core.diemask (s.rc s.sel).core.cellmask _ = _
  unfold State.issueLane at h
  simp only [hcan, hleg, Bool.not_true, Bool.false_eq_true, if_false] at h
  generalize s.issueBundle s.sel s.selDie _ _ _ _ = out at h ⊢
  cases out with
  | refused why => cases h
  | fault f => cases h
  | next u =>
    dsimp only at h
    split at h
    next hwait =>
      cases h
      rw [State.hold_updDctx _ _ _ _ (by exact fun _ => rfl)] at hhold
      rcases hwait with hw | hw <;> cases hw.symm.trans hhold
    · exact h

/-! ## The end of a wait (R402, R403) -/

theorem activeCells_nodup (r : Rec) (d : Nat) (dm : BitVec 32) (cm : Word) : (activeCells r d dm cm).Nodup := by
  unfold activeCells
  split
  · exact List.Nodup.filter _ List.nodup_range
  · exact List.nodup_nil

/-- The state in which the bundle that waited at the head of the selected queue issues. -/
def State.unheld (s : State) : State := s.updDctx s.sel s.selDie (fun x => { x with hold := none })

/-- Ending a wait changes nothing else. -/
theorem State.unheld_facts (s : State) (hl : s.sel < s.recs.length) :
    s.unheld.myDie = { s.myDie with hold := none } ∧ s.unheld.core = s.core ∧ s.unheld.me.reqs = s.me.reqs ∧ s.unheld.me.win = s.me.win
    ∧ s.unheld.me.group = s.me.group ∧ ∀ l, s.unheld.at l = s.at l := by
  have hme : s.unheld.me = s.me.setDie s.selDie { s.myDie with hold := none } := s.rc_updDctx_self s.sel s.selDie _ hl
  have hdie : s.unheld.myDie = { s.myDie with hold := none } := s.dctx_updDctx_self s.sel s.selDie _ hl
  refine ⟨hdie, by rw [State.core, hme]; rfl, by rw [hme]; rfl, by rw [hme]; rfl, by rw [hme]; rfl, fun l => ?_⟩
  exact congrArg (fun x => x.cell l) hdie

/-- Ending a wait reaches the same cells. -/
theorem State.unheld_myCells (s : State) (hl : s.sel < s.recs.length) : s.unheld.myCells = s.myCells := by
  obtain ⟨-, hcore, -, -, hgroup, -⟩ := s.unheld_facts hl
  unfold State.myCells activeCells
  rw [hcore, hgroup]
  rfl

/-- The state after a head bundle that does not wait has left its queue. -/
theorem State.takenHead_leaves {s t : State} {used : Nat} (hsel : t.sel = s.sel) (hdie : t.selDie = s.selDie)
    (hl : s.sel < t.recs.length) (hhold : (t.dctx s.sel s.selDie).hold = none) :
    ∃ u, t.takenHead s.sel s.selDie used = u ∧ u.sel = s.sel ∧ u.selDie = s.selDie ∧ u.mem = t.mem ∧ u.dies = t.dies ∧ u.nextId = t.nextId
      ∧ (∀ k, k ≠ s.sel → u.rc k = t.rc k) ∧ u.core = (t.rc s.sel).core ∧ u.me.reqs = (t.rc s.sel).reqs
      ∧ u.myDie = { t.dctx s.sel s.selDie with q := popBundle (t.dctx s.sel s.selDie).q, cycAt := t.clk + 1, cycSlots := used } := by
  refine ⟨_, t.takenHead_eq _ _ _ hhold, hsel, hdie, rfl, rfl, rfl, fun k hk => t.rc_updDctx_ne _ _ _ _ hk, ?_, ?_, ?_⟩
  · rw [State.core, State.me, State.updDctx_sel, hsel, t.rc_updDctx_self _ _ _ hl]
    rfl
  · rw [State.me, State.updDctx_sel, hsel, t.rc_updDctx_self _ _ _ hl]
    rfl
  · exact (State.myDie_of_sel (s := s) (t := t.updDctx _ _ _) hsel hdie).trans (t.dctx_updDctx_self _ _ _ hl)

/-- A bundle leaves the record of its context in the state. -/
theorem BundleLeaves.sel_lt {s t : State} {r : Raw} {fx : SlotMeaning} {F : Nat → CellFx} (h : BundleLeaves s r fx F t)
    (hs : s.me.slot.isSome = true) : s.sel < t.recs.length := by
  have hslot : (t.rc s.sel).slot = s.me.slot := (congrArg Rec.slot h.rest :)
  exact t.rc_lt s.sel (hslot ▸ hs)

/-- The end of a wait: the bundle of the CT slot r at the head of the queue holds no longer, and acts in the cells alone. -/
theorem State.endWait_ends {s : State} {e : QEntry} {es : List QEntry} {b : Bundle} {r : Raw} {h : Hold}
    {H : GroupEnv → State → Option Hold} {C : CellEnv → State → Except FInfo (State × CellFx)} (F : Nat → CellFx)
    (hd : s.selDie < 32) (hh : s.myDie.hold = some h) (hq : s.myDie.q = e :: es) (hdm : e.diemask = s.core.diemask) (hcm : e.cellmask = s.core.cellmask)
    (hdec : decodeBundle (s.me.bundleBits e.idx e.lit) = .ok b) (hone : b.single = some r) (hk : r.kind = .ct)
    (hfx : cellFxOf r = { hold := H, cell := C }) (hc : s.unheld.canBundle r) (hy : s.unheld.mustYield s.sel s.selDie e = none)
    (hfree : H (s.unheld.genv r) s.unheld = none)
    (hcell : ∀ l ∈ s.unheld.myCells, C (s.unheld.env r l) s.unheld = .ok (s.unheld, F l)) :
    ∃ t, s.endWait s.sel s.selDie h = .next t ∧ t.myDie.hold = none ∧ t.myDie.q = popBundle (e :: es) ∧ s.advanced t ∧ t.mem = s.mem := by
  have hlu := hc.sel_lt
  have hl : s.sel < s.recs.length := by simpa [State.unheld] using hlu
  obtain ⟨hdie, hcore, -⟩ := s.unheld_facts hl
  have hcan := hc.1
  obtain ⟨hsel, hslot, hasleep, -⟩ := State.cannotBundle_none hcan
  let D := s.unheld.bundleDone r { hold := H, cell := C } F
  have hleaves : BundleLeaves s.unheld r { hold := H, cell := C } F D := s.unheld.bundleDone_leaves r _ F hlu
  obtain ⟨hDhold, hDe⟩ := hleaves.goesOn
  have hDq : (D.dctx s.sel s.selDie).q = s.unheld.myDie.q := (congrArg DieCtx.q hleaves.die :)
  have hrun : s.unheld.issueLane r { hold := H, cell := C } = .next D :=
    s.unheld.issueLane_ok r _ F hc (fun l _ _ => Bool.and_false _) hfree rfl (fun l hl _ => hcell l hl)
      ⟨fun hw => (by cases hDhold.symm.trans hw), fun hw => (by cases hDhold.symm.trans hw)⟩
  have hbundle := State.issueBundle_of_issueLane hc hrun hDhold
  rw [hcore, ← hdm, ← hcm, ← hfx, ← bundleSlotsOf_ct hdec hone hk] at hbundle
  have hqu : s.unheld.myDie.q = e :: es := (congrArg DieCtx.q hdie).trans hq
  have hbits : (s.unheld.rc s.sel).bundleBits e.idx e.lit = s.me.bundleBits e.idx e.lit := by
    rw [State.unheld, s.rc_updDctx_self _ _ _ hl]
    rfl
  have hhead := State.issueHead_issues hcan hqu hy (hbits ▸ hdec) hbundle
  obtain ⟨t, ht, htsel, htdie, htmem, -, -, -, -, -, htd⟩ := State.takenHead_leaves (s := s) (used := (s.unheld.rc s.sel).entryUsed e)
    hleaves.sel hleaves.selDie (hleaves.sel_lt hslot) hDhold
  have hthold : t.myDie.hold = none := (congrArg DieCtx.hold htd).trans hDhold
  have hthead : (s.updDctx s.sel s.selDie (fun x => { x with hold := none })).issueHead s.sel s.selDie = .next t :=
    hhead.trans (congrArg _ ht)
  refine ⟨t, ?_, hthold, ?_, ⟨?_, htsel, htdie⟩, htmem.trans hleaves.mem⟩
  · have hunit : ¬(16 ≤ s.sel ∨ 32 ≤ s.selDie) := by
      have : s.sel < 16 := hsel
      omega
    have hawake : s.asleep = false := hasleep
    have hwaits : (s.dctx s.sel s.selDie).hold = some h := hh
    have hgoes : (t.dctx s.sel s.selDie).hold = none := by rw [← State.myDie_of_sel htsel htdie, hthold]
    unfold State.endWait
    simp [hunit, hawake, hwaits, hthead, hgoes]
  · rw [htd]
    exact congrArg popBundle (hDq.trans hqu)
  · rw [htd]
    exact hDe.trans (congrArg (fun x : DieCtx => x.e + 1) hdie :)

/-- The condition of WAITF holds in the cells (R403). -/
theorem waitf_free {s : State} {a imm : Nat}
    (hready : ∀ l ∈ s.myCells, waitfEa (s.at l).core a imm < (s.me.win.ways - (s.at l).core.cways) * 65536
      ∧ waitfEa (s.at l).core a imm % 128 = 0 ∧ s.lineFull s.sel s.selDie l (waitfEa (s.at l).core a imm / 128) = true) :
    (fxWaitf a imm).hold (s.genv ⟨.ct, 2, [a, imm]⟩) s = none
    ∧ ∀ l ∈ s.myCells, (fxWaitf a imm).cell (s.env ⟨.ct, 2, [a, imm]⟩ l) s = .ok (s, {}) := by
  have hok : ∀ l ∈ s.myCells, waitfFault (s.scratchSize s.sel s.selDie l) (waitfEa (s.at l).core a imm) = none := by
    intro l hl
    obtain ⟨hsize, halign, -⟩ := hready l hl
    have hin : ¬ s.scratchSize s.sel s.selDie l ≤ waitfEa (s.at l).core a imm := Nat.not_le.mpr hsize
    rw [waitfFault, if_neg hin, if_neg (not_not.mpr halign)]
  constructor
  · have hfull : (s.myCells.all fun l => (waitfFault (s.scratchSize s.sel s.selDie l) (waitfEa (s.at l).core a imm)).isSome
        || s.lineFull s.sel s.selDie l (waitfEa (s.at l).core a imm / 128)) = true := by
      rw [List.all_eq_true]
      intro l hl
      rw [(hready l hl).2.2, Bool.or_true]
    have hall : ((s.genv ⟨.ct, 2, [a, imm]⟩).cells.all fun p =>
        (waitfFault (s.scratchSize s.sel s.selDie p.1) (waitfEa (s.at p.1).core a imm)).isSome
        || s.lineFull s.sel s.selDie p.1 (waitfEa (s.at p.1).core a imm / 128)) = true := by
      rw [State.genv, groupEnv, List.all_map]
      exact hfull
    exact if_pos (Bool.or_eq_true_iff.mpr (.inr hall))
  · intro l hl
    have hfault : waitfFault (s.env ⟨.ct, 2, [a, imm]⟩ l).scratch (waitfEa (s.env ⟨.ct, 2, [a, imm]⟩ l).q a imm) = none := hok l hl
    simp only [fxWaitf, hfault]

/-- The condition of WAIT holds in the cells (R402). -/
theorem wait_free {s : State} {tk thr : Nat} (hready : ∀ l ∈ s.myCells, tokHolds ((s.at l).core.rTk tk) thr = true) :
    (fxWait tk thr).hold (s.genv ⟨.ct, 1, [tk, thr]⟩) s = none := by
  have hall : ((s.genv ⟨.ct, 1, [tk, thr]⟩).cells.all fun p => tokHolds ((s.at p.1).core.rTk tk) thr) = true := by
    rw [State.genv, groupEnv, List.all_map, List.all_eq_true]
    exact hready
  exact if_pos hall

/-- Ending a wait does not make a line empty. -/
theorem State.unheld_lineFull (s : State) (hl : s.sel < s.recs.length) (l line : Nat) :
    s.unheld.lineFull s.sel s.selDie l line = s.lineFull s.sel s.selDie l line := by
  obtain ⟨-, -, hreqs, -, -, hat⟩ := s.unheld_facts hl
  have hcell : s.unheld.cell s.sel s.selDie l = s.cell s.sel s.selDie l := hat l
  have hown : (s.unheld.rc s.sel).ownBefore s.selDie l s.unheld.nextId = (s.rc s.sel).ownBefore s.selDie l s.nextId :=
    (congrArg (List.filter (fun q : Req => q.org == some (s.selDie, l) && decide (q.id < s.nextId) && q.stage != .performed)) hreqs :)
  unfold State.lineFull
  rw [hcell, hown]

/-! ## The steps of a decode queue -/

/-- BUNDLE_ISSUE of a head bundle that does not decode: the die flags it (R63). -/
theorem State.bundleIssue_illegal {s : State} {e : QEntry} {es : List QEntry} {why : DecodeError} (hcan : s.cannotBundle s.sel s.selDie = none)
    (hd : s.selDie < 32) (hq : s.myDie.q = e :: es) (hy : s.mustYield s.sel s.selDie e = none)
    (hdec : decodeBundle (s.me.bundleBits e.idx e.lit) = .error why) :
    ∃ t, exec (.bundleIssue s.sel s.selDie) s = .next t
      ∧ t.myDie.flag = some (s.bundleFlag 0x02 0 noInfo false) ∧ t.myDie.cells = s.myDie.cells ∧ t.mem = s.mem := by
  obtain ⟨hsel, hslot, -, hhold⟩ := State.cannotBundle_none hcan
  have hl := s.rc_lt s.sel hslot
  have hdie : (s.dieFault s.sel s.selDie s.myDie.e (cILLBUNDLE, 0, noInfo)).dctx s.sel s.selDie
      = { s.myDie with flag := some (s.bundleFlag 0x02 0 noInfo false) } := s.dctx_updDctx_self s.sel s.selDie _ hl
  obtain ⟨t, ht, -, -, htmem, -, -, -, -, -, htd⟩ := State.takenHead_leaves (s := s)
    (t := s.dieFault s.sel s.selDie s.myDie.e (cILLBUNDLE, 0, noInfo)) (used := (s.rc s.sel).entryUsed e) rfl rfl
    (by simpa [State.dieFault] using hl) (by rw [hdie]; exact hhold)
  have hrun := (exec_bundleIssue _ _ s hsel hd).trans (State.issueHead_illegal hcan hq hy hdec)
  exact ⟨t, hrun.trans (congrArg _ ht), by rw [htd, hdie], by rw [htd, hdie], htmem⟩

/-- BUNDLE_ISSUE of an empty head bundle: the position passes (R62). -/
theorem State.bundleIssue_empty {s : State} {e : QEntry} {es : List QEntry} (hcan : s.cannotBundle s.sel s.selDie = none)
    (hd : s.selDie < 32) (hq : s.myDie.q = e :: es) (hy : s.mustYield s.sel s.selDie e = none)
    (hdec : decodeBundle (s.me.bundleBits e.idx e.lit) = .ok {}) (hmark : s.myDie.sinceMark < 1024) (hstores : s.myDie.sinceStores ≤ 128) :
    ∃ t, exec (.bundleIssue s.sel s.selDie) s = .next t ∧ s.advanced t ∧ s.quiet t ∧ t.myDie.q = popBundle (e :: es)
      ∧ ∀ l, t.at l = { s.at l with core := (s.at l).core.endPos } := by
  obtain ⟨hsel, hslot, -, -⟩ := State.cannotBundle_none hcan
  have hl := s.rc_lt s.sel hslot
  let D := s.emptyDone (activeCells s.me s.selDie e.diemask e.cellmask)
  have hleaves : EmptyLeaves s D := s.emptyDone_leaves _ (activeCells_nodup ..) hl
  have hDe : (D.dctx s.sel s.selDie).e = s.myDie.e + 1 := (congrArg DieCtx.e hleaves.die :)
  have hDhold : (D.dctx s.sel s.selDie).hold = none := (congrArg DieCtx.hold hleaves.die :)
  have hDq : (D.dctx s.sel s.selDie).q = s.myDie.q := (congrArg DieCtx.q hleaves.die :)
  have hDcore : (D.rc s.sel).core = s.core := (congrArg Rec.core hleaves.rest :)
  obtain ⟨t, ht, htsel, htdie, htmem, htdies, htid, htrc, htcore, htreqs, htd⟩ := State.takenHead_leaves (s := s) (t := D)
    (used := (s.rc s.sel).entryUsed e) hleaves.sel hleaves.selDie (hleaves.length ▸ hl) hDhold
  have hrun := (exec_bundleIssue _ _ s hsel hd).trans (State.issueHead_issues hcan hq hy hdec (s.issueBundle_nil _ _ hmark hstores))
  refine ⟨t, hrun.trans (congrArg _ ht), ⟨?_, htsel, htdie⟩, ⟨htmem.trans hleaves.mem, htdies.trans hleaves.dies, htcore.trans hDcore,
    htreqs.trans hleaves.reqs, fun k hk => (htrc k hk).trans (hleaves.others k hk), htid.trans hleaves.nextId⟩, ?_, fun l => ?_⟩
  · rw [htd]
    exact hDe
  · rw [htd]
    exact congrArg popBundle (hDq.trans hq)
  · exact (congrArg (fun x : DieCtx => x.cell l) htd :).trans (hleaves.cells l)

/-- The condition of WAITF that holds in the cells holds once the die waits no longer. -/
theorem State.unheld_waitf {s : State} {a imm : Nat} (hl : s.sel < s.recs.length)
    (hready : ∀ l ∈ s.myCells, waitfEa (s.at l).core a imm < (s.me.win.ways - (s.at l).core.cways) * 65536
      ∧ waitfEa (s.at l).core a imm % 128 = 0 ∧ s.lineFull s.sel s.selDie l (waitfEa (s.at l).core a imm / 128) = true) :
    (fxWaitf a imm).hold (s.unheld.genv ⟨.ct, 2, [a, imm]⟩) s.unheld = none
    ∧ ∀ l ∈ s.unheld.myCells, (fxWaitf a imm).cell (s.unheld.env ⟨.ct, 2, [a, imm]⟩ l) s.unheld = .ok (s.unheld, {}) := by
  obtain ⟨-, -, -, hwin, -, hat⟩ := s.unheld_facts hl
  refine waitf_free fun l hmem => ?_
  obtain ⟨hsize, halign, hfull⟩ := hready l (s.unheld_myCells hl ▸ hmem)
  rw [hat, hwin]
  exact ⟨hsize, halign, (s.unheld_lineFull hl l _).trans hfull⟩

/-- So does the condition of WAIT. -/
theorem State.unheld_wait {s : State} {tk thr : Nat} (hl : s.sel < s.recs.length)
    (hready : ∀ l ∈ s.myCells, tokHolds ((s.at l).core.rTk tk) thr = true) :
    (fxWait tk thr).hold (s.unheld.genv ⟨.ct, 1, [tk, thr]⟩) s.unheld = none := by
  obtain ⟨-, -, -, -, -, hat⟩ := s.unheld_facts hl
  refine wait_free fun l hmem => ?_
  rw [hat]
  exact hready l (s.unheld_myCells hl ▸ hmem)

end Sys2Proof.Machine

open Sys2Proof Sys2Proof.Machine in
/-- Settles O47: an arrival is `frameTaken`; a head bundle is flagged (`bundleIssue_illegal`) or lets the position pass
(`bundleIssue_empty`); the end of a wait issues the head bundle, whose condition holds (`endWait_ends`). -/
theorem decodeQueueSteps : Obligations.DecodeQueueSteps := by
  refine ⟨fun c d sent s f fs hc hd hf ha hdue => ?_,
    fun s e es hcan hd hq hy => ⟨fun why hdec => State.bundleIssue_illegal hcan hd hq hy hdec, State.bundleIssue_empty hcan hd hq hy⟩,
    fun i s e es b r h hr hd hh hq hdm hcm hdec hone hcb hy => ⟨?_, ?_⟩⟩
  · have hl := s.frames_lt c d (by rw [hf]; exact List.cons_ne_nil _ _)
    obtain ⟨hframes, hcells, he, hq⟩ := s.frameTaken_rest c d fs f (s.dctx c d)
    refine ⟨_, exec_broadcastFrameArrival c d sent s f fs hc hd hf ha hdue, rfl, ?_⟩
    rw [s.dctx_updDctx_self c d _ hl]
    refine ⟨hframes, hcells, he, ?_, hq, ?_, ?_⟩
    · rintro e rfl
      rfl
    · rintro id rfl hs
      simp only [State.frameTaken, hs, if_true]
    · rintro m rfl hp hm
      exact DieCtx.noticeMark_new { s.dctx c d with frames := fs } m hp hm
  · rintro tk thr rfl rfl hready
    obtain rfl : Raw.mk .ct 1 [tk, thr] = r := Option.some.inj hr
    have hl : s.sel < s.recs.length := by simpa using hcb.sel_lt
    exact State.endWait_ends _ hd hh hq hdm hcm hdec hone rfl rfl hcb hy (State.unheld_wait hl hready) (fun _ _ => rfl)
  · rintro a imm rfl rfl hready
    obtain rfl : Raw.mk .ct 2 [a, imm] = r := Option.some.inj hr
    have hl : s.sel < s.recs.length := by simpa using hcb.sel_lt
    obtain ⟨hfree, hcell⟩ := State.unheld_waitf hl hready
    exact State.endWait_ends _ hd hh hq hdm hcm hdec hone rfl rfl hcb hy hfree hcell
end

section
set_option Elab.async false

namespace Sys2Proof

/-! # Encodings (R41 to R78)

A slot's bits are a sum of pieces that lie apart: the operation code, the fixed fields, the operands. So is a word of its slots, and a
bundle. Each piece is read back from the sum (`fld_pieceBits`); everything else about the encodings follows from the tables. -/

/-- A place of some bits: the lowest and their number. -/
abbrev Span := Nat × Nat

/-- Two places share no bit. -/
def Apart (a b : Span) : Prop := a.1 + a.2 ≤ b.1 ∨ b.1 + b.2 ≤ a.1

/-- A value that stands in a place. -/
structure Piece where
  at_ : Span
  val : Nat

/-- The value has bits of its place alone. -/
def Piece.Fits (p : Piece) : Prop := p.val < 2 ^ p.at_.2

/-- The bits that pieces make together. -/
def pieceBits (ps : List Piece) : Nat := (ps.map fun p => p.val * 2 ^ p.at_.1).sum

theorem pieceBits_nil : pieceBits [] = 0 := rfl

theorem pieceBits_cons (p : Piece) (ps : List Piece) : pieceBits (p :: ps) = p.val * 2 ^ p.at_.1 + pieceBits ps := by
  simp only [pieceBits, List.map_cons, List.sum_cons]

/-- Numbers without a common bit add up to their union. -/
theorem add_eq_or_of_and_eq_zero {a b : Nat} (h : a &&& b = 0) : a + b = a ||| b := by
  have ha : a < 2 ^ (a + b) := (Nat.le_add_right a b).trans_lt Nat.lt_two_pow_self
  have hb : b < 2 ^ (a + b) := (Nat.le_add_left b a).trans_lt Nat.lt_two_pow_self
  have hw : BitVec.ofNat (a + b) a &&& BitVec.ofNat (a + b) b = 0#(a + b) := by
    rw [← BitVec.ofNat_and, h]
  have := congrArg BitVec.toNat (BitVec.add_eq_or_of_and_eq_zero _ _ hw)
  simpa [Nat.mod_eq_of_lt ha, Nat.mod_eq_of_lt hb, Nat.mod_eq_of_lt (Nat.lt_two_pow_self : a + b < 2 ^ (a + b))] using this

/-- A piece has bits in its place alone. -/
theorem Piece.Fits.testBit {p : Piece} (h : p.Fits) {j : Nat} (hj : (p.val * 2 ^ p.at_.1).testBit j = true) :
    p.at_.1 ≤ j ∧ j < p.at_.1 + p.at_.2 := by
  rw [Nat.testBit_mul_two_pow, Bool.and_eq_true, decide_eq_true_eq] at hj
  obtain ⟨hlo, hbit⟩ := hj
  refine ⟨hlo, ?_⟩
  by_contra hhi
  have hval : p.val < 2 ^ (j - p.at_.1) := Nat.lt_of_lt_of_le h (Nat.pow_le_pow_right (by omega) (by omega))
  rw [Nat.testBit_lt_two_pow hval] at hbit
  cases hbit

/-- A bit of the sum is a bit of a piece, where the pieces lie apart. -/
theorem testBit_pieceBits {ps : List Piece} (ha : (ps.map Piece.at_).Pairwise Apart) (hf : ∀ p ∈ ps, p.Fits) (j : Nat) :
    (pieceBits ps).testBit j = true ↔ ∃ p ∈ ps, (p.val * 2 ^ p.at_.1).testBit j = true := by
  induction ps generalizing j with
  | nil => simp [pieceBits]
  | cons p ps ih =>
    obtain ⟨hp, ha⟩ := List.pairwise_cons.mp ha
    have ih := ih ha (fun q hq => hf q (List.mem_cons_of_mem _ hq))
    have hand : p.val * 2 ^ p.at_.1 &&& pieceBits ps = 0 := by
      refine Nat.eq_of_testBit_eq fun i => ?_
      rw [Nat.testBit_and, Nat.zero_testBit, Bool.and_eq_false_imp]
      intro hi
      rw [Bool.eq_false_iff]
      intro hrest
      obtain ⟨q, hq, hqi⟩ := (ih i).mp hrest
      have h1 := (hf p (List.mem_cons_self ..)).testBit hi
      have h2 := (hf q (List.mem_cons_of_mem _ hq)).testBit hqi
      have h3 := hp q.at_ (List.mem_map_of_mem hq)
      unfold Apart at h3
      omega
    have hsum : pieceBits (p :: ps) = p.val * 2 ^ p.at_.1 ||| pieceBits ps := add_eq_or_of_and_eq_zero hand
    rw [hsum, Nat.testBit_or, Bool.or_eq_true, ih, List.exists_mem_cons_iff]

/-- Two pieces of a list lie apart. -/
theorem apart_of_mem {ps : List Piece} (ha : (ps.map Piece.at_).Pairwise Apart) {p q : Piece} (hp : p ∈ ps) (hq : q ∈ ps) (hne : p ≠ q) :
    Apart p.at_ q.at_ := by
  have symm : Std.Symm (fun p q : Piece => Apart p.at_ q.at_) := ⟨fun _ _ => Or.symm⟩
  exact (List.pairwise_map.mp ha).forall hp hq hne

/-- A piece is read back from the sum. -/
theorem fld_pieceBits {ps : List Piece} (ha : (ps.map Piece.at_).Pairwise Apart) (hf : ∀ p ∈ ps, p.Fits) {p : Piece} (hp : p ∈ ps) :
    fld (pieceBits ps) p.at_.1 p.at_.2 = p.val := by
  refine Nat.eq_of_testBit_eq fun i => ?_
  rw [fld, Nat.testBit_mod_two_pow, Nat.testBit_div_two_pow]
  by_cases hi : i < p.at_.2
  · rw [decide_eq_true hi, Bool.true_and, Bool.eq_iff_iff, testBit_pieceBits ha hf]
    constructor
    · rintro ⟨q, hq, hbit⟩
      by_cases hqp : q = p
      · rw [hqp, Nat.testBit_mul_two_pow, Nat.add_sub_cancel, Bool.and_eq_true] at hbit
        exact hbit.2
      · have h1 := (hf q hq).testBit hbit
        have h2 := apart_of_mem ha hq hp hqp
        unfold Apart at h2
        omega
    · intro hbit
      exact ⟨p, hp, by rw [Nat.testBit_mul_two_pow]; simpa using hbit⟩
  · rw [decide_eq_false hi, Bool.false_and]
    exact (Nat.testBit_lt_two_pow (Nat.lt_of_lt_of_le (hf p hp) (Nat.pow_le_pow_right (by omega) (by omega)))).symm

/-- The sum has no bit outside the places of its pieces. -/
theorem pieceBits_lt {ps : List Piece} (ha : (ps.map Piece.at_).Pairwise Apart) (hf : ∀ p ∈ ps, p.Fits) {n : Nat}
    (hn : ∀ p ∈ ps, p.at_.1 + p.at_.2 ≤ n) : pieceBits ps < 2 ^ n := by
  refine Nat.lt_pow_two_of_testBit _ fun j hj => ?_
  rw [Bool.eq_false_iff, ne_eq, testBit_pieceBits ha hf]
  rintro ⟨p, hp, hbit⟩
  have h1 := (hf p hp).testBit hbit
  have h2 := hn p hp
  omega


/-! ## A slot (R44 to R78) -/

/-- The place of the operation code, those of the fixed fields, and those of the operands, of a row. -/
def Row.spans (k : SlotKind) (row : Row) : List Span :=
  k.opPos :: (row.fixed.map fun f => (f.2, f.1.size)) ++ row.fields.map fun f => (f.lo, f.w)

/-- The pieces of the operands; an operand that stands in the X slot has no bits. -/
def fieldPieces : List Field → List Nat → List Piece
  | f :: fs, v :: vs => ⟨(f.lo, f.w), if f.w == 0 then 0 else v⟩ :: fieldPieces fs vs
  | _, _ => []

/-- The pieces of a slot. -/
def Row.pieces (k : SlotKind) (row : Row) (ops : List Nat) : List Piece :=
  ⟨k.opPos, row.op⟩ :: (row.fixed.map fun f => ⟨(f.2, f.1.size), f.1⟩) ++ fieldPieces row.fields ops

/-- Only the last field may stand in the X slot. -/
def litLast : List Field → Bool
  | [] => true
  | [_] => true
  | f :: fs => f.w != 0 && litLast fs

/-- What the tables keep: a row's places lie apart, in its slot; its operation code fits; only the last field may stand in the X slot. -/
def Row.Tidy (k : SlotKind) (row : Row) : Prop :=
  (row.spans k).Pairwise (fun a b => a.1 + a.2 ≤ b.1 ∨ b.1 + b.2 ≤ a.1) ∧ (∀ a ∈ row.spans k, a.1 + a.2 ≤ k.bits) ∧ row.op < 2 ^ k.opPos.2
  ∧ litLast row.fields = true

/-- The rows of the tables are tidy. -/
theorem rows_tidy (k : SlotKind) : ∀ row ∈ k.rows, row.Tidy k := by
  cases k <;> unfold Row.Tidy <;> decide +kernel

theorem encodeFields_eq : ∀ (fs : List Field) (ops : List Nat), encodeFields fs ops = pieceBits (fieldPieces fs ops)
  | f :: fs, v :: vs => by
    have ih := encodeFields_eq fs vs
    simp only [encodeFields, fieldPieces, pieceBits, List.map_cons, List.sum_cons] at ih ⊢
    rw [ih]
    split <;> simp
  | [], _ => rfl
  | _ :: _, [] => rfl

theorem encodeRow_eq (k : SlotKind) (row : Row) (ops : List Nat) : encodeRow k row ops = pieceBits (row.pieces k ops) := by
  simp [encodeRow, encodeFields_eq, pieceBits, Row.pieces, Function.comp_def, Nat.add_assoc]

/-- The operands' places are the row's fields, and their pieces fit them. -/
theorem fieldPieces_of_ok : ∀ {fs : List Field} {ops : List Nat}, fieldsOk fs ops = true →
    (fieldPieces fs ops).map Piece.at_ = fs.map (fun f => (f.lo, f.w)) ∧ ∀ p ∈ fieldPieces fs ops, p.Fits
  | [], [], _ => ⟨rfl, fun _ h => absurd h List.not_mem_nil⟩
  | f :: fs, v :: vs, h => by
    simp only [fieldsOk, Bool.and_eq_true, Bool.or_eq_true, beq_iff_eq, decide_eq_true_eq] at h
    obtain ⟨⟨-, hv⟩, hrest⟩ := h
    obtain ⟨hat, hfit⟩ := fieldPieces_of_ok hrest
    refine ⟨congrArg ((f.lo, f.w) :: ·) hat, fun p hp => ?_⟩
    rcases List.mem_cons.mp hp with rfl | hp
    · by_cases h0 : f.w = 0
      · simp [Piece.Fits, h0]
      · simpa [Piece.Fits, h0] using hv
    · exact hfit p hp

/-- The pieces of a legal slot lie in the places of its row, and fit them. -/
theorem Row.pieces_of_ok {k : SlotKind} {row : Row} {ops : List Nat} (ht : row.Tidy k) (hok : fieldsOk row.fields ops = true) :
    (row.pieces k ops).map Piece.at_ = row.spans k ∧ ∀ p ∈ row.pieces k ops, p.Fits := by
  obtain ⟨-, -, hop, -⟩ := ht
  obtain ⟨hat, hfit⟩ := fieldPieces_of_ok hok
  refine ⟨by simp [Row.pieces, Row.spans, hat, Function.comp_def], fun p hp => ?_⟩
  simp only [Row.pieces, List.cons_append, List.mem_cons, List.mem_append, List.mem_map] at hp
  rcases hp with rfl | ⟨f, -, rfl⟩ | hp
  · exact hop
  · exact Nat.lt_size_self f.1
  · exact hfit p hp

/-- A piece of a legal slot is read back from its bits. -/
theorem fld_encodeRow {k : SlotKind} {row : Row} {ops : List Nat} (ht : row.Tidy k) (hok : fieldsOk row.fields ops = true)
    {p : Piece} (hp : p ∈ row.pieces k ops) : fld (encodeRow k row ops) p.at_.1 p.at_.2 = p.val := by
  obtain ⟨hat, hfit⟩ := Row.pieces_of_ok ht hok
  rw [encodeRow_eq]
  exact fld_pieceBits (by rw [hat]; exact ht.1) hfit hp

/-- The operands of a legal slot are read back from bits in which each stands in its place. -/
theorem readFields_of_fld {w lit : Nat} : ∀ {fs : List Field} {ops : List Nat}, fieldsOk fs ops = true → litLast fs = true →
    (∀ p ∈ fieldPieces fs ops, fld w p.at_.1 p.at_.2 = p.val) → (fs.any (fun f => f.w == 0) = true → ops.getLast? = some lit) →
    readFields w lit fs = ops
  | [], [], _, _, _, _ => rfl
  | [f], [v], _, _, hread, hlit => by
    have hv := hread _ (List.mem_cons_self ..)
    by_cases h0 : f.w = 0
    · have := hlit (by simp [h0])
      simpa [readFields, h0] using this.symm
    · simpa [readFields, h0] using hv
  | f :: g :: fs, v :: u :: vs, hok, hlast, hread, hlit => by
    simp only [litLast, Bool.and_eq_true, bne_iff_ne] at hlast
    obtain ⟨hw, hlast⟩ := hlast
    have hv : fld w f.lo f.w = v := by simpa [hw] using hread _ (List.mem_cons_self ..)
    have ih := readFields_of_fld (ops := u :: vs) (fs := g :: fs) (Bool.and_eq_true_iff.mp hok).2 hlast (fun p hp => hread p (List.mem_cons_of_mem _ hp))
      (fun h => by simpa using hlit (by simpa [hw] using h))
    simpa [readFields, hw, hv] using ih
  | [], _ :: _, hok, _, _, _ => by cases hok
  | _ :: _, [], hok, _, _, _ => by cases hok
  | [_], _ :: _ :: _, hok, _, _, _ => by simp [fieldsOk] at hok
  | _ :: _ :: _, [_], hok, _, _, _ => by simp [fieldsOk] at hok

/-- The row that an operation code names stands in the table, with that code. -/
theorem rowOf_some {k : SlotKind} {op : Nat} {row : Row} (h : rowOf k op = some row) : row ∈ k.rows ∧ row.op = op :=
  ⟨List.mem_of_find?_eq_some h, by simpa using List.find?_some h⟩

/-- A legal slot has a row, which its operands fit. -/
theorem Raw.legal_row {r : Raw} (h : r.legal = true) :
    ∃ row, rowOf r.kind r.op = some row ∧ row.Tidy r.kind ∧ row.op = r.op ∧ fieldsOk row.fields r.ops = true
      ∧ r.encode = encodeRow r.kind row r.ops := by
  unfold Raw.legal at h
  split at h
  · cases h
  · next row hrow =>
    have henc : r.encode = encodeRow r.kind row r.ops := by simp only [Raw.encode, hrow]
    obtain ⟨hmem, hop⟩ := rowOf_some hrow
    exact ⟨row, hrow, rows_tidy _ row hmem, hop, (Bool.and_eq_true_iff.mp h).1, henc⟩

/-- The operation code of a legal slot is read back from its bits. -/
theorem Raw.fld_op {r : Raw} (h : r.legal = true) : fld r.encode r.kind.opPos.1 r.kind.opPos.2 = r.op := by
  obtain ⟨row, -, ht, hop, hok, henc⟩ := Raw.legal_row h
  rw [henc, ← hop]
  exact fld_encodeRow ht hok (List.mem_cons_self ..)

/-- The bits of a legal slot fit the slot. -/
theorem Raw.encode_lt {r : Raw} (h : r.legal = true) : r.encode < 2 ^ r.kind.bits := by
  obtain ⟨row, -, ht, -, hok, henc⟩ := Raw.legal_row h
  obtain ⟨hat, hfit⟩ := Row.pieces_of_ok ht hok
  rw [henc, encodeRow_eq]
  refine pieceBits_lt (by rw [hat]; exact ht.1) hfit fun p hp => ht.2.1 _ ?_
  rw [← hat]
  exact List.mem_map_of_mem hp

/-- The bits of a legal slot decode to it, where the word has the literal that the slot needs. -/
theorem decodeRaw_encode {r : Raw} (h : r.legal = true) {k28 : Option Nat} (hlit : ∀ l, r.litNeeded = some l → k28 = some l) :
    decodeRaw r.kind k28 r.encode = .ok r := by
  obtain ⟨row, hrow, ht, hop, hok, henc⟩ := Raw.legal_row h
  have hlast : row.needsLit = true → ∃ l, k28 = some l ∧ r.ops.getLast? = some l := by
    intro hneed
    have hne : r.ops ≠ [] := by
      rintro h0
      rw [h0] at hok
      cases hf : row.fields <;> simp [hf, Row.needsLit, fieldsOk] at hneed hok
    refine ⟨_, hlit (r.ops.getLast hne) ?_, List.getLast?_eq_getLast_of_ne_nil hne⟩
    simp [Raw.litNeeded, hrow, hneed, List.getLast?_eq_getLast_of_ne_nil hne]
  have hmiss : (row.needsLit && k28.isNone) = false := by
    cases hneed : row.needsLit with
    | false => rfl
    | true =>
      obtain ⟨l, hl, -⟩ := hlast hneed
      simp [hl]
  have hread : readFields r.encode (k28.getD 0) row.fields = r.ops := by
    refine readFields_of_fld hok ht.2.2.2 (fun p hp => ?_) (fun hneed => ?_)
    · rw [henc]
      exact fld_encodeRow ht hok (List.mem_append_right _ hp)
    · obtain ⟨l, hl, hops⟩ := hlast hneed
      rw [hops, hl]
      rfl
  unfold decodeRaw
  rw [Raw.fld_op h, hrow]
  simp only [hmiss, hread, hop, ← henc, Bool.false_eq_true, if_false, ne_eq, not_true_eq_false]
  exact if_pos h

/-- Bits that decode are the bits of the legal slot that they decode to. -/
theorem decodeRaw_ok {k : SlotKind} {k28 : Option Nat} {w : Nat} {r : Raw} (h : decodeRaw k k28 w = .ok r) :
    r.kind = k ∧ r.legal = true ∧ r.encode = w := by
  unfold decodeRaw at h
  split at h
  · cases h
  next row hrow =>
    obtain ⟨-, hop⟩ := rowOf_some hrow
    dsimp only at h
    split at h
    · cases h
    · split at h
      · cases h
      next hbits =>
        split at h
        next hleg =>
          cases h
          refine ⟨rfl, hleg, ?_⟩
          rw [Raw.encode, hop, hrow]
          exact not_not.mp hbits
        · cases h

end Sys2Proof

open Sys2Proof in
/-- Settles O1: the slot's pieces are read back from its bits (`decodeRaw_encode`), the literal from the X slot. -/
theorem slotRoundTrip : Obligations.SlotRoundTrip :=
  fun _ h => decodeRaw_encode h fun _ hl => hl

open Sys2Proof in
/-- Settles O3: what decodes has passed the comparison with its bits and the check of its operands (`decodeRaw_ok`); the tables' codes
are compared row by row. -/
theorem slotBitsUnique : Obligations.SlotBitsUnique :=
  ⟨fun _ _ _ _ h => decodeRaw_ok h, fun k => by cases k <;> decide +kernel⟩
end

section
set_option Elab.async false

namespace Sys2Proof

/-! ## The instruction that a slot holds -/

@[simp] theorem tyOf_tyCode (ty : Ty) : tyOf (tyCode ty) = ty := by cases ty <;> rfl
@[simp] theorem rmOf_rmCode (rm : Rm) : rmOf (rmCode rm) = rm := by cases rm <;> rfl
@[simp] theorem ccOf_ccCode (cc : Cc) : ccOf (ccCode cc) = cc := by cases cc <;> rfl
@[simp] theorem ordOf_ordCode (ord : Ord) : ordOf (ordCode ord) = ord := by cases ord <;> rfl
@[simp] theorem scopeOf_scopeCode (sc : Scope) : scopeOf (scopeCode sc) = sc := by cases sc <;> rfl
@[simp] theorem decide_bit (b : Bool) : decide (bit b = 1) = b := by cases b <;> rfl

/-- The instruction that an instruction's slot holds; CTXSTART's rows are one encoding (R363). -/
noncomputable def Instr.held : Instr → Instr
  | .ctxstartRestore desc ts acq rel sc bp => .ctxstart desc ts acq rel sc bp
  | .ctxstartGo desc ts acq rel sc bp => .ctxstart desc ts acq rel sc bp
  | i => i

/-- A slot names the instruction it was made of. -/
theorem instrOf_raw {i : Instr} {r : Raw} (h : i.raw = some r) : instrOf r = some i.held := by
  cases i
  all_goals cases h
  all_goals refine Eq.trans (b := some _) rfl ?_
  all_goals simp only [List.getD_cons_zero, List.getD_cons_succ, tyOf_tyCode, rmOf_rmCode, ccOf_ccCode, ordOf_ordCode, scopeOf_scopeCode,
    decide_bit, Instr.held]

/-! ## The X slot -/

/-- A part of a field. -/
theorem fld_fld (w lo n a b : Nat) (h : a + b ≤ n) : fld (fld w lo n) a b = fld w (lo + a) b := by
  refine Nat.eq_of_testBit_eq fun i => ?_
  simp only [fld, Nat.testBit_mod_two_pow, Nat.testBit_div_two_pow]
  by_cases hi : i < b
  · have : i + a < n := by omega
    simp [hi, this, Nat.add_assoc, Nat.add_comm a lo]
  · simp [hi]

/-- An X slot's operation code tells its kind (R48). -/
theorem rows_xKind {k : SlotKind} (hk : k.bits = 32) (hs : k ≠ .scalar) (hn : k ≠ .na) :
    k.opPos.1 ≤ 28 ∧ k.opPos.1 + k.opPos.2 = 32 ∧ ∀ row ∈ k.rows, xKind (row.op * 2 ^ k.opPos.1) = k := by
  cases k
  case scalar => exact absurd rfl hs
  case na => exact absurd rfl hn
  case x | mem | eng | csr | ctx => decide +kernel
  all_goals cases hk

/-- The kind of an X slot is read back from its bits. -/
theorem xKind_encode {r : Raw} (h : r.legal = true) (hk : r.kind.bits = 32) (hs : r.kind ≠ .scalar) (hn : r.kind ≠ .na) :
    xKind r.encode = r.kind := by
  obtain ⟨row, hrow, ht, hop, -⟩ := Raw.legal_row h
  obtain ⟨hlo, htop, hkind⟩ := rows_xKind hk hs hn
  have hbits : fld (row.op * 2 ^ r.kind.opPos.1) r.kind.opPos.1 r.kind.opPos.2 = r.op := by
    rw [fld, Nat.mul_div_cancel _ (Nat.two_pow_pos _), Nat.mod_eq_of_lt ht.2.2.1, hop]
  have htag : ∀ w, fld w 28 4 = fld (fld w r.kind.opPos.1 r.kind.opPos.2) (28 - r.kind.opPos.1) 4 := by
    intro w
    rw [fld_fld _ _ _ _ _ (by omega), Nat.add_sub_cancel' hlo]
  have hsame : fld r.encode 28 4 = fld (row.op * 2 ^ r.kind.opPos.1) 28 4 := by
    rw [htag, htag (row.op * _), Raw.fld_op h, hbits]
  rw [← hkind row (rowOf_some hrow).1]
  unfold xKind
  rw [hsame]

/-- Only a scalar slot reads a literal. -/
theorem litNeeded_none {r : Raw} (hs : r.kind ≠ .scalar) : r.litNeeded = none := by
  have hrows : ∀ k : SlotKind, k ≠ .scalar → ∀ row ∈ k.rows, row.needsLit = false := by
    intro k hk
    cases k
    case scalar => exact absurd rfl hk
    all_goals decide +kernel
  unfold Raw.litNeeded
  split
  · next row hrow =>
    rw [hrows _ hs row (rowOf_some hrow).1]
    rfl
  · rfl

/-- The bits of a slot that reads no literal decode to it in every word. -/
theorem decodeRaw_noLit {r : Raw} (h : r.legal = true) (hl : r.litNeeded = none) (k28 : Option Nat) :
    decodeRaw r.kind k28 r.encode = .ok r :=
  decodeRaw_encode h fun l hs => by rw [hl] at hs; cases hs

theorem decodeX_encode {r : Raw} (h : r.legal = true) (hk : r.kind.bits = 32) (hs : r.kind ≠ .scalar) (hn : r.kind ≠ .na) :
    decodeX r.encode = .ok r := by
  rw [decodeX, xKind_encode h hk hs hn]
  exact decodeRaw_noLit h (litNeeded_none hs) none

/-! ## The word (R41, R42) -/

/-- The pieces of a word. -/
def SWord.pieces (w : SWord) : List Piece :=
  [⟨(96, 32), w.na.encode⟩, ⟨(64, 32), w.s0.encode⟩, ⟨(32, 32), w.s1.encode⟩, ⟨(0, 32), w.x.encode⟩]

theorem encodeWord_eq (w : SWord) : encodeWord w = pieceBits w.pieces := by
  simp only [encodeWord, SWord.pieces, pieceBits_cons, pieceBits_nil]
  generalize w.na.encode = na, w.s0.encode = s0, w.s1.encode = s1, w.x.encode = x
  omega

/-- The slots of a word are read back from its bits. -/
theorem fld_encodeWord {w : SWord} (hna : w.na.encode < 2 ^ 32) (h0 : w.s0.encode < 2 ^ 32) (h1 : w.s1.encode < 2 ^ 32)
    (hx : w.x.encode < 2 ^ 32) :
    fld (encodeWord w) 96 32 = w.na.encode ∧ fld (encodeWord w) 64 32 = w.s0.encode ∧ fld (encodeWord w) 32 32 = w.s1.encode
    ∧ fld (encodeWord w) 0 32 = w.x.encode := by
  have hfit : ∀ p ∈ w.pieces, p.Fits := by
    simp only [SWord.pieces, List.forall_mem_cons, Piece.Fits]
    exact ⟨hna, h0, h1, hx, fun _ h => absurd h List.not_mem_nil⟩
  have hapart : (w.pieces.map Piece.at_).Pairwise Apart := by
    simp only [SWord.pieces, List.map_cons, List.map_nil]
    unfold Apart
    decide
  have hread : ∀ p ∈ w.pieces, fld (pieceBits w.pieces) p.at_.1 p.at_.2 = p.val := fun p hp => fld_pieceBits hapart hfit hp
  rw [encodeWord_eq]
  generalize pieceBits w.pieces = bits at hread ⊢
  simp only [SWord.pieces, List.forall_mem_cons] at hread
  obtain ⟨rna, r0, r1, rx, -⟩ := hread
  exact ⟨rna, r0, r1, rx⟩

/-- Bits of which each 32 are those of a slot that decodes. -/
theorem decodeWord_of_fld {w : SWord} {bits : Nat} (rna : fld bits 96 32 = w.na.encode) (r0 : fld bits 64 32 = w.s0.encode)
    (r1 : fld bits 32 32 = w.s1.encode) (rx : fld bits 0 32 = w.x.encode) (hx : decodeX w.x.encode = .ok w.x)
    (h0 : decodeRaw .scalar w.x.literal w.s0.encode = .ok w.s0) (h1 : decodeRaw .scalar w.x.literal w.s1.encode = .ok w.s1)
    (hna : decodeRaw .na none w.na.encode = .ok w.na) : decodeWord bits = .ok w := by
  unfold decodeWord
  rw [rx, hx]
  dsimp only
  rw [rna, r0, r1, h0, h1, hna]

/-- A word whose slots decode decodes to them. -/
theorem decodeWord_encodeWord {w : SWord} (hx : decodeX w.x.encode = .ok w.x) (h0 : decodeRaw .scalar w.x.literal w.s0.encode = .ok w.s0)
    (h1 : decodeRaw .scalar w.x.literal w.s1.encode = .ok w.s1) (hna : decodeRaw .na none w.na.encode = .ok w.na) :
    decodeWord (encodeWord w) = .ok w := by
  have hlt : ∀ (k : SlotKind) {k28 : Option Nat} {r : Raw}, k.bits = 32 → decodeRaw k k28 r.encode = .ok r → r.encode < 2 ^ 32 := by
    intro k k28 r hk h
    obtain ⟨hkind, hleg, -⟩ := decodeRaw_ok h
    rw [← hk, ← hkind]
    exact Raw.encode_lt hleg
  have hxk : (xKind w.x.encode).bits = 32 := by
    unfold xKind
    split <;> rfl
  obtain ⟨rna, r0, r1, rx⟩ := fld_encodeWord (hlt .na rfl hna) (hlt .scalar rfl h0) (hlt .scalar rfl h1) (hlt _ hxk hx)
  exact decodeWord_of_fld rna r0 r1 rx hx h0 h1 hna

/-- The literal that a legal slot reads fits the X slot. -/
theorem literal_lt {n l : Nat} : ∀ {fs : List Field} {ops : List Nat}, fieldsOk fs ops = true → litLast fs = true →
    (∀ f ∈ fs, f.w = 0 → f.chk = .lt n) → fs.any (fun f => f.w == 0) = true → ops.getLast? = some l → l < n
  | [f], [v], hok, _, hchk, hany, hl => by
    simp only [List.any_cons, List.any_nil, Bool.or_false, beq_iff_eq] at hany
    cases hl
    simpa [fieldsOk, hchk f (List.mem_cons_self ..) hany, Chk.ok, hany] using hok
  | f :: g :: fs, v :: u :: vs, hok, hlast, hchk, hany, hl => by
    simp only [litLast, Bool.and_eq_true, bne_iff_ne] at hlast
    obtain ⟨hw, hlast⟩ := hlast
    exact literal_lt (fs := g :: fs) (ops := u :: vs) (Bool.and_eq_true_iff.mp hok).2 hlast (fun f hf => hchk f (List.mem_cons_of_mem _ hf))
      (by simpa [hw] using hany) (by simpa using hl)
  | [], _, _, _, _, hany, _ => by cases hany
  | _ :: _, [], hok, _, _, _, _ => by cases hok
  | [_], _ :: _ :: _, hok, _, _, _, _ => by simp [fieldsOk] at hok
  | _ :: _ :: _, [_], hok, _, _, _, _ => by simp [fieldsOk] at hok

theorem litNeeded_lt {r : Raw} (h : r.legal = true) {l : Nat} (hl : r.litNeeded = some l) : l < 2 ^ 28 := by
  have hrows : ∀ k : SlotKind, ∀ row ∈ k.rows, ∀ f ∈ row.fields, f.w = 0 → f.chk = .lt (2 ^ 28) := by
    intro k
    cases k <;> decide +kernel
  obtain ⟨row, hrow, ht, -, hok, -⟩ := Raw.legal_row h
  simp only [Raw.litNeeded, hrow, Option.ite_none_right_eq_some] at hl
  exact literal_lt hok ht.2.2.2 (hrows _ row (rowOf_some hrow).1) hl.1 hl.2

/-- The empty slots of a word decode. -/
theorem decode_blank (k28 : Option Nat) :
    decodeRaw .scalar k28 Raw.nop.encode = .ok .nop ∧ decodeRaw .na none Raw.seq.encode = .ok .seq ∧ decodeX Raw.xnop.encode = .ok .xnop :=
  ⟨decodeRaw_noLit (r := .nop) rfl rfl k28, decodeRaw_noLit (r := .seq) rfl rfl none, decodeX_encode (r := .xnop) rfl rfl nofun nofun⟩

/-- The word that holds a legal slot decodes to it. -/
theorem decodeWord_wordOf {r : Raw} (h : r.legal = true) (hk : r.kind.bits = 32) : decodeWord (encodeWord (wordOf r)) = .ok (wordOf r) := by
  obtain ⟨hscalar, hna, hx⟩ := Machine.wordOf_blank r
  by_cases h1 : r.kind = .scalar
  · cases hl : r.litNeeded with
    | none =>
      obtain ⟨hnop, hseq, hxnop⟩ := decode_blank none
      have hw : wordOf r = { na := .seq, s0 := r, s1 := .nop, x := .xnop } := by simp [wordOf, h1, hl]
      rw [hw]
      exact decodeWord_encodeWord hxnop (h1 ▸ decodeRaw_noLit h hl none) hnop hseq
    | some l =>
      have hw : wordOf r = { na := .seq, s0 := r, s1 := .nop, x := .k28 l } := by simp [wordOf, h1, hl]
      obtain ⟨hnop, hseq, -⟩ := decode_blank (some l)
      have hleg : (Raw.k28 l).legal = true := by
        have := litNeeded_lt h hl
        simpa [Raw.legal, Raw.k28, rowOf, SlotKind.rows, xRows, fieldsOk, Chk.ok, crossOk] using this
      rw [hw]
      exact decodeWord_encodeWord (decodeX_encode hleg rfl nofun nofun) (h1 ▸ decodeRaw_encode h fun k e => by rw [hl] at e; exact e)
        hnop hseq
  · by_cases h2 : r.kind = .na
    · obtain ⟨e0, e1, ex, en⟩ := hna h2
      obtain ⟨hnop, -, hxnop⟩ := decode_blank none
      refine decodeWord_encodeWord ?_ ?_ ?_ ?_
      · rw [ex]; exact hxnop
      · rw [ex, e0]; exact hnop
      · rw [ex, e1]; exact hnop
      · rw [en]; exact h2 ▸ decodeRaw_noLit h (litNeeded_none h1) none
    · obtain ⟨e0, e1, ex, en⟩ := hx h1 h2
      obtain ⟨hnop, hseq, -⟩ := decode_blank r.literal
      refine decodeWord_encodeWord ?_ ?_ ?_ ?_
      · rw [ex]; exact decodeX_encode h hk h1 h2
      · rw [ex, e0]; exact hnop
      · rw [ex, e1]; exact hnop
      · rw [en]; exact hseq

/-- The slot of a word that holds it alone; the empty slots are the word of zeros, which is SEQ's. -/
theorem single_wordOf {r : Raw} (hk : r.kind.bits = 32) :
    (wordOf r).single = some (if r = .nop ∨ r = .xnop then .seq else r) := by
  obtain ⟨hscalar, hna, hx⟩ := Machine.wordOf_blank r
  by_cases he : r = .nop ∨ r = .xnop
  · rw [if_pos he]
    rcases he with rfl | rfl <;> rfl
  · rw [if_neg he]
    obtain ⟨hnop, hxnop⟩ := not_or.mp he
    unfold SWord.single
    by_cases h1 : r.kind = .scalar
    · obtain ⟨e0, -, -, -⟩ := hscalar h1
      simp [e0, hnop]
    · by_cases h2 : r.kind = .na
      · obtain ⟨e0, e1, ex, en⟩ := hna h2
        simp [e0, e1, ex, en]
      · obtain ⟨e0, -, ex, -⟩ := hx h1 h2
        have hne : wordOf r ≠ wordOf .nop := fun e => hxnop (ex.symm.trans (congrArg SWord.x e))
        simp [e0, ex, hxnop, hne]

/-! ## The bundle (R62, R63) -/

/-- A slot of a bundle is empty, or holds a legal row of its kind. -/
def SlotFits (k : SlotKind) (o : Option Raw) : Prop := ∀ r, o = some r → r.kind = k ∧ r.legal = true

/-- The operation codes of a bundle are not 0, and stand in the topmost bits of the slot; those of a conversion are V1's own (R71). -/
theorem rows_bundle {k : SlotKind} (hk : k.bits = 64) :
    k.opPos = (56, 8) ∧ k ≠ .scalar ∧ ∀ row ∈ k.rows, row.op ≠ 0 ∧ (if 0x60 ≤ row.op ∧ row.op ≤ 0x6B then k ≠ .v else k ≠ .conv) := by
  cases k
  case v | conv | mx | ls | xf | ct => decide +kernel
  all_goals cases hk

/-- The bits of a bundle's slot tell its operation code. -/
theorem fld_bundleOp {r : Raw} (h : r.legal = true) (hk : r.kind.bits = 64) :
    fld r.encode 56 8 = r.op ∧ ∃ row ∈ r.kind.rows, row.op = r.op := by
  obtain ⟨hpos, -, -⟩ := rows_bundle hk
  obtain ⟨row, hrow, -, hop, -⟩ := Raw.legal_row h
  have hfld := Raw.fld_op h
  rw [hpos] at hfld
  exact ⟨hfld, row, (rowOf_some hrow).1, hop⟩

theorem encodeOpt_lt {k : SlotKind} {o : Option Raw} (hk : k.bits = 64) (h : SlotFits k o) : encodeOpt o < 2 ^ 64 := by
  cases o with
  | none => exact Nat.two_pow_pos 64
  | some r =>
    obtain ⟨hkind, hleg⟩ := h r rfl
    rw [← hk, ← hkind]
    exact Raw.encode_lt hleg

/-- The bits of a bundle's slot decode to it. -/
theorem decodeSlot_encodeOpt {k : SlotKind} {o : Option Raw} (hk : k.bits = 64) (h : SlotFits k o) : decodeSlot k (encodeOpt o) = .ok o := by
  cases o with
  | none => rfl
  | some r =>
    obtain ⟨rfl, hleg⟩ := h r rfl
    obtain ⟨-, hs, hrows⟩ := rows_bundle hk
    obtain ⟨hfld, row, hrow, hop⟩ := fld_bundleOp hleg hk
    have hne : fld r.encode 56 8 ≠ 0 := by
      rw [hfld, ← hop]
      exact (hrows row hrow).1
    simp only [decodeSlot, encodeOpt, hne, if_false, decodeRaw_noLit hleg (litNeeded_none hs) none]

/-- V1's kind is read back from its bits. -/
theorem v1Kind_encodeOpt {k : SlotKind} {o : Option Raw} (hk : k = .v ∨ k = .conv) (h : SlotFits k o) (hn : o = none → k = .v) :
    v1Kind (encodeOpt o) = k := by
  cases o with
  | none =>
    rw [hn rfl]
    rfl
  | some r =>
    obtain ⟨hkind, hleg⟩ := h r rfl
    have hbits : r.kind.bits = 64 := by
      rcases hk with rfl | rfl <;> rw [hkind] <;> rfl
    obtain ⟨hfld, row, hrow, hop⟩ := fld_bundleOp hleg hbits
    obtain ⟨-, -, hrows⟩ := rows_bundle hbits
    have hrange := (hrows row hrow).2
    rw [hop, hkind] at hrange
    rw [v1Kind, encodeOpt, hfld]
    split
    · next hin =>
      rw [if_pos hin] at hrange
      exact (hk.resolve_left hrange).symm
    · next hout =>
      rw [if_neg hout] at hrange
      exact (hk.resolve_right hrange).symm

/-- The pieces of a bundle. -/
def Bundle.pieces (b : Bundle) : List Piece :=
  [⟨(320, 64), encodeOpt b.v0⟩, ⟨(256, 64), encodeOpt b.v1⟩, ⟨(192, 64), encodeOpt b.mx⟩, ⟨(128, 64), encodeOpt b.ls⟩,
   ⟨(64, 64), encodeOpt b.xf⟩, ⟨(0, 64), encodeOpt b.ct⟩]

theorem encodeBundle_eq (b : Bundle) : encodeBundle b = pieceBits b.pieces := by
  simp only [encodeBundle, Bundle.pieces, pieceBits_cons, pieceBits_nil]
  generalize encodeOpt b.v0 = v0, encodeOpt b.v1 = v1, encodeOpt b.mx = mx, encodeOpt b.ls = ls, encodeOpt b.xf = xf, encodeOpt b.ct = ct
  omega

/-- The bits of a bundle's slots are read back from the bundle's. -/
theorem fld_encodeBundle {b : Bundle} (hfit : ∀ p ∈ b.pieces, p.Fits) :
    fld (encodeBundle b) 320 64 = encodeOpt b.v0 ∧ fld (encodeBundle b) 256 64 = encodeOpt b.v1 ∧ fld (encodeBundle b) 192 64 = encodeOpt b.mx
    ∧ fld (encodeBundle b) 128 64 = encodeOpt b.ls ∧ fld (encodeBundle b) 64 64 = encodeOpt b.xf ∧ fld (encodeBundle b) 0 64 = encodeOpt b.ct := by
  have hapart : (b.pieces.map Piece.at_).Pairwise Apart := by
    simp only [Bundle.pieces, List.map_cons, List.map_nil]
    unfold Apart
    decide
  have hread : ∀ p ∈ b.pieces, fld (pieceBits b.pieces) p.at_.1 p.at_.2 = p.val := fun p hp => fld_pieceBits hapart hfit hp
  rw [encodeBundle_eq]
  generalize pieceBits b.pieces = bits at hread ⊢
  simp only [Bundle.pieces, List.forall_mem_cons] at hread
  obtain ⟨r0, r1, r2, r3, r4, r5, -⟩ := hread
  exact ⟨r0, r1, r2, r3, r4, r5⟩

/-- Bits of which each 64 are those of a slot that decodes. -/
theorem decodeBundle_of_fld {b : Bundle} {bits : Nat} {k1 : SlotKind} (r0 : fld bits 320 64 = encodeOpt b.v0) (r1 : fld bits 256 64 = encodeOpt b.v1)
    (r2 : fld bits 192 64 = encodeOpt b.mx) (r3 : fld bits 128 64 = encodeOpt b.ls) (r4 : fld bits 64 64 = encodeOpt b.xf)
    (r5 : fld bits 0 64 = encodeOpt b.ct) (hk : v1Kind (encodeOpt b.v1) = k1) (h0 : decodeSlot .v (encodeOpt b.v0) = .ok b.v0)
    (h1 : decodeSlot k1 (encodeOpt b.v1) = .ok b.v1) (h2 : decodeSlot .mx (encodeOpt b.mx) = .ok b.mx)
    (h3 : decodeSlot .ls (encodeOpt b.ls) = .ok b.ls) (h4 : decodeSlot .xf (encodeOpt b.xf) = .ok b.xf)
    (h5 : decodeSlot .ct (encodeOpt b.ct) = .ok b.ct) : decodeBundle bits = .ok b := by
  unfold decodeBundle
  rw [r0, r1, r2, r3, r4, r5, hk, h0, h1, h2, h3, h4, h5]

/-- A bundle whose slots fit decodes. -/
theorem decodeBundle_encodeBundle {b : Bundle} {k1 : SlotKind} (hk : k1 = .v ∨ k1 = .conv) (hn : b.v1 = none → k1 = .v) (h0 : SlotFits .v b.v0)
    (h1 : SlotFits k1 b.v1) (h2 : SlotFits .mx b.mx) (h3 : SlotFits .ls b.ls) (h4 : SlotFits .xf b.xf) (h5 : SlotFits .ct b.ct) :
    decodeBundle (encodeBundle b) = .ok b := by
  have hk1 : k1.bits = 64 := by rcases hk with rfl | rfl <;> rfl
  have hfit : ∀ p ∈ b.pieces, p.Fits := by
    simp only [Bundle.pieces, List.forall_mem_cons, Piece.Fits]
    exact ⟨encodeOpt_lt (k := .v) rfl h0, encodeOpt_lt hk1 h1, encodeOpt_lt (k := .mx) rfl h2, encodeOpt_lt (k := .ls) rfl h3,
      encodeOpt_lt (k := .xf) rfl h4, encodeOpt_lt (k := .ct) rfl h5, fun _ h => absurd h List.not_mem_nil⟩
  obtain ⟨r0, r1, r2, r3, r4, r5⟩ := fld_encodeBundle hfit
  exact decodeBundle_of_fld r0 r1 r2 r3 r4 r5 (v1Kind_encodeOpt hk h1 hn) (decodeSlot_encodeOpt rfl h0) (decodeSlot_encodeOpt hk1 h1)
    (decodeSlot_encodeOpt rfl h2) (decodeSlot_encodeOpt rfl h3) (decodeSlot_encodeOpt rfl h4) (decodeSlot_encodeOpt rfl h5)

/-- The bundle that holds a legal slot decodes to it, and the slot is its only one. -/
theorem decodeBundle_bundleOf {r : Raw} (h : r.legal = true) (hk : r.kind.bits ≠ 32) :
    decodeBundle (encodeBundle (bundleOf r)) = .ok (bundleOf r) ∧ (bundleOf r).single = some r := by
  have hempty : ∀ k, SlotFits k none := fun _ _ he => by cases he
  have hone : SlotFits r.kind (some r) := fun _ he => by cases he; exact ⟨rfl, h⟩
  unfold bundleOf
  split
  case h_1 hkind => exact ⟨decodeBundle_encodeBundle (.inl rfl) (fun _ => rfl) (hkind ▸ hone) (hempty _) (hempty _) (hempty _) (hempty _) (hempty _), rfl⟩
  case h_2 hkind => exact ⟨decodeBundle_encodeBundle (.inr rfl) nofun (hempty _) (hkind ▸ hone) (hempty _) (hempty _) (hempty _) (hempty _), rfl⟩
  case h_3 hkind => exact ⟨decodeBundle_encodeBundle (.inl rfl) (fun _ => rfl) (hempty _) (hempty _) (hkind ▸ hone) (hempty _) (hempty _) (hempty _), rfl⟩
  case h_4 hkind => exact ⟨decodeBundle_encodeBundle (.inl rfl) (fun _ => rfl) (hempty _) (hempty _) (hempty _) (hkind ▸ hone) (hempty _) (hempty _), rfl⟩
  case h_5 hkind => exact ⟨decodeBundle_encodeBundle (.inl rfl) (fun _ => rfl) (hempty _) (hempty _) (hempty _) (hempty _) (hkind ▸ hone) (hempty _), rfl⟩
  case h_6 hkind => exact ⟨decodeBundle_encodeBundle (.inl rfl) (fun _ => rfl) (hempty _) (hempty _) (hempty _) (hempty _) (hempty _) (hkind ▸ hone), rfl⟩
  case h_7 n0 n1 n2 n3 n4 n5 =>
    exfalso
    cases hkind : r.kind
    case v => exact n0 hkind
    case conv => exact n1 hkind
    case mx => exact n2 hkind
    case ls => exact n3 hkind
    case xf => exact n4 hkind
    case ct => exact n5 hkind
    all_goals exact hk (by rw [hkind]; rfl)

/-! ## The container of an instruction -/

/-- What the slot of an instruction names, and what the empty slots of a word name, is what the container is read as. -/
theorem instrOf_held {i : Instr} {r : Raw} (h : i.raw = some r) : instrOf (if r = .nop ∨ r = .xnop then .seq else r) = some i.read := by
  have hheld := instrOf_raw h
  by_cases he : r = .nop ∨ r = .xnop
  · rw [if_pos he]
    have hi : i = .nop ∨ i = .xnop := by
      rcases he with rfl | rfl
      · cases i
        case nop => exact .inl rfl
        all_goals cases h
      · cases i
        case xnop => exact .inr rfl
        all_goals cases h
    rcases hi with rfl | rfl <;> rfl
  · rw [if_neg he, hheld]
    cases i
    case nop => exact absurd (.inl (Option.some.inj h).symm) he
    case xnop => exact absurd (.inr (Option.some.inj h).symm) he
    all_goals rfl

end Sys2Proof

open Sys2Proof in
/-- Settles O2: the container decodes to its slot (`decodeWord_wordOf`, `decodeBundle_bundleOf`), which names the instruction
(`instrOf_held`). -/
theorem instructionRoundTrip : Obligations.InstructionRoundTrip := by
  intro i n w hwf henc
  obtain ⟨r, hr, hcont⟩ := Option.map_eq_some_iff.mp henc
  have hleg : r.legal = true := by simpa only [Instr.wf, hr] using hwf
  have hheld := instrOf_held hr
  unfold Raw.container at hcont
  split at hcont
  · next hk =>
    cases hcont
    simp only [decodeTableWord, Nat.le_refl, if_true, decodeWord_wordOf hleg hk, single_wordOf hk, hheld]
  · next hk =>
    cases hcont
    obtain ⟨hdec, hone⟩ := decodeBundle_bundleOf hleg hk
    have hblank : ¬(r = .nop ∨ r = .xnop) := by
      rintro (rfl | rfl) <;> exact hk rfl
    rw [if_neg hblank] at hheld
    have hwide : ¬384 ≤ 128 := by decide
    simp only [decodeTableWord, hwide, if_false, hdec, hone, hheld]

namespace Sys2Proof

/-- Bits that a legal slot without a literal encodes to decode to it. -/
theorem decodeRaw_of_encode {r : Raw} {w : Nat} (h : r.legal = true) (hl : r.litNeeded = none) (hw : r.encode = w) :
    decodeRaw r.kind none w = .ok r := hw ▸ decodeRaw_noLit h hl none

theorem decodeX_of_encode {r : Raw} {w : Nat} (h : r.legal = true) (hk : r.kind.bits = 32) (hs : r.kind ≠ .scalar) (hn : r.kind ≠ .na)
    (hw : r.encode = w) : decodeX w = .ok r := hw ▸ decodeX_encode h hk hs hn

end Sys2Proof

open Sys2Proof in
/-- Settles O4: each word is the encoding of the slot it stands for, so that it decodes to it (`decodeRaw_noLit`, `decodeX_encode`). -/
theorem wordsOfTheSpec : Obligations.WordsOfTheSpec :=
  ⟨decodeRaw_of_encode (r := ⟨.ct, 7, [0, 2, 2, 7]⟩) rfl rfl rfl, decodeRaw_of_encode (r := ⟨.ls, 1, [0, 1, 7, 3, 20]⟩) rfl rfl rfl,
   decodeRaw_of_encode (r := ⟨.ct, 1, [20, 3]⟩) rfl rfl rfl, decodeRaw_of_encode (r := ⟨.ls, 8, [0, 2, 1, 1, 3, 0]⟩) rfl rfl rfl,
   decodeRaw_of_encode (r := ⟨.xf, 5, [0, 1, 4, 3, 1, 1, 2]⟩) rfl rfl rfl,
   decodeX_of_encode (r := ⟨.eng, 0x3B, [2, 5, 0, 1, 4, 9]⟩) rfl rfl nofun nofun rfl,
   decodeX_of_encode (r := ⟨.mem, 0x88, [0, 3, 1, 5, 2, 6]⟩) rfl rfl nofun nofun rfl,
   decodeX_of_encode (r := ⟨.csr, 0x20, [0x23, 40]⟩) rfl rfl nofun nofun rfl,
   instructionRoundTrip .seq 128 0 rfl (by decide +kernel), rfl⟩
end

section
set_option Elab.async false

namespace Sys2Proof.Machine

/-! ## Results in flight

What the end of a position reads of a register whose results in flight are known: `SeqCore.Reads` says what a landing
result does to a value read, and the entries of the list of results pass through `flyTick` and `flyNow` together. -/

theorem flyTick_append (a b : List Fly) : flyTick (a ++ b) = flyTick a ++ flyTick b := by simp [flyTick]

theorem flyNow_append (a b : List Fly) : flyNow (a ++ b) = flyNow a ++ flyNow b := by simp [flyNow]

theorem SeqCore.put_fly (q : SeqCore) (r : RegId) (v : Nat) : (q.put r v).fly = q.fly := by
  cases r with
  | p n => simp only [SeqCore.put, SeqCore.wP]; split <;> rfl
  | _ => rfl

theorem SeqCore.landOne_fly (q : SeqCore) (f : Fly) : (q.landOne f).fly = q.fly := by
  change (f.vals.foldl (fun (q : SeqCore) p => q.put f.reg p.2) q).fly = q.fly
  generalize f.vals = vals
  induction vals generalizing q with
  | nil => rfl
  | cons v vals ih => exact (ih _).trans (q.put_fly f.reg v.2)

@[simp] theorem SeqCore.endPos_fly (q : SeqCore) : q.endPos.fly = flyTick q.fly := by
  change ((flyNow q.fly).foldl SeqCore.landOne { q with fly := flyTick q.fly }).fly = _
  generalize flyNow q.fly = now
  have h : ∀ q : SeqCore, (now.foldl SeqCore.landOne q).fly = q.fly := by
    induction now with
    | nil => intro q; rfl
    | cons f now ih => intro q; exact (ih _).trans (q.landOne_fly f)
  exact h _

/-- The value `read` belongs to register `r`: a result put in `r` sets it to `g` of the result, nothing else that lands changes it. -/
structure SeqCore.Reads {α : Type} (r : RegId) (read : SeqCore → α) (g : Nat → α) : Prop where
  same : ∀ (q : SeqCore) (v : Nat), read (q.put r v) = g v
  other : ∀ (q : SeqCore) (r' : RegId) (v : Nat), r' ≠ r → read (q.put r' v) = read q
  rest : ∀ (q : SeqCore) (fly : List Fly) (pend : List Pend), read { q with fly := fly, pend := pend } = read q

/-- The values of the entries to r whose last is to land j positions after this one: none to land with it or later. -/
def Overtaken (r : RegId) (j : Nat) (fly : List Fly) : Prop := ∀ f ∈ fly, f.reg = r → f.vals = [] ∨ f.rest < j

theorem Overtaken.tick {r : RegId} {j : Nat} {fly : List Fly} (h : Overtaken r j fly) : Overtaken r (j - 1) (flyTick fly) := by
  intro f hf hr
  obtain ⟨f0, hf0, rfl⟩ := List.mem_map.1 hf
  obtain ⟨hmem, hne⟩ := List.mem_filter.1 hf0
  have hne : f0.rest ≠ 0 := by simpa using hne
  exact (h f0 hmem hr).imp id (fun hlt => by change f0.rest - 1 < j - 1; omega)

/-- The entries to r bring nothing, or are results of fixed latency for its unit 0. -/
def FixedTo (r : RegId) (fly : List Fly) : Prop := ∀ f ∈ fly, f.reg = r → f.vals = [] ∨ (f.op = none ∧ ∀ p ∈ f.vals, p.1 = 0)

theorem FixedTo.tick {r : RegId} {fly : List Fly} (h : FixedTo r fly) : FixedTo r (flyTick fly) := by
  intro f hf
  obtain ⟨f0, hf0, rfl⟩ := List.mem_map.1 hf
  exact h f0 (List.mem_filter.1 hf0).1

theorem FixedTo.repeat {r : RegId} (k : Nat) (q : SeqCore) (h : FixedTo r q.fly) : FixedTo r (Nat.repeat SeqCore.endPos k q).fly := by
  induction k with
  | zero => exact h
  | succ k ih => rw [Nat.repeat, SeqCore.endPos_fly]; exact ih.tick

/-- A result issued leaves of the results in flight to its one unit those that land before it. -/
theorem Overtaken.over {r : RegId} {j : Nat} {fly : List Fly} (h : FixedTo r fly) :
    Overtaken r j (flyOver r [0] (j + 1) fly) := by
  intro f hf hr
  obtain ⟨f0, hf0, rfl⟩ := List.mem_map.1 hf
  by_cases hc : f0.reg = r ∧ f0.op = none ∧ j + 1 ≤ f0.rest + 1
  · simp only [if_pos hc] at hr ⊢
    refine Or.inl ?_
    rcases h f0 hf0 hr with hv | ⟨-, hv⟩
    · simp [dropUnits, hv]
    · simp [dropUnits, List.filter_eq_nil_iff]
      exact fun a b hab => hv (a, b) hab
  · simp only [if_neg hc] at hr ⊢
    exact (h f0 hf0 hr).imp id (fun hn => by by_contra hlt; exact hc ⟨hr, hn.1, by omega⟩)

namespace SeqCore.Reads

variable {α : Type} {r : RegId} {read : SeqCore → α} {g : Nat → α}

theorem landOne_silent (hr : Reads r read g) (q : SeqCore) (f : Fly) (hf : f.reg = r → f.vals = []) : read (q.landOne f) = read q := by
  refine (hr.rest _ _ _).trans ?_
  by_cases he : f.reg = r
  · rw [hf he]
    rfl
  · generalize f.vals = vals
    induction vals generalizing q with
    | nil => rfl
    | cons v vals ih => exact (ih _).trans (hr.other q f.reg v.2 he)

theorem landOne_value (hr : Reads r read g) (q : SeqCore) (f : Fly) (u v : Nat) (he : f.reg = r) (hv : f.vals = [(u, v)]) :
    read (q.landOne f) = g v := by
  refine (hr.rest _ _ _).trans ?_
  rw [hv, he]
  exact hr.same q v

theorem foldl_silent (hr : Reads r read g) (now : List Fly) (q : SeqCore) (h : ∀ f ∈ now, f.reg = r → f.vals = []) :
    read (now.foldl SeqCore.landOne q) = read q := by
  induction now generalizing q with
  | nil => rfl
  | cons f now ih =>
    rw [List.foldl_cons, ih _ (fun x hx => h x (List.mem_cons_of_mem _ hx)), hr.landOne_silent _ _ (h f List.mem_cons_self)]

/-- A register to which nothing is in flight keeps its value. -/
theorem repeat_silent (hr : Reads r read g) (k : Nat) (q : SeqCore) (h : Overtaken r 0 q.fly) :
    read (Nat.repeat SeqCore.endPos k q) = read q ∧ Overtaken r 0 (Nat.repeat SeqCore.endPos k q).fly := by
  induction k with
  | zero => exact ⟨rfl, h⟩
  | succ k ih =>
    obtain ⟨hread, hfly⟩ := ih
    refine ⟨?_, by rw [Nat.repeat, SeqCore.endPos_fly]; exact hfly.tick⟩
    rw [← hread]
    refine (hr.foldl_silent _ _ (fun f hf he => ?_)).trans (hr.rest _ _ _)
    exact (hfly f (List.mem_filter.1 hf).1 he).resolve_right (Nat.not_lt_zero _)

end SeqCore.Reads

/-- The last entry of the results in flight brings v to unit u of r, j positions after this one; the other results to r land within m. -/
def LastToLand (r : RegId) (u v j m : Nat) (fly : List Fly) : Prop :=
  ∃ fly0 f, fly = fly0 ++ [f] ∧ f.reg = r ∧ f.vals = [(u, v)] ∧ f.rest = j ∧ Overtaken r m fly0

theorem LastToLand.tick {r : RegId} {u v j m : Nat} {fly : List Fly} (h : LastToLand r u v (j + 1) m fly) :
    LastToLand r u v j (m - 1) (flyTick fly) := by
  obtain ⟨fly0, f, rfl, hreg, hvals, hrest, hover⟩ := h
  refine ⟨flyTick fly0, { f with rest := f.rest - 1 }, ?_, hreg, hvals, by simp [hrest], hover.tick⟩
  rw [flyTick_append]
  simp [flyTick, hrest]

theorem LastToLand.due {r : RegId} {u v : Nat} {fly : List Fly} (h : LastToLand r u v 0 0 fly) :
    ∃ now f, flyNow fly = now ++ [f] ∧ f.reg = r ∧ f.vals = [(u, v)] ∧ Overtaken r 0 (flyTick fly) := by
  obtain ⟨fly0, f, rfl, hreg, hvals, hrest, hover⟩ := h
  refine ⟨flyNow fly0, f, ?_, hreg, hvals, ?_⟩
  · rw [flyNow_append]
    simp [flyNow, hrest]
  · rw [flyTick_append]
    have h : flyTick [f] = [] := by simp [flyTick, hrest]
    rw [h, List.append_nil]
    exact hover.tick

/-- A result issued for the one unit of r is the last to land there. -/
theorem SeqCore.issue_lastToLand (q : SeqCore) (r : RegId) (v L : Nat) (hL : 1 ≤ L) (h : FixedTo r q.fly) :
    LastToLand r 0 v (L - 1) (L - 1) (q.issue { reg := r, vals := [(0, v)], lat := L }).fly := by
  refine ⟨flyOver r [0] L q.fly, _, rfl, rfl, rfl, rfl, ?_⟩
  have hL' : L = L - 1 + 1 := by omega
  rw [hL']
  exact Overtaken.over h

theorem flyOver_silent {r : RegId} {fly : List Fly} (us : List Nat) (lat : Nat) (h : ∀ f ∈ fly, f.reg = r → f.vals = []) :
    ∀ f ∈ flyOver r us lat fly, f.reg = r → f.vals = [] := by
  intro f hf hr
  obtain ⟨f0, hf0, rfl⟩ := List.mem_map.1 hf
  by_cases hc : f0.reg = r ∧ f0.op = none ∧ lat ≤ f0.rest + 1
  · simp [hc, dropUnits, h f0 hf0 hc.1]
  · simp only [if_neg hc] at hr ⊢
    exact h f0 hf0 hr

theorem SeqCore.issue_onlyToLand (q : SeqCore) (r : RegId) (v L : Nat) (h : ∀ f ∈ q.fly, f.reg = r → f.vals = []) :
    LastToLand r 0 v (L - 1) 0 (q.issue { reg := r, vals := [(0, v)], lat := L }).fly :=
  ⟨flyOver r [0] L q.fly, _, rfl, rfl, rfl, rfl, fun f hf he => Or.inl (flyOver_silent [0] L h f hf he)⟩

namespace SeqCore.Reads

variable {α : Type} {r : RegId} {read : SeqCore → α} {g : Nat → α}

/-- Before the result lands, the register keeps its value. -/
theorem repeat_before (hr : Reads r read g) {u v : Nat} (k : Nat) (j : Nat) (q : SeqCore) (h : LastToLand r u v (k + j) 0 q.fly) :
    read (Nat.repeat SeqCore.endPos k q) = read q ∧ LastToLand r u v j 0 (Nat.repeat SeqCore.endPos k q).fly := by
  induction k generalizing j with
  | zero => exact ⟨rfl, by rwa [Nat.zero_add] at h⟩
  | succ k ih =>
    obtain ⟨hread, hfly⟩ := ih (j + 1) (by rwa [Nat.add_right_comm, Nat.add_assoc] at h)
    refine ⟨?_, by rw [Nat.repeat, SeqCore.endPos_fly]; exact hfly.tick⟩
    rw [← hread]
    refine (hr.foldl_silent _ _ (fun f hf he => ?_)).trans (hr.rest _ _ _)
    obtain ⟨hmem, hrest⟩ := List.mem_filter.1 hf
    obtain ⟨fly0, f', heq, -, -, hj, hover⟩ := hfly
    rw [heq, List.mem_append, List.mem_singleton] at hmem
    rcases hmem with hmem | rfl
    · exact (hover f hmem he).resolve_right (Nat.not_lt_zero _)
    · simp [hj] at hrest

theorem repeat_tick {u v : Nat} (j m : Nat) (q : SeqCore) (h : LastToLand r u v j m q.fly) :
    LastToLand r u v 0 (m - j) (Nat.repeat SeqCore.endPos j q).fly := by
  suffices hs : ∀ k j', k + j' = j → LastToLand r u v j' (m - k) (Nat.repeat SeqCore.endPos k q).fly from hs j 0 rfl
  intro k
  induction k with
  | zero => rintro j' rfl; simpa [Nat.repeat] using h
  | succ k ih =>
    intro j' hk
    rw [Nat.repeat, SeqCore.endPos_fly]
    exact (ih (j' + 1) (by omega)).tick

/-- From the end of its position on, the register holds the result. -/
theorem repeat_after (hr : Reads r read g) {u v : Nat} (j m k : Nat) (q : SeqCore) (hm : m ≤ j) (h : LastToLand r u v j m q.fly) :
    read (Nat.repeat SeqCore.endPos (j + 1 + k) q) = g v := by
  have hdue := repeat_tick j m q h
  rw [Nat.sub_eq_zero_of_le hm] at hdue
  obtain ⟨now, f, hnow, hreg, hvals, hrest⟩ := hdue.due
  have hland : read (Nat.repeat SeqCore.endPos (j + 1) q) = g v := by
    change read ((flyNow (Nat.repeat SeqCore.endPos j q).fly).foldl SeqCore.landOne _) = g v
    rw [hnow, List.foldl_append]
    exact hr.landOne_value _ f u v hreg hvals
  rw [← hland]
  have hsplit : Nat.repeat SeqCore.endPos (j + 1 + k) q = Nat.repeat SeqCore.endPos k (Nat.repeat SeqCore.endPos (j + 1) q) := by
    induction k with
    | zero => rfl
    | succ k ih =>
      change SeqCore.endPos (Nat.repeat SeqCore.endPos (j + 1 + k) q) = _
      rw [ih]
      rfl
  rw [hsplit]
  exact (hr.repeat_silent k _ (by rw [Nat.repeat, SeqCore.endPos_fly]; exact hrest)).1

/-- A result alone in flight is read from its latency on, and not before. -/
theorem repeat_issue (hr : Reads r read g) (q : SeqCore) (v L k : Nat) (hL : 1 ≤ L) (h : ∀ f ∈ q.fly, f.reg = r → f.vals = []) :
    read (Nat.repeat SeqCore.endPos k (q.issue { reg := r, vals := [(0, v)], lat := L })) = if L ≤ k then g v else read q := by
  have hlast := q.issue_onlyToLand r v L h
  split
  · rename_i hk
    have := hr.repeat_after (L - 1) 0 (k - L) _ (Nat.zero_le _) hlast
    rwa [show L - 1 + 1 + (k - L) = k by omega] at this
  · rename_i hk
    rw [show L - 1 = k + (L - 1 - k) by omega] at hlast
    exact (hr.repeat_before k _ _ hlast).1.trans (hr.rest q _ _)

end SeqCore.Reads

theorem SeqCore.reads_s (d : Nat) : SeqCore.Reads (.s d) (fun q => q.rS d) (BitVec.ofNat 64) where
  same q v := by simp [SeqCore.put, SeqCore.rS, SeqCore.wS, mapGet_mapSet]
  other q r v hne := by
    cases r with
    | s n =>
      have hn : d ≠ n := fun e => hne (by rw [e])
      simp [SeqCore.put, SeqCore.rS, SeqCore.wS, mapGet_mapSet, hn]
    | p n => simp only [SeqCore.put, SeqCore.wP]; split <;> rfl
    | _ => rfl
  rest _ _ _ := rfl

theorem tbit_wbit (w : Word) (i j : Nat) (b : Bool) (hj : j < 64) : tbit (wbit w i b) j = if j = i then b else tbit w j := by
  have hpow : (BitVec.ofNat 64 (2 ^ i)).getLsbD j = decide (j = i) := by
    rw [BitVec.getLsbD_ofNat, Nat.testBit_two_pow]
    simp [hj, eq_comm]
  unfold tbit wbit
  generalize BitVec.ofNat 64 (2 ^ i) = x at hpow
  cases b <;> by_cases h : j = i <;> simp_all

theorem SeqCore.reads_p (d : Nat) (hd : d < 64) (h0 : d ≠ 0) : SeqCore.Reads (.p d) (fun q => q.rP d) (fun v => v % 2 == 1) where
  same q v := by simp [SeqCore.put, SeqCore.rP, SeqCore.wP, h0, tbit_wbit _ _ _ _ hd]
  other q r v hne := by
    cases r with
    | p n =>
      have hn : d ≠ n := fun e => hne (by rw [e])
      simp only [SeqCore.put, SeqCore.wP, SeqCore.rP]
      split
      · rfl
      · simp [tbit_wbit _ _ _ _ hd, hn]
    | _ => rfl
  rest _ _ _ := rfl

end Sys2Proof.Machine

open Sys2Proof.Machine in
/-- Settles O9: the result issued last is the last entry of the results in flight; those that would land after it are discarded, so
from its position on nothing changes the register. -/
theorem resultsLandOnTime : Obligations.ResultsLandOnTime := by
  refine ⟨fun q d v L k hd hL _ hs hp => ⟨(SeqCore.reads_s d).repeat_issue q v L k hL hs, ?_⟩, ?_⟩
  · by_cases h0 : d = 0
    · simp [h0, SeqCore.rP]
    · have := (SeqCore.reads_p d hd h0).repeat_issue q (v % 2) L k hL hp
      simpa [h0, beq_eq_decide] using this
  · intro q d v1 v2 L1 L2 k n h1 h2 hs hn
    have hr := SeqCore.reads_s d
    have hfirst : FixedTo (.s d) (q.issue { reg := .s d, vals := [(0, v1)], lat := L1 }).fly := by
      intro f hf he
      rcases List.mem_append.1 hf with hf | hf
      · exact Or.inl (flyOver_silent [0] L1 hs f hf he)
      · rw [List.mem_singleton.1 hf]
        exact Or.inr ⟨rfl, by simp⟩
    have hfly := hfirst.repeat k
    have := hr.repeat_after (L2 - 1) _ (n - L2) _ (Nat.le_refl _) (SeqCore.issue_lastToLand _ _ v2 L2 h2 hfly)
    rwa [show L2 - 1 + 1 + (n - L2) = n by omega] at this
end

section
set_option Elab.async false

namespace Sys2Proof.Machine

/-! ## Results of a cell in flight -/

theorem CellCore.endPos_idle (q : CellCore) (h : q.fly = []) : q.endPos = q := by
  obtain ⟨⟩ := q
  cases h
  rfl

theorem CellCore.repeat_idle (k : Nat) (q : CellCore) (h : q.fly = []) : Nat.repeat CellCore.endPos k q = q := by
  induction k with
  | zero => rfl
  | succ k ih => rw [Nat.repeat, ih, q.endPos_idle h]

theorem CellCore.put_fly (q : CellCore) (r : RegId) (u v : Nat) : (q.put r u v).fly = q.fly := by
  cases r with
  | k n => simp only [CellCore.put, CellCore.wK]; split <;> rfl
  | _ => rfl

/-- The one result in flight, which lands after n more positions. -/
theorem CellCore.repeat_before (q : CellCore) (f : Fly) (n k : Nat) (h : k ≤ n) :
    Nat.repeat CellCore.endPos k { q with fly := [{ f with rest := n }] } = { q with fly := [{ f with rest := n - k }] } := by
  induction k with
  | zero => rfl
  | succ k ih =>
    have hne : n - k ≠ 0 := by omega
    rw [Nat.repeat, ih (by omega)]
    simp [CellCore.endPos, flyNow, flyTick, hne, Nat.sub_sub]

/-- It lands at the end of its position, and nothing lands after it. -/
theorem CellCore.repeat_after (q : CellCore) (f : Fly) (n k : Nat) (h : n < k)
    (hland : (({ q with fly := [] } : CellCore).landOne { f with rest := 0 }).fly = []) :
    Nat.repeat CellCore.endPos k { q with fly := [{ f with rest := n }] }
      = ({ q with fly := [] } : CellCore).landOne { f with rest := 0 } := by
  induction k with
  | zero => omega
  | succ k ih =>
    rw [Nat.repeat]
    by_cases hk : n < k
    · rw [ih hk, CellCore.endPos_idle _ hland]
    · obtain rfl : k = n := by omega
      rw [q.repeat_before f k k (Nat.le_refl _)]
      simp [CellCore.endPos, flyNow, flyTick]

/-- A result alone in flight in a cell: in flight up to its latency, landed from then on. -/
theorem CellCore.repeat_issue (q : CellCore) (w : Write) (k : Nat) (hL : 1 ≤ w.lat) (hq : q.fly = []) :
    let f : Fly := { reg := w.reg, vals := w.vals, flags := w.flags, ein := w.ein, rest := 0, op := none }
    let q' : CellCore := { q with pend := pendCancel w.reg (w.vals.map Prod.fst) q.pend }
    (q'.landOne f).fly = [] →
    Nat.repeat CellCore.endPos k (q.issue w) = if w.lat ≤ k then q'.landOne f else { q' with fly := [{ f with rest := w.lat - 1 - k }] } := by
  intro f q' hland
  have hissue : q.issue w = { q' with fly := [{ f with rest := w.lat - 1 }] } := by simp [CellCore.issue, q', f, hq, flyOver]
  have hq' : { q' with fly := [] } = q' := by
    change { q' with fly := [] } = { q' with fly := q.fly }
    rw [hq]
  rw [hissue]
  split
  · rw [q'.repeat_after f (w.lat - 1) k (by omega) (by rw [hq']; exact hland), hq']
  · exact q'.repeat_before f (w.lat - 1) k (by omega)

end Sys2Proof.Machine

open Sys2Proof.Machine in
/-- Settles O28: the one result in flight lands as a whole when its positions have passed; before, nothing but the list of results differs. -/
theorem cellResultsLand : Obligations.CellResultsLand := by
  constructor
  · intro q n u v L k fl hu hL hv hq a b
    have hV : a = _ := q.repeat_issue { reg := .v n, vals := [(u, v)], lat := L, flags := fl } k hL hq hq
    have hX : b = _ := q.repeat_issue { reg := .x n, vals := [(0, v)], lat := L, flags := fl } k hL hq hq
    rw [hV, hX]
    by_cases hk : L ≤ k
    · simp only [if_pos hk]
      refine ⟨?_, ?_, ?_, ?_, rfl, rfl⟩
      · exact (mapGet_mapSet _ _ _ _ _).trans (if_pos rfl)
      · intro m w hw hne
        refine (mapGet_mapSet _ _ _ _ _).trans (if_neg ?_)
        omega
      · exact (mapGet_mapSet _ _ _ _ _).trans (if_pos rfl)
      · intro m hm
        exact (mapGet_mapSet _ _ _ _ _).trans (if_neg hm)
    · rw [if_neg hk, if_neg hk, if_neg hk, if_neg hk, if_neg hk]
      exact ⟨rfl, fun _ _ _ _ => rfl, rfl, fun _ _ => rfl, rfl, rfl⟩
  · intro q n m i j b hi hj
    refine ⟨if_pos rfl, ?_⟩
    by_cases hn : n = 0
    · subst hn
      simp [CellCore.wK]
    · have hw : (q.wK n i b) = { q with k := mapSet 0 q.k n (wbit (mapGet 0 q.k n) i b) } := if_neg hn
      rw [hw]
      unfold CellCore.rK
      by_cases hm : m = 0
      · have hmn : m ≠ n := fun e => hn (e ▸ hm)
        simp [hm, Ne.symm hn]
      · simp only [if_neg hm, mapGet_mapSet]
        by_cases he : m = n
        · have := tbit_wbit (mapGet 0 q.k n) i j b hj
          simpa [he, hn, tbit] using this
        · simp [he]
end

section
set_option Elab.async false

namespace Sys2Proof.Machine

/-! ## Words of one slot

An instruction of the sequencer executed alone issues the word of its slot; a scalar slot acts exactly where its guard
holds, and a word whose slot does not act passes its position. -/

theorem exec_issueSlot {i : Instr} {r : Raw} (hr : i.raw = some r) (hk : r.kind.bits = 32) : ∃ fx, ∀ s, exec i s = s.issueSlot r fx := by
  cases i
  all_goals cases hr
  all_goals cases hk
  all_goals exact ⟨_, fun _ => rfl⟩

/-- A slot acts unless it is a scalar one, not SEL, whose guard does not hold (R46). -/
theorem slotActs_eq (q : SeqCore) (r : Raw) : slotActs q r = (r.kind != .scalar || r.op == 0x1F || q.holds r.guard) := rfl

theorem slotActs_false {q : SeqCore} {r : Raw} (hk : r.kind = .scalar) (hop : r.op ≠ 0x1F) (hg : q.holds r.guard = false) :
    slotActs q r = false := by
  simp [slotActs_eq, hk, hop, hg]

/-- A word whose scalar slot does not act passes its position (R46). -/
theorem State.issueSlot_idle (s : State) (r : Raw) (fx : SeqMeaning) (hi : s.canIssue) (hp : s.passes r) (hk : r.kind = .scalar)
    (hact : slotActs s.core r = false) : s.issueSlot r fx = .next (s.wordDone r (fun x => x.issued []) s.nextPc) := by
  obtain ⟨hleg, -, htok, -⟩ := hp
  obtain ⟨h0, h1, hx, hna⟩ := (wordOf_blank r).1 hk
  obtain ⟨hwait, hbc, hlit⟩ := blankSlot_x s _ hx
  have hcan := s.canIssue_ok hi
  have hhold := s.mergeHold_none (wordOf r).x hi hwait (by simp [hbc])
  have hnoread : readsPending s.core r = false := by simp [readsPending, hact]
  have hbr : broadcasts r = false := by simp [broadcasts, hk]
  have hown := s.tokenFault_none r htok hbr
  have hblank := fun (b : Raw) (hb : blankSlot b) => blankSlot_checks s s.sel s.me b hb
  have hacts : ∀ b, blankSlot b → slotActs (s.rc s.sel).core b = true := fun b hb => (hblank b hb).2.2.2.2.2.2
  have hreads : ∀ b, blankSlot b → readsPending (s.rc s.sel).core b = false := fun b hb => (hblank b hb).2.2.2.2.2.1
  have hnop : blankSlot Raw.nop := .inl rfl
  have hseq : blankSlot Raw.seq := .inr (.inr (.inl rfl))
  have hchecks : s.wordChecks s.sel (s.rc s.sel) [⟨r, slS0, fx⟩, ⟨.nop, slS1, fxNone⟩, ⟨(wordOf r).x, slX, fxNone⟩, ⟨.seq, slNA, fxNone⟩] = none := by
    refine s.wordChecks_none _ hi.1 fun w hw => ?_
    have hof : ∀ b, blankSlot b → csrBad s.sel b = false ∧ bcastIdxOk s.me b = true ∧ (privileged b = true → s.me.priv = true)
        ∧ (b.kind == .na && b.op == 7 && !s.me.hact) = false ∧ s.tokenFault s.me b = false
        ∧ (tbit s.core.sstat 8 = true → readsPending s.core b = false) := by
      intro b hb
      obtain ⟨hcsr, hidx, hpriv, hrft, htk, hrd, -⟩ := hblank b hb
      exact ⟨hcsr, hidx, by simp [hpriv], hrft, htk, fun _ => hrd⟩
    simp only [List.mem_cons, List.not_mem_nil, or_false] at hw
    rcases hw with rfl | rfl | rfl | rfl
    · exact ⟨by simp [csrBad, hk], by simp [bcastIdxOk, hk], by simp [privileged, hk], by simp [hk], hown, fun _ => hnoread⟩
    · exact hof _ hnop
    · exact hof _ hx
    · exact hof _ hseq
  have hne : s.sel ≠ ateIdx := by have := hi.1; simp only [ateIdx]; omega
  have hact' : slotActs (s.rc s.sel).core r = false := hact
  have hnoread' : readsPending (s.rc s.sel).core r = false := hnoread
  have hslX : (if slS0 = slX then fx else fxNone) = fxNone := rfl
  have hslNA : (if slS0 = slNA then fx else fxNone) = fxNone := rfl
  unfold State.issueSlot
  simp only [hleg, Bool.not_true, Bool.false_eq_true, if_false, hk, if_true, h0, h1, hna, hslX, hslNA]
  unfold State.issueWord
  simp only [hcan, hhold, hchecks, hlit]
  simp only [runSlots, SeqEnv.q, hacts _ hnop, hacts _ hseq, hacts _ hx, hact', hreads _ hnop, hreads _ hseq,
    hreads _ hx, hnoread', if_true, if_false, Bool.false_eq_true, fxNone, pureFx, List.findSome?, slotOrder, hne, false_and, List.any, Bool.or_false]
  rw [(s.finishWord_one s.sel {} _ _).1]
  have hset := s.finishOne_set r [] id none s.nextPc (s.rc_lt s.sel hi.2.1)
  rw [hnoread] at hset
  exact congrArg _ hset

/-- The slots that are checked for nothing but what every slot is: scalar slots, context registers, FEAT. -/
def plainSlot (r : Raw) : Bool := r.kind == .scalar || r.kind == .ctx || (r.kind == .x && r.op == 0xA)

theorem plain_checks (s : State) {r : Raw} (h : plainSlot r = true) :
    waitsHolds s.core r = true ∧ broadcasts r = false ∧ csrBad s.sel r = false ∧ (r.kind == .na && r.op == 7 && !s.me.hact) = false := by
  simp only [plainSlot, Bool.or_eq_true, Bool.and_eq_true, beq_iff_eq, or_assoc] at h
  rcases h with h | h | ⟨h, hop⟩
  · simp [waitsHolds, broadcasts, csrBad, h]
  · simp [waitsHolds, broadcasts, csrBad, h]
  · simp [waitsHolds, broadcasts, csrBad, h, hop]

/-- A word that issues results and acts. -/
theorem State.issueSlot_writes (s : State) (r : Raw) (fx : SeqMeaning) (ws : List Write) (hi : s.canIssue) (hp : s.passes r)
    (h : plainSlot r = true) (hact : slotActs s.core r = true)
    (hf : fx { c := s.sel, rc := s.me, lit := r.kind == .x && r.op == 2 } s = .ok (s, { writes := ws })) :
    s.issueSlot r fx = .next (s.wordDone r (fun x => x.issued ws) s.nextPc) := by
  obtain ⟨hwait, hbc, hcsr, hrft⟩ := plain_checks s h
  exact s.issueSlot_set r fx ws id none hi hp hwait hbc hcsr hrft hact hf

/-- Every scalar row but NOP begins with the guard, in bits 18 to 24 (R46). -/
theorem scalarRows_guard : ∀ row ∈ SlotKind.scalar.rows, row = ⟨0, [], []⟩ ∨ row.fields.head? = some ⟨18, 7, .any, .pg⟩ := by
  decide +kernel

theorem guard_encode {r : Raw} (hleg : r.legal = true) (hk : r.kind = .scalar) : r.guard = r.encode / 2 ^ 18 % 128 := by
  obtain ⟨row, hrow, ht, hop, hok, henc⟩ := Raw.legal_row hleg
  have huses : r.uses = (row.fields.map Field.use).zip r.ops := by simp only [Raw.uses, hrow]
  rw [hk] at hrow ht henc
  rcases scalarRows_guard row (rowOf_some hrow).1 with rfl | hhead
  · rw [henc, Raw.guard, huses]
    simp [encodeRow, encodeFields]
  · obtain ⟨fs, hfs⟩ : ∃ fs, row.fields = ⟨18, 7, .any, .pg⟩ :: fs := by
      cases h : row.fields with
      | nil => simp [h] at hhead
      | cons f fs => rw [h] at hhead; cases hhead; exact ⟨fs, rfl⟩
    cases hops : r.ops with
    | nil => simp [hfs, hops, fieldsOk] at hok
    | cons g ops =>
      have hread := fld_encodeRow ht hok (p := ⟨(18, 7), g⟩) (by simp [Row.pieces, fieldPieces, hfs, hops])
      rw [hops] at hread
      rw [henc, Raw.guard, huses, hfs, hops]
      exact hread.symm

end Sys2Proof.Machine

open Sys2Proof.Machine in
/-- Settles O7: a slot whose guard is false does not run, so its word is one of no results; SEL's meaning reads the guard itself. -/
theorem guardsAndSel : Obligations.GuardsAndSel := by
  refine ⟨fun r => guard_encode, fun q g => ⟨rfl, rfl, fun hg => ⟨?_, ?_⟩⟩, ?_, ?_, ?_⟩
  · simp [SeqCore.holds, Nat.mod_eq_of_lt hg, Nat.not_le.2 hg]
  · simp [SeqCore.holds, Nat.mod_eq_of_lt hg]
  · intro i s r hr hk hop hi hp hg
    obtain ⟨fx, hexec⟩ := exec_issueSlot hr (by rw [hk]; rfl)
    rw [hexec]
    exact s.issueSlot_idle r fx hi hp hk (slotActs_false hk hop hg)
  · intro g d a b s r hr hi hp
    cases hr
    exact s.issueSlot_writes _ _ _ hi hp rfl rfl rfl
  · intro q v n
    rfl
end

section
set_option Elab.async false

namespace Sys2Proof.Machine

/-! ## What a scalar word leaves unchanged -/

/-- What the results to one register that land make of its value. -/
def landValues {α : Type} (g : Nat → α) (x : α) (f : Fly) : α := f.vals.foldl (fun _ p => g p.2) x

namespace SeqCore.Reads

variable {α : Type} {r : RegId} {read : SeqCore → α} {g : Nat → α}

theorem landOne (hr : Reads r read g) (q : SeqCore) (f : Fly) :
    read (q.landOne f) = if f.reg = r then landValues g (read q) f else read q := by
  by_cases he : f.reg = r
  · rw [if_pos he]
    refine (hr.rest _ _ _).trans ?_
    rw [landValues, he]
    generalize f.vals = vals
    induction vals generalizing q with
    | nil => rfl
    | cons v vals ih => rw [List.foldl_cons, ih, List.foldl_cons, hr.same]
  · rw [if_neg he]
    exact hr.landOne_silent q f (fun h => absurd h he)

/-- What is read after a position depends on the results in flight to the register alone. -/
theorem endPos (hr : Reads r read g) (q : SeqCore) :
    read q.endPos = ((q.fly.filter (fun f => f.reg = r)).filter (fun f => f.rest = 0)).foldl (landValues g) (read q) := by
  have hland : ∀ (now : List Fly) (q : SeqCore),
      read (now.foldl SeqCore.landOne q) = (now.filter (fun f => f.reg = r)).foldl (landValues g) (read q) := by
    intro now
    induction now with
    | nil => intro q; rfl
    | cons f now ih =>
      intro q
      rw [List.foldl_cons, ih, hr.landOne, List.filter_cons]
      by_cases he : f.reg = r <;> simp [he]
  refine (hland _ _).trans ?_
  rw [flyNow, List.filter_filter, List.filter_filter]
  simp only [Bool.and_comm]
  rw [hr.rest q (flyTick q.fly) q.pend]

/-- A result issued for another register changes nothing that is read at the end of the position. -/
theorem endPos_issue (hr : Reads r read g) (ws : List Write) (q : SeqCore) (h : ∀ w ∈ ws, w.reg ≠ r) :
    read (ws.foldl SeqCore.issue q).endPos = read q.endPos := by
  induction ws generalizing q with
  | nil => rfl
  | cons w ws ih =>
    have hw := h w List.mem_cons_self
    rw [List.foldl_cons, ih _ (fun x hx => h x (List.mem_cons_of_mem _ hx)), hr.endPos, hr.endPos]
    have hread : read (q.issue w) = read q := hr.rest q _ _
    have hfly : (q.issue w).fly.filter (fun f => f.reg = r) = q.fly.filter (fun f => f.reg = r) := by
      change (flyOver w.reg (w.vals.map Prod.fst) w.lat q.fly ++ [_]).filter _ = _
      rw [List.filter_append, List.filter_cons_of_neg (by simpa using hw), List.filter_nil, List.append_nil]
      induction q.fly with
      | nil => rfl
      | cons f fly ihf =>
        rw [flyOver, List.map_cons]
        by_cases he : f.reg = r
        · have hne : ¬(f.reg = w.reg ∧ f.op = none ∧ w.lat ≤ f.rest + 1) := fun hc => hw (hc.1.symm.trans he)
          rw [if_neg hne, List.filter_cons_of_pos (by simpa using he), List.filter_cons_of_pos (by simpa using he)]
          exact congrArg _ ihf
        · have hreg : (if f.reg = w.reg ∧ f.op = none ∧ w.lat ≤ f.rest + 1 then { f with vals := dropUnits (w.vals.map Prod.fst) f.vals } else f).reg = f.reg := by
            split <;> rfl
          rw [List.filter_cons_of_neg (by rw [hreg]; simpa using he), List.filter_cons_of_neg (by simpa using he)]
          exact ihf
    rw [hread, hfly]

end SeqCore.Reads

theorem SeqCore.reads_h (d : Nat) : SeqCore.Reads (.h d) (fun q => q.rH d) (BitVec.ofNat 64) where
  same q v := by simp [SeqCore.put, SeqCore.rH, SeqCore.wH, mapGet_mapSet]
  other q r v hne := by
    cases r with
    | h n =>
      have hn : d ≠ n := fun e => hne (by rw [e])
      simp [SeqCore.put, SeqCore.rH, SeqCore.wH, mapGet_mapSet, hn]
    | p n => simp only [SeqCore.put, SeqCore.wP]; split <;> rfl
    | _ => rfl
  rest _ _ _ := rfl

/-- A predicate keeps what it reads at the end of a position when results for other registers are issued. -/
theorem SeqCore.rP_endPos_issue (ws : List Write) (q : SeqCore) (n : Nat) (h : ∀ w ∈ ws, w.reg ≠ .p n) :
    (ws.foldl SeqCore.issue q).endPos.rP n = q.endPos.rP n := by
  by_cases h0 : n = 0
  · simp [SeqCore.rP, h0]
  · by_cases hn : n < 64
    · exact (SeqCore.reads_p n hn h0).endPos_issue ws q h
    · have hge : ∀ x : SeqCore, x.rP n = false := fun x => by
        simp [SeqCore.rP, h0, tbit, BitVec.getLsbD_of_ge x.p n (by omega)]
      rw [hge, hge]

theorem SeqCore.issue_sameRest (q : SeqCore) (w : Write) : q.SameRest (q.issue w) := rfl

/-- The registers that results issued at a position and the position's end may change. -/
theorem Rec.issued_sameRest (r : Rec) (ws : List Write) : r.core.SameRest (r.issued ws).core :=
  (SeqCore.SameRest.foldl SeqCore.issue_sameRest ws r.core).trans (SeqCore.endPos_sameRest _)

/-- The scalar words' results are for registers s and p. -/
def toScalar : RegId → Bool
  | .s _ | .p _ => true
  | _ => false

/-- The words of ScalarResults issue results for the registers that those name. -/
theorem exec_readWrites {i : Instr} {s : State} {r : Raw} {ws : List Write} (hr : i.raw = some r) (hw : readWrites s i = some ws) :
    ∃ fx ws', exec i s = s.issueSlot r fx ∧ fx { c := s.sel, rc := s.me, lit := r.kind == .x && r.op == 2 } s = .ok (s, { writes := ws' })
      ∧ ws'.map Write.reg = ws.map Write.reg ∧ ws.all (fun w => toScalar w.reg) = true ∧ plainSlot r = true := by
  cases i
  all_goals cases hw
  all_goals cases hr
  case stop => exact ⟨_, _, rfl, rfl, rfl, rfl, rfl⟩
  all_goals refine ⟨_, _, rfl, rfl, ?_, rfl, rfl⟩
  all_goals simp only [one, List.map_cons, List.map_nil]

/-- Such a word issues results for registers among those, or, where its guard does not hold, none. -/
theorem exec_issues {i : Instr} {s : State} {r : Raw} {ws : List Write} (hr : i.raw = some r) (hw : readWrites s i = some ws) (hi : s.canIssue)
    (hp : s.passes r) : ∃ ws', exec i s = .next (s.wordDone r (fun x => x.issued ws') s.nextPc)
      ∧ (∀ x, (∀ w ∈ ws, w.reg ≠ x) → ∀ w ∈ ws', w.reg ≠ x) ∧ ∀ w ∈ ws', ∀ n, w.reg ≠ .h n := by
  obtain ⟨fx, ws', hexec, hfx, hregs, hscalar, hplain⟩ := exec_readWrites hr hw
  rw [hexec]
  have hmem : ∀ w ∈ ws', ∃ w0 ∈ ws, w0.reg = w.reg := fun w hx => by
    have : w.reg ∈ ws.map Write.reg := hregs ▸ List.mem_map_of_mem hx
    exact List.mem_map.1 this
  cases hact : slotActs s.core r with
  | true =>
    refine ⟨ws', s.issueSlot_writes r fx ws' hi hp hplain hact hfx, fun x hx w hw' => ?_, fun w hw' n he => ?_⟩
    · obtain ⟨w0, hw0, he⟩ := hmem w hw'
      exact he ▸ hx w0 hw0
    · obtain ⟨w0, hw0, he0⟩ := hmem w hw'
      have := List.all_eq_true.1 hscalar w0 hw0
      rw [he0, he] at this
      cases this
  | false =>
    have hk : r.kind = .scalar := by
      by_contra hne
      simp [slotActs_eq, hne] at hact
    exact ⟨[], s.issueSlot_idle r fx hi hp hk hact, by simp, by simp⟩

theorem State.me_wordDone (s : State) (r : Raw) (ws : List Write) (npc : BitVec 18) (hl : s.sel < s.recs.length) :
    let u := readsPending s.core r
    let q := (s.me.issued ws).core
    (s.wordDone r (fun x => x.issued ws) npc).me = { s.me with
      core := { q with pc := npc, sstat := if u then wbit q.sstat 0 true else q.sstat }
      wordcnt := s.me.wordcnt + 1
      notes := if u then (s.me.note (.underwait s.core.inn none)).notes else s.me.notes } :=
  s.rc_setRec_self s.sel _ hl

end Sys2Proof.Machine

open Sys2Proof.Machine in
/-- Settles O8: the word issues results for the registers it writes alone; what another register reads at the end of the position
depends on the results in flight to that register. -/
theorem scalarFrame : Obligations.ScalarFrame := by
  intro i s t r ws hr hw hi hp ht
  obtain ⟨ws', hexec, hregs, hh⟩ := exec_issues hr hw hi hp
  have hl := s.rc_lt s.sel hi.2.1
  obtain rfl : s.wordDone r (fun x => x.issued ws') s.nextPc = t := by
    rw [hexec] at ht
    exact Host.Outcome.next.inj ht
  have hme := s.me_wordDone r ws' s.nextPc hl
  have hcore : (s.wordDone r (fun x => x.issued ws') s.nextPc).core = _ := congrArg Rec.core hme
  have hrest : (s.me.issued ws').core = _ := s.me.issued_sameRest ws'
  have hsstat : (s.me.issued ws').core.sstat = s.core.sstat := by rw [hrest]; rfl
  refine ⟨rfl, fun _ => rfl, fun k hk => s.rc_setRec_ne s.sel k _ hk, ?_, ?_, ?_, fun n hn => ?_, fun n hn => ?_, fun n => ?_⟩
  · rw [hcore, hme]
  · rw [hcore, hrest]
    rfl
  · rw [hcore]
    simp only [hsstat]
    rfl
  · rw [hcore]
    exact (SeqCore.reads_s n).endPos_issue ws' s.core (hregs _ hn)
  · rw [hcore]
    exact SeqCore.rP_endPos_issue ws' s.core n (hregs _ hn)
  · rw [hcore]
    exact (SeqCore.reads_h n).endPos_issue ws' s.core (fun w hw' => hh w hw' n)
end

section
set_option Elab.async false

namespace Sys2Proof

/-! ## The instruction of a decoded slot -/

theorem tyCode_tyOf {v : Nat} (h : v < 8) (h3 : v ≠ 3) : tyCode (tyOf v) = v := by
  revert v
  decide

theorem rmCode_rmOf {v : Nat} (h : v < 6) : rmCode (rmOf v) = v := by
  revert v
  decide

theorem ccCode_ccOf {v : Nat} (h : v < 6) : ccCode (ccOf v) = v := by
  revert v
  decide

theorem ordCode_ordOf {v : Nat} (h : v < 4) : ordCode (ordOf v) = v := by
  revert v
  decide

theorem scopeCode_scopeOf {v : Nat} (h : v < 5) : scopeCode (scopeOf v) = v := by
  revert v
  decide

theorem bit_decide {v : Nat} (h : v < 2) : bit (decide (v = 1)) = v := by
  revert v
  decide

theorem fieldsOk_cons {f : Field} {fs : List Field} {ops : List Nat} (h : fieldsOk (f :: fs) ops = true) :
    ∃ v vs, ops = v :: vs ∧ fieldsOk fs vs = true := by
  cases ops with
  | nil => cases h
  | cons v vs => exact ⟨v, vs, rfl, (Bool.and_eq_true_iff.mp h).2⟩

theorem fieldsOk_nil {ops : List Nat} (h : fieldsOk [] ops = true) : ops = [] := by
  cases ops with
  | nil => rfl
  | cons v vs => cases h

/-- The operands of an instruction read from a legal slot are those of the slot: each code of the slot is one that its field admits. -/
theorem raw_instrOf {r : Raw} {i : Instr} (h : r.legal = true) (hi : instrOf r = some i) : i.raw = some r := by
  obtain ⟨row, hrow, -, -, hok, -⟩ := Raw.legal_row h
  obtain ⟨kind, op, ops⟩ := r
  clear h
  cases kind
  all_goals dsimp only [instrOf, scalarInstr, naInstr, xInstr, memInstr, engInstr, csrInstr, ctxInstr, vInstr, convInstr, mxInstr, lsInstr,
    xfInstr, ctInstr] at hi hok hrow
  all_goals split at hi
  all_goals cases hi
  all_goals cases hrow
  all_goals have hops := hok
  all_goals repeat (replace hops := fieldsOk_cons hops; obtain ⟨_, _, rfl, hops⟩ := hops)
  all_goals obtain rfl := fieldsOk_nil hops
  all_goals simp only [fieldsOk, Chk.ok, Bool.and_eq_true, Bool.or_eq_true, decide_eq_true_eq, beq_iff_eq] at hok
  all_goals refine Eq.trans (b := some _) rfl ?_
  all_goals simp (disch := omega) only [List.getD_cons_zero, List.getD_cons_succ, tyCode_tyOf, rmCode_rmOf, ccCode_ccOf, ordCode_ordOf,
    scopeCode_scopeOf, bit_decide]

end Sys2Proof

namespace Sys2Proof.Machine

/-- An instruction that a slot of a word holds issues that slot. -/
theorem exec_instrOf {r r' : Raw} {i : Instr} (hi : instrOf r = some i) (hr : i.raw = some r') (hk : r.kind.bits = 32) (s : State) :
    exec i s = s.issueSlot r' (seqFx r) := by
  obtain ⟨kind, op, ops⟩ := r
  cases kind
  all_goals cases hk
  all_goals dsimp only [instrOf, seqFx] at hi ⊢
  all_goals generalize (fun i => ops.getD i 0) = o at hi ⊢
  all_goals dsimp only [scalarInstr, naInstr, xInstr, memInstr, engInstr, csrInstr, ctxInstr] at hi
  all_goals split at hi
  all_goals cases hi
  all_goals cases hr
  all_goals rfl

/-- An instruction that a slot of a bundle holds issues that slot. -/
theorem exec_instrOf_lane {r r' : Raw} {i : Instr} (hi : instrOf r = some i) (hr : i.raw = some r') (hk : r.kind.bits = 64) (s : State) :
    exec i s = s.issueLane r' (cellFxOf r) := by
  obtain ⟨kind, op, ops⟩ := r
  cases kind
  all_goals cases hk
  all_goals dsimp only [instrOf, cellFxOf] at hi ⊢
  all_goals generalize (fun i => ops.getD i 0) = o at hi ⊢
  all_goals dsimp only [vInstr, convInstr, mxInstr, lsInstr, xfInstr, ctInstr] at hi
  all_goals split at hi
  all_goals cases hi
  all_goals cases hr
  all_goals rfl

/-! ## The next word

Only a next-address slot names the next word; SEQ names the one that follows, as a word does whose next-address slot names none. -/

/-- A meaning that leaves the next word to the next-address slot. -/
def GoesOn (m : SeqMeaning) : Prop := ∀ e s x, m e s = .ok x → x.2.npc = none

namespace GoesOn

theorem of_pure {f : SeqEnv → SeqFx} (h : ∀ e, (f e).npc = none) : GoesOn (pureFx f) := by
  intro e s x hx
  cases hx
  exact h e

theorem csrOp {num d f} : GoesOn (csrOp num d f) := by
  intro e s x hx
  unfold Machine.csrOp at hx
  extract_lets old out at hx
  split at hx
  · split at hx <;> cases hx
    rfl
  · cases hx
    rfl

theorem red {grp op ty dc ts d} : GoesOn (fxRed grp op ty dc ts d) := by
  intro e s x hx
  unfold fxRed at hx
  split at hx <;> cases hx
  rfl

theorem ldg {n ord sc ts d a} : GoesOn (ldg n ord sc ts d a) := by
  intro e s x hx
  unfold Machine.ldg at hx
  split at hx <;> cases hx
  rfl

theorem stg {n ord sc ts d a} : GoesOn (stg n ord sc ts d a) := by
  intro e s x hx
  unfold Machine.stg at hx
  split at hx <;> cases hx
  rfl

theorem seqAtomic {n b f ord sc ts dest a v} : GoesOn (seqAtomic n b f ord sc ts dest a v) := by
  intro e s x hx
  unfold Machine.seqAtomic at hx
  split at hx <;> cases hx
  rfl

theorem seqAtomic2 {b f ord sc ts d e2 a} : GoesOn (seqAtomic2 b f ord sc ts d e2 a) := seqAtomic

theorem acas {ord sc ts d e2 a} : GoesOn (fxAcas ord sc ts d e2 a) := fun _ _ _ hx => seqAtomic _ _ _ hx

theorem fence {ord sc ts} : GoesOn (fxMemFence ord sc ts) := of_pure fun e => by
  dsimp only
  split <;> rfl

theorem seqRefLoad {n ord sc ts r d dest} : GoesOn (seqRefLoad n ord sc ts r d dest) := by
  intro e s x hx
  unfold Machine.seqRefLoad at hx
  split at hx <;> cases hx
  rfl

theorem seqRefStore {n ord sc ts r d v} : GoesOn (seqRefStore n ord sc ts r d v) := by
  intro e s x hx
  unfold Machine.seqRefStore at hx
  split at hx <;> cases hx
  rfl

theorem pin {ord sc ts d r} : GoesOn (fxMemPin ord sc ts d r) := by
  intro e s x hx
  unfold fxMemPin at hx
  split at hx <;> cases hx
  rfl

theorem unpin {ord sc ts r} : GoesOn (fxMemUnpin ord sc ts r) := by
  intro e s x hx
  unfold fxMemUnpin at hx
  split at hx <;> cases hx
  rfl

theorem eng {cls desc ts acq rel sc bp} : GoesOn (eng cls desc ts acq rel sc bp) := by
  intro e s x hx
  unfold Machine.eng at hx
  extract_lets d m at hx
  split at hx <;> cases hx <;> rfl

theorem enq {desc ts acq rel sc bp} : GoesOn (fxEnq desc ts acq rel sc bp) := by
  intro e s x hx
  unfold fxEnq at hx
  extract_lets d pasid qid slot full rsv ok at hx
  split at hx
  · cases hx
  · split at hx <;> cases hx <;> rfl

theorem ldsLoad {d a off n signed} : GoesOn (ldsLoad d a off n signed) := by
  intro e s x hx
  unfold Machine.ldsLoad at hx
  dsimp only at hx
  split at hx <;> cases hx
  rfl

theorem ldsStore {v a off n} : GoesOn (ldsStore v a off n) := by
  intro e s x hx
  unfold Machine.ldsStore at hx
  dsimp only at hx
  split at hx <;> cases hx
  rfl

theorem nothing : GoesOn fxNone := of_pure fun _ => rfl

theorem seqFxScalar {op o} : GoesOn (seqFxScalar op o) := by
  unfold Machine.seqFxScalar
  split
  case h_47 | h_48 | h_49 | h_50 | h_51 => exact ldsLoad
  case h_52 | h_53 | h_54 | h_55 => exact ldsStore
  all_goals exact of_pure fun _ => rfl

theorem seqFxX {op o} : GoesOn (seqFxX op o) := by
  unfold Machine.seqFxX
  split
  case h_3 | h_7 =>
    intro e s x hx
    cases hx
    rfl
  case h_6 => exact red
  all_goals exact of_pure fun _ => rfl

theorem seqFxMem {op o} : GoesOn (seqFxMem op o) := by
  unfold Machine.seqFxMem
  split
  case h_1 | h_2 | h_3 | h_4 => exact ldg
  case h_5 | h_6 | h_7 | h_8 => exact stg
  case h_9 | h_10 | h_11 | h_12 | h_13 | h_14 | h_15 => exact seqAtomic2
  case h_16 => exact acas
  case h_19 => exact fence
  case h_20 | h_24 => exact seqRefLoad
  case h_21 | h_25 => exact seqRefStore
  case h_22 => exact pin
  case h_23 => exact unpin
  case h_28 => exact nothing
  all_goals exact seqAtomic

theorem seqFxEng {op o} : GoesOn (seqFxEng op o) := by
  unfold Machine.seqFxEng
  split
  case h_5 => exact enq
  case h_9 => exact nothing
  all_goals exact eng

theorem seqFxCsr {op o} : GoesOn (seqFxCsr op o) := by
  unfold Machine.seqFxCsr
  split
  case h_5 => exact nothing
  all_goals exact csrOp

theorem seqFxCtx {op o} : GoesOn (seqFxCtx op o) := by
  unfold Machine.seqFxCtx
  split <;> exact of_pure fun _ => rfl

/-- Every slot but a next-address one. -/
theorem seqFx {r : Raw} (h : r.kind ≠ .na) : GoesOn (seqFx r) := by
  unfold Machine.seqFx
  dsimp only
  split
  case h_1 => exact seqFxScalar
  case h_2 he => exact absurd he h
  case h_3 => exact seqFxX
  case h_4 => exact seqFxMem
  case h_5 => exact seqFxEng
  case h_6 => exact seqFxCsr
  case h_7 => exact seqFxCtx
  case h_8 => exact nothing

/-- So of the slots that run. -/
theorem runSlots {e : SeqEnv} : ∀ {ws : List WSlot} {s : State} {x}, (∀ w ∈ ws, GoesOn w.fx) → runSlots e ws s = .ok x →
    x.2.findSome? SeqFx.npc = none ∧ x.2.length = ws.length
  | [], _, _, _, hx => by
    cases hx
    exact ⟨rfl, rfl⟩
  | w :: ws, s, x, hw, hx => by
    have hws : ∀ v ∈ ws, GoesOn v.fx := fun v hv => hw v (List.mem_cons_of_mem _ hv)
    unfold Machine.runSlots at hx
    split at hx
    · split at hx
      · cases hx
      next hf =>
        split at hx
        · cases hx
        next hr =>
          cases hx
          obtain ⟨hn, hl⟩ := runSlots hws hr
          exact ⟨by rw [List.findSome?_cons, hw w List.mem_cons_self _ _ _ hf, hn], congrArg (· + 1) hl⟩
    · split at hx
      · cases hx
      next hr =>
        cases hx
        obtain ⟨hn, hl⟩ := runSlots hws hr
        exact ⟨by rw [List.findSome?_cons, hn], congrArg (· + 1) hl⟩

end GoesOn

/-- A slot that acts, and the slots after it. -/
theorem runSlots_cons {e : SeqEnv} {w : WSlot} {s t : State} {f : SeqFx} (hact : slotActs e.q w.raw = true) (hf : w.fx e s = .ok (t, f))
    (ws : List WSlot) : (∀ why, runSlots e ws t = .error why → runSlots e (w :: ws) s = .error why)
      ∧ ∀ u fs, runSlots e ws t = .ok (u, fs) → runSlots e (w :: ws) s = .ok (u, f :: fs) := by
  constructor
  · intro why h
    rw [runSlots, if_pos hact, hf]
    simp only [h]
  · intro u fs h
    rw [runSlots, if_pos hact, hf]
    simp only [h]

/-- The checks of a word do not look at the meanings of its slots. -/
theorem State.wordChecks_map (s : State) (c : Nat) (r : Rec) (g : WSlot → WSlot) (hslot : ∀ w, (g w).slot = w.slot) (hraw : ∀ w, (g w).raw = w.raw)
    (sl : List WSlot) : s.wordChecks c r (sl.map g) = s.wordChecks c r sl := by
  unfold State.wordChecks
  simp only [List.filter_map, ← List.map_append, List.find?_map, Function.comp_def, hslot, hraw]
  cases List.find? _ (_ ++ _) <;> simp only [Option.map, hslot]
  cases List.find? _ sl <;> simp only [hslot]
  cases List.find? _ (_ ++ _) <;> simp only [hslot]
  cases List.find? _ sl <;> simp only [hslot]
  cases List.find? _ sl <;> simp only [hslot]
  split
  · cases List.find? _ sl <;> simp only [hslot]
  · rfl

/-- SEQ names the word that follows. -/
theorem State.issueWord_seq (s : State) (c : Nat) {s0 s1 x : WSlot} (h0 : GoesOn s0.fx) (h1 : GoesOn s1.fx) (hx : GoesOn x.fx) :
    s.issueWord c s0 s1 x ⟨.seq, slNA, fxSeq⟩ = s.issueWord c s0 s1 x ⟨.seq, slNA, fxNone⟩ := by
  have hchecks : s.wordChecks c (s.rc c) [s0, s1, x, ⟨.seq, slNA, fxSeq⟩] = s.wordChecks c (s.rc c) [s0, s1, x, ⟨.seq, slNA, fxNone⟩] := by
    have hs := s.wordChecks_map c (s.rc c) (fun w => { w with fx := fxNone }) (fun _ => rfl) (fun _ => rfl)
    exact (hs [s0, s1, x, ⟨.seq, slNA, fxSeq⟩]).symm.trans (hs [s0, s1, x, ⟨.seq, slNA, fxNone⟩])
  have hacts : ∀ q, slotActs q .seq = true := fun q => rfl
  unfold State.issueWord
  simp only [hchecks]
  split
  · rfl
  · split
    · rfl
    · split
      · rfl
      · generalize hE : ({ c := c, rc := s.rc c, lit := x.raw.kind == .x && x.raw.op == 2 } : SeqEnv) = E
        obtain ⟨hse, hso⟩ := runSlots_cons (w := ⟨.seq, slNA, fxSeq⟩) (s := s) (hacts E.q) rfl [s0, s1, x]
        obtain ⟨hne, hno⟩ := runSlots_cons (w := ⟨.seq, slNA, fxNone⟩) (s := s) (hacts E.q) rfl [s0, s1, x]
        cases hr : runSlots E [s0, s1, x] s with
        | error f => rw [hse f hr, hne f hr]
        | ok y =>
          obtain ⟨s', fs⟩ := y
          obtain ⟨hn, hlen⟩ := GoesOn.runSlots (ws := [s0, s1, x]) (by simp [h0, h1, hx]) hr
          obtain ⟨a, b, d, rfl⟩ := List.length_eq_three.1 hlen
          rw [hso _ _ hr, hno _ _ hr]
          simp only [List.findSome?_cons (a := ({ npc := some E.next } : SeqFx)), List.findSome?_cons (a := ({} : SeqFx)), hn, Option.getD_some,
            Option.getD_none]
          rfl

/-- A slot executed alone issues as the word that holds it. -/
theorem State.issueSlot_seqFx (s : State) {r : Raw} (hleg : r.legal = true) :
    s.issueSlot r (seqFx r) = s.issueWord s.sel ⟨(wordOf r).s0, slS0, seqFx (wordOf r).s0⟩ ⟨(wordOf r).s1, slS1, seqFx (wordOf r).s1⟩
      ⟨(wordOf r).x, slX, seqFx (wordOf r).x⟩ ⟨(wordOf r).na, slNA, seqFx (wordOf r).na⟩ := by
  obtain ⟨hscalar, hna, hx⟩ := wordOf_blank r
  have hnop : seqFx .nop = fxNone := rfl
  have hseq : seqFx .seq = fxSeq := rfl
  have hxnop : seqFx .xnop = fxNone := rfl
  unfold State.issueSlot
  simp only [hleg, Bool.not_true, Bool.false_eq_true, if_false]
  by_cases h1 : r.kind = .scalar
  · obtain ⟨e0, e1, ex, en⟩ := hscalar h1
    have hfx : seqFx (wordOf r).x = fxNone := by
      unfold wordOf
      rw [h1]
      cases r.litNeeded <;> rfl
    rw [hfx, if_pos h1, e0, e1, en, hnop, hseq, State.issueWord_seq _ _ (GoesOn.seqFx (by rw [h1]; decide)) GoesOn.nothing GoesOn.nothing]
    rfl
  · by_cases h2 : r.kind = .na
    · obtain ⟨e0, e1, ex, en⟩ := hna h2
      rw [if_neg h1, if_pos h2, e0, e1, ex, en, hnop, hxnop]
      rfl
    · obtain ⟨e0, e1, ex, en⟩ := hx h1 h2
      rw [if_neg h1, if_neg h2, e0, e1, ex, en, hnop, hseq, State.issueWord_seq _ _ GoesOn.nothing GoesOn.nothing (GoesOn.seqFx h2)]
      rfl

/-- The kinds of a word that decodes, and that its slots are legal. -/
theorem decodeWord_slots {w : Nat} {x : SWord} (h : decodeWord w = .ok x) :
    (x.s0.kind.bits = 32 ∧ x.s0.legal = true) ∧ (x.x.kind.bits = 32 ∧ x.x.legal = true) ∧ x.na.kind = .na ∧ x.na.legal = true := by
  unfold decodeWord at h
  generalize fld w 0 32 = bx, fld w 64 32 = b0, fld w 32 32 = b1, fld w 96 32 = bn at h
  split at h
  · cases h
  next r hx =>
    obtain ⟨kx, lx, -⟩ := decodeRaw_ok hx
    have hbits : (xKind bx).bits = 32 := by
      unfold xKind
      split <;> rfl
    split at h
    next s0 s1 na h0 h1 hn =>
      cases h
      obtain ⟨k0, l0, -⟩ := decodeRaw_ok h0
      obtain ⟨kn, ln, -⟩ := decodeRaw_ok hn
      exact ⟨⟨by rw [k0]; rfl, l0⟩, ⟨by rw [kx, hbits], lx⟩, kn, ln⟩
    all_goals cases h

/-- A word of one slot beside empty ones is the word that holds it. -/
theorem wordOf_single {w : Nat} {x : SWord} {r : Raw} (h : decodeWord w = .ok x) (hone : x.single = some r) :
    x = wordOf r ∧ r.kind.bits = 32 ∧ r.legal = true := by
  obtain ⟨h0, hx, hnk, hnl⟩ := decodeWord_slots h
  unfold SWord.single at hone
  split at hone
  next he =>
    cases hone
    obtain ⟨e0, e1, ex⟩ := he
    obtain ⟨a0, a1, ax, an⟩ := (wordOf_blank x.na).2.1 hnk
    refine ⟨?_, by rw [hnk]; rfl, hnl⟩
    obtain ⟨na, s0, s1, xx⟩ := x
    cases hw : wordOf na
    simp only [hw] at a0 a1 ax an
    simp_all
  · split at hone
    next he => cases hone; exact ⟨he, h0⟩
    · split at hone
      next he => cases hone; exact ⟨he, hx⟩
      · cases hone

/-- The issue of a word that holds one instruction is that instruction (R42). -/
theorem exec_wordIssue_single {s : State} {w : SWord} {r : Raw} {i : Instr} (hc : s.sel < 16) (hdec : decodeWord (s.wordBits s.sel) = .ok w)
    (hone : w.single = some r) (hi : instrOf r = some i) : exec (.wordIssue s.sel) s = exec i s := by
  obtain ⟨rfl, hk, hleg⟩ := wordOf_single hdec hone
  have hne : ¬(ateIdx < s.sel) := by simp only [ateIdx]; omega
  rw [exec_instrOf hi (raw_instrOf hleg hi) hk, s.issueSlot_seqFx hleg]
  change execWordIssue s.sel s = _
  rw [execWordIssue, if_neg hne, State.issueBits, hdec]

/-! ## A bundle of one slot

A V instruction stands in slot V0 or V1; what it does is the same in both. -/

/-- A meaning that does not look at the number of its slot in the bundle. -/
def SlotBlind (m : SlotMeaning) : Prop :=
  (∀ e k s, m.cell { e with slot := k } s = m.cell e s) ∧ ∀ e k s, m.empty { e with slot := k } s = m.empty e s

theorem slotBlind_v (op : Nat) (o : Nat → Nat) : SlotBlind (cellFxOfV op o) := by
  unfold cellFxOfV
  split
  all_goals exact ⟨fun _ _ _ => rfl, fun _ _ _ => rfl⟩

/-- No V row names a token. -/
theorem vRows_tk : ∀ row ∈ SlotKind.v.rows, ∀ f ∈ row.fields, f.use ≠ .tkU := by
  decide +kernel

theorem postsAnyway_v {r : Raw} (hk : r.kind = .v) : postsAnyway r = none := by
  have htk : r.tk = none := by
    unfold Raw.tk Raw.uses
    split
    · rfl
    next row hrow =>
      rw [hk] at hrow
      rw [List.findSome?_eq_none_iff]
      intro u hu
      obtain ⟨f, hf, he⟩ := List.mem_map.1 (List.of_mem_zip hu).1
      exact if_neg (he ▸ vRows_tk row (rowOf_some hrow).1 f hf)
  rw [postsAnyway, htk, ite_self]

/-- A slot's number does not matter to a V instruction. -/
theorem runCells_v {c d : Nat} {rc : Rec} {dx : DieCtx} {ein : BitVec 48} {raws : List Raw} {r : Raw} (hk : r.kind = .v) (n m : Nat) :
    ∀ (ls : List Nat) (s : State), runCells c d rc dx ein raws ⟨r, n, cellFxOf r⟩ ls s = runCells c d rc dx ein raws ⟨r, m, cellFxOf r⟩ ls s
  | [], _ => rfl
  | l :: ls, s => by
    have hblind : SlotBlind (cellFxOf r) := by
      unfold cellFxOf
      rw [hk]
      exact slotBlind_v _ _
    have hidle : idleFx d l ein n r = idleFx d l ein m r := by simp only [idleFx, postsAnyway_v hk]
    have hcell : ∀ s, (cellFxOf r).cell (cellEnv s c d rc dx ein l ⟨r, n, cellFxOf r⟩ raws) s
        = (cellFxOf r).cell (cellEnv s c d rc dx ein l ⟨r, m, cellFxOf r⟩ raws) s := fun s =>
      hblind.1 (cellEnv s c d rc dx ein l ⟨r, m, cellFxOf r⟩ raws) n s
    have hlanes : (cellEnv s c d rc dx ein l ⟨r, n, cellFxOf r⟩ raws).lanes = (cellEnv s c d rc dx ein l ⟨r, m, cellFxOf r⟩ raws).lanes := rfl
    unfold runCells
    simp only [hidle, hcell, hlanes, runCells_v hk n m ls]

theorem State.issueBundle_v (s : State) (c d : Nat) (ein : BitVec 48) (dm : BitVec 32) (cm : Word) {r : Raw} (hk : r.kind = .v) (n m : Nat) :
    s.issueBundle c d ein dm cm [⟨r, n, cellFxOf r⟩] = s.issueBundle c d ein dm cm [⟨r, m, cellFxOf r⟩] := by
  have hblind : SlotBlind (cellFxOf r) := by
    unfold cellFxOf
    rw [hk]
    exact slotBlind_v _ _
  have hrun : ∀ (rc : Rec) (dx : DieCtx) (cells : List Nat) (s : State), runBundle c d rc dx ein [r] cells [⟨r, n, cellFxOf r⟩] s
      = runBundle c d rc dx ein [r] cells [⟨r, m, cellFxOf r⟩] s := fun rc dx cells s => by
    simp only [runBundle, runCells_v hk n m]
  have hempty : ∀ (rc : Rec) (dx : DieCtx) (l : Nat), (cellFxOf r).empty (cellEnv s c d rc dx ein l ⟨r, n, cellFxOf r⟩ [r]) s
      = (cellFxOf r).empty (cellEnv s c d rc dx ein l ⟨r, m, cellFxOf r⟩ [r]) s := fun rc dx l =>
    hblind.2 (cellEnv s c d rc dx ein l ⟨r, m, cellFxOf r⟩ [r]) n s
  unfold State.issueBundle
  simp only [List.map_cons, List.map_nil, List.any_cons, List.any_nil, Bool.or_false, hrun, hempty]
  rfl

/-- The kinds of the slots of a bundle that decodes, and that its slots are legal. -/
theorem decodeBundle_slots {w : Nat} {b : Bundle} (h : decodeBundle w = .ok b) :
    SlotFits .v b.v0 ∧ (∃ k, (k = .v ∨ k = .conv) ∧ SlotFits k b.v1) ∧ SlotFits .mx b.mx ∧ SlotFits .ls b.ls ∧ SlotFits .xf b.xf
    ∧ SlotFits .ct b.ct := by
  have hslot : ∀ {k : SlotKind} {w : Nat} {o : Option Raw}, decodeSlot k w = .ok o → SlotFits k o := by
    rintro k w _ hd r rfl
    refine ⟨decodeSlot_kind hd, ?_⟩
    unfold decodeSlot at hd
    split at hd
    · split at hd <;> cases hd
    · split at hd
      next hr =>
        cases hd
        exact (decodeRaw_ok hr).2.1
      · cases hd
  have hv1 : ∀ w, v1Kind w = .v ∨ v1Kind w = .conv := fun w => by
    unfold v1Kind
    split
    · exact .inr rfl
    · exact .inl rfl
  unfold decodeBundle at h
  generalize fld w 320 64 = w0, fld w 256 64 = w1, fld w 192 64 = w2, fld w 128 64 = w3, fld w 64 64 = w4, fld w 0 64 = w5 at h
  split at h
  next h0 h1 h2 h3 h4 h5 =>
    cases h
    exact ⟨hslot h0, ⟨_, hv1 w1, hslot h1⟩, hslot h2, hslot h3, hslot h4, hslot h5⟩
  all_goals cases h

/-- The bundles of one slot beside empty ones. -/
theorem bundle_single {b : Bundle} {r : Raw} (h : b.single = some r) :
    b = { v0 := some r } ∨ b = { v1 := some r } ∨ b = { mx := some r } ∨ b = { ls := some r } ∨ b = { xf := some r } ∨ b = { ct := some r } := by
  obtain ⟨v0, v1, mx, ls, xf, ct⟩ := b
  unfold Bundle.single at h
  split at h
  all_goals cases h
  all_goals simp_all

/-- A bundle of one slot beside empty ones: its slot is legal, and stands in the place of its kind; a V instruction may stand in V1. -/
theorem bundleSlotsOf_single {w : Nat} {b : Bundle} {r : Raw} (h : decodeBundle w = .ok b) (hone : b.single = some r) :
    r.kind.bits = 64 ∧ r.legal = true ∧ ∃ n, bundleSlotsOf b = [⟨r, n, cellFxOf r⟩] ∧ (n = slotNo r.kind ∨ r.kind = .v) := by
  obtain ⟨f0, ⟨k, hk, f1⟩, f2, f3, f4, f5⟩ := decodeBundle_slots h
  have hplace : ∀ {k : SlotKind} {n : Nat}, r.kind = k ∧ r.legal = true → k.bits = 64 → n = slotNo k ∨ k = .v →
      bundleSlotsOf b = [⟨r, n, cellFxOf r⟩] →
      r.kind.bits = 64 ∧ r.legal = true ∧ ∃ n, bundleSlotsOf b = [⟨r, n, cellFxOf r⟩] ∧ (n = slotNo r.kind ∨ r.kind = .v) := by
    rintro _ n ⟨rfl, hleg⟩ hbits hn hb
    exact ⟨hbits, hleg, n, hb, hn⟩
  rcases bundle_single hone with rfl | rfl | rfl | rfl | rfl | rfl
  · exact hplace (f0 r rfl) rfl (.inr rfl) rfl
  · rcases hk with rfl | rfl
    · exact hplace (f1 r rfl) rfl (.inr rfl) rfl
    · exact hplace (f1 r rfl) rfl (.inl rfl) rfl
  · exact hplace (f2 r rfl) rfl (.inl rfl) rfl
  · exact hplace (f3 r rfl) rfl (.inl rfl) rfl
  · exact hplace (f4 r rfl) rfl (.inl rfl) rfl
  · exact hplace (f5 r rfl) rfl (.inl rfl) rfl

/-! ## What a die waits for after a bundle -/

/-- What a bundle leaves its die waiting for is no token and no line: those hold it back before it issues. -/
structure SlotMeaning.Passes (m : SlotMeaning) : Prop where
  after : ∀ g, m.after g ≠ some .wait ∧ m.after g ≠ some .waitf
  group : ∀ (g : GroupEnv) s, ((m.group g s).dctx g.c g.d).hold = (s.dctx g.c g.d).hold

namespace SlotMeaning.Passes

theorem of_rest {m : SlotMeaning} (ha : ∀ g, m.after g = none := by exact fun _ => rfl) (hg : ∀ g s, m.group g s = s := by exact fun _ _ => rfl) :
    m.Passes :=
  ⟨fun g => by simp [ha g], fun g s => by rw [hg g s]⟩

theorem setc {g dc op a} : (fxSetc g dc op a).Passes where
  after _ := ⟨nofun, nofun⟩
  group e s := by
    unfold fxSetc
    dsimp only
    split
    · exact State.hold_updDctx _ _ _ _ fun _ => rfl
    · rfl

theorem bar {sc} : (fxBar sc).Passes where
  after g := by
    unfold fxBar
    dsimp only
    split <;> exact ⟨nofun, nofun⟩
  group g s := by
    unfold fxBar
    dsimp only
    split
    · exact State.hold_updDctx _ _ _ _ fun _ => rfl
    · rfl

theorem phaseX : fxPhaseX.Passes := ⟨fun _ => ⟨nofun, nofun⟩, fun _ _ => State.hold_updDctx _ _ _ _ fun _ => rfl⟩

theorem phaseC : fxPhaseC.Passes := ⟨fun _ => ⟨nofun, nofun⟩, fun _ _ => State.hold_updDctx _ _ _ _ fun _ => rfl⟩

theorem trapc {g code} : (fxTrapc g code).Passes where
  after _ := ⟨nofun, nofun⟩
  group e s := by
    unfold fxTrapc
    dsimp only
    split
    · exact State.hold_updDctx _ _ _ _ fun _ => rfl
    · rfl

theorem wswap : fxWswap.Passes where
  after _ := ⟨nofun, nofun⟩
  group g s := by
    unfold fxWswap
    dsimp -zeta only
    extract_lets
    split
    · rfl
    · exact State.hold_updDctx _ _ _ _ fun _ => rfl

theorem xfer {m : SlotMeaning} {perm : Bool} (hg : m.group = countXfer perm) (ha : ∀ g, m.after g = none) : m.Passes :=
  ⟨fun g => by simp [ha g], fun g s => by rw [hg]; exact State.hold_updDctx _ _ _ _ fun _ => rfl⟩

theorem cellFxOfMx {op o} : (cellFxOfMx op o).Passes := by
  unfold Machine.cellFxOfMx
  split
  case h_8 => exact wswap
  all_goals exact of_rest

theorem cellFxOfXf {op o} : (cellFxOfXf op o).Passes := by
  unfold Machine.cellFxOfXf
  split
  case h_1 | h_2 | h_3 | h_4 => exact xfer rfl fun _ => rfl
  all_goals exact of_rest

theorem cellFxOfCt {op o} : (cellFxOfCt op o).Passes := by
  unfold Machine.cellFxOfCt
  split
  case h_7 => exact setc
  case h_8 => exact bar
  case h_9 => exact phaseX
  case h_10 => exact phaseC
  case h_12 => exact trapc
  all_goals exact of_rest

/-- Every slot of a bundle. -/
theorem cellFxOf {r : Raw} : (cellFxOf r).Passes := by
  unfold Machine.cellFxOf
  dsimp only
  split
  · unfold cellFxOfV
    split <;> exact of_rest
  · unfold cellFxOfConv
    split <;> exact of_rest
  · exact cellFxOfMx
  · unfold cellFxOfLs
    split <;> exact of_rest
  · exact cellFxOfXf
  · exact cellFxOfCt
  · exact of_rest

end SlotMeaning.Passes

/-- A bundle that leaves its die waiting for a token or a line has done nothing else. -/
theorem State.issueBundle_waits {s u : State} {c d : Nat} {ein : BitVec 48} {dm : BitVec 32} {cm : Word} {b : BSlot} (hb : b.fx.Passes)
    (h : s.issueBundle c d ein dm cm [b] = .next u) (hw : (u.dctx c d).hold = some .wait ∨ (u.dctx c d).hold = some .waitf) :
    u.sel = s.sel ∧ u.selDie = s.selDie := by
  have hafter : ∀ (g : GroupEnv) (v : State) (ein : BitVec 48) (mark : Bool) (stores pos : Nat), g.c = c → g.d = d →
      ¬(((b.fx.group g (v.updDctx c d (fun x => x.issued ein mark stores pos ([b].findSome? (fun b => b.fx.after g))))).dctx c d).hold = some .wait
        ∨ ((b.fx.group g (v.updDctx c d (fun x => x.issued ein mark stores pos ([b].findSome? (fun b => b.fx.after g))))).dctx c d).hold = some .waitf) := by
    rintro g v ein mark stores pos rfl rfl
    rw [hb.group]
    have hafter : [b].findSome? (fun b => b.fx.after g) = b.fx.after g := by
      rw [List.findSome?_cons]
      cases b.fx.after g <;> rfl
    by_cases hc : g.c < v.recs.length
    · rw [v.dctx_updDctx_self g.c g.d _ hc]
      change ¬([b].findSome? (fun b => b.fx.after g) = some .wait ∨ [b].findSome? (fun b => b.fx.after g) = some .waitf)
      rw [hafter]
      exact not_or.2 (hb.after g)
    · have hrecs : ∀ f, (v.updDctx g.c g.d f).recs = v.recs := fun f => List.set_eq_of_length_le (by omega)
      have hreset : v.rc g.c = .reset := by simp [State.rc, List.getD, List.getElem?_eq_none (by omega : v.recs.length ≤ g.c)]
      have hrc : ∀ f, (v.updDctx g.c g.d f).rc g.c = .reset := fun f => by
        rw [State.rc, hrecs]
        exact hreset
      rw [State.dctx, hrc]
      exact not_or.2 ⟨nofun, nofun⟩
  unfold State.issueBundle at h
  dsimp only at h
  split at h
  · cases h; exact ⟨rfl, rfl⟩
  split at h
  · cases h; exact ⟨rfl, rfl⟩
  split at h
  · cases h; exact ⟨rfl, rfl⟩
  split at h
  · cases h
  split at h
  · cases h
  split at h
  · cases h; exact ⟨rfl, rfl⟩
  split at h
  · cases h; exact ⟨rfl, rfl⟩
  split at h
  · cases h; exact ⟨rfl, rfl⟩
  · cases h
    exact absurd hw (hafter _ _ _ _ _ _ rfl rfl)

/-- The bundle of slot r alone, as the selected die issues it. -/
def State.issueAlone (s : State) (r : Raw) (fx : SlotMeaning) : Host.Outcome State Fault Refusal :=
  s.issueBundle s.sel s.selDie (s.dctx s.sel s.selDie).e (s.rc s.sel).core.diemask (s.rc s.sel).core.cellmask [⟨r, slotNo r.kind, fx⟩]

/-- What an instruction of a bundle executed alone answers, from what its bundle does: a bundle that waits goes to the head of the queue. -/
theorem State.issueLane_ready (s : State) {r : Raw} {fx : SlotMeaning} (hleg : r.legal = true) (hcan : s.cannotBundle s.sel s.selDie = none) :
    (∀ why, s.issueAlone r fx = .refused why → s.issueLane r fx = .refused why)
    ∧ (∀ f, s.issueAlone r fx = .fault f → s.issueLane r fx = .fault f)
    ∧ ∀ u, s.issueAlone r fx = .next u → ∃ q : QEntry,
      s.issueLane r fx = .next (if (u.dctx s.sel s.selDie).hold = some .wait ∨ (u.dctx s.sel s.selDie).hold = some .waitf
        then u.updDctx s.sel s.selDie (fun x => { x with q := q :: x.q }) else u) := by
  unfold State.issueAlone State.issueLane
  simp only [hcan, hleg, Bool.not_true, Bool.false_eq_true, if_false]
  refine ⟨fun why h => by rw [h], fun f h => by rw [h], fun u h => ?_⟩
  rw [h]
  dsimp only
  split
  · exact ⟨_, rfl⟩
  · exact ⟨⟨0, none, 0, 0, 0, 0, 0⟩, rfl⟩

/-- The head of a die's queue is issued, where nothing keeps it. -/
theorem State.issueHead_ready (s : State) {c d : Nat} {e : QEntry} {es : List QEntry} {b : Bundle} (hcan : s.cannotBundle c d = none)
    (hq : (s.dctx c d).q = e :: es) (hy : s.mustYield c d e = none) (hdec : decodeBundle ((s.rc c).bundleBits e.idx e.lit) = .ok b)
    {out : Host.Outcome State Fault Refusal} (hout : s.issueBundle c d (s.dctx c d).e e.diemask e.cellmask (bundleSlotsOf b) = out) :
    (∀ why, out = .refused why → s.issueHead c d = .refused why)
    ∧ ∀ u, out = .next u → s.issueHead c d = .next (u.takenHead c d ((s.rc c).entryUsed e)) := by
  refine ⟨fun why h => ?_, fun u h => State.issueHead_issues hcan hq hy hdec (hout.trans h)⟩
  unfold State.issueHead
  simp only [hcan, hq, hy, hdec, hout, h]

/-- The issue of a bundle that holds one instruction is that instruction (R63), and what it leaves of the queue. -/
theorem exec_bundleIssue_single {s : State} {e : QEntry} {es : List QEntry} {b : Bundle} {r : Raw} {i : Instr} (hc : s.sel < 16)
    (hd : s.selDie < 32) (hq : s.myDie.q = e :: es) (hdm : e.diemask = s.core.diemask) (hcm : e.cellmask = s.core.cellmask)
    (hy : s.mustYield s.sel s.selDie e = none) (hdec : decodeBundle (s.me.bundleBits e.idx e.lit) = .ok b) (hone : b.single = some r)
    (hi : instrOf r = some i) :
    (∀ t, exec i s = .next t → t.myDie.hold ≠ some .wait → t.myDie.hold ≠ some .waitf →
      exec (.bundleIssue s.sel s.selDie) s = .next (t.takenHead s.sel s.selDie (s.me.entryUsed e)))
    ∧ ∀ why, exec i s = .refused why → exec (.bundleIssue s.sel s.selDie) s = .refused why := by
  obtain ⟨hbits, hleg, n, hslots, hn⟩ := bundleSlotsOf_single hdec hone
  rw [exec_instrOf_lane hi (raw_instrOf hleg hi) hbits, exec_bundleIssue _ _ _ hc hd]
  have hb : s.issueBundle s.sel s.selDie (s.dctx s.sel s.selDie).e e.diemask e.cellmask (bundleSlotsOf b)
      = s.issueAlone r (cellFxOf r) := by
    rw [hslots, hdm, hcm]
    rcases hn with rfl | hv
    · rfl
    · exact s.issueBundle_v _ _ _ _ _ hv _ _
  cases hcan : s.cannotBundle s.sel s.selDie with
  | some why =>
    have hlane : s.issueLane r (cellFxOf r) = .refused (.notEnabled why) := by simp only [State.issueLane, hcan]
    have hhead : s.issueHead s.sel s.selDie = .refused (.notEnabled why) := by
      unfold State.issueHead
      simp only [hcan]
      rfl
    rw [hlane, hhead]
    exact ⟨fun _ h => (nomatch h), fun _ h => h⟩
  | none =>
    obtain ⟨lr, lf, ln⟩ := s.issueLane_ready (fx := cellFxOf r) hleg hcan
    obtain ⟨hr, hx⟩ := s.issueHead_ready hcan hq hy hdec hb
    cases hout : s.issueAlone r (cellFxOf r) with
    | refused why =>
      rw [lr why hout, hr why hout]
      exact ⟨fun _ h => (nomatch h), fun _ h => h⟩
    | fault f =>
      rw [lf f hout]
      exact ⟨fun _ h => (nomatch h), fun _ h => (nomatch h)⟩
    | next u =>
      obtain ⟨q, hlane⟩ := ln u hout
      rw [hlane, hx u hout]
      refine ⟨fun t ht hwait hwaitf => ?_, fun _ h => (nomatch h)⟩
      obtain rfl := Host.Outcome.next.inj ht
      by_cases hw : (u.dctx s.sel s.selDie).hold = some .wait ∨ (u.dctx s.sel s.selDie).hold = some .waitf
      · rw [if_pos hw] at hwait hwaitf
        obtain ⟨hsel, hdie⟩ := State.issueBundle_waits (b := ⟨r, slotNo r.kind, cellFxOf r⟩) SlotMeaning.Passes.cellFxOf hout hw
        have hmy := State.myDie_of_sel (s := s) (t := u.updDctx s.sel s.selDie (fun x => { x with q := q :: x.q })) hsel hdie
        rw [hmy, u.hold_updDctx s.sel s.selDie (fun x => { x with q := q :: x.q }) (fun _ => rfl)] at hwait hwaitf
        exact absurd hw (not_or.2 ⟨hwait, hwaitf⟩)
      · rw [if_neg hw]
        rfl

end Sys2Proof.Machine

open Sys2Proof.Machine in
/-- Settles O5: a slot decoded from a word or a bundle is the slot of the instruction it holds, and that instruction executed alone
issues the same slot beside empty ones. -/
theorem stepRunsTheDecodedInstruction : Obligations.StepRunsTheDecodedInstruction := by
  refine ⟨⟨?_, ?_⟩, ?_, ?_⟩
  · intro s i rest h
    unfold step State.nextStep
    rw [h]
  · intro s h
    unfold step State.nextStep
    rw [h]
  · intro s rest w r i h hc hdec hone hi
    have hstep : step s = exec (.wordIssue s.sel) { s with agenda := rest } := by
      unfold step State.nextStep
      rw [h]
    rw [hstep]
    exact exec_wordIssue_single (s := { s with agenda := rest }) hc hdec hone hi
  · intro s rest e es b r i h hc hd hq hdm hcm hy hdec hone hi
    have hstep : step s = exec (.bundleIssue s.sel s.selDie) { s with agenda := rest } := by
      unfold step State.nextStep
      rw [h]
    rw [hstep]
    exact exec_bundleIssue_single (s := { s with agenda := rest }) hc hd hq hdm hcm hy hdec hone hi
end

section
set_option Elab.async false

namespace Sys2Proof.Machine

/-! ## The checks of a word of one slot (R42) -/

/-- The first check that slot r fails, in the order of R42. -/
def State.slotChecks (s : State) (r : Raw) : Option FInfo :=
  if csrBad s.sel r then some (cILLWORD, 0, noInfo)
  else if !bcastIdxOk s.me r then some (cILLBUNDLE, 0, noInfo)
  else if !s.me.priv && privileged r then some (cILLWORD, 3, noInfo)
  else if r.kind == .na && r.op == 7 && !s.me.hact then some (cILLWORD, 0, noInfo)
  else if Raw.place r = slX ∧ s.tokenFault s.me r = true then some (cTOKOWN, 0, noInfo)
  else if tbit s.core.sstat 8 && readsPending s.core r then some (cUNDERWAIT, 0, noInfo)
  else none

/-- Among slots of which all but one are empty, a check that the empty ones pass finds that one. -/
theorem find?_alone {sl : List WSlot} {w : WSlot} (hmem : w ∈ sl) (hall : ∀ v ∈ sl, blankSlot v.raw ∨ v = w) {p : WSlot → Bool}
    (hp : ∀ v : WSlot, blankSlot v.raw → p v = false) : sl.find? p = if p w then some w else none := by
  cases hw : p w with
  | false =>
    rw [if_neg Bool.false_ne_true, List.find?_eq_none]
    intro v hv
    rcases hall v hv with hb | rfl
    · simp [hp v hb]
    · simp [hw]
  | true =>
    rw [if_pos rfl]
    cases hf : sl.find? p with
    | none => exact absurd hw (List.find?_eq_none.1 hf w hmem)
    | some v =>
      rcases hall v (List.mem_of_find?_eq_some hf) with hb | rfl
      · exact absurd (List.find?_some hf) (by simp [hp v hb])
      · rfl

theorem State.wordChecks_alone (s : State) {sl : List WSlot} {w : WSlot} (hsel : s.sel < 16) (hmem : w ∈ sl) (hslot : w.slot = Raw.place w.raw)
    (hall : ∀ v ∈ sl, blankSlot v.raw ∨ v = w) : s.wordChecks s.sel s.me sl = (s.slotChecks w.raw).map (fun f => (Raw.place w.raw, f)) := by
  have hne : s.sel ≠ ateIdx := by simp only [ateIdx]; omega
  have horder : ∀ v, v ∈ sl.filter (fun v => v.slot = slNA) ++ sl.filter (fun v => v.slot ≠ slNA) ↔ v ∈ sl := by
    intro v
    simp only [List.mem_append, List.mem_filter, decide_eq_true_eq, ← and_or_left, ne_eq, em, and_true]
  have hblank := fun (v : WSlot) (hv : blankSlot v.raw) => blankSlot_checks s s.sel s.me v.raw hv
  have hfind : ∀ {p : WSlot → Bool}, (∀ v : WSlot, blankSlot v.raw → p v = false) → sl.find? p = if p w then some w else none :=
    fun hp => find?_alone hmem hall hp
  have hfindo : ∀ {p : WSlot → Bool}, (∀ v : WSlot, blankSlot v.raw → p v = false) →
      (sl.filter (fun v => v.slot = slNA) ++ sl.filter (fun v => v.slot ≠ slNA)).find? p = if p w then some w else none :=
    fun hp => find?_alone ((horder w).2 hmem) (fun v hv => hall v ((horder v).1 hv)) hp
  unfold State.wordChecks State.slotChecks
  dsimp only
  rw [hfindo (fun v hv => by simp [(hblank v hv).1, hne]), hfind (fun v hv => by simp [(hblank v hv).2.1]),
    hfindo (fun v hv => by simp [(hblank v hv).2.2.1]), hfind (fun v hv => (hblank v hv).2.2.2.1),
    hfind (fun v hv => by simp [(hblank v hv).2.2.2.2.1]), hfind (fun v hv => (hblank v hv).2.2.2.2.2.1)]
  have hcore : s.me.core = s.core := rfl
  simp only [ne_eq, hne, not_false_eq_true, decide_true, Bool.true_and, decide_false, Bool.false_and, Bool.or_false, hslot, hcore]
  cases csrBad s.sel w.raw
  case true => simp [hslot]
  cases !bcastIdxOk s.me w.raw
  case true => simp [hslot]
  cases !s.me.priv && privileged w.raw
  case true => simp [hslot]
  cases w.raw.kind == .na && w.raw.op == 7 && !s.me.hact
  case true => simp [hslot]
  by_cases htok : Raw.place w.raw = slX ∧ s.tokenFault s.me w.raw = true
  · simp [htok, hslot]
  · cases tbit s.core.sstat 8 <;> cases readsPending s.core w.raw <;> simp [htok, hslot]

/-- A word of one slot that the merge stage takes and that fails a check faults in that slot. -/
theorem State.issueSlot_checked (s : State) {r : Raw} (fx : SeqMeaning) {f : FInfo} (hi : s.canIssue) (hleg : r.legal = true)
    (hw : waitsHolds s.core r = true) (hb : broadcasts r = false) (hchk : s.slotChecks r = some f) :
    s.issueSlot r fx = .next (s.seqFault s.sel (Raw.place r) f) := by
  obtain ⟨hscalar, hna, hx⟩ := wordOf_blank r
  have hnop : blankSlot Raw.nop := .inl rfl
  have hseq : blankSlot Raw.seq := .inr (.inr (.inl rfl))
  have hxnop : blankSlot Raw.xnop := .inr (.inl rfl)
  unfold State.issueSlot
  simp only [hleg, Bool.not_true, Bool.false_eq_true, if_false]
  by_cases h1 : r.kind = .scalar
  · obtain ⟨e0, e1, ex, en⟩ := hscalar h1
    obtain ⟨hwx, hbx, -⟩ := blankSlot_x s _ ex
    have hpl : Raw.place r = slS0 := if_pos h1
    rw [if_pos h1, if_pos rfl, e0, e1, en]
    refine s.issueWord_checked _ _ _ _ _ f hi (s.mergeHold_none _ hi hwx (by simp [hbx])) ?_
    rw [s.wordChecks_alone (w := ⟨r, slS0, fx⟩) hi.1 (by simp) hpl.symm (by simp [hnop, hseq, ex]), hchk]
    rfl
  · by_cases h2 : r.kind = .na
    · obtain ⟨e0, e1, ex, en⟩ := hna h2
      have hpl : Raw.place r = slNA := by rw [Raw.place, if_neg h1, if_pos h2]
      rw [if_neg h1, if_pos h2, e0, e1, ex, en]
      refine s.issueWord_checked _ _ _ _ _ f hi (s.mergeHold_none _ hi rfl (by simp [broadcasts, Raw.xnop])) ?_
      rw [s.wordChecks_alone (w := ⟨r, slNA, fx⟩) hi.1 (by simp) hpl.symm (by simp [hnop, hxnop]), hchk]
      rfl
    · obtain ⟨e0, e1, ex, en⟩ := hx h1 h2
      have hpl : Raw.place r = slX := by rw [Raw.place, if_neg h1, if_neg h2]
      rw [if_neg h1, if_neg h2, e0, e1, ex, en]
      refine s.issueWord_checked _ _ _ _ _ f hi (s.mergeHold_none _ hi hw (by simp [hb])) ?_
      rw [s.wordChecks_alone (w := ⟨r, slX, fx⟩) hi.1 (by simp) hpl.symm (by simp [hnop, hseq]), hchk]
      rfl

/-- An instruction of one slot that the merge stage takes and that fails a check is a precise fault in that slot. -/
theorem exec_checked {i : Instr} {s : State} {r : Raw} {code detail : Nat} (hr : i.raw = some r) (hk : r.kind.bits = 32) (hi : s.canIssue)
    (hleg : r.legal = true) (hw : waitsHolds s.core r = true) (hb : broadcasts r = false)
    (hchk : s.slotChecks r = some (code, detail, noInfo)) (hcode : code < 16) (hdetail : detail < 256) :
    s.faultsWith (exec i s) code detail (if r.kind = .scalar then 0 else if r.kind = .na then 3 else 2) none := by
  obtain ⟨fx, hexec⟩ := exec_issueSlot hr hk
  have hplace : Raw.place r < 4 := by
    unfold Raw.place
    split
    · decide
    · split <;> decide
  rw [hexec, s.issueSlot_checked fx hi hleg hw hb hchk]
  exact s.seqFault_faultsWith (Raw.place r) (code, detail, noInfo) hi (Nat.ne_of_lt hcode) (by change code < 256; omega) hdetail hplace

/-! ## What the checks look at -/

/-- A use that names a sequencer token, or a sequencer register that is read wherever it stands. -/
def Use.ofSeq : Use → Bool
  | .tsU | .sR | .sRW | .sR8 => true
  | _ => false

theorem bits_cases (k : SlotKind) : k.bits = 32 ∨ k.bits = 64 := by
  cases k <;> decide

theorem rows_seqUses {k : SlotKind} (hk : k.bits = 64) : ∀ row ∈ k.rows, ∀ f ∈ row.fields, Use.ofSeq f.use = false := by
  cases k
  case v | conv | mx | ls | xf | ct => decide +kernel
  all_goals cases hk

/-- A broadcast names none, nor does RFT. -/
theorem rows_noSeqUse : (∀ row ∈ SlotKind.x.rows, row.op = 1 ∨ row.op = 2 → ∀ f ∈ row.fields, Use.ofSeq f.use = false)
    ∧ ∀ row ∈ SlotKind.na.rows, row.op = 7 → ∀ f ∈ row.fields, Use.ofSeq f.use = false := by
  decide +kernel

theorem rows_noToken {k : SlotKind} (hk : k = .scalar ∨ k = .na ∨ k = .csr) : ∀ row ∈ k.rows, ∀ f ∈ row.fields, f.use ≠ .tsU := by
  rcases hk with rfl | rfl | rfl <;> decide +kernel

theorem mem_uses {r : Raw} {u : Use × Nat} (h : u ∈ r.uses) : ∃ row ∈ r.kind.rows, row.op = r.op ∧ ∃ f ∈ row.fields, f.use = u.1 := by
  unfold Raw.uses at h
  split at h
  · cases h
  next row hrow =>
    obtain ⟨hmem, hop⟩ := rowOf_some hrow
    obtain ⟨f, hf, he⟩ := List.mem_map.1 (List.of_mem_zip h).1
    exact ⟨row, hmem, hop, f, hf, he⟩

theorem ts_uses {r : Raw} {n : Nat} (h : r.ts = some n) : (Use.tsU, n) ∈ r.uses := by
  obtain ⟨u, hu, he⟩ := List.exists_of_findSome?_eq_some h
  split at he
  next htok =>
    cases he
    exact htok ▸ hu
  · cases he

theorem readsPending_uses {q : SeqCore} {r : Raw} (h : readsPending q r = true) : ∃ u ∈ r.uses, Use.ofSeq u.1 = true ∨ r.kind = .mem := by
  simp only [readsPending, Bool.and_eq_true, List.any_eq_true] at h
  obtain ⟨-, x, hx, -⟩ := h
  obtain ⟨u, hu, hux⟩ := List.mem_flatMap.1 hx
  refine ⟨u, hu, ?_⟩
  split at hux
  case h_1 he => exact .inl (by rw [he]; rfl)
  case h_2 he => exact .inl (by rw [he]; rfl)
  case h_3 he => exact .inl (by rw [he]; rfl)
  case h_4 =>
    split at hux
    next hk => exact .inr hk
    · cases hux
  case h_5 => cases hux

/-- A slot that names a token or reads a register of the sequencer stands in a word, broadcasts nothing, and is not RFT. -/
theorem seqUse_slot {r : Raw} (h : ∃ u ∈ r.uses, Use.ofSeq u.1 = true ∨ r.kind = .mem) :
    r.kind.bits = 32 ∧ broadcasts r = false ∧ (r.kind == .na && r.op == 7) = false := by
  obtain ⟨u, hu, h⟩ := h
  rcases h with h | h
  · obtain ⟨row, hrow, hop, f, hf, he⟩ := mem_uses hu
    have hno : ¬(Use.ofSeq f.use = false) := by rw [he, h]; decide
    refine ⟨?_, ?_, ?_⟩
    · by_contra hb
      exact hno (rows_seqUses ((bits_cases r.kind).resolve_left hb) row hrow f hf)
    · by_contra hb
      simp only [broadcasts, Bool.not_eq_false, Bool.and_eq_true, Bool.or_eq_true, beq_iff_eq] at hb
      rw [hb.1] at hrow
      exact hno (rows_noSeqUse.1 row hrow (by rw [hop]; exact hb.2) f hf)
    · by_contra hb
      simp only [Bool.not_eq_false, Bool.and_eq_true, beq_iff_eq] at hb
      rw [hb.1] at hrow
      exact hno (rows_noSeqUse.2 row hrow (by rw [hop]; exact hb.2) f hf)
  · rw [h]
    refine ⟨rfl, by simp [broadcasts, h], rfl⟩

theorem bcastIdxOk_of_quiet (rc : Rec) {r : Raw} (h : broadcasts r = false) : bcastIdxOk rc r = true := by
  unfold bcastIdxOk
  split
  next h1 h2 _ => simp [broadcasts, h1, h2] at h
  · rfl

/-- A privileged encoding (R43) passes the checks that come before the one for privilege. -/
theorem privileged_slot {r : Raw} {c : Nat} (hc : c < 16) (h : privileged r = true) :
    r.kind.bits = 32 ∧ r.kind ≠ .scalar ∧ broadcasts r = false ∧ csrBad c r = false ∧ ∀ q, waitsHolds q r = true := by
  have hne : c ≠ ateIdx := by simp only [ateIdx]; omega
  unfold privileged at h
  split at h
  next hk _ => simp [hk, broadcasts, csrBad, waitsHolds, SlotKind.bits]
  next hk => simp [hk, broadcasts, csrBad, waitsHolds, SlotKind.bits]
  next hk hops =>
    simp only [Bool.and_eq_true, csrPriv, Bool.or_eq_true, beq_iff_eq] at h
    obtain ⟨-, (rfl | rfl) | rfl⟩ := h <;>
      simp [hk, hops, hne, broadcasts, csrBad, csrDefined, csrWritable, csrPriv, waitsHolds, SlotKind.bits]
  · cases h

end Sys2Proof.Machine

open Sys2Proof.Machine in
/-- Settles O15: the other slots of the word are empty and pass every check, so the first check that the one slot fails decides. -/
theorem wordChecks : Obligations.WordChecks := by
  refine ⟨⟨?_, ?_, ?_⟩, ?_, ?_⟩
  · intro i s r num hr hk hnum hi hleg hbad
    have hne : s.sel ≠ ateIdx := by have := hi.1; simp only [ateIdx]; omega
    have hcsr : csrBad s.sel r = true := by
      obtain ⟨ns, hops⟩ : ∃ ns, r.ops = num :: ns := by
        cases h : r.ops with
        | nil => rw [h] at hnum; cases hnum
        | cons n ns => rw [h] at hnum; cases hnum; exact ⟨ns, rfl⟩
      simp only [csrBad, hk, hops, if_neg hne, Bool.or_eq_true, Bool.and_eq_true, Bool.not_eq_true', bne_iff_ne]
      exact hbad
    have hfault := exec_checked (code := cILLWORD) (detail := 0) hr (by rw [hk]; rfl) hi hleg (by simp [waitsHolds, hk]) (by simp [broadcasts, hk])
      (by rw [State.slotChecks, if_pos hcsr]) (by decide) (by decide)
    rw [hk] at hfault
    exact hfault
  · intro i s r hr hi hleg hpriv hp
    obtain ⟨hbits, hns, hb, hcsr, hw⟩ := privileged_slot hi.1 hp
    have hfault := exec_checked (code := cILLWORD) (detail := 3) hr hbits hi hleg (hw _) hb
      (by simp [State.slotChecks, hcsr, bcastIdxOk_of_quiet s.me hb, hpriv, hp]) (by decide) (by decide)
    rw [if_neg hns] at hfault
    exact hfault
  · intro s hi hpriv hh
    exact exec_checked (i := .rft) (r := ⟨.na, 7, []⟩) (code := cILLWORD) (detail := 0) rfl rfl hi rfl rfl rfl
      (by simp [State.slotChecks, csrBad, bcastIdxOk, hpriv, hh]) (by decide) (by decide)
  · intro i s r n hr hi hleg hw hp hts hown
    have huse : ∃ u ∈ r.uses, Use.ofSeq u.1 = true ∨ r.kind = .mem := ⟨_, ts_uses hts, .inl rfl⟩
    obtain ⟨hbits, hb, hrft⟩ := seqUse_slot huse
    obtain ⟨row, hrow, -, f, hf, hfu⟩ := mem_uses (ts_uses hts)
    have hkinds : r.kind ≠ .scalar ∧ r.kind ≠ .na ∧ r.kind ≠ .csr :=
      ⟨fun h => rows_noToken (.inl rfl) row (h ▸ hrow) f hf hfu, fun h => rows_noToken (.inr (.inl rfl)) row (h ▸ hrow) f hf hfu,
       fun h => rows_noToken (.inr (.inr rfl)) row (h ▸ hrow) f hf hfu⟩
    obtain ⟨hns, hnn, hnc⟩ := hkinds
    have hpriv : (!s.me.priv && privileged r) = false := by
      cases h : privileged r <;> simp [hp, h]
    have htok : s.tokenFault s.me r = true := by
      have : s.me.core.tokmask.getLsbD n = false := hown
      simp [State.tokenFault, hts, this]
    have hfault := exec_checked (code := cTOKOWN) (detail := 0) hr hbits hi hleg hw hb
      (by simp [State.slotChecks, csrBad, hnc, bcastIdxOk_of_quiet s.me hb, hpriv, hrft, Raw.place, hns, hnn, htok]) (by decide) (by decide)
    rw [if_neg hns, if_neg hnn] at hfault
    exact hfault
  · intro i s r hr hi hleg hw hp hcsr hts hread huw
    obtain ⟨hbits, hb, hrft⟩ := seqUse_slot (readsPending_uses hread)
    have hpriv : (!s.me.priv && privileged r) = false := by
      cases h : privileged r <;> simp [hp, h]
    exact exec_checked (code := cUNDERWAIT) (detail := 0) hr hbits hi hleg hw hb
      (by simp [State.slotChecks, hcsr, bcastIdxOk_of_quiet s.me hb, hpriv, hrft, s.tokenFault_none r hts hb, huw, hread]) (by decide) (by decide)
end

section
set_option Elab.async false

namespace Sys2Proof.Machine

/-! ## Words whose effect carries a mark -/

/-- A result of latency 1 is read at the end of its position. -/
theorem SeqCore.Reads.endPos_one {α : Type} {r : RegId} {read : SeqCore → α} {g : Nat → α} (hr : Reads r read g) (q : SeqCore) (v : Nat) :
    read ((one r v 1).foldl SeqCore.issue q).endPos = g v := by
  have hfly : ((one r v 1).foldl SeqCore.issue q).fly
      = flyOver r [0] 1 q.fly ++ [{ reg := r, vals := [(0, v)], flags := 0, ein := 0, rest := 0, op := none }] := rfl
  rw [hr.endPos, hfly, List.filter_append, List.filter_append, List.foldl_append]
  simp [landValues]

/-- What a predicate reads after a result of latency 1: p0 stays true (R122). -/
theorem SeqCore.rP_one (q : SeqCore) (n v : Nat) (hn : n < 64) :
    (((one (.p n) v 1).foldl SeqCore.issue q).endPos).rP n = (n == 0 || v % 2 == 1) := by
  by_cases h0 : n = 0
  · simp [SeqCore.rP, h0]
  · rw [(SeqCore.reads_p n hn h0).endPos_one q v]
    simp [h0]

/-- The record x after its effect word's mark: the entry in the restart-mark map, the notice to the dies, and the release of what the
field has committed (R373, R422, R426). -/
def Rec.effectMarked (x : Rec) (e : SeqEnv) (clk opsTo : Nat) : Rec :=
  Rec.releaseSeq (Rec.sendAll x.field.dies (clk, .mark (e.q.inn - 1)) { x with
    marks := x.marks.filter (fun y => !(y.kind && y.first == e.q.inn - 1))
      ++ [{ wpc := e.q.pc, npc := x.core.pc, idx := 0, count := 1, kind := true, shd := x.core, first := e.q.inn - 1, opsTo := opsTo }] })

theorem State.effectMark_eq (u : State) (e : SeqEnv) (hc : e.c ≠ ateIdx) (hl : e.c < u.recs.length) :
    u.effectMark e = u.setRec e.c ((u.rc e.c).effectMarked e u.clk u.nextId) := by
  unfold State.effectMark
  rw [if_neg hc]
  simp only [State.toDies_eq, State.addMark, if_true]
  rw [State.updRec_updRec _ _ _ _ hl, State.updRec_updRec _ _ _ _ hl]
  rfl

theorem Rec.releaseSeq_ids (x : Rec) : x.releaseSeq.reqs.map Req.id = x.reqs.map Req.id := by
  simp only [Rec.releaseSeq, List.map_map]
  refine List.map_congr_left fun q _ => ?_
  simp only [Function.comp]
  split <;> rfl

/-- What is left of the record of a word that has issued `ws` and entered `reqs`. -/
def State.enteredRec (s : State) (r : Raw) (ws : List Write) (reqs : List Req) (npc : BitVec 18) : Rec :=
  { (s.wordDone r (fun x => x.issued ws) npc).me with reqs := s.me.reqs ++ reqs }

/-- A word whose slot issues results and marks no register, with what it enters and what follows. -/
theorem State.finishOne_entered (s : State) (r : Raw) (ws : List Write) (oq : Option Req) (g : State → State) (npc : BitVec 18)
    (hl : s.sel < s.recs.length) (hd : ∀ q, oq = some q → q.dest = none) :
    ∃ u, s.finishOne s.sel { writes := ws, req := oq, post := g } npc (readsPending s.core r) = g u
      ∧ u = { s.setRec s.sel (s.enteredRec r ws (oq.toList.map (fun q => { q with pc := s.core.pc, id := s.nextId })) npc) with
          nextId := s.nextId + oq.toList.length } := by
  have hset := s.finishOne_set r ws id none npc hl
  cases oq with
  | none =>
    refine ⟨_, (?_ : _ = g (s.finishOne s.sel { writes := ws } npc (readsPending s.core r))), ?_⟩
    · rfl
    · rw [hset]
      have hme := s.me_wordDone r ws npc hl
      simp only [State.enteredRec, hme, Option.toList, List.map_nil, List.append_nil, List.length_nil, Nat.add_zero]
      rfl
  | some q =>
    have hq := hd q rfl
    refine ⟨_, (?_ : _ = g ((s.finishOne s.sel { writes := ws } npc (readsPending s.core r)).newReq s.sel { q with pc := s.core.pc })), ?_⟩
    · have hm : SeqFx.marks { writes := ws, req := some q, post := g } = SeqFx.marks { writes := ws } := by
        simp [SeqFx.marks, hq]
      simp only [State.finishOne, SeqCore.afterWord, List.map_cons, List.map_nil, hm]
      rfl
    · rw [hset]
      have hme := s.me_wordDone r ws npc hl
      simp only [State.enteredRec, hme]
      unfold State.newReq State.wordDone
      rw [State.updRec_updRec _ _ _ _ hl]
      rfl

theorem Rec.effectMarked_rest (x : Rec) (e : SeqEnv) (clk n : Nat) :
    (x.effectMarked e clk n).core = x.core ∧ (x.effectMarked e clk n).wordcnt = x.wordcnt ∧ (x.effectMarked e clk n).life = x.life := by
  unfold Rec.effectMarked
  rw [Rec.sendAll_rest]
  exact ⟨rfl, rfl, rfl⟩

theorem Rec.effectMarked_marks (x : Rec) (e : SeqEnv) (clk n : Nat) :
    (x.effectMarked e clk n).marks = x.marks.filter (fun y => !(y.kind && y.first == e.q.inn - 1))
      ++ [{ wpc := e.q.pc, npc := x.core.pc, idx := 0, count := 1, kind := true, shd := x.core, first := e.q.inn - 1, opsTo := n }] := by
  unfold Rec.effectMarked
  rw [Rec.sendAll_rest]
  rfl

theorem Rec.effectMarked_reqs (x : Rec) (e : SeqEnv) (clk n : Nat) : (x.effectMarked e clk n).reqs = x.releaseSeq.reqs := by
  unfold Rec.effectMarked
  rw [Rec.sendAll_rest]
  rfl

theorem Rec.effectMarked_frames (x : Rec) (e : SeqEnv) (clk n : Nat) (h : x.field.dies.Nodup) (d : Nat) :
    ((x.effectMarked e clk n).die d).frames = (x.die d).frames ++ (if d ∈ x.field.dies then [(clk, .mark (e.q.inn - 1))] else []) :=
  Rec.sendAll_frames _ _ { x with marks := _ } h d

/-- What a word with an effect mark leaves, of state t. -/
structure EffectLeaves (s t : State) (r : Raw) (ws : List Write) (reqs : List Req) : Prop where
  word : s.wordLeaves t r ws none s.nextPc
  mark : s.effectMarked t []
  inn : t.core.inn = s.core.inn
  preds : ∀ n, t.core.rP n = (ws.foldl SeqCore.issue s.core).endPos.rP n
  ts : t.core.ts = s.core.ts
  reqs : t.me.reqs = (Rec.releaseSeq { s.me with reqs := s.me.reqs ++ reqs }).reqs

/-- A state whose records are those of a word with an effect mark is as that word leaves it. -/
theorem State.effectLeaves (s t : State) (r : Raw) (ws : List Write) (reqs : List Req) (n : Nat) (hi : s.canIssue)
    (hws : ∀ w ∈ ws, ∃ k, w.reg = .p k) (hsel : t.sel = s.sel)
    (hrec : t.recs = s.recs.set s.sel ((s.enteredRec r ws reqs s.nextPc).effectMarked s.senv s.clk n)) : EffectLeaves s t r ws reqs := by
  have hl := s.rc_lt s.sel hi.2.1
  obtain ⟨x, hx⟩ : ∃ x, s.enteredRec r ws reqs s.nextPc = x := ⟨_, rfl⟩
  have hent : x = { s.me with
      core := { (s.me.issued ws).core with
        pc := s.nextPc
        sstat := if readsPending s.core r then wbit (s.me.issued ws).core.sstat 0 true else (s.me.issued ws).core.sstat }
      wordcnt := s.me.wordcnt + 1
      notes := if readsPending s.core r then (s.me.note (.underwait s.core.inn none)).notes else s.me.notes
      reqs := s.me.reqs ++ reqs } := by
    rw [← hx, State.enteredRec, s.me_wordDone r ws s.nextPc hl]
  rw [hx] at hrec
  have hrc : t.rc = (s.setRec s.sel (x.effectMarked s.senv s.clk n)).rc := by
    funext k
    simp only [State.rc, hrec, State.setRec]
  have hme : t.me = x.effectMarked s.senv s.clk n := by
    rw [State.me, hsel, hrc, State.rc_setRec_self _ _ _ hl]
  obtain ⟨hcore, hcnt, hlife⟩ := x.effectMarked_rest s.senv s.clk n
  have hsame := s.me.issued_sameRest ws
  have hreg : ∀ reg, (∀ k, reg ≠ .p k) → ∀ w ∈ ws, w.reg ≠ reg := fun reg hk w hw he => by
    obtain ⟨k, h⟩ := hws w hw
    exact hk k (he.symm.trans h)
  have htc : t.core = x.core := by rw [State.core, hme, hcore]
  have hold : x.marks = s.me.marks := by rw [hent]
  have hmarks := hold ▸ (congrArg Rec.marks hme).trans (x.effectMarked_marks s.senv s.clk n)
  refine { word := ⟨?_, ?_, ?_, ?_, ?_, ?_, nofun, nofun, ?_⟩, mark := ⟨⟨_, hmarks, rfl, rfl, rfl, rfl, ?_⟩, ?_⟩, inn := ?_, preds := ?_, ts := ?_, reqs := ?_ }
  · rw [htc, hent]
    rw [hsame]
    rfl
  · rw [hme, hcnt, hent]
  · rw [hme, hlife, hent]
    exact hi.2.2.1
  · intro m _
    rw [htc, hent]
    exact (SeqCore.reads_s m).endPos_issue ws s.core (hreg _ nofun)
  · intro m _
    rw [htc, hent]
    exact (SeqCore.reads_h m).endPos_issue ws s.core (hreg _ nofun)
  · intro m hm
    rw [htc, hent]
    exact SeqCore.rP_endPos_issue ws s.core m hm
  · intro k hk
    rw [hrc, State.rc_setRec_ne _ _ _ _ hk]
  · rw [hent]
  · intro hnd d
    have hd : t.dctx s.sel d = (x.effectMarked s.senv s.clk n).die d := by
      rw [← hme, ← hsel]
      rfl
    have hf : x.field = s.me.field ∧ x.die d = s.dctx s.sel d := by
      rw [hent]
      exact ⟨rfl, rfl⟩
    rw [hd, x.effectMarked_frames _ _ _ (hf.1 ▸ hnd), hf.1, hf.2]
    rfl
  · rw [htc, hent]
    rw [hsame]
    rfl
  · intro m
    rw [htc, hent]
    rfl
  · rw [htc, hent]
    rw [hsame]
    rfl
  · rw [hme, x.effectMarked_reqs, hent]
    rfl

/-! ## Engine commands (R56, R57) -/

/-- The ENG words but ENQ have one meaning, that of their class. -/
theorem exec_eng {i : Instr} {r : Raw} {cls desc ts bp : Nat} {acq rel : Bool} {sc : Scope} (hr : i.raw = some r)
    (hf : engForm i = some (cls, desc, ts, acq, rel, sc, bp)) :
    (∀ s, exec i s = s.issueSlot r (eng cls desc ts acq rel sc bp)) ∧ r.kind = .eng ∧ r.ops.getD 5 0 = bp ∧ cls < 8 := by
  cases i
  all_goals cases hf
  all_goals cases hr
  all_goals exact ⟨fun _ => rfl, rfl, rfl, Nat.le_of_ble_eq_true rfl⟩

/-- An operand fits the width of its field. -/
theorem operand_lt : ∀ {fs : List Field} {ops : List Nat}, fieldsOk fs ops = true → ∀ {k : Nat} {f : Field}, fs[k]? = some f → f.w ≠ 0 →
    ops.getD k 0 < 2 ^ f.w
  | _ :: _, [], h, _, _, _, _ => nomatch h
  | _ :: _, v :: vs, h, k, f, hk, hw => by
    simp only [fieldsOk, Bool.and_eq_true, Bool.or_eq_true, beq_iff_eq, decide_eq_true_eq] at h
    cases k with
    | zero =>
      obtain rfl := Option.some.inj hk
      exact h.1.2.resolve_left hw
    | succ k => exact operand_lt h.2 hk hw

theorem engRows_predicate : ∀ row ∈ SlotKind.eng.rows, row.fields[5]? = some ⟨7, 6, .any, .pW⟩ := by decide +kernel

/-- The predicate of an ENG word is one of 64 (R56). -/
theorem eng_predicate {r : Raw} (hleg : r.legal = true) (hk : r.kind = .eng) : r.ops.getD 5 0 < 64 := by
  obtain ⟨row, hrow, -, -, hok, -⟩ := Raw.legal_row hleg
  rw [hk] at hrow
  exact operand_lt hok (engRows_predicate row (rowOf_some hrow).1) (by decide)

/-- Issuing an ENG word whose checks pass: the answer follows from its meaning. -/
theorem State.issueSlot_eng (s : State) (r : Raw) (fx : SeqMeaning) (ws : List Write) (oq : Option Req) (g : State → State)
    (hi : s.canIssue) (hp : s.passes r) (hk : r.kind = .eng) (hd : ∀ q, oq = some q → q.dest = none)
    (hf : ∀ e : SeqEnv, e = s.senv → fx e s = .ok (s, { writes := ws, req := oq, post := g })) :
    ∃ u, s.issueSlot r fx = .next (g u)
      ∧ u = { s.setRec s.sel (s.enteredRec r ws (oq.toList.map (fun q => { q with pc := s.core.pc, id := s.nextId })) s.nextPc) with
          nextId := s.nextId + oq.toList.length } := by
  have hb : broadcasts r = false := by simp [broadcasts, hk]
  have hlit : (r.kind == .x && r.op == 2) = false := by simp [hk]
  obtain ⟨u, hu, hu'⟩ := s.finishOne_entered r ws oq g s.nextPc (s.rc_lt s.sel hi.2.1) hd
  refine ⟨u, ?_, hu'⟩
  rw [← hu, s.issueSlot_ok s r fx { writes := ws, req := oq, post := g } hi hp (by simp [waitsHolds, hk]) (by simp [hb]) (by simp [csrBad, hk])
    (by simp [bcastIdxOk, hk]) (by simp [hk]) (s.tokenFault_none r hp.2.2.1 hb) (by simp [slotActs, hk]) (hf _ (by rw [hlit]; rfl)), hlit]
  rfl

/-- The state in which the effects of an accepted command, or of one refused, take place. -/
theorem State.entered_effectMark (s u : State) (r : Raw) (ws : List Write) (reqs : List Req) (n : Nat) (hi : s.canIssue)
    (hu : u = { s.setRec s.sel (s.enteredRec r ws reqs s.nextPc) with nextId := n }) :
    u.effectMark s.senv = { s.setRec s.sel ((s.enteredRec r ws reqs s.nextPc).effectMarked s.senv s.clk n) with nextId := n } := by
  have hl := s.rc_lt s.sel hi.2.1
  have hne : s.senv.c ≠ ateIdx := by
    have := hi.1
    simp only [State.senv, ateIdx]
    omega
  have hrc : u.rc s.sel = s.enteredRec r ws reqs s.nextPc := by
    rw [hu]
    exact s.rc_setRec_self s.sel _ hl
  rw [u.effectMark_eq s.senv hne (by simpa [hu, State.setRec, State.senv] using hl)]
  change u.setRec s.sel ((u.rc s.sel).effectMarked _ _ _) = _
  rw [hrc, hu]
  simp [State.setRec]

/-- The operation of an accepted command as its word enters it; its mark may have committed already (R426). -/
theorem State.mem_releaseSeq (s : State) (r : Rec) (ord : Ord) (sc : Scope) (ts : Nat) (dest : Option RegId) (body : Body) (hcf : r.cf = s.me.cf)
    (h : { s.seqOp ord sc ts dest body with gated := true, stage := .held } ∈ r.reqs) : s.heldOp ord sc ts dest body ∈ r.releaseSeq.reqs := by
  refine List.mem_map.2 ⟨_, h, ?_⟩
  rw [hcf]
  unfold State.heldOp
  by_cases hc : 0 ≤ inDiff s.me.cf (s.core.inn - 1)
  · rw [if_pos ⟨rfl, rfl, hc⟩, if_pos hc]
  · rw [if_neg fun h => hc h.2.2, if_neg hc]

theorem engAccepted_post (e : SeqEnv) (cls ts bp : Nat) (sc : Scope) (m : Cmd) (u : State) :
    (engAccepted e cls ts bp sc m id).post u = { u.effectMark e with
      armq := (u.effectMark e).armq.modify cls (fun q => q ++ [{ c := e.c, req := (u.effectMark e).nextId - 1, org := none, pasid := e.rc.pasid.toNat
                                                                 home := e.rc.field.origin, sc := sc, cmd := m, prog := 0, code := 0, page := false
                                                                 ended := false, lost := false, no := 0 }]) } := rfl

/-- The operation of a command as its meaning gives it; its id and its PC come with the word. -/
def State.cmdOp (s : State) (sc : Scope) (ts : Nat) (m : Cmd) : Req :=
  { s.seqOp .relaxed sc ts none (.cmd m) with id := 0, pc := 0, gated := true, stage := .held }

theorem engAccepted_req (s : State) (cls ts bp : Nat) (sc : Scope) (m : Cmd) (hc : s.sel < 16) :
    (engAccepted s.senv cls ts bp sc m id).req = some (s.cmdOp sc ts m) := by
  have hstage : (if s.sel = ateIdx then Stage.out else Stage.held) = .held := if_neg (by simp only [ateIdx]; omega)
  exact congrArg (fun st => some { s.cmdOp sc ts m with stage := st }) hstage

/-- A command that its queue has room for is accepted. -/
theorem State.eng_accepted (s : State) (r : Raw) (cls desc ts bp : Nat) (acq rel : Bool) (sc : Scope) (hi : s.canIssue) (hp : s.passes r)
    (hk : r.kind = .eng) (hbp : bp < 64) (hc : cls < s.armq.length) (hroom : (s.armq.getD cls []).length < 16) :
    ∃ t, s.issueSlot r (eng cls desc ts acq rel sc bp) = .next t
      ∧ s.accepted t r cls ts sc bp { cls := cls, e := s.core.desc desc, items := [], acq := acq, rel := rel } := by
  generalize hm : ({ cls := cls, e := s.core.desc desc, items := [], acq := acq, rel := rel } : Cmd) = m
  have hfx : eng cls desc ts acq rel sc bp s.senv s = .ok (s, engAccepted s.senv cls ts bp sc m id) := by
    rw [← hm]
    exact if_neg (Nat.not_le.2 hroom)
  obtain ⟨u, hu, hu'⟩ := s.issueSlot_eng r (eng cls desc ts acq rel sc bp) (one (.p bp) 0 1) (some (s.cmdOp sc ts m))
    (engAccepted s.senv cls ts bp sc m id).post hi hp hk
    (by rintro _ ⟨⟩; rfl) (by
      rintro e rfl
      rw [hfx, ← engAccepted_req s cls ts bp sc m hi.1]
      rfl)
  have hmark := s.entered_effectMark u r _ _ _ hi hu'
  obtain ⟨v, hv⟩ : ∃ v : State, { u.effectMark s.senv with armq := s.armq.modify cls (· ++ [s.queued sc m]) } = v := ⟨_, rfl⟩
  have hpost : (engAccepted s.senv cls ts bp sc m id).post u = v := by
    rw [engAccepted_post, ← hv, hmark]
    rfl
  have hleaves := s.effectLeaves v r (one (.p bp) 0 1) [{ s.cmdOp sc ts m with pc := s.core.pc, id := s.nextId }] (s.nextId + 1) hi
    (by simp [one]) (by rw [← hv, hmark]; rfl) (by rw [← hv, hmark]; rfl)
  refine ⟨v, hu.trans (congrArg _ hpost), ?_, ?_, ⟨?_, rfl, ?_, nofun⟩, ?_, hleaves.word, hleaves.mark, hleaves.inn, ?_⟩
  · simp [← hv, List.getD_eq_getElem?_getD, hc]
  · intro k hk
    simp [← hv, List.getD_eq_getElem?_getD, Ne.symm hk]
  · rw [hleaves.reqs]
    refine s.mem_releaseSeq _ _ _ _ _ _ rfl (List.mem_append_right _ (List.mem_singleton.2 rfl))
  · rw [← hv, hmark]
    rfl
  · rw [hleaves.preds, SeqCore.rP_one _ _ _ hbp]
    simp
  · rw [← hv, hmark]
    rfl

/-- A refusal is charged to an engine and changes nothing else. -/
def OnlyCharges (note : State → State) : Prop := ∀ u, ∃ ds, note u = { u with dies := ds }

/-- The meaning of an ENG word whose queue is full (R57). -/
theorem eng_full (s : State) (cls desc ts bp : Nat) (acq rel : Bool) (sc : Scope) (hfull : 16 ≤ (s.armq.getD cls []).length) :
    ∃ note, eng cls desc ts acq rel sc bp s.senv s = .ok (s, engRefused s.senv bp note) ∧ OnlyCharges note := by
  refine ⟨_, if_pos hfull, fun u => ?_⟩
  dsimp only
  split
  · exact ⟨_, rfl⟩
  · exact ⟨u.dies, rfl⟩

/-- A command whose queue is full is refused. -/
theorem State.eng_turnedAway (s : State) (r : Raw) (cls desc ts bp : Nat) (acq rel : Bool) (sc : Scope) (hi : s.canIssue) (hp : s.passes r)
    (hk : r.kind = .eng) (hbp : bp < 64) (hfull : 16 ≤ (s.armq.getD cls []).length) :
    ∃ t, s.issueSlot r (eng cls desc ts acq rel sc bp) = .next t ∧ s.turnedAway t r bp := by
  obtain ⟨note, hfx, hnote⟩ := eng_full s cls desc ts bp acq rel sc hfull
  obtain ⟨u, hu, hu'⟩ := s.issueSlot_eng r _ (one (.p bp) 1 1) none (fun u => note (u.effectMark s.senv)) hi hp hk (fun _ h => nomatch h)
    (by rintro e rfl; exact hfx)
  have hmark := s.entered_effectMark u r _ _ _ hi hu'
  obtain ⟨ds, hds⟩ := hnote (u.effectMark s.senv)
  have hleaves := s.effectLeaves (note (u.effectMark s.senv)) r (one (.p bp) 1 1) [] s.nextId hi (by simp [one]) (by rw [hds, hmark]; rfl)
    (by rw [hds, hmark]; rfl)
  refine ⟨_, hu, by rw [hds, hmark]; rfl, by rw [hds, hmark]; rfl, ?_, ?_, hleaves.ts, hleaves.word, hleaves.mark, hleaves.inn,
    by rw [hds, hmark]; rfl⟩
  · rw [hleaves.reqs, Rec.releaseSeq_ids, List.append_nil]
  · rw [hleaves.preds, SeqCore.rP_one _ _ _ hbp]
    simp

end Sys2Proof.Machine

open Sys2Proof.Machine in
/-- Settles O26: an ENG word does nothing in its checks but look at the length of its queue. -/
theorem engineCommands : Obligations.EngineCommands := by
  intro i s r cls desc ts acq rel sc bp hr hf hs hi hp
  obtain ⟨hexec, hk, hbp, hc⟩ := exec_eng hr hf
  have hbp64 : bp < 64 := hbp ▸ eng_predicate hp.1 hk
  rw [hexec]
  exact ⟨s.eng_accepted r cls desc ts bp acq rel sc hi hp hk hbp64 (hs.2.2.1 ▸ hc),
    s.eng_turnedAway r cls desc ts bp acq rel sc hi hp hk hbp64⟩

end

section
set_option Elab.async false

namespace Sys2Proof.Machine

/-! ## A bundle whose one slot changes the state as it runs -/

/-- What a bundle of slot r does once its slot has run, leaving u and the effects `fxs`. -/
def State.bundleAfterRun (s : State) (r : Raw) (fx : SlotMeaning) (u : State) (fxs : List (List (Nat × CellFx))) : State :=
  let t := s.myCells.foldl (fun (t : State) l => t.cellEffects s.sel s.selDie l s.myDie.e (effectsOf fxs l) (s.underwaits r l) (s.emptyReads r fx l)
    (popsEntry r)) u
  let t := s.myCells.foldl (fun (t : State) l => t.discardAhead s.sel s.selDie l s.nextId s.myDie.e (s.myDie.rereads [r] s.myDie.e l))
    (t.idleCells s.sel s.selDie s.myDie.e s.myCells)
  t.updDctx s.sel s.selDie (fun x => x.issued s.myDie.e (s.marksNow r) (gatedCount s s.sel s.selDie s.myCells [r]) 1 none)

/-- A bundle whose checks pass, of a slot that acts in the cells alone, is decided by the run of its slot. -/
theorem State.issueBundle_run (s : State) (r : Raw) (fx : SlotMeaning) (hc : s.canBundle r) (hfx : fx = { cell := fx.cell }) :
    s.issueBundle s.sel s.selDie s.myDie.e s.core.diemask s.core.cellmask [⟨r, slotNo r.kind, fx⟩]
      = match runBundle s.sel s.selDie s.me s.myDie s.myDie.e [r] s.myCells [⟨r, slotNo r.kind, fx⟩] s with
        | .error f => .next (s.dieFault s.sel s.selDie s.myDie.e f)
        | .ok (u, fxs) => .next (s.bundleAfterRun r fx u fxs) := by
  obtain ⟨-, -, hlegal, hmark, hstores, htrk, hmx, huw⟩ := hc
  have hrc : s.rc s.sel = s.me := rfl
  have hdie : s.me.die s.selDie = s.myDie := rfl
  have hcells : activeCells s.me s.selDie s.core.diemask s.core.cellmask = s.myCells := rfl
  have hovf : ((!(markOp r.kind r.op || s.myDie.markAsk.contains s.myDie.e) && decide (1024 ≤ s.myDie.sinceMark))
      || decide (128 < s.myDie.sinceStores + gatedCount s s.sel s.selDie s.myCells [r])) = false := by
    rw [Bool.or_eq_false_iff]
    refine ⟨?_, by simpa using hstores⟩
    rcases hmark with h | h | h
    · simp only [h, Bool.true_or, Bool.not_true, Bool.false_and]
    · simp only [h, Bool.or_true, Bool.not_true, Bool.false_and]
    · simp [Nat.not_le.2 h]
  have huw' : (s.myCells.any fun l => tbit (s.cell s.sel s.selDie l).core.cctl 8 &&
      (cellReadsPending s.me s.selDie l (s.cell s.sel s.selDie l).core r (guardLanes (s.cell s.sel s.selDie l).core r.guard)
        || (!(cellEnv s s.sel s.selDie s.me s.myDie s.myDie.e l ⟨r, slotNo r.kind, fx⟩ [r]).lanes.isEmpty
          && fx.empty (cellEnv s s.sel s.selDie s.me s.myDie s.myDie.e l ⟨r, slotNo r.kind, fx⟩ [r]) s))) = false := by
    rw [List.any_eq_false, hfx]
    intro l hl
    cases hb : tbit (s.at l).core.cctl 8 with
    | false =>
      change ¬(tbit (s.at l).core.cctl 8 && _) = true
      simp [hb]
    | true =>
      have := huw l hl hb
      change ¬(_ && (s.underwaits r l || _)) = true
      simp [this]
  unfold State.issueBundle
  simp only [hrc, hdie, hcells, List.any_cons, List.any_nil, Bool.or_false, List.map, hlegal, hovf, Bool.false_eq_true, if_false, htrk, hmx,
    Bool.not_true, List.findSome?]
  rw [huw', hfx]
  simp only [Bool.false_eq_true, if_false]
  rfl

/-- Issuing a bundle that reaches one cell, whose slot changes nothing there but the dies and the count of commands, and has effects f. -/
theorem State.issueLane_enters (s u : State) (r : Raw) (fx : SlotMeaning) (f : CellFx) (l : Nat) (hc : s.canBundle r) (hcells : s.myCells = [l])
    (hacts : s.lanesOf r l ≠ []) (hfx : fx = { cell := fx.cell }) (hu : ∃ ds n, u = { s with dies := ds, cmdNo := n })
    (hcell : fx.cell (s.env r l) s = .ok (u, f)) : s.issueLane r fx = .next (u.bundleDone r { cell := fx.cell } (fun _ => f)) := by
  have hrun : runBundle s.sel s.selDie s.me s.myDie s.myDie.e [r] s.myCells [⟨r, slotNo r.kind, fx⟩] s = .ok (u, [[(l, f)]]) := by
    have hlanes : (s.lanesOf r l).isEmpty = false := by simpa using hacts
    have hone : (if (s.env r l).lanes.isEmpty && !movesCursor r then .ok (s, idleFx s.selDie l s.myDie.e (slotNo r.kind) r)
        else fx.cell (s.env r l) s) = .ok (u, f) := by
      have hl : (s.env r l).lanes.isEmpty = false := hlanes
      rw [hl]
      exact hcell
    have henv : cellEnv s s.sel s.selDie s.me s.myDie s.myDie.e l ⟨r, slotNo r.kind, fx⟩ [r] = s.env r l := rfl
    rw [hcells]
    simp only [runBundle, runCells, henv, hone]
  have hlane : u.laneFx r (fun _ => f) l = f := by
    obtain ⟨ds, n, rfl⟩ := hu
    have hl : (({ s with dies := ds, cmdNo := n } : State).lanesOf r l).isEmpty = false := by
      have : ({ s with dies := ds, cmdNo := n } : State).lanesOf r l = s.lanesOf r l := rfl
      simpa [this] using hacts
    simp [State.laneFx, hl]
  have hbundle := s.issueBundle_run r fx hc hfx
  rw [hrun] at hbundle
  have hdone : s.bundleAfterRun r fx u [[(l, f)]] = u.bundleDone r { cell := fx.cell } (fun _ => f) := by
    have heff : effectsOf [[(l, f)]] l = [f] := by simp [effectsOf]
    have hu' : u.myCells = [l] := by
      obtain ⟨ds, n, rfl⟩ := hu
      exact hcells
    unfold State.bundleAfterRun State.bundleDone State.lanesDone
    simp only [hcells, hu', List.foldl_cons, List.foldl_nil, heff, hlane]
    rw [hfx]
    obtain ⟨ds, n, rfl⟩ := hu
    rfl
  have hlt : s.sel < u.recs.length := by
    obtain ⟨ds, n, rfl⟩ := hu
    exact hc.sel_lt
  have hsel : u.sel = s.sel ∧ u.selDie = s.selDie := by
    obtain ⟨ds, n, rfl⟩ := hu
    exact ⟨rfl, rfl⟩
  have hhold : ((u.bundleDone r { cell := fx.cell } (fun _ => f)).dctx s.sel s.selDie).hold = none := by
    have := (u.bundleDone_leaves r { cell := fx.cell } (fun _ => f) (hsel.1 ▸ hlt)).goesOn.1
    rwa [hsel.1, hsel.2] at this
  obtain ⟨hcan, hleg, -⟩ := hc
  unfold State.issueLane
  dsimp only
  rw [hcan, hleg]
  simp only [Bool.not_true, Bool.false_eq_true, if_false]
  have hb : s.issueBundle s.sel s.selDie (s.dctx s.sel s.selDie).e (s.rc s.sel).core.diemask (s.rc s.sel).core.cellmask [⟨r, slotNo r.kind, fx⟩]
      = .next (u.bundleDone r { cell := fx.cell } (fun _ => f)) := hbundle.trans (congrArg _ hdone)
  rw [hb]
  simp [hhold]

/-- The operations and the engines after a bundle that reaches one cell. -/
theorem State.bundleDone_one (s : State) (r : Raw) (fx : SlotMeaning) (F : Nat → CellFx) (l : Nat) (hc : s.sel < s.recs.length) (hcells : s.myCells = [l]) :
    ∃ u, SameButAhead s.sel s.selDie s u
      ∧ (s.bundleDone r fx F).dies = (u.cellActs s.sel s.selDie l [s.laneFx r F l] (s.underwaits r l) (popsEntry r)).dies
      ∧ ((s.bundleDone r fx F).rc s.sel).reqs = ((u.cellActs s.sel s.selDie l [s.laneFx r F l] (s.underwaits r l) (popsEntry r)).rc s.sel).reqs
      ∧ (s.bundleDone r fx F).nextId = (u.cellActs s.sel s.selDie l [s.laneFx r F l] (s.underwaits r l) (popsEntry r)).nextId := by
  let g : DieCtx → DieCtx := fun x => x.overtaken s.myDie.e l ((x.cell l).landing ++ landingNow [s.laneFx r F l])
  have ha : SameButAhead s.sel s.selDie s (s.updDctx s.sel s.selDie g) := s.updDctx_same _ _ g hc (fun x => x.overtaken_settled _ _ _)
  have hu := ha.trans (State.noteUnderwait_same _ s.sel s.selDie l s.myDie.e (s.underwaits r l || s.emptyReads r fx l) (by rw [ha.length]; exact hc))
  refine ⟨_, hu, ?_⟩
  generalize hv : (State.noteUnderwait _ _ _ _ _ _ : State) = v at hu
  let w := v.cellActs s.sel s.selDie l [s.laneFx r F l] (s.underwaits r l) (popsEntry r)
  have hw : s.sel < w.recs.length := by
    have : w.recs.length = v.recs.length := v.cellActs_length ..
    rw [this, hu.length]
    exact hc
  let x := w.idleCells s.sel s.selDie s.myDie.e [l]
  have hx : s.sel < x.recs.length := by simpa [x, State.idleCells] using hw
  have hd := x.discardAhead_same s.sel s.selDie l s.nextId s.myDie.e (s.myDie.rereads [r] s.myDie.e l) hx
  have hdone : s.bundleDone r fx F = (x.discardAhead s.sel s.selDie l s.nextId s.myDie.e (s.myDie.rereads [r] s.myDie.e l)).updDctx s.sel s.selDie
      (fun y => y.issued s.myDie.e (s.marksNow r) (gatedCount s s.sel s.selDie s.myCells [r]) (max 1 fx.positions) (fx.after (s.genv r))) := by
    unfold State.bundleDone State.lanesDone
    simp only [hcells, List.foldl_cons, List.foldl_nil, x, w, ← hv]
    rfl
  rw [hdone]
  refine ⟨hd.dies, ?_, hd.nextId⟩
  rw [State.rc_updDctx_self _ _ _ _ (by rw [hd.length]; exact hx)]
  refine hd.reqs.trans ?_
  change ((w.updDctx s.sel s.selDie _).rc s.sel).reqs = _
  rw [w.rc_updDctx_self _ _ _ hw]
  rfl

/-! ## The queues of the engines of a die -/

theorem State.pdie_updPdie_self (s : State) (d : Nat) (f : Die → Die) (hd : d < s.dies.length) : (s.updPdie d f).pdie d = f (s.pdie d) := by
  simp [State.pdie, State.updPdie, hd]

theorem Die.engine_setEngine (x : Die) (n : Nat) (y : Engine) : (x.setEngine n y).engine n = y := by
  match n with
  | 0 | 1 | 2 | 3 | 4 => rfl
  | _ + 5 => rfl

/-- A command of a cell's operation q, which the operation takes over where it stands unclaimed (R426). -/
def QCmd.claimed (m : QCmd) (id c : Nat) (q : Req) : QCmd := if m.c = c ∧ m.org = q.org ∧ m.req = cmdUnclaimed then { m with req := id } else m

/-- What the claim of an operation leaves in the queues of its die. -/
theorem State.claimCmd_queue (s : State) (c d l : Nat) (q : Req) (m : Cmd) (n : Nat) (hd : d < s.dies.length) (horg : q.org = some (d, l))
    (hbody : q.body = .cmd m) :
    (((s.claimCmd c q).pdie d).engine n).queue = ((s.pdie d).engine n).queue.map (fun x => x.claimed s.nextId c q) := by
  unfold State.claimCmd
  rw [horg, hbody]
  dsimp only
  rw [s.pdie_updPdie_self d _ hd]
  unfold QCmd.claimed
  rw [horg]
  match n with
  | 0 | 1 | 2 | 3 | 4 => rfl
  | _ + 5 => rfl

/-- The operation of a command, entered by a bundle that reaches one cell, takes the next id, and takes over the entry of its command. -/
theorem State.bundleDone_claims (u : State) (r : Raw) (fx : SlotMeaning) (f : CellFx) (l : Nat) (q : Req) (m : Cmd) (hl : u.sel < u.recs.length)
    (hcells : u.myCells = [l]) (hlane : u.laneFx r (fun _ => f) l = f) (hf : f.req = some q) (horg : q.org = some (u.selDie, l))
    (hbody : q.body = .cmd m) (hd : u.selDie < u.dies.length) :
    { q with id := u.nextId } ∈ ((u.bundleDone r fx (fun _ => f)).rc u.sel).reqs ∧ u.nextId ≤ (u.bundleDone r fx (fun _ => f)).nextId
      ∧ ∀ n, (((u.bundleDone r fx (fun _ => f)).pdie u.selDie).engine n).queue
        = ((u.pdie u.selDie).engine n).queue.map (fun x => x.claimed u.nextId u.sel q) := by
  obtain ⟨v, hv, hdies, hreqs, hid⟩ := u.bundleDone_one r fx (fun _ => f) l hl hcells
  generalize u.bundleDone _ _ _ = t at hdies hreqs hid
  obtain ⟨w, hw⟩ : ∃ w, v.updCell u.sel u.selDie l (fun y => y.afterBundle [f] v.nextId (u.underwaits r l) (popsEntry r)) = w := ⟨_, rfl⟩
  have hwn : w.nextId = u.nextId := by rw [← hw]; exact hv.nextId
  have hwd : w.dies = u.dies := by rw [← hw]; exact hv.dies
  rw [hlane, v.cellActs_some _ _ _ _ q _ _ hf, hw] at hdies hreqs hid
  refine ⟨?_, ?_, fun n => ?_⟩
  · have hlw : u.sel < (w.claimCmd u.sel q).recs.length := by
      rw [State.claimCmd_recs, ← hw]
      simpa [hv.length] using hl
    rw [hreqs, State.rc_newReq_self _ _ _ hlw, State.claimCmd_nextId, hwn]
    exact List.mem_append_right _ (List.mem_singleton.2 rfl)
  · rw [hid]
    change u.nextId ≤ (State.claimCmd _ _ _).nextId + 1
    rw [State.claimCmd_nextId, hwn]
    exact Nat.le_succ _
  · have ht : t.pdie u.selDie = (w.claimCmd u.sel q).pdie u.selDie := congrArg (fun ds => List.getD ds u.selDie Die.reset) hdies
    rw [ht, w.claimCmd_queue u.sel u.selDie l q m n (hwd ▸ hd) horg hbody, hwn, State.pdie, hwd]
    rfl

/-! ## Masks of a cell -/

/-- A result that lands in lanes of a mask sets them; k0 reads all ones (R136). -/
theorem CellCore.rK_lanes (n v k : Nat) (hk : k < 64) : ∀ (ls : List Nat) (q : CellCore),
    k ∈ ls ∨ (q.rK n).getLsbD k = (n == 0 || v % 2 == 1) →
    (((ls.map (fun i => (i, v))).foldl (fun (q : CellCore) (p : Nat × Nat) => q.put (.k n) p.1 p.2) q).rK n).getLsbD k = (n == 0 || v % 2 == 1)
  | [], q, h => h.resolve_left List.not_mem_nil
  | i :: ls, q, h => by
    refine CellCore.rK_lanes n v k hk ls _ ?_
    by_cases hn : n = 0
    · refine .inr ?_
      rw [CellCore.rK, if_pos hn, BitVec.getLsbD_allOnes, decide_eq_true hk, hn]
      rfl
    · have hput : ((q.put (.k n) i v).rK n).getLsbD k = if k = i then v % 2 == 1 else (q.rK n).getLsbD k := by
        simp only [CellCore.put, CellCore.wK, if_neg hn, CellCore.rK, mapGet_mapSet]
        exact tbit_wbit _ _ _ _ hk
      by_cases hki : k = i
      · exact .inr (by rw [hput]; simp [hki, hn])
      · refine h.imp (fun hm => (List.mem_cons.1 hm).resolve_left hki) (fun hq => ?_)
        rw [hput, if_neg hki, hq]

/-- What a mask reads after a bundle that issues a result of latency 1 to some of its lanes. -/
theorem CellCore.rK_after (q : CellCore) (e : CellEnv) (n v k : Nat) (uw pop : Bool) (hk : k < 64) (hmem : k ∈ e.lanes) :
    ((q.after (bkWrite e n v) uw pop).rK n).getLsbD k = (n == 0 || v % 2 == 1) := by
  have hafter : (q.after (bkWrite e n v) uw pop).rK n = ((bkWrite e n v).foldl CellCore.issue q).endPos.rK n := by
    unfold CellCore.after CellCore.orCst
    cases uw <;> cases pop <;> rfl
  rw [hafter]
  let w : Write := { reg := .k n, vals := e.lanes.map (fun i => (i, v)), lat := 1, ein := e.ein.toNat }
  have hfly : ((bkWrite e n v).foldl CellCore.issue q).fly
      = flyOver w.reg (w.vals.map Prod.fst) 1 q.fly ++ [{ reg := w.reg, vals := w.vals, flags := 0, ein := w.ein, rest := 0, op := none }] := rfl
  unfold CellCore.endPos
  rw [hfly, flyNow_append, List.foldl_append]
  exact CellCore.rK_lanes n v k hk e.lanes _ (.inl hmem)

theorem mem_lanesOf_lt {s : State} {r : Raw} {l k : Nat} (h : k ∈ s.lanesOf r l) : k < 64 :=
  List.mem_range.1 (List.mem_filter.1 h).1

/-- A cell after a bundle of results and of an operation without a destination. -/
theorem Cell.afterBundle_enters (y : Cell) (ws : List Write) (oq : Option Req) (id : Nat) (uw pop : Bool) :
    y.afterBundle [{ writes := ws, req := oq }] id uw pop = { y with core := y.core.after ws uw pop } := by
  have h0 : SlotOut.without { writes := ws, marks := [] } [] = { writes := ws, marks := [] } := SlotOut.without_nil _
  cases oq <;> simp [Cell.afterBundle, standing, h0, giveIds, CellCore.after, CellCore.later]

/-! ## Engine commands of a cell (R77) -/

/-- The XF commands have one meaning, that of their class. -/
theorem exec_xfCmd {i : Instr} {r : Raw} {cls xd bk : Nat} {sc : Scope} {acq rel : Bool} (hr : i.raw = some r)
    (hf : xfForm i = some (cls, xd, sc, acq, rel, bk)) :
    ∃ tk, (∀ s, exec i s = s.issueLane r (xfCmd cls xd tk sc acq rel bk (fun e => xfItems e i))) ∧ r.tk = some tk := by
  cases i
  all_goals cases hf
  all_goals cases hr
  all_goals exact ⟨_, fun _ => rfl, rfl⟩

theorem State.laneFx_acts (s : State) (r : Raw) (F : Nat → CellFx) (l : Nat) (hacts : s.lanesOf r l ≠ []) : s.laneFx r F l = F l := by
  have hl : (s.lanesOf r l).isEmpty = false := by simpa using hacts
  simp [State.laneFx, hl]

/-- What a bundle that reaches one cell leaves, of a slot that issues results to a mask and at most enters an operation. -/
theorem BundleLeaves.quietOps {s u t : State} {r : Raw} {fx : SlotMeaning} {F : Nat → CellFx} (h : BundleLeaves u r { cell := fx.cell } F t)
    (hu : ∃ ds n, u = { s with dies := ds, cmdNo := n }) (hid : s.nextId ≤ t.nextId) : s.quietOps t := by
  obtain ⟨ds, n, rfl⟩ := hu
  have hme : t.me = t.rc s.sel := congrArg t.rc h.sel
  have hat : ∀ l, t.at l = t.cell s.sel s.selDie l := fun l => by rw [State.at, h.sel, h.selDie]
  have hdie : t.myDie = t.dctx s.sel s.selDie := by rw [State.myDie, h.sel, h.selDie]
  refine ⟨⟨?_, h.sel, h.selDie⟩, h.mem, ?_, h.others, ?_, hid, fun l hl => ?_, h.far⟩
  · rw [hdie]
    exact h.goesOn.2
  · rw [State.core, hme]
    exact (congrArg Rec.core h.rest :)
  · rw [hme]
    exact h.old
  · rw [hat]
    exact h.idle l hl

/-- What an XF command of cell l asks for. -/
def State.xfCommand (s : State) (r : Raw) (i : Instr) (cls xd : Nat) (acq rel : Bool) (l : Nat) : Cmd :=
  { cls := cls, e := (List.range 8).map (fun k => (s.at l).core.rX (8 * xd + k)), items := xfItems (s.env r l) i, acq := acq, rel := rel }

/-- The queue of an engine of the issuing die. -/
def State.engineQueue (s : State) (x : Nat) : List QCmd := ((s.pdie s.selDie).engine x).queue

/-- The entry of a cell's command in a queue, under the id of its operation. -/
def State.cellEntry (s : State) (l : Nat) (sc : Scope) (m : Cmd) (id : Nat) : QCmd :=
  { c := s.sel, req := id, org := some (s.selDie, l), pasid := s.me.pasid.toNat, home := s.selDie, sc := sc, cmd := m, prog := 0, code := 0,
    page := false, ended := false, lost := false, no := s.cmdNo }

section
variable (s : State) (r : Raw) (i : Instr) (cls xd tk bk l : Nat) (sc : Scope) (acq rel : Bool)

/-- The meaning of an XF command whose queue is full: an engine counts the refusal (R411). -/
theorem xfCmd_full (hfull : 32 ≤ (s.engineQueue (xfEngine cls l)).length) :
    (xfCmd cls xd tk sc acq rel bk (fun e => xfItems e i)).cell (s.env r l) s
      = .ok (s.updPdie s.selDie (fun y => y.setEngine (xfEngine cls l) { y.engine (xfEngine cls l) with refused := (y.engine (xfEngine cls l)).refused + 1 }),
          { writes := bkWrite (s.env r l) bk 1 }) :=
  if_pos hfull

/-- The meaning of an XF command whose queue has room. -/
theorem xfCmd_room (hroom : (s.engineQueue (xfEngine cls l)).length < 32) :
    (xfCmd cls xd tk sc acq rel bk (fun e => xfItems e i)).cell (s.env r l) s
      = .ok (({ s with cmdNo := s.cmdNo + 1 } : State).updPdie s.selDie (fun y => y.setEngine (xfEngine cls l)
            { y.engine (xfEngine cls l) with queue := (y.engine (xfEngine cls l)).queue ++ [s.cellEntry l sc (s.xfCommand r i cls xd acq rel l) cmdUnclaimed] }),
          { writes := bkWrite (s.env r l) bk 0
            req := some { cellReq (s.env r l) tk none (.cmd (s.xfCommand r i cls xd acq rel l)) true false with sc := sc } }) := by
  have hdesc : (regSpan (8 * xd) 8).map (s.env r l).q.rX = (List.range 8).map (fun k => (s.at l).core.rX (8 * xd + k)) := by
    rw [regSpan, List.map_map]
    rfl
  refine (if_neg (Nat.not_le.2 hroom)).trans ?_
  rw [hdesc]
  rfl

/-- An XF command whose queue is full is refused. -/
theorem State.xf_refused (hd : s.selDie < s.dies.length) (hc : s.canBundle r) (hcells : s.myCells = [l]) (hacts : s.lanesOf r l ≠ [])
    (hfull : 32 ≤ (s.engineQueue (xfEngine cls l)).length) :
    ∃ t, s.issueLane r (xfCmd cls xd tk sc acq rel bk (fun e => xfItems e i)) = .next t ∧ s.quietOps t
      ∧ (∀ k ∈ s.lanesOf r l, ((t.at l).core.rK bk).getLsbD k = true) ∧ t.me.reqs = s.me.reqs ∧ t.nextId = s.nextId
      ∧ ((t.pdie s.selDie).engine (xfEngine cls l)).queue = s.engineQueue (xfEngine cls l) := by
  have hcell := xfCmd_full s r i cls xd tk bk l sc acq rel hfull
  obtain ⟨u, hu⟩ : ∃ u, s.updPdie s.selDie (fun y => y.setEngine (xfEngine cls l)
      { y.engine (xfEngine cls l) with refused := (y.engine (xfEngine cls l)).refused + 1 }) = u := ⟨_, rfl⟩
  rw [hu] at hcell
  have hsame : ∃ ds n, u = { s with dies := ds, cmdNo := n } := ⟨_, _, hu.symm⟩
  have hrun := s.issueLane_enters u r _ _ l hc hcells hacts rfl hsame hcell
  have hqueue : ((u.pdie s.selDie).engine (xfEngine cls l)).queue = s.engineQueue (xfEngine cls l) := by
    rw [← hu, s.pdie_updPdie_self _ _ hd, Die.engine_setEngine]
    rfl
  have hleaves := u.bundleDone_leaves r { cell := (xfCmd cls xd tk sc acq rel bk (fun e => xfItems e i)).cell }
    (fun _ => { writes := bkWrite (s.env r l) bk 1 }) (by obtain ⟨_, _, rfl⟩ := hsame; exact hc.sel_lt)
  generalize u.bundleDone _ _ _ = t at hrun hleaves
  have hlane : u.laneFx r (fun _ => { writes := bkWrite (s.env r l) bk 1 }) l = { writes := bkWrite (s.env r l) bk 1 } := by
    obtain ⟨_, _, rfl⟩ := hsame
    exact State.laneFx_acts _ r _ l hacts
  have hcells' : u.myCells = [l] := by obtain ⟨_, _, rfl⟩ := hsame; exact hcells
  obtain ⟨hreqs, hid, hdies⟩ := hleaves.none (fun k hk => by
    obtain rfl : k = l := by simpa [hcells'] using hk
    rw [hlane])
  obtain ⟨id, hcore⟩ := hleaves.active l (by simp [hcells'])
  rw [hlane, Cell.afterBundle_enters] at hcore
  have hids : t.nextId = s.nextId := by rw [hid]; obtain ⟨_, _, rfl⟩ := hsame; rfl
  refine ⟨t, hrun, hleaves.quietOps hsame (by omega), fun k hk => ?_, ?_, hids, ?_⟩
  · have hat : t.at l = t.cell u.sel u.selDie l := by rw [State.at, hleaves.sel, hleaves.selDie]
    rw [hat, hcore]
    exact (CellCore.rK_after _ (s.env r l) bk 1 k _ _ (mem_lanesOf_lt hk) hk).trans (Bool.or_true _)
  · rw [State.me, hleaves.sel, hreqs]
    obtain ⟨_, _, rfl⟩ := hsame
    rfl
  · rw [State.pdie, hdies]
    exact hqueue

/-- An XF command whose queue has room is accepted. -/
theorem State.xf_accepted (hd : s.selDie < s.dies.length) (hc : s.canBundle r) (hcells : s.myCells = [l]) (hacts : s.lanesOf r l ≠ [])
    (hroom : (s.engineQueue (xfEngine cls l)).length < 32) (htk : r.tk = some tk) :
    ∃ t, s.issueLane r (xfCmd cls xd tk sc acq rel bk (fun e => xfItems e i)) = .next t ∧ s.quietOps t
      ∧ (∀ k ∈ s.lanesOf r l, ((t.at l).core.rK bk).getLsbD k = (bk == 0))
      ∧ s.opStands t r l { dest := none, units := [], body := .cmd (s.xfCommand r i cls xd acq rel l), held := true, gated := false, sc := sc }
      ∧ ((t.pdie s.selDie).engine (xfEngine cls l)).queue.length = (s.engineQueue (xfEngine cls l)).length + 1
      ∧ ∃ q ∈ t.me.reqs, q.body = .cmd (s.xfCommand r i cls xd acq rel l) ∧ s.nextId ≤ q.id
        ∧ ((t.pdie s.selDie).engine (xfEngine cls l)).queue.getLast? = some (s.cellEntry l sc (s.xfCommand r i cls xd acq rel l) q.id) := by
  have hcell := xfCmd_room s r i cls xd tk bk l sc acq rel hroom
  generalize s.xfCommand r i cls xd acq rel l = m at *
  obtain ⟨u, hu⟩ : ∃ u, ({ s with cmdNo := s.cmdNo + 1 } : State).updPdie s.selDie (fun y => y.setEngine (xfEngine cls l)
      { y.engine (xfEngine cls l) with queue := (y.engine (xfEngine cls l)).queue ++ [s.cellEntry l sc m cmdUnclaimed] }) = u := ⟨_, rfl⟩
  rw [hu] at hcell
  have hsame : ∃ ds n, u = { s with dies := ds, cmdNo := n } := ⟨_, _, hu.symm⟩
  obtain ⟨q, hq⟩ : ∃ q, ({ cellReq (s.env r l) tk none (.cmd m) true false with sc := sc } : Req) = q := ⟨_, rfl⟩
  rw [hq] at hcell
  obtain ⟨f, hf⟩ : ∃ f, ({ writes := bkWrite (s.env r l) bk 0, req := some q } : CellFx) = f := ⟨_, rfl⟩
  rw [hf] at hcell
  have hrun := s.issueLane_enters u r _ _ l hc hcells hacts rfl hsame hcell
  have hul : u.sel < u.recs.length := by obtain ⟨_, _, rfl⟩ := hsame; exact hc.sel_lt
  have hcells' : u.myCells = [l] := by obtain ⟨_, _, rfl⟩ := hsame; exact hcells
  have hlane : u.laneFx r (fun _ => f) l = f := by
    obtain ⟨_, _, rfl⟩ := hsame
    exact State.laneFx_acts _ r _ l hacts
  have hleaves := u.bundleDone_leaves r { cell := (xfCmd cls xd tk sc acq rel bk (fun e => xfItems e i)).cell } (fun _ => f) hul
  have hsel : u.sel = s.sel ∧ u.selDie = s.selDie ∧ u.nextId = s.nextId := by obtain ⟨_, _, rfl⟩ := hsame; exact ⟨rfl, rfl, rfl⟩
  have hud : u.selDie < u.dies.length := by
    rw [hsel.2.1, ← hu]
    simpa [State.updPdie] using hd
  obtain ⟨hreq, hid, hclaim⟩ := u.bundleDone_claims r { cell := (xfCmd cls xd tk sc acq rel bk (fun e => xfItems e i)).cell } f l q m hul hcells' hlane
    (by rw [← hf]) (by rw [← hq, hsel.2.1]; rfl) (by rw [← hq]; rfl) hud
  generalize u.bundleDone _ _ _ = t at hrun hleaves hreq hid hclaim
  rw [hsel.2.2] at hreq hid hclaim
  have hq' : { q with id := s.nextId } ∈ t.me.reqs := by rw [State.me, hleaves.sel]; exact hreq
  have hold : ((u.pdie s.selDie).engine (xfEngine cls l)).queue = s.engineQueue (xfEngine cls l) ++ [s.cellEntry l sc m cmdUnclaimed] := by
    rw [← hu, State.pdie_updPdie_self { s with cmdNo := s.cmdNo + 1 } _ _ hd, Die.engine_setEngine]
    rfl
  have hlast : (s.cellEntry l sc m cmdUnclaimed).claimed s.nextId u.sel q = s.cellEntry l sc m s.nextId :=
    if_pos ⟨hsel.1.symm, by rw [← hq]; rfl, rfl⟩
  have hqueue := hclaim (xfEngine cls l)
  rw [hsel.2.1, hold] at hqueue
  refine ⟨t, hrun, hleaves.quietOps hsame hid, fun k hk => ?_, ⟨_, hq', Nat.le_refl _, ?_, nofun⟩, ?_, _, hq', ?_, Nat.le_refl _, ?_⟩
  · obtain ⟨id, hcore⟩ := hleaves.active l (by simp [hcells'])
    rw [hlane, ← hf, Cell.afterBundle_enters] at hcore
    have hat : t.at l = t.cell u.sel u.selDie l := by rw [State.at, hleaves.sel, hleaves.selDie]
    rw [hat, hcore]
    exact (CellCore.rK_after _ (s.env r l) bk 0 k _ _ (mem_lanesOf_lt hk) hk).trans (Bool.or_false _)
  · rw [htk, ← hq]
    rfl
  · rw [hqueue]
    simp
  · rw [← hq]
    rfl
  · rw [hqueue, List.map_append, List.getLast?_append, List.map_singleton, hlast]
    rfl

end

end Sys2Proof.Machine

open Sys2Proof.Machine in
/-- Settles O45: the slot changes nothing as it runs but its engine's queue, or the count of the engine's refusals; the operation that enters takes over
the entry. -/
theorem cellCommands : Obligations.CellCommands := by
  intro i s r cls xd bk l sc acq rel hr hf hs hd hc hcells hacts m x queue
  obtain ⟨tk, hexec, htk⟩ := exec_xfCmd hr hf
  rw [hexec]
  have hdl : s.selDie < s.dies.length := hs.2.1 ▸ hd
  refine ⟨fun hroom => ?_, fun hfull => s.xf_refused r i cls xd tk bk l sc acq rel hdl hc hcells hacts hfull⟩
  exact s.xf_accepted r i cls xd tk bk l sc acq rel hdl hc hcells hacts hroom htk

end

section
set_option Elab.async false

namespace Sys2Proof.Machine

/-! ## The steps that issue a word -/

/-- The X slot of a word that decodes. -/
theorem State.nextX_of_decode {s : State} {c : Nat} {w : SWord} (h : decodeWord (s.wordBits c) = .ok w) : s.nextX c = w.x := by
  unfold decodeWord at h
  unfold State.nextX
  generalize fld (s.wordBits c) 0 32 = bx, fld (s.wordBits c) 64 32 = b0, fld (s.wordBits c) 32 32 = b1, fld (s.wordBits c) 96 32 = bn at h ⊢
  cases hx : decodeX bx with
  | error e => rw [hx] at h; cases h
  | ok x =>
    rw [hx] at h
    dsimp only at h ⊢
    split at h
    · cases h
      rfl
    all_goals cases h

/-- A word of zeros is empty, and goes on to the next (R41). -/
theorem decodeWord_zero : decodeWord 0 = .ok ⟨.seq, .nop, .nop, .xnop⟩ := by decide +kernel

/-- An empty slot passes every check. -/
theorem State.passes_seq (s : State) : s.passes .seq := by
  obtain ⟨-, -, hpriv, -, -, huw, -⟩ := blankSlot_checks s s.sel s.me .seq (.inr (.inr (.inl rfl)))
  refine ⟨by decide +kernel, fun h => ?_, fun n h => ?_, fun _ => huw⟩
  · rw [hpriv] at h
    cases h
  · have : Raw.ts .seq = none := by decide +kernel
    rw [this] at h
    cases h

theorem State.wordIssue_zero (s : State) (hi : s.canIssue) (h : s.wordBits s.sel = 0) :
    exec (.wordIssue s.sel) s = .next (s.wordDone .seq (fun x => x.issued []) s.nextPc) := by
  have hdec : decodeWord (s.wordBits s.sel) = .ok ⟨.seq, .nop, .nop, .xnop⟩ := by rw [h, decodeWord_zero]
  rw [exec_wordIssue_single (i := .seq) (r := .seq) hi.1 hdec (by decide +kernel) rfl]
  exact s.issueSlot_set .seq fxSeq [] id (some s.nextPc) hi s.passes_seq rfl rfl rfl rfl rfl rfl

/-- A word that does not decode traps in its first illegal slot (R43). -/
theorem State.wordIssue_illegal (s : State) (e : DecodeError) (hi : s.canIssue) (hdec : decodeWord (s.wordBits s.sel) = .error e)
    (hw : waitsHolds s.core (s.nextX s.sel) = true) (hb : broadcasts (s.nextX s.sel) = false) :
    s.faultsWith (exec (.wordIssue s.sel) s) 0x01 0x00 (illegalSlot (s.wordBits s.sel)) none := by
  have hne : ¬(ateIdx < s.sel) := by
    have := hi.1
    simp only [ateIdx]
    omega
  have hslot : illegalSlot (s.wordBits s.sel) < 4 := by
    unfold illegalSlot
    dsimp only
    split_ifs <;> decide
  have hhold : s.mergeHold s.sel (s.nextX s.sel) = none := s.mergeHold_none _ hi hw (by simp [hb])
  have hexec : exec (.wordIssue s.sel) s = .next (s.seqFault s.sel (illegalSlot (s.wordBits s.sel)) (cILLWORD, 0, noInfo)) := by
    change execWordIssue s.sel s = _
    rw [execWordIssue, if_neg hne, State.issueBits, hdec]
    change s.illegalWord s.sel _ (s.nextX s.sel) = _
    rw [State.illegalWord, s.canIssue_ok hi]
    dsimp only
    rw [hhold]
  rw [hexec]
  exact s.seqFault_faultsWith _ (cILLWORD, 0, noInfo) hi (by decide) (by decide) (by decide) hslot

/-! ## The ends of waits -/

/-- What a word leaves of the life, the PC and the token counts of its record. -/
theorem State.wordDone_keeps (s : State) (r : Raw) (f : Rec → Rec) (npc : BitVec 18) (hl : s.sel < s.recs.length) :
    (s.wordDone r f npc).me.life = (f s.me).life ∧ (s.wordDone r f npc).core.pc = npc ∧ (s.wordDone r f npc).core.ts = (f s.me).core.ts := by
  have hme : (s.wordDone r f npc).me = _ := s.rc_updRec_self s.sel _ hl
  refine ⟨?_, ?_, ?_⟩
  · rw [hme]
    rfl
  · rw [State.core, hme]
  · rw [State.core, hme]
    rfl

/-- WAITS_SATISFIED (R393, R401): the word issues, and the count drops. -/
theorem State.waitsSatisfied_issues (s : State) (ts thr : Nat) (w : SWord) (hsel : s.sel < 16) (hslot : s.me.slot.isSome = true)
    (hlife : s.me.life = .waiting .waits) (hawake : s.asleep = false) (hflag : s.me.seqFlag = none)
    (hdec : decodeWord (s.wordBits s.sel) = .ok w) (hone : w.single = some ⟨.x, 5, [ts, thr]⟩) (hp : s.passes ⟨.x, 5, [ts, thr]⟩)
    (hcount : tokHolds (s.core.rTs ts) thr = true) :
    ∃ t, exec (.waitsSatisfied s.sel) s = .next t ∧ t.me.life = .ready ∧ t.core.pc = s.nextPc
      ∧ t.core.rTs ts = s.core.rTs ts - BitVec.ofNat 16 thr := by
  have hl := s.rc_lt s.sel hslot
  obtain ⟨u, hu⟩ : ∃ u, s.updRec s.sel (fun r => { r with life := .ready }) = u := ⟨_, rfl⟩
  have hus : u.sel = s.sel := by rw [← hu]; rfl
  have hume : u.me = { s.me with life := .ready } := by
    rw [State.me, hus, ← hu, s.rc_updRec_self _ _ hl]
    rfl
  have hucore : u.core = s.core := by rw [State.core, hume]; rfl
  have hubits : u.wordBits u.sel = s.wordBits s.sel := by
    have hpc : (u.rc u.sel).core.pc = (s.rc s.sel).core.pc := congrArg SeqCore.pc hucore
    unfold State.wordBits
    rw [hpc, hus, ← hu]
    rfl
  have hui : u.canIssue := by
    refine ⟨hus ▸ hsel, ?_, ?_, ?_, ?_⟩
    · rw [hume]; exact hslot
    · rw [hume]
    · rw [← hu]; exact hawake
    · rw [hume]; exact hflag
  have hup : u.passes ⟨.x, 5, [ts, thr]⟩ := by
    unfold State.passes
    rw [hume, hucore]
    exact hp
  have hx : s.nextX s.sel = ⟨.x, 5, [ts, thr]⟩ := by
    obtain ⟨rfl, -, -⟩ := wordOf_single hdec hone
    rw [State.nextX_of_decode hdec]
    rfl
  have hwaits : waitsHolds s.core (s.nextX s.sel) = true := by rw [hx]; exact hcount
  have hexec : exec (.waitsSatisfied s.sel) s = exec (.wordIssue u.sel) u := by
    have hne : ¬(ateIdx < s.sel) := by simp only [ateIdx]; omega
    change execWaitsSatisfied s.sel s = execWordIssue u.sel u
    unfold execWaitsSatisfied execWordIssue
    have hl' : (s.rc s.sel).life = .waiting .waits := hlife
    have hw' : waitsHolds (s.rc s.sel).core (s.nextX s.sel) = true := hwaits
    rw [if_neg hne, if_neg (by simp [hawake]), if_neg (by simp [hl']), if_neg (by simp [hw']), hus, if_neg hne, hu, ← hus, hubits, hus]
  have hi : instrOf ⟨.x, 5, [ts, thr]⟩ = some (.waits ts thr) := rfl
  have hrun := u.issueSlot_set ⟨.x, 5, [ts, thr]⟩ (fxWaits ts thr) []
    (fun r => { r with core := r.core.wTs ts (r.core.rTs ts - BitVec.ofNat 16 thr) }) none hui hup (by rw [hucore]; exact hcount) rfl rfl rfl rfl rfl
  refine ⟨_, hexec.trans ((exec_wordIssue_single (hus ▸ hsel) (hubits ▸ hdec) hone hi).trans hrun), ?_⟩
  have hul : u.sel < u.recs.length := by
    rw [hus, ← hu]
    simpa using hl
  obtain ⟨hlife', hpc, hts⟩ := u.wordDone_keeps ⟨.x, 5, [ts, thr]⟩
    (fun x => { x.issued [] with core := (x.issued []).core.wTs ts ((x.issued []).core.rTs ts - BitVec.ofNat 16 thr) }) u.nextPc hul
  refine ⟨hlife'.trans ?_, hpc.trans ?_, ?_⟩
  · change u.me.life = .ready
    rw [hume]
  · rw [State.nextPc, hucore]
    rfl
  · have hend : u.core.endPos.rTs ts = s.core.rTs ts := by
      rw [u.core.endPos_sameRest, hucore]
      rfl
    refine (congrArg (fun x => mapGet 0 x ts) hts).trans ?_
    rw [← hend]
    exact (mapGet_mapSet _ _ _ _ _).trans (if_pos rfl)

/-- The bytes of a number read from memory. -/
theorem memRead_byte (m : List Host.Cell) : ∀ (n a i : Nat), i < n → BitVec.ofNat 8 (memRead m a n / 256 ^ i) = memGet m (a + i)
  | n + 1, a, 0, _ => by
    rw [memRead, Nat.pow_zero, Nat.div_one, Nat.add_zero]
    apply BitVec.eq_of_toNat_eq
    simp [BitVec.toNat_ofNat]
    omega
  | n + 1, a, i + 1, h => by
    have hlt := (memGet m a).isLt
    have hdiv : ((memGet m a).toNat + 256 * memRead m (a + 1) n) / 256 ^ (i + 1) = memRead m (a + 1) n / 256 ^ i := by
      rw [Nat.pow_succ', ← Nat.div_div_eq_div_mul]
      congr 1
      omega
    rw [memRead, hdiv, memRead_byte m n (a + 1) i (by omega)]
    congr 1
    omega

/-- What has been read, written back, leaves memory as it reads. -/
theorem State.poke_memRead (s : State) (m : List Host.Cell) (k n : Nat) (h : ∀ x, memGet s.mem x = memGet m x) :
    ∀ x, memGet (s.poke k n (memRead m k n)).mem x = memGet m x := by
  intro x
  change memGet (memWrite s.mem k n (memRead m k n)) x = _
  by_cases hx : x < k ∨ k + n ≤ x
  · rw [memGet_memWrite_outside n _ _ _ _ hx, h]
  · obtain ⟨i, rfl⟩ := Nat.exists_eq_add_of_le (show k ≤ x by omega)
    rw [memGet_memWrite_byte n _ _ _ i (by omega), memRead_byte m n k i (by omega)]

/-- The words of a message, written back where they have been read. -/
theorem State.poke_message (m : List Host.Cell) (k : Nat) : ∀ (ps : List (Nat × Nat)) (s : State), (∀ p ∈ ps, p.1 = memRead m (k + 8 * p.2) 8) →
    (∀ x, memGet s.mem x = memGet m x) →
    (∀ x, memGet (ps.foldl (fun (s : State) (p : Nat × Nat) => s.poke (k + 8 * p.2) 8 p.1) s).mem x = memGet m x)
      ∧ (ps.foldl (fun (s : State) (p : Nat × Nat) => s.poke (k + 8 * p.2) 8 p.1) s).recs = s.recs
      ∧ (ps.foldl (fun (s : State) (p : Nat × Nat) => s.poke (k + 8 * p.2) 8 p.1) s).sel = s.sel
  | [], _, _, h => ⟨h, rfl, rfl⟩
  | p :: ps, s, hps, h => by
    have hp := hps p List.mem_cons_self
    exact State.poke_message m k ps (s.poke (k + 8 * p.2) 8 p.1) (fun q hq => hps q (List.mem_cons_of_mem _ hq))
      (by rw [hp]; exact s.poke_memRead m _ 8 h)

/-- IDLE_RESUME (R125, R322): without a log, the message is read and put back. -/
theorem State.resumeIdle_noLog (s : State) (m : Nat) (hlog : s.noLog) (hl : s.sel < s.recs.length) :
    (s.resumeIdle s.sel m).me.life = .ready ∧ (s.resumeIdle s.sel m).core = s.core ∧ SameMemory s (s.resumeIdle s.sel m)
      ∧ SameRecords s (s.resumeIdle s.sel m) s.sel := by
  obtain ⟨hreplay, hbuf⟩ := hlog
  have hr : (s.rc s.sel).replaying = false := hreplay
  have hlogged : ∀ kind die cell inn pc vals, s.logged s.sel kind die cell inn pc vals = .ok (s, vals) := fun kind die cell inn pc vals => by
    refine (if_neg (by simp [hr])).trans ?_
    rw [s.emit_disabled _ _ _ _ _ _ _ hbuf]
  let ws := (List.range 8).map (fun i => memRead s.mem (mbxMsg s.sel m + 8 * i) 8)
  obtain ⟨u, hu⟩ : ∃ u, ws.zipIdx.foldl (fun (t : State) (p : Nat × Nat) => t.poke (mbxMsg s.sel m + 8 * p.2) 8 p.1) s = u := ⟨_, rfl⟩
  obtain ⟨hmem, hrecs, hsel⟩ := State.poke_message s.mem (mbxMsg s.sel m) ws.zipIdx s (fun p hp => by
    obtain ⟨hlt, hv⟩ := List.getElem?_eq_some_iff.1 (List.mem_zipIdx_iff_getElem?.1 hp)
    rw [← hv]
    simp [ws]) (fun _ => rfl)
  rw [hu] at hmem hrecs hsel
  have hres : s.resumeIdle s.sel m = (u.timePasses s.sel none).updRec s.sel (fun r => { r with life := .ready }) := by
    unfold State.resumeIdle
    dsimp only
    rw [hlogged]
    dsimp only
    rw [← hu]
  have hlu : s.sel < (u.timePasses s.sel none).recs.length := by
    change s.sel < u.recs.length
    rw [hrecs]
    exact hl
  have hrc : ∀ k, (u.timePasses s.sel none).rc k = s.rc k := fun k => by
    change u.recs.getD k _ = _
    rw [hrecs]
    rfl
  have hme : (s.resumeIdle s.sel m).me = { s.me with life := .ready } := by
    have hs : (s.resumeIdle s.sel m).sel = s.sel := by rw [hres]; exact hsel
    rw [State.me, hs, hres, State.rc_updRec_self _ _ _ hlu, hrc]
    rfl
  refine ⟨by rw [hme], by rw [State.core, hme]; rfl, fun x => ?_, fun k hk => ?_⟩
  · rw [hres]
    exact hmem x
  · rw [hres, State.rc_updRec_ne _ _ _ _ hk, hrc]

/-! ## Positions without an issue -/

/-- One position of a delay passes (R404). -/
theorem DieCtx.delayed_facts (x : DieCtx) : x.delayed.dly = x.dly - 1 ∧ x.delayed.e = x.e
    ∧ ∀ l, x.delayed.cell l = { x.cell l with core := (x.cell l).core.endPos } := by
  have hpass := x.passCells_settled (x.e - 1) (fun _ => true)
  simp only [if_true] at hpass
  have hcells : x.delayed.cells = x.cells.map (fun p => (p.1, { p.2 with core := p.2.core.endPos })) :=
    (congrArg DieCtx.cells hpass :)
  refine ⟨rfl, (congrArg DieCtx.e hpass :), fun l => ?_⟩
  unfold DieCtx.cell
  rw [hcells]
  exact mapGet_map Cell.reset (fun _ y => { y with core := y.core.endPos }) l rfl x.cells

/-- FIXED_LATENCY_LAND at a die that is passing a delay (R85). -/
theorem State.fixedLatencyLand_die (s : State) (hd : s.selDie < 32) (hdly : s.myDie.dly ≠ 0)
    (hcan : (s.updDctx s.sel s.selDie (fun x => { x with dly := 0, e := x.e - 1, redAsk := [] })).cannotBundle s.sel s.selDie = none) :
    exec (.fixedLatencyLand s.sel (some s.selDie)) s = .next (s.updDctx s.sel s.selDie DieCtx.delayed) ∧ s.sel < s.recs.length := by
  obtain ⟨hsel, hslot, -⟩ := State.cannotBundle_none hcan
  have hne : ¬ 16 ≤ s.sel := by omega
  have hdly' : (s.dctx s.sel s.selDie).dly ≠ 0 := hdly
  refine ⟨?_, by simpa using State.rc_lt _ _ hslot⟩
  change execFixedLatencyLand s.sel (some s.selDie) s = _
  unfold execFixedLatencyLand
  dsimp only
  rw [if_neg hne, if_neg (by omega), if_neg hdly', hcan]

theorem State.at_updDctx (s : State) (f : DieCtx → DieCtx) (l : Nat) (hl : s.sel < s.recs.length) :
    (s.updDctx s.sel s.selDie f).at l = (f s.myDie).cell l :=
  congrArg (fun x : DieCtx => x.cell l) (s.dctx_updDctx_self s.sel s.selDie f hl)

/-- FIXED_LATENCY_LAND at a sequencer that is frozen for a trap (R82, R85). -/
theorem State.fixedLatencyLand_seq (s : State) (c code detail : Nat) (pass : BitVec 32) (xin : BitVec 48) (hc : c < 16)
    (hlife : (s.rc c).life = .frozen (.brk code detail pass xin)) (hfly : (s.rc c).core.fly ≠ []) :
    exec (.fixedLatencyLand c none) s = .next (s.updSeq c SeqCore.endPos) := by
  change execFixedLatencyLand c none s = _
  simp [execFixedLatencyLand, Nat.not_le.2 hc, hlife, hfly]

/-- OCCUPANCY_REPORT (R29). -/
theorem State.occupancyReport_lands (s : State) (c : Nat) (hc : c < 16) (hawake : s.asleep = false) (hlen : 36 ≤ (s.rc c).occFlight.length) :
    exec (.occupancyReport c) s = .next (s.updRec c (fun r => { r with occ := r.occFlight.headD 0, occFlight := r.occFlight.drop 1 })) := by
  change execOccupancyReport c s = _
  simp [execOccupancyReport, Nat.not_le.2 hc, hawake, Nat.not_lt.2 hlen]

/-- IDLE_RESUME (R125). -/
theorem exec_idleResume (s : State) (m : Nat) (hc : s.sel < 16) (hlife : s.me.life = .waiting (.idle m))
    (hmail : (s.mbx.getD s.sel 0).getLsbD m = true) : exec (.idleResume s.sel) s = .next (s.resumeIdle s.sel m) := by
  have hlife' : (s.rc s.sel).life = .waiting (.idle m) := hlife
  change execIdleResume s.sel s = _
  rw [execIdleResume, if_neg (Nat.not_le.2 hc), hlife']
  exact if_pos hmail

/-- A context that waits has a record. -/
theorem State.sel_lt_of_waiting {s : State} {w : Wait} (h : s.me.life = .waiting w) : s.sel < s.recs.length := by
  by_contra hc
  have hreset : s.me = .reset := by simp [State.me, State.rc, List.getD, List.getElem?_eq_none (Nat.not_lt.1 hc)]
  rw [hreset] at h
  cases h

end Sys2Proof.Machine
end

section
set_option Elab.async false

namespace Sys2Proof.Machine

/-! ## The order of the merge stage (R37) -/

namespace Cand

theorem before_iff {a b : Cand} : a.before b = true
    ↔ a.eff < b.eff ∨ (a.eff = b.eff ∧ (b.waits < a.waits ∨ (a.waits = b.waits ∧ a.slot < b.slot))) := by
  simp [before]

/-- What goes before an element of the order goes before what comes after it. -/
theorem not_before_of_before {a b y : Cand} (hab : a.before b = true) (hyb : y.before b = false) : y.before a = false := by
  rw [← Bool.not_eq_true, before_iff] at *
  omega

theorem not_before_symm {a b : Cand} (hab : a.before b = true) : b.before a = false := by
  rw [← Bool.not_eq_true, before_iff] at *
  omega

theorem insert_perm (a : Cand) : ∀ l : List Cand, (a.insert l).Perm (a :: l)
  | [] => .refl _
  | b :: bs => by
    unfold insert
    split
    · exact .refl _
    · exact ((insert_perm a bs).cons b).trans (.swap a b bs)

/-- No later element of the list goes before an earlier one. -/
def Ordered (l : List Cand) : Prop := l.Pairwise (fun x y => y.before x = false)

theorem insert_ordered (a : Cand) : ∀ {l : List Cand}, Ordered l → Ordered (a.insert l)
  | [], _ => List.pairwise_singleton _ _
  | b :: bs, h => by
    obtain ⟨hb, hbs⟩ := List.pairwise_cons.1 h
    unfold insert
    split
    next hab =>
      refine List.pairwise_cons.2 ⟨fun y hy => ?_, h⟩
      rcases List.mem_cons.1 hy with rfl | hy
      · exact not_before_symm hab
      · exact not_before_of_before hab (hb y hy)
    next hab =>
      refine List.pairwise_cons.2 ⟨fun y hy => ?_, insert_ordered a hbs⟩
      rcases List.mem_cons.1 ((insert_perm a bs).mem_iff.1 hy) with rfl | hy
      · exact Bool.not_eq_true _ ▸ hab
      · exact hb y hy

theorem foldl_insert (ls : List Cand) : ∀ l : List Cand, Ordered l →
    Ordered (ls.foldl (fun l a => a.insert l) l) ∧ (ls.foldl (fun l a => a.insert l) l).Perm (ls ++ l) := by
  induction ls with
  | nil => exact fun l h => ⟨h, .refl _⟩
  | cons a ls ih =>
    intro l h
    obtain ⟨ho, hp⟩ := ih (a.insert l) (insert_ordered a h)
    exact ⟨ho, hp.trans (((insert_perm a l).append_left ls).trans List.perm_middle)⟩

end Cand

/-- The candidate that a context is. -/
def State.cand (s : State) (c : Nat) : Cand :=
  { c := c, eff := if (s.rc c).waitCnt = 4096 then 0 else (s.rc c).core.prio.toNat, waits := (s.rc c).waitCnt, slot := (s.rc c).slot.getD 0 }

theorem State.goesBefore_iff (s : State) (a b : Nat) : s.goesBefore a b ↔ (s.cand a).before (s.cand b) = true :=
  Iff.symm Cand.before_iff

/-- A context that is ready, as a candidate. -/
def State.candidate (s : State) (c : Nat) : Option Cand :=
  match (s.rc c).slot with
  | some k =>
    if (s.rc c).life = .ready ∧ !(broadcasts (s.nextX c) && decide (0 < s.litBusy)) then
      some { c := c, eff := if (s.rc c).waitCnt = 4096 then 0 else (s.rc c).core.prio.toNat, waits := (s.rc c).waitCnt, slot := k }
    else none
  | none => none

theorem State.candidate_eq_some (s : State) (c : Nat) (a : Cand) : s.candidate c = some a
    ↔ a = s.cand c ∧ (s.rc c).slot.isSome = true ∧ (s.rc c).life = .ready ∧ ¬(broadcasts (s.nextX c) = true ∧ 0 < s.litBusy) := by
  unfold State.candidate State.cand
  cases (s.rc c).slot with
  | none => simp
  | some k =>
    simp only [Option.isSome_some, true_and, Option.getD_some]
    have hfree : (!(broadcasts (s.nextX c) && decide (0 < s.litBusy))) = true ↔ ¬(broadcasts (s.nextX c) = true ∧ 0 < s.litBusy) := by
      rw [Bool.not_eq_true', ← Bool.not_eq_true, Bool.and_eq_true, decide_eq_true_eq]
    have hcond := and_congr_right_iff.2 fun _ : (s.rc c).life = .ready => hfree
    by_cases h : (s.rc c).life = .ready ∧ !(broadcasts (s.nextX c) && decide (0 < s.litBusy))
    · rw [if_pos h]
      exact ⟨fun g => ⟨(Option.some.inj g).symm, hcond.1 h⟩, fun g => congrArg some g.1.symm⟩
    · rw [if_neg h]
      exact iff_of_false nofun fun g => h (hcond.2 g.2)

/-- What the list of the ready contexts holds. -/
theorem State.readyList_facts (s : State) : Cand.Ordered s.readyList ∧ (s.readyList.map Cand.c).Nodup ∧ (∀ a ∈ s.readyList, a = s.cand a.c)
    ∧ ∀ c, c ∈ s.readyList.map Cand.c ↔ s.rdy c := by
  have hfold : s.readyList = ((List.range 16).filterMap s.candidate).foldl (fun l a => a.insert l) [] := rfl
  obtain ⟨ho, hp⟩ := Cand.foldl_insert ((List.range 16).filterMap s.candidate) [] List.Pairwise.nil
  rw [← hfold, List.append_nil] at hp
  rw [← hfold] at ho
  have hmem : ∀ a, a ∈ s.readyList ↔ ∃ c, c < 16 ∧ s.candidate c = some a := fun a => by
    rw [hp.mem_iff, List.mem_filterMap]
    simp
  have hc : ∀ a ∈ s.readyList, a = s.cand a.c := fun a ha => by
    obtain ⟨c, -, hca⟩ := (hmem a).1 ha
    obtain ⟨rfl, -⟩ := (s.candidate_eq_some c a).1 hca
    rfl
  refine ⟨ho, ?_, hc, fun c => ?_⟩
  · rw [(hp.map Cand.c).nodup_iff, List.map_filterMap]
    refine List.Nodup.filterMap (fun c d x hx hy => ?_) List.nodup_range
    have hid : ∀ c, x ∈ (s.candidate c).map Cand.c → x = c := fun c hx => by
      obtain ⟨a, ha, rfl⟩ := Option.mem_map.1 hx
      rw [((s.candidate_eq_some c a).1 ha).1]
      rfl
    exact (hid c hx).symm.trans (hid d hy)
  · rw [List.mem_map]
    constructor
    · rintro ⟨a, ha, rfl⟩
      obtain ⟨c, hlt, hca⟩ := (hmem a).1 ha
      obtain ⟨rfl, h⟩ := (s.candidate_eq_some c a).1 hca
      exact ⟨hlt, h⟩
    · rintro ⟨hlt, h⟩
      exact ⟨s.cand c, (hmem _).2 ⟨c, hlt, (s.candidate_eq_some c _).2 ⟨rfl, h⟩⟩, rfl⟩

/-! ## The words a merge cycle picks (R38) -/

theorem State.mergeable_iff (s : State) (a b : Nat) : s.mergeable a b = true ↔ s.merges a b := by
  have hlit : ∀ z : Raw, broadcasts z = true → (!(z.kind == .x && z.op == 2)) = decide (z.op ≠ 2) := fun z hz => by
    have hk : z.kind = .x := by simp [broadcasts] at hz; exact hz.1
    simp [hk]
    rfl
  have hdies : ∀ A B : List Nat, (A.all (fun d => !B.contains d)) = true ↔ ∀ d ∈ A, d ∉ B := fun A B => by simp
  simp only [State.mergeable, State.merges]
  cases hx : broadcasts (s.nextX a) <;> cases hy : broadcasts (s.nextX b)
  · simp
  · simp [hlit _ hy]
  · simp [hlit _ hx]
  · simp only [hlit _ hx, hlit _ hy, Bool.and_eq_true, Bool.or_eq_true, decide_eq_true_eq, hdies, beq_iff_eq, State.bcastSlots]
    simp
    exact and_assoc

/-- The first ready context of the order of R37, where there is one, and the others. -/
structure State.Leads (s : State) (x : Cand) (xs : List Cand) : Prop where
  ready : s.rdy x.c
  first : ∀ c, s.rdy c → ¬ s.goesBefore c x.c
  others : ∀ c, s.rdy c → c ≠ x.c → ∃ y ∈ xs, y.c = c
  rest : ∀ y ∈ xs, s.rdy y.c ∧ y.c ≠ x.c
  ordered : xs.Pairwise (fun y z => ¬ s.goesBefore z.c y.c)

theorem State.readyList_leads (s : State) {x : Cand} {xs : List Cand} (hl : s.readyList = x :: xs) : s.Leads x xs := by
  obtain ⟨hord, hnd, hcand, hmem⟩ := s.readyList_facts
  rw [hl] at hmem hord hnd hcand
  obtain ⟨hx, hxs⟩ := List.pairwise_cons.1 hord
  obtain ⟨hnx, -⟩ := List.nodup_cons.1 hnd
  have hbefore : ∀ y ∈ x :: xs, ∀ z ∈ x :: xs, z.before y = false → ¬ s.goesBefore z.c y.c := fun y hy z hz h => by
    rw [s.goesBefore_iff, ← hcand y hy, ← hcand z hz, h]
    exact Bool.false_ne_true
  have hothers : ∀ c, s.rdy c → c ≠ x.c → ∃ y ∈ xs, y.c = c := fun c hc hne => by
    obtain ⟨y, hy, rfl⟩ := List.mem_map.1 ((hmem c).2 hc)
    rcases List.mem_cons.1 hy with rfl | hy
    · exact absurd rfl hne
    · exact ⟨y, hy, rfl⟩
  refine { ready := (hmem x.c).1 List.mem_cons_self, first := fun c hc => ?_, others := hothers, rest := fun y hy => ⟨?_, fun he => ?_⟩, ordered := ?_ }
  · by_cases hne : c = x.c
    · rw [hne, s.goesBefore_iff, Cand.before_iff]
      omega
    · obtain ⟨y, hy, rfl⟩ := hothers c hc hne
      exact hbefore x List.mem_cons_self y (List.mem_cons_of_mem _ hy) (hx y hy)
  · exact (hmem y.c).1 (List.mem_map_of_mem (List.mem_cons_of_mem _ hy))
  · exact hnx (he ▸ List.mem_map_of_mem hy)
  · exact hxs.imp_of_mem fun hy hz h => hbefore _ (List.mem_cons_of_mem _ hy) _ (List.mem_cons_of_mem _ hz) h

/-- What the picks are: the first ready context of the order of R37, and the first after it that merges with it. -/
theorem State.picks_facts (s : State) :
    (s.picks = [] ↔ ∀ c, ¬ s.rdy c)
    ∧ (∀ a rest, s.picks = a :: rest → s.rdy a ∧ (∀ c, s.rdy c → ¬ s.goesBefore c a) ∧ (rest = [] → ∀ c, s.rdy c → c ≠ a → ¬ s.merges a c)
        ∧ (∀ b more, rest = b :: more → more = [] ∧ s.rdy b ∧ b ≠ a ∧ s.merges a b
            ∧ ∀ c, s.rdy c → c ≠ a → s.merges a c → ¬ s.goesBefore c b)) := by
  unfold State.picks
  cases hl : s.readyList with
  | nil =>
    have hmem := s.readyList_facts.2.2.2
    rw [hl] at hmem
    exact ⟨⟨fun _ c hc => List.not_mem_nil ((hmem c).2 hc), fun _ => rfl⟩, nofun⟩
  | cons x xs =>
    have hlead := s.readyList_leads hl
    have hsome : ∀ ys : List Nat, x.c :: ys = [] ↔ ∀ c, ¬ s.rdy c := fun ys => iff_of_false (List.cons_ne_nil _ _) fun h => h _ hlead.ready
    dsimp only
    cases hf : xs.find? (fun b => s.mergeable x.c b.c) with
    | none =>
      refine ⟨hsome _, fun a rest h => ?_⟩
      obtain ⟨rfl, rfl⟩ := List.cons.inj h
      refine ⟨hlead.ready, hlead.first, fun _ c hc hne hm => ?_, nofun⟩
      obtain ⟨y, hy, rfl⟩ := hlead.others c hc hne
      exact List.find?_eq_none.1 hf y hy ((s.mergeable_iff _ _).2 hm)
    | some z =>
      refine ⟨hsome _, fun a rest h => ?_⟩
      obtain ⟨rfl, rfl⟩ := List.cons.inj h
      obtain ⟨hz, as, bs, rfl, has⟩ := List.find?_eq_some_iff_append.1 hf
      obtain ⟨hzr, hzx⟩ := hlead.rest z (List.mem_append_right _ List.mem_cons_self)
      refine ⟨hlead.ready, hlead.first, nofun, fun b more h => ?_⟩
      obtain ⟨rfl, rfl⟩ := List.cons.inj h
      refine ⟨rfl, hzr, hzx, (s.mergeable_iff _ _).1 hz, fun c hc hne hm => ?_⟩
      obtain ⟨y, hy, rfl⟩ := hlead.others c hc hne
      rcases List.mem_append.1 hy with hy | hy
      · have := has y hy
        rw [(s.mergeable_iff _ _).2 hm] at this
        cases this
      · rcases List.mem_cons.1 hy with rfl | hy
        · rw [s.goesBefore_iff, Cand.before_iff]
          omega
        · exact (List.pairwise_cons.1 (List.pairwise_append.1 hlead.ordered).2.1).1 y hy

/-! ## One cycle of the contexts -/

/-- Updating some records, one after another, each once. -/
theorem State.foldl_updRec {α : Type} (k : α → Nat) (h : α → Rec → Rec) (F : State → α → State) (s0 : State)
    (hF : ∀ rs a, F { s0 with recs := rs } a = ({ s0 with recs := rs } : State).updRec (k a) (h a)) :
    ∀ (ls : List α) (rs : List Rec), ∃ rs', ls.foldl F { s0 with recs := rs } = { s0 with recs := rs' }
      ∧ rs'.length = rs.length ∧ (∀ c, c ∉ ls.map k → rs'.getD c .reset = rs.getD c .reset)
      ∧ ((ls.map k).Nodup → ∀ a ∈ ls, k a < rs.length → rs'.getD (k a) .reset = h a (rs.getD (k a) .reset))
  | [], rs => ⟨rs, rfl, rfl, fun _ _ => rfl, fun _ _ ha => nomatch ha⟩
  | a :: ls, rs => by
    obtain ⟨rs', hfold, hlen, hframe, hhit⟩ := State.foldl_updRec k h F s0 hF ls (rs.set (k a) (h a (rs.getD (k a) .reset)))
    have hself : k a < rs.length → (rs.set (k a) (h a (rs.getD (k a) .reset))).getD (k a) .reset = h a (rs.getD (k a) .reset) := fun hl => by
      simp [hl]
    have hne : ∀ c, c ≠ k a → (rs.set (k a) (h a (rs.getD (k a) .reset))).getD c .reset = rs.getD c .reset := fun c hc => by
      simp [Ne.symm hc]
    refine ⟨rs', ?_, by simpa using hlen, fun c hc => ?_, fun hn b hb hlt => ?_⟩
    · rw [List.foldl_cons, hF]
      exact hfold
    · obtain ⟨hca, hcls⟩ := not_or.1 (fun h => hc (List.mem_cons.2 h))
      rw [hframe c hcls, hne c hca]
    · obtain ⟨hna, hn⟩ := List.nodup_cons.1 hn
      rcases List.mem_cons.1 hb with rfl | hb
      · rw [hframe _ hna, hself hlt]
      · have hkb : k b ≠ k a := fun he => hna (he ▸ List.mem_map_of_mem hb)
        rw [hhit hn b hb (by simpa using hlt), hne _ hkb]

/-- The X slot of the word at the PC of record r of context c. -/
def State.xOf (s : State) (c : Nat) (r : Rec) : Raw :=
  match decodeX (fld (mapGet 0 (if c = ateIdx then s.aram else s.cstore) r.core.pc.toNat) 0 32) with
  | .ok x => x
  | .error _ => .xnop

theorem State.nextX_eq (s : State) (c : Nat) : s.nextX c = s.xOf c (s.rc c) := rfl

/-- A record as a merge cycle looks at it, at its new clock (R18, R36). -/
def Rec.looked (r : Rec) (x : Raw) (clk : Nat) : Rec :=
  match r.life with
  | .ready | .waiting .waits | .waiting .credit | .waiting .bar => { r with
      life := if r.seqFlag.isSome then .ready else if !waitsHolds r.core x then .waiting .waits
        else if broadcasts x && !r.credit clk then .waiting r.creditWait else .ready }
  | _ => r

theorem State.refresh_eq (s : State) (c : Nat) : s.refresh c = s.updRec c (fun r => r.looked (s.nextX c) s.clk) := by
  have hself : s.setRec c (s.rc c) = s := by
    unfold State.setRec State.rc
    by_cases hc : c < s.recs.length
    · simp [hc]
    · rw [List.set_eq_of_length_le (Nat.not_lt.1 hc)]
  unfold State.refresh State.updRec Rec.looked
  dsimp only
  split <;> simp only [*]

/-- Looking at a record changes nothing but its life. -/
theorem Rec.looked_rest (r : Rec) (x : Raw) (clk : Nat) : r.looked x clk = { r with life := (r.looked x clk).life } := by
  unfold Rec.looked
  split <;> rfl

/-- A waiting context is READY when nothing holds its word (R36, R401). -/
theorem Rec.looked_ready (r : Rec) (x : Raw) (clk : Nat) (hl : r.life ∈ [Life.ready, .waiting .waits, .waiting .credit, .waiting .bar])
    (hf : r.seqFlag = none) : (r.looked x clk).life = .ready ↔ waitsHolds r.core x = true ∧ (broadcasts x = true → r.credit clk = true) := by
  have hlife : (r.looked x clk).life = if !waitsHolds r.core x then .waiting .waits else if broadcasts x && !r.credit clk then .waiting r.creditWait
      else .ready := by
    simp only [List.mem_cons, List.not_mem_nil, or_false] at hl
    unfold Rec.looked
    rcases hl with h | h | h | h <;> simp only [h, hf, Option.isSome_none, Bool.false_eq_true, if_false]
  rw [hlife]
  cases waitsHolds r.core x <;> cases broadcasts x <;> cases r.credit clk <;> simp

theorem Rec.looked_other (r : Rec) (x : Raw) (clk : Nat) (hl : r.life ∉ [Life.ready, .waiting .waits, .waiting .credit, .waiting .bar]) :
    r.looked x clk = r := by
  simp only [List.mem_cons, List.not_mem_nil, or_false, not_or] at hl
  obtain ⟨h1, h2, h3, h4⟩ := hl
  unfold Rec.looked
  split
  · exact absurd ‹_› h1
  · exact absurd ‹_› h2
  · exact absurd ‹_› h3
  · exact absurd ‹_› h4
  · rfl

theorem Rec.credit_iff (r : Rec) (clk : Nat) : r.credit clk = true ↔ r.mayBroadcast clk := by
  simp only [Rec.credit, Rec.mayBroadcast, Rec.share, decide_eq_true_eq, ge_iff_le]
  omega

/-- The contexts that a merge cycle looks at. -/
def State.cycling (s : State) : List Nat := (List.range 16).filter (fun c => (s.rc c).slot.isSome)

theorem State.cycling_facts (s : State) :
    s.cycling.Nodup ∧ (∀ c, c ∈ s.cycling ↔ c < 16 ∧ (s.rc c).slot.isSome = true) ∧ ∀ c ∈ s.cycling, c < s.recs.length := by
  have hmem : ∀ c, c ∈ s.cycling ↔ c < 16 ∧ (s.rc c).slot.isSome = true := fun c => by simp [State.cycling]
  exact ⟨List.nodup_range.filter _, hmem, fun c hc => s.rc_lt c ((hmem c).1 hc).2⟩

/-- A record in a merge cycle, before the words are picked. -/
def State.lookedAt (s : State) (c : Nat) : Rec := ((s.rc c).cycle s.clk).looked (s.xOf c (s.rc c)) s.clk

/-- The state of a merge cycle, before the words are picked: every resident context has been looked at. -/
theorem State.looked_facts (s : State) :
    ∃ rs, s.cycling.foldl State.refresh (s.cycling.foldl (fun (s : State) c => s.updRec c (fun r => r.cycle s.clk)) s) = { s with recs := rs }
      ∧ rs.length = s.recs.length ∧ (∀ c, c ∉ s.cycling → rs.getD c .reset = s.rc c) ∧ ∀ c ∈ s.cycling, rs.getD c .reset = s.lookedAt c := by
  obtain ⟨hnd, hmem, hlt⟩ := s.cycling_facts
  obtain ⟨rs1, h1, hlen1, hframe1, hhit1⟩ := State.foldl_updRec id (fun _ r => r.cycle s.clk) (fun (s : State) c => s.updRec c (fun r => r.cycle s.clk)) s
    (fun _ _ => rfl) s.cycling s.recs
  obtain ⟨rs2, h2, hlen2, hframe2, hhit2⟩ := State.foldl_updRec id (fun c r => r.looked (s.xOf c r) s.clk) State.refresh s
    (fun rs c => (State.refresh_eq _ c)) s.cycling rs1
  rw [List.map_id] at hframe1 hhit1 hframe2 hhit2
  refine ⟨rs2, (congrArg (fun u => s.cycling.foldl State.refresh u) h1).trans h2, hlen2.trans hlen1, fun c hc => ?_, fun c hc => ?_⟩
  · rw [hframe2 c hc, hframe1 c hc]
    rfl
  · have h1 := hhit1 hnd c hc (hlt c hc)
    have h2 := hhit2 hnd c hc (hlen1 ▸ hlt c hc)
    simp only [id] at h1 h2
    rw [h2, h1]
    rfl

/-- State t is u but for wait counts and the agenda. -/
structure Counted (u t : State) : Prop where
  rest : t = { u with recs := t.recs, agenda := t.agenda }
  recs : ∀ c, ∃ n, t.rc c = { u.rc c with waitCnt := n }

theorem Counted.nextX {u t : State} (h : Counted u t) (c : Nat) : t.nextX c = u.nextX c := by
  obtain ⟨n, hn⟩ := h.recs c
  rw [t.nextX_eq, u.nextX_eq, hn, h.rest]
  rfl

theorem Counted.litBusy {u t : State} (h : Counted u t) : t.litBusy = u.litBusy := by rw [h.rest]

theorem Counted.rdy {u t : State} (h : Counted u t) (c : Nat) : t.rdy c ↔ u.rdy c := by
  obtain ⟨n, hn⟩ := h.recs c
  unfold State.rdy
  rw [h.nextX, h.litBusy, hn]

theorem Counted.merges {u t : State} (h : Counted u t) (a b : Nat) : t.merges a b ↔ u.merges a b := by
  obtain ⟨n, hn⟩ := h.recs a
  obtain ⟨m, hm⟩ := h.recs b
  unfold State.merges
  rw [h.nextX, h.nextX, hn, hm]
  exact Iff.rfl

/-- What a merge cycle leaves of a record before the words are picked. -/
theorem State.lookedAt_keeps (s : State) (c : Nat) :
    s.lookedAt c = { (s.rc c).cycle s.clk with life := (s.lookedAt c).life } := Rec.looked_rest _ _ _

/-- The state of a merge cycle: u before the words are picked, t after. -/
theorem State.mergeCycle_counts (s : State) (hawake : s.asleep = false) (hdue : s.frameDue = false) :
    ∃ v u t : State, (∃ n, v = { s with clk := s.clk + 1, litBusy := s.litBusy - 1, idleNs := n }) ∧ exec .mergeCycle s = .next t
      ∧ u = { v with recs := u.recs } ∧ (∀ c, c ∉ v.cycling → u.rc c = v.rc c) ∧ (∀ c ∈ v.cycling, u.rc c = v.lookedAt c) ∧ Counted u t
      ∧ t.agenda = t.arrivals ++ u.picks.map Instr.wordIssue ++ s.agenda
      ∧ (∀ c, u.rdy c → (t.rc c).waitCnt = if c ∈ u.picks then 0 else min ((u.rc c).waitCnt + 1) 4096)
      ∧ (∀ c, ¬ u.rdy c → (t.rc c).waitCnt = (u.rc c).waitCnt) := by
  obtain ⟨v, hv⟩ : ∃ v, ({ s with clk := s.clk + 1, litBusy := s.litBusy - 1 } : State).countIdle = v := ⟨_, rfl⟩
  have hidle : ∃ n, v = { s with clk := s.clk + 1, litBusy := s.litBusy - 1, idleNs := n } := by
    rw [← hv, State.countIdle]
    split <;> exact ⟨_, rfl⟩
  obtain ⟨rs, hlooked, hlen, hframe, hhit⟩ := v.looked_facts
  obtain ⟨u, hu⟩ : ∃ u : State, ({ v with recs := rs } : State) = u := ⟨_, rfl⟩
  obtain ⟨-, hnd, -, hmem⟩ := u.readyList_facts
  obtain ⟨rs', hcount, hlen', hframe', hhit'⟩ := State.foldl_updRec Cand.c
    (fun a r => { r with waitCnt := if u.picks.contains a.c then 0 else min (r.waitCnt + 1) 4096 })
    (fun (s : State) a => s.updRec a.c (fun r => { r with waitCnt := if u.picks.contains a.c then 0 else min (r.waitCnt + 1) 4096 })) u
    (fun _ _ => rfl) u.readyList u.recs
  have hnot : ∀ c, ¬ u.rdy c → rs'.getD c .reset = u.rc c := fun c hc => hframe' c fun h => hc ((hmem c).1 h)
  have hrdy : ∀ c, u.rdy c → rs'.getD c .reset = { u.rc c with waitCnt := if u.picks.contains c then 0 else min ((u.rc c).waitCnt + 1) 4096 } :=
    fun c hc => by
      obtain ⟨a, ha, rfl⟩ := List.mem_map.1 ((hmem c).2 hc)
      exact hhit' hnd a ha (u.rc_lt _ hc.2.1)
  obtain ⟨t, ht⟩ : ∃ t : State, ({ u with recs := rs'
                                          agenda := ({ u with recs := rs' } : State).arrivals ++ u.picks.map Instr.wordIssue ++ u.agenda } : State) = t :=
    ⟨_, rfl⟩
  have htrc : ∀ c, t.rc c = rs'.getD c .reset := fun c => by rw [← ht]; rfl
  refine ⟨v, u, t, hidle, ?_, ?_, ?_, ?_, ⟨?_, fun c => ?_⟩, ?_, fun c hc => ?_, fun c hc => ?_⟩
  · change execMergeCycle s = _
    unfold execMergeCycle
    rw [if_neg (by simp [hawake]), if_neg (by simp [hdue])]
    dsimp only
    have hpick : (v.cycling.foldl State.refresh (v.cycling.foldl (fun (s : State) c => s.updRec c (fun r => r.cycle s.clk)) v)) = u :=
      hlooked.trans hu
    rw [State.cycling] at hpick
    have hwait : u.readyList.foldl
        (fun (s : State) a => s.updRec a.c (fun r => { r with waitCnt := if u.picks.contains a.c then 0 else min (r.waitCnt + 1) 4096 })) u
        = { u with recs := rs' } := hcount
    rw [hv, hpick, hwait]
    exact congrArg Host.Outcome.next ht
  · rw [← hu]
  · intro c hc
    rw [← hu]
    exact hframe c hc
  · intro c hc
    rw [← hu]
    exact hhit c hc
  · rw [← ht]
  · rw [htrc]
    by_cases hc : u.rdy c
    · exact ⟨_, hrdy c hc⟩
    · exact ⟨_, hnot c hc⟩
  · obtain ⟨n, hn⟩ := hidle
    have : u.agenda = s.agenda := by rw [← hu, hn]
    rw [← this, ← ht]
    rfl
  · rw [htrc, hrdy c hc]
    simp
  · rw [htrc, hnot c hc]

end Sys2Proof.Machine
end

section
set_option Elab.async false

namespace Sys2Proof.Machine

/-! ## The merge cycle as a whole -/

/-- A record before the words are picked, beside that of the state before the cycle. -/
theorem lookedAt_rest {v u : State} (hframe : ∀ c, c ∉ v.cycling → u.rc c = v.rc c) (hhit : ∀ c ∈ v.cycling, u.rc c = v.lookedAt c) (c : Nat) :
    (u.rc c).core = (v.rc c).core ∧ (u.rc c).reqs = (v.rc c).reqs ∧ (u.rc c).slot = (v.rc c).slot ∧ (u.rc c).waitCnt = (v.rc c).waitCnt := by
  by_cases hc : c ∈ v.cycling
  · rw [hhit c hc, v.lookedAt_keeps]
    exact ⟨rfl, rfl, rfl, rfl⟩
  · rw [hframe c hc]
    exact ⟨rfl, rfl, rfl, rfl⟩

/-- What a merge cycle leaves of the life of a resident context (R18, R36). -/
theorem lookedAt_life {v u t : State} (hu : u = { v with recs := u.recs }) (hhit : ∀ c ∈ v.cycling, u.rc c = v.lookedAt c) (ht : Counted u t) {c : Nat}
    (hc : c < 16) (hslot : (v.rc c).slot.isSome = true) :
    ((v.rc c).life ∈ [Life.ready, .waiting .waits, .waiting .credit, .waiting .bar] → (v.rc c).seqFlag = none →
      ((t.rc c).life = .ready ↔ waitsHolds (v.rc c).core (v.nextX c) = true ∧ (broadcasts (v.nextX c) = true → (t.rc c).mayBroadcast t.clk)))
    ∧ ((v.rc c).life ∉ [Life.ready, .waiting .waits, .waiting .credit, .waiting .bar] → (t.rc c).life = (v.rc c).life) := by
  obtain ⟨-, hmem, -⟩ := v.cycling_facts
  have hlook := hhit c ((hmem c).2 ⟨hc, hslot⟩)
  obtain ⟨n, hn⟩ := ht.recs c
  have hlife : (t.rc c).life = (((v.rc c).cycle v.clk).looked (v.nextX c) v.clk).life := by rw [hn, hlook]; rfl
  have hclk : t.clk = v.clk := by rw [ht.rest, hu]
  have hbcast : (t.rc c).mayBroadcast t.clk ↔ ((v.rc c).cycle v.clk).credit v.clk = true := by
    rw [Rec.credit_iff, hclk, hn, hlook, v.lookedAt_keeps]
    exact Iff.rfl
  constructor
  · intro hl hf
    rw [hlife, hbcast]
    exact Rec.looked_ready _ _ _ hl hf
  · intro hl
    rw [hlife, Rec.looked_other ((v.rc c).cycle v.clk) _ _ hl]
    rfl

/-- The order of R37 by the counts that stood before the cycle is the order of the picks. -/
theorem goesBefore_looked {v u : State} (hframe : ∀ c, c ∉ v.cycling → u.rc c = v.rc c) (hhit : ∀ c ∈ v.cycling, u.rc c = v.lookedAt c) (a b : Nat) :
    u.goesBefore a b ↔ v.goesBefore a b := by
  have hcand : ∀ c, u.cand c = v.cand c := fun c => by
    obtain ⟨hcore, -, hslot, hcnt⟩ := lookedAt_rest hframe hhit c
    unfold State.cand
    rw [hcore, hslot, hcnt]
  rw [State.goesBefore_iff, State.goesBefore_iff, hcand, hcand]

/-- A merge cycle while the clocks of the dies stand: only the clock goes on. -/
theorem State.mergeCycle_asleep (s : State) (hs : s.asleep = true) :
    ∃ t, exec .mergeCycle s = .next t ∧ t.clk = s.clk + 1 ∧ t.litBusy = s.litBusy - 1 ∧ t.mem = s.mem ∧ t.dies = s.dies
      ∧ t.recs = s.recs ∧ t.agenda = s.agenda := by
  refine ⟨_, (if_pos hs : execMergeCycle s = _), ?_⟩
  unfold State.countIdle
  split <;> exact ⟨rfl, rfl, rfl, rfl, rfl, rfl⟩

/-- A context without a residency slot keeps its record in a merge cycle. -/
theorem Counted.unresident {v u t : State} (h : Counted u t) (hframe : ∀ c, c ∉ v.cycling → u.rc c = v.rc c)
    (hnot : ∀ c, ¬ u.rdy c → (t.rc c).waitCnt = (u.rc c).waitCnt) {c : Nat} (hslot : (v.rc c).slot = none) : t.rc c = v.rc c := by
  have hc : c ∉ v.cycling := fun hc => by
    have := ((v.cycling_facts.2.1 c).1 hc).2
    rw [hslot] at this
    cases this
  have hrdy : ¬ u.rdy c := fun hr => by
    have := hr.2.1
    rw [hframe c hc, hslot] at this
    cases this
  obtain ⟨n, hn⟩ := h.recs c
  have hcnt := hnot c hrdy
  rw [hn] at hcnt
  rw [hn, ← hframe c hc, show n = (u.rc c).waitCnt from hcnt]

end Sys2Proof.Machine

open Sys2Proof.Machine in
/-- Settles O46: the merge cycle looks at every resident context, lists the ready ones in the order of R37, and counts their waits; the
other steps are one word, one record or one die. -/
theorem issueSteps : Obligations.IssueSteps := by
  refine ⟨fun s hi => ⟨fun r hr hz => ?_, fun e hdec hw hb => s.wordIssue_illegal e hi hdec hw hb⟩, fun s hdue => ?_,
    fun ts thr s r w hr hsel hslot hlife hawake hflag hdec hone hp hcount => ?_, fun m s hsel hlife hmail hlog => ?_,
    fun c s hc hawake hlen => s.occupancyReport_lands c hc hawake hlen,
    fun c s code detail pass xin hc hlife hfly => s.fixedLatencyLand_seq c code detail pass xin hc hlife hfly, fun s hd hdly hcan => ?_⟩
  · cases hr
    exact s.wordIssue_zero hi hz
  · by_cases hs : s.asleep = true
    · obtain ⟨t, hexec, hclk, hlit, hmem, hdies, hrecs, hagenda⟩ := s.mergeCycle_asleep hs
      have hrc : ∀ c, t.rc c = s.rc c := fun c => by rw [State.rc, hrecs]; rfl
      exact ⟨t, hexec, hclk, hlit, hmem, hdies, fun c => ⟨by rw [hrc], by rw [hrc], fun _ => hrc c⟩, fun _ => ⟨hrecs, hagenda⟩,
        fun h => absurd hs (by rw [h]; exact Bool.false_ne_true)⟩
    · have hawake : s.asleep = false := by simpa using hs
      obtain ⟨v, u, t, ⟨k, rfl⟩, hexec, hu, hframe, hhit, ht, hagenda, hready, hnot⟩ := s.mergeCycle_counts hawake (hdue.resolve_left hs)
      obtain ⟨hnone, hpicks⟩ := u.picks_facts
      have hrest := lookedAt_rest hframe hhit
      have hbefore : ∀ a b, u.goesBefore a b ↔ s.goesBefore a b := fun a b => (goesBefore_looked hframe hhit a b).trans Iff.rfl
      refine ⟨t, hexec, by rw [ht.rest, hu], by rw [ht.rest, hu], by rw [ht.rest, hu], by rw [ht.rest, hu], fun c => ?_, fun h => absurd h hs,
        fun _ => ⟨u.picks, hagenda, ?_, fun a rest h => ?_, fun c => ⟨fun hc => ?_, fun hc => ?_⟩, fun c hc hslot => ?_⟩⟩
      · obtain ⟨n, hn⟩ := ht.recs c
        obtain ⟨hcore, hreqs, -⟩ := hrest c
        exact ⟨(congrArg Rec.core hn).trans hcore, (congrArg Rec.reqs hn).trans hreqs, ht.unresident hframe hnot⟩
      · rw [hnone]
        exact forall_congr' fun c => not_congr (ht.rdy c).symm
      · simp only [ht.rdy, ht.merges, ← hbefore]
        exact hpicks a rest h
      · rw [hready c ((ht.rdy c).1 hc), (hrest c).2.2.2]
        rfl
      · rw [hnot c fun h => hc ((ht.rdy c).2 h), (hrest c).2.2.2]
        rfl
      · exact lookedAt_life hu hhit ht hc hslot
  · cases hr
    exact s.waitsSatisfied_issues ts thr w hsel hslot hlife hawake hflag hdec hone hp hcount
  · obtain ⟨hready, hcore, hmem, hrecs⟩ := s.resumeIdle_noLog m hlog (State.sel_lt_of_waiting hlife)
    exact ⟨_, exec_idleResume s m hsel hlife hmail, hready, hcore, hmem, hrecs⟩
  · obtain ⟨hexec, hl⟩ := s.fixedLatencyLand_die hd hdly hcan
    obtain ⟨hdly', he, hcell⟩ := s.myDie.delayed_facts
    have hdie : (s.updDctx s.sel s.selDie DieCtx.delayed).myDie = s.myDie.delayed := s.dctx_updDctx_self s.sel s.selDie _ hl
    exact ⟨_, hexec, rfl, by rw [hdie, hdly'], by rw [hdie, he], fun l => (s.at_updDctx DieCtx.delayed l hl).trans (hcell l)⟩

end

section
set_option Elab.async false

namespace Sys2Proof.Machine

/-! ## Words of one slot that faults

A slot whose meaning faults is the first of its word to do so, the others being empty (R42). -/

theorem State.slotChecks_none (s : State) {r : Raw} (hp : s.passes r) (hb : broadcasts r = false) (hbad : csrBad s.sel r = false)
    (hrft : (r.kind == .na && r.op == 7 && !s.me.hact) = false) : s.slotChecks r = none := by
  obtain ⟨-, hpriv, htok, huw⟩ := hp
  have hpriv' : (!s.me.priv && privileged r) = false := by
    cases h : privileged r <;> simp [hpriv, h]
  have huw' : (tbit s.core.sstat 8 && readsPending s.core r) = false := by
    cases h : tbit s.core.sstat 8 <;> simp [huw, h]
  simp [State.slotChecks, hbad, bcastIdxOk_of_quiet s.me hb, hpriv', hrft, s.tokenFault_none r htok hb, huw']

/-- Of the slots of a word of which all but one are empty, that one faults. -/
theorem runSlots_fault {e : SeqEnv} {s : State} {sl : List WSlot} {w : WSlot} {f : FInfo} (hmem : w ∈ sl)
    (hall : ∀ v ∈ sl, (blankSlot v.raw ∧ v.fx = fxNone) ∨ v = w) (hact : slotActs e.q w.raw = true) (hf : w.fx e s = .error f) :
    runSlots e sl s = .error (w.slot, f) := by
  induction sl with
  | nil => cases hmem
  | cons v sl ih =>
    rcases hall v List.mem_cons_self with ⟨hblank, hnone⟩ | rfl
    · have hne : w ≠ v := by
        rintro rfl
        rw [hnone] at hf
        cases hf
      have hv : slotActs e.q v.raw = true := (blankSlot_checks s 0 e.rc v.raw hblank).2.2.2.2.2.2
      have hrest := ih ((List.mem_cons.1 hmem).resolve_left hne) fun u hu => hall u (List.mem_cons_of_mem _ hu)
      simp only [runSlots, hv, if_true, hnone, fxNone, pureFx, hrest]
    · simp only [runSlots, hact, if_true, hf]

/-- A word that passes every check and of which one slot acts, with a meaning that faults. -/
theorem State.issueWord_faults (s : State) (s0 s1 x na w : WSlot) {f : FInfo} (hi : s.canIssue) (hhold : s.mergeHold s.sel x.raw = none)
    (hlit : (x.raw.kind == .x && x.raw.op == 2) = false) (hmem : w ∈ [na, s0, s1, x]) (hslot : w.slot = Raw.place w.raw)
    (hall : ∀ v ∈ [na, s0, s1, x], (blankSlot v.raw ∧ v.fx = fxNone) ∨ v = w) (hchk : s.slotChecks w.raw = none)
    (hact : slotActs s.core w.raw = true) (hf : w.fx s.senv s = .error f) :
    s.issueWord s.sel s0 s1 x na = .next (s.seqFault s.sel w.slot f) := by
  have hperm : ∀ v, v ∈ [s0, s1, x, na] ↔ v ∈ [na, s0, s1, x] := fun v => by
    simp only [List.mem_cons, List.not_mem_nil, or_false]
    tauto
  have hchecks : s.wordChecks s.sel (s.rc s.sel) [s0, s1, x, na] = none := by
    refine (s.wordChecks_alone hi.1 ((hperm w).2 hmem) hslot fun v hv => ?_).trans (by rw [hchk]; rfl)
    exact (hall v ((hperm v).1 hv)).imp And.left id
  have hrun : runSlots { c := s.sel, rc := s.rc s.sel, lit := x.raw.kind == .x && x.raw.op == 2 } [na, s0, s1, x] s = .error (w.slot, f) := by
    rw [hlit]
    exact runSlots_fault (e := s.senv) hmem hall hact hf
  unfold State.issueWord
  simp only [s.canIssue_ok hi, hhold, hchecks, hrun]

/-- A word whose one slot passes its checks and whose meaning faults is a precise fault in that slot. -/
theorem State.issueSlot_faults (s : State) {r : Raw} {fx : SeqMeaning} {f : FInfo} (hi : s.canIssue) (hp : s.passes r)
    (hw : waitsHolds s.core r = true) (hb : broadcasts r = false) (hbad : csrBad s.sel r = false)
    (hrft : (r.kind == .na && r.op == 7 && !s.me.hact) = false) (hact : slotActs s.core r = true) (hf : fx s.senv s = .error f) :
    s.issueSlot r fx = .next (s.seqFault s.sel (Raw.place r) f) := by
  have hchk := s.slotChecks_none hp hb hbad hrft
  obtain ⟨hscalar, hna, hx⟩ := wordOf_blank r
  have hnop : blankSlot Raw.nop := .inl rfl
  have hseq : blankSlot Raw.seq := .inr (.inr (.inl rfl))
  have hxnop : blankSlot Raw.xnop := .inr (.inl rfl)
  have hlit : (r.kind == .x && r.op == 2) = false := by
    cases h : (r.kind == .x && r.op == 2) with
    | false => rfl
    | true =>
      rw [Bool.and_eq_true] at h
      simp [broadcasts, h] at hb
  unfold State.issueSlot
  simp only [hp.1, Bool.not_true, Bool.false_eq_true, if_false]
  by_cases h1 : r.kind = .scalar
  · obtain ⟨e0, e1, ex, en⟩ := hscalar h1
    obtain ⟨hwx, hbx, hlx⟩ := blankSlot_x s _ ex
    have hpl : Raw.place r = slS0 := if_pos h1
    rw [if_pos h1, if_pos rfl, e0, e1, en, hpl]
    exact s.issueWord_faults _ _ _ _ ⟨r, slS0, fx⟩ hi (s.mergeHold_none _ hi hwx (by simp [hbx])) hlx (by simp) hpl.symm
      (by simp [hnop, hseq, ex, slS0, slX, slNA]) hchk hact hf
  · by_cases h2 : r.kind = .na
    · obtain ⟨e0, e1, ex, en⟩ := hna h2
      have hpl : Raw.place r = slNA := by rw [Raw.place, if_neg h1, if_pos h2]
      rw [if_neg h1, if_pos h2, e0, e1, ex, en, hpl]
      exact s.issueWord_faults _ _ _ _ ⟨r, slNA, fx⟩ hi (s.mergeHold_none _ hi rfl (by simp [broadcasts, Raw.xnop])) rfl (by simp) hpl.symm
        (by simp [hnop, hxnop, slS0, slX, slNA]) hchk hact hf
    · obtain ⟨e0, e1, ex, en⟩ := hx h1 h2
      have hpl : Raw.place r = slX := by rw [Raw.place, if_neg h1, if_neg h2]
      rw [if_neg h1, if_neg h2, e0, e1, ex, en, hpl]
      exact s.issueWord_faults _ _ _ _ ⟨r, slX, fx⟩ hi (s.mergeHold_none _ hi hw (by simp [hb])) hlit (by simp) hpl.symm
        (by simp [hnop, hseq, slS0, slX, slNA]) hchk hact hf

/-! ## The next address (R125) -/

theorem exec_nextAddress {i : Instr} {s : State} {r : Raw} {npc : BitVec 18} (hr : i.raw = some r) (hn : nextAddress s i = some npc)
    (hi : s.canIssue) (hp : s.passes r) : exec i s = .next (s.wordDone r (fun x => x.issued []) npc) := by
  cases i
  case nop | xnop | k28 =>
    cases hr
    cases hn
    exact s.issueSlot_set _ _ [] id none hi hp rfl rfl rfl rfl rfl rfl
  case seq | jmp | br =>
    cases hr
    cases hn
    exact s.issueSlot_set _ _ [] id (some _) hi hp rfl rfl rfl rfl rfl rfl
  all_goals cases hn

end Sys2Proof.Machine

open Sys2Proof.Machine in
/-- Settles O11: the meaning of such a slot gives the next PC and nothing else. -/
theorem nextAddress : Obligations.NextAddress :=
  fun _ _ _ _ => exec_nextAddress

namespace Sys2Proof.Machine

/-! ## CALL and RET (R126) -/

/-- What a word leaves depends on its change of the issuing record alone. -/
theorem State.wordDone_congr (s : State) (r : Raw) {f g : Rec → Rec} (npc : BitVec 18) (h : f s.me = g s.me) : s.wordDone r f npc = s.wordDone r g npc := by
  have h' : f (s.rc s.sel) = g (s.rc s.sel) := h
  unfold State.wordDone State.updRec
  dsimp only
  rw [h']

/-- A fault that R126 raises in slot NA. -/
theorem State.issueSlot_naFault (s : State) {r : Raw} {fx : SeqMeaning} {detail : Nat} (hi : s.canIssue) (hp : s.passes r) (hk : r.kind = .na)
    (hop : r.op ≠ 7) (hdetail : detail < 256) (hf : fx s.senv s = .error (cILLWORD, detail, noInfo)) :
    s.faultsWith (s.issueSlot r fx) 0x01 detail 3 none := by
  have hplace : Raw.place r = slNA := by simp [Raw.place, hk]
  rw [s.issueSlot_faults hi hp (by simp [waitsHolds, hk]) (by simp [broadcasts, hk]) (by simp [csrBad, hk]) (by simp [hop]) (by simp [slotActs, hk]) hf,
    hplace]
  exact s.seqFault_faultsWith slNA (cILLWORD, detail, noInfo) hi (Nat.ne_of_lt (by decide : cILLWORD < cPAGE)) (by decide : cILLWORD < 256) hdetail (by decide)

end Sys2Proof.Machine

open Sys2Proof Sys2Proof.Machine in
/-- Settles O12: CALL looks at the length of the stack, RET at its last entry, before the word has any effect. -/
theorem callAndReturn : Obligations.CallAndReturn := by
  refine ⟨fun off s r hr hi hp => ⟨fun hroom => ?_, fun hfull => ?_⟩, fun s r hr hi hp => ⟨fun st e hst => ?_, fun hempty => ?_⟩⟩
  · cases hr
    exact s.issueSlot_set _ (fxCall off) [] (fun r => { r with core := { r.core with stack := s.core.stack ++ [{ rpc := s.nextPc, rmask := s.core.tokmask }] } })
      (some (s.pcPlus off 21)) hi hp rfl rfl rfl rfl rfl (if_neg (Nat.not_le.2 hroom))
  · cases hr
    exact s.issueSlot_naFault hi hp rfl (by decide : 3 ≠ 7) (by decide) (if_pos hfull)
  · cases hr
    have hlast : s.core.stack.getLast? = some e ∧ s.core.stack.dropLast = st := by simp [hst]
    refine s.issueSlot_set _ fxRet [] (fun r => { r with core := { r.core with stack := st, tokmask := e.rmask } }) (some e.rpc) hi hp rfl rfl rfl rfl rfl ?_
    have hlast' : s.me.core.stack.getLast? = some e ∧ s.me.core.stack.dropLast = st := hlast
    simp [fxRet, SeqEnv.q, hlast'.1, hlast'.2]
  · cases hr
    have hnone : s.me.core.stack.getLast? = none := by rw [List.getLast?_eq_none_iff]; exact hempty
    exact s.issueSlot_naFault hi hp rfl (by decide) (by decide) (by simp [fxRet, SeqEnv.q, State.senv, hnone])
end

section
set_option Elab.async false

namespace Sys2Proof.Machine

/-! ## Masks and priority of a context (R113, R132) -/

theorem getLsbD_or_two_pow (m : BitVec 32) (i j : Nat) (hj : j < 32) : (m ||| BitVec.ofNat 32 (2 ^ i)).getLsbD j = (m.getLsbD j || decide (j = i)) := by
  rw [BitVec.getLsbD_or, BitVec.getLsbD_ofNat, Nat.testBit_two_pow]
  simp [hj, eq_comm]

/-- A mask built bit by bit holds the bits of its list. -/
theorem getLsbD_foldl_set {w j : Nat} {set : BitVec w → Nat → BitVec w} (hset : ∀ m i, (set m i).getLsbD j = (m.getLsbD j || decide (j = i)))
    (l : List Nat) (m : BitVec w) : (l.foldl set m).getLsbD j = (m.getLsbD j || l.contains j) := by
  induction l generalizing m with
  | nil => simp
  | cons i l ih => rw [List.foldl_cons, ih, hset, List.contains_cons, Bool.or_assoc, beq_eq_decide]

theorem Rect.dieBits_getLsbD (f : Rect) {d : Nat} (hd : d < 32) : f.dieBits.getLsbD d = f.dies.contains d :=
  (getLsbD_foldl_set (fun m i => getLsbD_or_two_pow m i d hd) f.dies 0).trans (by simp)

theorem Rect.cellBits_getLsbD (g : Rect) {l : Nat} (hl : l < 64) : g.cellBits.getLsbD l = g.cells.contains l := by
  refine (getLsbD_foldl_set (fun m i => ?_) g.cells 0).trans (by simp)
  refine (tbit_wbit m i l true hl).trans ?_
  by_cases h : l = i <;> simp [h, tbit]

/-- The priority of R113: no lower than the floor. -/
theorem prio_max (v : Word) (floor : BitVec 3) :
    (if v.toNat % 8 < floor.toNat then floor else v.setWidth 3) = BitVec.ofNat 3 (max (v.toNat % 8) floor.toNat) := by
  apply BitVec.eq_of_toNat_eq
  have := floor.isLt
  split
  next h => rw [Nat.max_eq_right (Nat.le_of_lt h)]; simp
  next h => rw [Nat.max_eq_left (Nat.not_lt.1 h)]; simp

/-- A CTX word that changes the sequencer registers, given what the meaning makes of the record. -/
theorem State.issueSlot_ctx (s : State) {r : Raw} (fx : SeqMeaning) (f : SeqCore → SeqCore) (g : Rec → Rec) (hi : s.canIssue) (hp : s.passes r)
    (hk : r.kind = .ctx) (hg : g (s.me.issued []) = { s.me.issued [] with core := f (s.me.issued []).core })
    (hf : fx s.senv s = .ok (s, { set := g })) : s.issueSlot r fx = .next (s.wordDone r (Rec.thenCore f) s.nextPc) := by
  have hlit : (r.kind == .x && r.op == 2) = false := by simp [hk]
  rw [s.issueSlot_set r fx [] g none hi hp (by simp [waitsHolds, hk]) (by simp [broadcasts, hk]) (by simp [csrBad, hk]) (by simp [hk])
    (by simp [slotActs, hk]) (by rw [hlit]; exact hf)]
  exact congrArg _ (s.wordDone_congr r s.nextPc hg)

end Sys2Proof.Machine

open Sys2Proof Sys2Proof.Machine in
/-- Settles O13: the masks of the field and of the cell group are read bit by bit. -/
theorem contextRegisters : Obligations.ContextRegisters := by
  intro a s r hi hp
  refine ⟨fun hr => ?_, fun hr => ?_, fun hr => ?_, fun hr => ?_⟩
  · cases hr
    refine ⟨(s.core.rS a).setWidth 32 &&& s.me.field.dieBits, s.issueSlot_ctx (fxDmset a) _ _ hi hp rfl rfl rfl, fun d hd => ?_⟩
    rw [BitVec.getLsbD_and, BitVec.getLsbD_setWidth, s.me.field.dieBits_getLsbD hd, decide_eq_true hd, Bool.true_and]
  · cases hr
    refine ⟨s.core.rS a &&& s.me.group.cellBits, s.issueSlot_ctx (fxCmset a) _ _ hi hp rfl rfl rfl, fun l hl => ?_⟩
    rw [BitVec.getLsbD_and, s.me.group.cellBits_getLsbD hl]
  · cases hr
    refine s.issueSlot_ctx (fxTmand a) _ _ hi hp rfl ?_ rfl
    have hmask : (s.me.issued []).core.tokmask = s.core.tokmask := by
      rw [s.me.issued_sameRest []]
      rfl
    dsimp only
    rw [hmask]
    rfl
  · cases hr
    refine s.issueSlot_ctx (fxPrio a) _ _ hi hp rfl ?_ rfl
    exact congrArg (fun x => { s.me.issued [] with core := { (s.me.issued []).core with prio := x } }) (prio_max (s.core.rS a) s.me.floor)

namespace Sys2Proof.Machine

/-! ## CSRs (R117, R131) -/

/-- An input of a context that neither records nor replays is used as it is (R439, R440). -/
theorem State.logged_noLog (s : State) (hlog : s.noLog) (kind die : Nat) (cell : Option Nat) (inn pc : Nat) (vals : List Nat) :
    s.logged s.sel kind die cell inn pc vals = .ok (s, vals) := by
  obtain ⟨hreplay, hbuf⟩ := hlog
  have hreplay' : (s.rc s.sel).replaying = false := hreplay
  refine (if_neg (by simp [hreplay'])).trans ?_
  rw [s.emit_disabled _ _ _ _ _ _ _ hbuf]

/-- The meaning of a CSR word of a context that logs nothing: the CSR as it stands at the start of the word, and the write of its end. -/
theorem csrOp_noLog (s : State) (e : SeqEnv) (num : Nat) (d : Option Nat) (f : Option (SeqCore → Word → Word)) (he : e.c = s.sel) (hsel : s.sel < 16)
    (hlog : csrLogged num = true → s.noLog) : csrOp num d f e s = .ok (s, {
      writes := (d.map fun d => one (.s d) (s.csrRead s.sel num).toNat 1).getD []
      set := (f.map fun f => fun x => x.csrWrite num (f e.q (s.csrRead s.sel num))).getD id }) := by
  have hne : s.sel ≠ ateIdx := by simp only [ateIdx]; omega
  obtain ⟨c, rc, lit⟩ := e
  obtain rfl : c = s.sel := he
  unfold csrOp
  dsimp only
  split
  next h =>
    rw [s.logged_noLog (hlog h.1)]
    cases d <;> cases f <;> simp [hne]
  next => cases d <;> cases f <;> simp [hne]

/-- A CSR word of a context that logs nothing. -/
theorem State.issueSlot_csr (s : State) {r : Raw} (num : Nat) (d : Option Nat) (f : Option (SeqCore → Word → Word)) (hi : s.canIssue)
    (hp : s.passes r) (hk : r.kind = .csr) (hbad : csrBad s.sel r = false) (hlog : csrLogged num = true → s.noLog) :
    s.issueSlot r (csrOp num d f) = .next (s.wordDone r (fun x =>
      ((f.map fun f => fun x => x.csrWrite num (f s.core (s.csrRead s.sel num))).getD id)
        (x.issued ((d.map fun d => one (.s d) (s.csrRead s.sel num).toNat 1).getD []))) s.nextPc) :=
  s.issueSlot_set r (csrOp num d f) _ _ none hi hp (by simp [waitsHolds, hk]) (by simp [broadcasts, hk]) hbad (by simp [hk])
    (by simp [slotActs, hk]) (csrOp_noLog s _ num d f rfl hi.1 hlog)

/-- A CSR number of R117, read or, where it is not read-only, written, passes the check of R58. -/
theorem csrBad_of_defined {c op num : Nat} {ops : List Nat} (hc : c < 16) (hdef : csrDefined num = true) (hw : op = 0x20 ∨ csrWritable num = true) :
    csrBad c ⟨.csr, op, num :: ops⟩ = false := by
  have hne : c ≠ ateIdx := by simp only [ateIdx]; omega
  rcases hw with h | h <;> simp [csrBad, hne, hdef, h]

theorem csrWritable_cases {num : Nat} (h : csrWritable num = true) : num = 0x006 ∨ num = 0x020 ∨ num = 0x021 ∨ num = 0x025 := by
  simpa [csrWritable, csrPriv, or_assoc] using h

/-- The writable bits of a CSR that is not read-only (R117). -/
def csrBits : Nat → Word
  | 0x006 => 0x101
  | 0x025 => BitVec.allOnes 64
  | _ => 0x3FFFF

theorem setWidth_pc (w : Word) : (w.setWidth 18).setWidth 64 = w &&& 0x3FFFF := by
  apply BitVec.eq_of_toNat_eq
  rw [BitVec.toNat_and, show (0x3FFFF : Word).toNat = 2 ^ 18 - 1 from rfl, Nat.and_two_pow_sub_one_eq_mod, BitVec.toNat_setWidth, BitVec.toNat_setWidth]
  exact Nat.mod_eq_of_lt (lt_trans (Nat.mod_lt _ (by decide)) (by decide))

/-- What a CSR reads depends on the record's fields that R117 names, and only one of them is written. -/
theorem State.csrRead_csrWrite (s : State) {c num : Nat} (n : Nat) (v : Word) (hc : c < 16) (hl : c < s.recs.length) (hw : csrWritable num = true) :
    (s.updRec c (fun r => r.csrWrite num v)).csrRead c n = if n = num then v &&& csrBits num else s.csrRead c n := by
  have hne : c ≠ ateIdx := by simp only [ateIdx]; omega
  unfold State.csrRead
  rw [if_neg hne, if_neg hne, s.rc_updRec_self c _ hl]
  by_cases hn : n = num
  · rw [if_pos hn, hn]
    rcases csrWritable_cases hw with rfl | rfl | rfl | rfl
    · rfl
    · exact setWidth_pc v
    · exact setWidth_pc v
    · exact BitVec.and_allOnes.symm
  · rw [if_neg hn]
    rcases csrWritable_cases hw with rfl | rfl | rfl | rfl
    all_goals split
    all_goals try exact absurd rfl hn
    all_goals rfl

end Sys2Proof.Machine

open Sys2Proof Sys2Proof.Machine in
/-- Settles O14: the meaning of a CSR word is one read and at most one write (`csrOp_noLog`), and a write touches one field of the record. -/
theorem csrAccess : Obligations.CsrAccess := by
  refine ⟨fun s num d a r hi hp hdef hlog => ⟨fun hr => ?_, fun hr hw => ?_, fun hr hw => ?_, fun hr hw => ?_⟩,
    fun s c num n v hc hl hw => s.csrRead_csrWrite n v hc hl hw⟩
  · cases hr
    exact s.issueSlot_csr num (some d) none hi hp rfl (csrBad_of_defined hi.1 hdef (.inl rfl)) hlog
  · cases hr
    exact s.issueSlot_csr num none (some fun q _ => q.rS a) hi hp rfl (csrBad_of_defined hi.1 hdef (.inr hw)) hlog
  · cases hr
    exact s.issueSlot_csr num (some d) (some fun q v => v ||| q.rS a) hi hp rfl (csrBad_of_defined hi.1 hdef (.inr hw)) hlog
  · cases hr
    exact s.issueSlot_csr num (some d) (some fun q v => v &&& ~~~(q.rS a)) hi hp rfl (csrBad_of_defined hi.1 hdef (.inr hw)) hlog
end

section
set_option Elab.async false

namespace Sys2Proof.Machine

/-! ## The results of scalar operations (R118 to R123)

The meanings compute with words; the numbers that the spec names are those words'. -/

theorem toNat_mul_two_pow (w x n : Nat) : BitVec.ofNat w (x * 2 ^ n) = BitVec.ofNat w x <<< n := by
  apply BitVec.eq_of_toNat_eq
  simp [Nat.shiftLeft_eq]

theorem sshiftRight_eq_div (x : Word) (n : Nat) : x.sshiftRight n = BitVec.ofInt 64 (x.toInt / 2 ^ n) := by
  rw [BitVec.sshiftRight, Int.shiftRight_eq_div_pow]
  norm_cast

theorem toNat_shl (x : Word) (n : Nat) : (x <<< n).toNat = x.toNat * 2 ^ n % 2 ^ 64 := by
  rw [BitVec.toNat_shiftLeft, Nat.shiftLeft_eq]

theorem toNat_shr (x : Word) (n : Nat) : (x >>> n).toNat = x.toNat / 2 ^ n := by
  rw [BitVec.toNat_ushiftRight, Nat.shiftRight_eq_div_pow]

theorem toNat_ofNat_lt {v : Nat} (h : v < 2 ^ 64) : (BitVec.ofNat 64 v).toNat = v := by
  rw [BitVec.toNat_ofNat, Nat.mod_eq_of_lt h]

theorem sx_min (x y : Word) : (if sx y < sx x then y else x) = BitVec.ofInt 64 (min x.toInt y.toInt) := by
  unfold sx
  split
  next h => rw [Int.min_eq_right (Int.le_of_lt h), BitVec.ofInt_toInt]
  next h => rw [Int.min_eq_left (Int.not_lt.1 h), BitVec.ofInt_toInt]

theorem sx_max (x y : Word) : (if sx x < sx y then y else x) = BitVec.ofInt 64 (max x.toInt y.toInt) := by
  unfold sx
  split
  next h => rw [Int.max_eq_right (Int.le_of_lt h), BitVec.ofInt_toInt]
  next h => rw [Int.max_eq_left (Int.not_lt.1 h), BitVec.ofInt_toInt]

theorem toNat_min (x y : Word) : (if y < x then y else x).toNat = min x.toNat y.toNat := by
  split
  next h => exact (Nat.min_eq_right (Nat.le_of_lt h)).symm
  next h => exact (Nat.min_eq_left (Nat.not_lt.1 h)).symm

theorem toNat_max (x y : Word) : (if x < y then y else x).toNat = max x.toNat y.toNat := by
  split
  next h => exact (Nat.max_eq_right (Nat.le_of_lt h)).symm
  next h => exact (Nat.max_eq_left (Nat.not_lt.1 h)).symm

theorem mulhu_lt (x y : Word) : x.toNat * y.toNat / 2 ^ 64 < 2 ^ 64 :=
  Nat.div_lt_of_lt_mul (Nat.mul_lt_mul'' x.isLt y.isLt)

theorem toNat_divu (x y : Word) :
    (if y = 0 then BitVec.allOnes 64 else BitVec.ofNat 64 (x.toNat / y.toNat)).toNat = if y = 0 then 2 ^ 64 - 1 else x.toNat / y.toNat := by
  split
  next => rfl
  next => exact toNat_ofNat_lt (Nat.lt_of_le_of_lt (Nat.div_le_self _ _) x.isLt)

theorem toNat_remu (x y : Word) :
    (if y = 0 then x else BitVec.ofNat 64 (x.toNat % y.toNat)).toNat = if y = 0 then x.toNat else x.toNat % y.toNat := by
  split
  next => rfl
  next => exact toNat_ofNat_lt (Nat.lt_of_le_of_lt (Nat.mod_le _ _) x.isLt)

theorem clz64_le (w : Word) : clz64 w ≤ 64 := Nat.sub_le _ _

theorem popcount_le (n w : Nat) : popcount n w ≤ n :=
  (List.length_filter_le _ _).trans (Nat.le_of_eq List.length_range)

theorem sOp_ok {e : SeqEnv} {s : State} {d lat v : Nat} {f : SeqCore → Word} (h : (f e.q).toNat = v) :
    sOp d lat f e s = .ok (s, { writes := one (.s d) v lat }) := by
  rw [← h]
  rfl

theorem sOp2_ok {e : SeqEnv} {s : State} {d a b lat v : Nat} {f : Word → Word → Word} (h : (f (e.q.rS a) (e.q.rS b)).toNat = v) :
    sOp2 d a b lat f e s = .ok (s, { writes := one (.s d) v lat }) := sOp_ok h

/-- A compare that decides a proposition. -/
theorem cmpOp_decide {e : SeqEnv} {s : State} {d a b : Nat} {f : Word → Word → Bool} {p : Prop} [Decidable p]
    (h : f (e.q.rS a) (e.q.rS b) = true ↔ p) : cmpOp d a b f e s = .ok (s, { writes := one (.p d) (if p then 1 else 0) 1 }) := by
  have hv : (if f (e.q.rS a) (e.q.rS b) = true then 1 else 0) = if p then 1 else 0 := by simp only [h]
  rw [← hv]
  rfl

/-- The words of ScalarResults issue the results that R118 to R123, R132 and R133 name. -/
theorem exec_results {i : Instr} {s : State} {r : Raw} {ws : List Write} (hr : i.raw = some r) (hw : readWrites s i = some ws) :
    ∃ fx, exec i s = s.issueSlot r fx ∧ fx s.senv s = .ok (s, { writes := ws }) ∧ plainSlot r = true := by
  cases i
  all_goals cases hw
  all_goals cases hr
  all_goals refine ⟨_, rfl, ?_, rfl⟩
  case dmget | cmget | tmget | feat | mov | addi | add | and | or | xor | andn | sel | ptos | stop | tstb | pmov | pand | por | pxor | pandn => rfl
  case movi => exact sOp_ok (congrArg BitVec.toNat (BitVec.zero_add _))
  case movl => exact sOp_ok (toNat_ofNat_lt (lt_trans (Nat.mod_lt _ (by decide)) (by decide)))
  case movlh | movlt => exact sOp_ok (congrArg (fun x => (_ ||| x : Word).toNat) (toNat_mul_two_pow _ _ _))
  case sub => exact sOp2_ok ((BitVec.toNat_sub _ _).trans (congrArg (· % 2 ^ 64) (Nat.add_comm _ _)))
  case shl => exact sOp2_ok (toNat_shl _ _)
  case shli => exact sOp_ok (toNat_shl _ _)
  case shr => exact sOp2_ok (toNat_shr _ _)
  case shri => exact sOp_ok (toNat_shr _ _)
  case sar => exact sOp2_ok (congrArg BitVec.toNat (sshiftRight_eq_div _ _))
  case sari => exact sOp_ok (congrArg BitVec.toNat (sshiftRight_eq_div _ _))
  case min => exact sOp2_ok (congrArg BitVec.toNat (sx_min _ _))
  case max => exact sOp2_ok (congrArg BitVec.toNat (sx_max _ _))
  case minu => exact sOp2_ok (toNat_min _ _)
  case maxu => exact sOp2_ok (toNat_max _ _)
  case clz => exact sOp_ok (toNat_ofNat_lt (Nat.lt_of_le_of_lt (clz64_le _) (by decide)))
  case popc => exact sOp_ok (toNat_ofNat_lt (Nat.lt_of_le_of_lt (popcount_le _ _) (by decide)))
  case mul => exact sOp2_ok (BitVec.toNat_mul _ _)
  case mulhu => exact sOp2_ok (toNat_ofNat_lt (mulhu_lt _ _))
  case mulhs => exact sOp2_ok (BitVec.toNat_ofInt _)
  case divu => exact sOp2_ok (toNat_divu _ _)
  case remu => exact sOp2_ok (toNat_remu _ _)
  case cmpEq => exact cmpOp_decide beq_iff_eq
  case cmpNe => exact (cmpOp_decide bne_iff_ne).trans (by rw [ite_not]; rfl)
  case cmpLt | cmpLe | cmpLtu | cmpLeu => exact cmpOp_decide decide_eq_true_iff

/-! ## Counts of bits (R119) -/

/-- The bit after the leading zeros is 1, and every bit above it 0. -/
theorem clz64_spec {w : Word} (hw : w ≠ 0) :
    clz64 w < 64 ∧ w.getLsbD (63 - clz64 w) = true ∧ ∀ i, 63 - clz64 w < i → w.getLsbD i = false := by
  have h0 : w.toNat ≠ 0 := fun h => hw (BitVec.eq_of_toNat_eq h)
  have hlog : Nat.log2 w.toNat < 64 := (Nat.log2_lt h0).2 w.isLt
  have hclz : clz64 w = 63 - Nat.log2 w.toNat := by
    rw [clz64, if_neg hw]
    omega
  have hbit : 63 - clz64 w = Nat.log2 w.toNat := by omega
  refine ⟨by omega, ?_, fun i hi => ?_⟩
  · rw [hbit]
    exact Nat.testBit_log2 h0
  · rw [hbit] at hi
    exact Nat.testBit_lt_two_pow ((Nat.log2_lt h0).1 hi)

/-- A number with bit i set beside those of another, below n, has one more bit. -/
theorem popcount_of_testBit {v w i : Nat} (hi : w.testBit i = false) (hv : ∀ j, v.testBit j = (w.testBit j || decide (j = i))) (n : Nat) :
    popcount n v = popcount n w + if i < n then 1 else 0 := by
  induction n with
  | zero => rfl
  | succ n ih =>
    unfold popcount at *
    rw [List.range_succ, List.filter_append, List.filter_append, List.length_append, List.length_append, ih, List.filter_singleton,
      List.filter_singleton, hv]
    rcases Nat.lt_trichotomy i n with h | rfl | h
    · have hne : n ≠ i := by omega
      simp [hne, h, Nat.lt_succ_of_lt h]
      omega
    · simp [hi]
    · have hne : n ≠ i := by omega
      simp [hne, Nat.not_lt.2 (Nat.le_of_lt h), Nat.not_lt.2 h]

theorem popcount_set {w : Word} {i : Nat} (hi : i < 64) (h : w.getLsbD i = false) :
    popcount 64 (w ||| BitVec.ofNat 64 (2 ^ i)).toNat = popcount 64 w.toNat + 1 := by
  rw [popcount_of_testBit (v := (w ||| BitVec.ofNat 64 (2 ^ i)).toNat) h (fun j => ?_), if_pos hi]
  rw [BitVec.toNat_or, Nat.testBit_or, BitVec.toNat_ofNat, Nat.mod_eq_of_lt (Nat.pow_lt_pow_right (by decide) hi), Nat.testBit_two_pow]
  simp only [eq_comm, BitVec.testBit_toNat]

/-! ## FEAT (R133) -/

/-- The number whose bits below n are those of p. -/
theorem testBit_sum_two_pow (p : Nat → Bool) (n : Nat) : ((List.range n).map (fun d => if p d then 2 ^ d else 0)).sum < 2 ^ n
    ∧ ∀ d, d < n → ((List.range n).map (fun d => if p d then 2 ^ d else 0)).sum.testBit d = p d := by
  induction n with
  | zero => exact ⟨Nat.one_pos, nofun⟩
  | succ n ih =>
    obtain ⟨hlt, hbits⟩ := ih
    rw [List.range_succ, List.map_append, List.sum_append, List.map_singleton, List.sum_singleton]
    generalize ((List.range n).map (fun d => if p d then 2 ^ d else 0)).sum = m at hlt hbits
    have hsplit : m + (if p n then 2 ^ n else 0) = 2 ^ n * (p n).toNat + m := by
      cases p n <;> simp [Nat.add_comm]
    have hle : (p n).toNat ≤ 1 := Bool.toNat_le _
    rw [hsplit]
    refine ⟨?_, fun d hd => ?_⟩
    · rw [Nat.pow_succ]
      have := Nat.mul_le_mul_left (2 ^ n) hle
      omega
    · rw [Nat.testBit_two_pow_mul_add _ hlt]
      by_cases h : d < n
      · rw [if_pos h, hbits d h]
      · obtain rfl : d = n := by omega
        rw [if_neg h, Nat.sub_self]
        cases p d <;> rfl

/-- Word 3: the retired dies in bits 31 to 0, their number above. -/
theorem State.featWord_retired (s : State) : (∀ d, d < 32 → (s.featWord 3).getLsbD d = (s.pdie d).retired)
    ∧ (s.featWord 3).toNat / 2 ^ 32 = ((List.range 32).filter (fun d => (s.pdie d).retired)).length := by
  obtain ⟨hlt, hbits⟩ := testBit_sum_two_pow (fun d => (s.pdie d).retired) 32
  have hn : s.nRetired ≤ 32 := (List.length_filter_le _ _).trans (Nat.le_of_eq List.length_range)
  have hmask : s.retMask < 2 ^ 32 := hlt
  have hword : (s.featWord 3).toNat = 2 ^ 32 * s.nRetired + s.retMask := by
    refine (toNat_ofNat_lt ?_).trans (by rw [Nat.mul_comm])
    omega
  refine ⟨fun d hd => ?_, ?_⟩
  · rw [BitVec.getLsbD, hword, Nat.testBit_two_pow_mul_add _ hmask, if_pos hd]
    exact hbits d hd
  · rw [hword, Nat.mul_add_div (by decide), Nat.div_eq_of_lt hmask]
    rfl

end Sys2Proof.Machine

open Sys2Proof Sys2Proof.Machine in
/-- Settles O6: the meaning of such a word computes the results named (`exec_results`), and the word acts. -/
theorem scalarResults : Obligations.ScalarResults := by
  refine ⟨fun i s r ws hr hw hi hp hg => ?_, ⟨rfl, rfl⟩, fun w hw => clz64_spec hw, fun w i => popcount_set,
    fun s => ⟨rfl, rfl, rfl, rfl, rfl, rfl, rfl, rfl, fun n hn => ?_, s.featWord_retired.1, s.featWord_retired.2⟩⟩
  · obtain ⟨fx, hexec, hfx, hplain⟩ := exec_results hr hw
    have hlit : (r.kind == .x && r.op == 2) = false := by
      cases h : (r.kind == .x && r.op == 2) with
      | false => rfl
      | true =>
        have hquiet := (plain_checks s hplain).2.1
        rw [Bool.and_eq_true] at h
        simp [broadcasts, h] at hquiet
    have hact : slotActs s.core r = true := by
      rw [slotActs_eq]
      rcases hg with h | ⟨-, h⟩ <;> simp [h]
    rw [hexec]
    exact s.issueSlot_writes r fx ws hi hp hplain hact (by rw [hlit]; exact hfx)
  · obtain ⟨k, rfl⟩ : ∃ k, n = k + 9 := ⟨n - 9, by omega⟩
    rfl
end

section
set_option Elab.async false

namespace Sys2Proof.Machine

/-! ## Words that act on more than their record -/

/-- A word whose slot issues results, writes elsewhere, changes its record, and is followed by what its next-address kind does last. -/
theorem State.finishOne_around (s : State) (r : Raw) (ws : List Write) (m : State → State) (g : Rec → Rec) (n : Option (BitVec 18)) (fin : State → State)
    (npc : BitVec 18) (hl : s.sel < s.recs.length) (hrecs : (m s).recs = s.recs) (hsel : (m s).sel = s.sel) :
    s.finishOne s.sel { writes := ws, mem := m, set := g, npc := n, fin := fin } npc (readsPending s.core r)
      = fin ((m s).wordDone r (fun x => g (x.issued ws)) npc) := by
  have hrc : (m s).rc s.sel = s.rc s.sel := by rw [State.rc, hrecs]; rfl
  have hcore : (m s).core = s.core := by rw [State.core, State.me, hsel, hrc]; rfl
  rw [← (m s).finishOne_set r ws g n npc (by rwa [hsel, hrecs]), hcore, hsel]
  unfold State.finishOne
  rw [hrc]
  rfl

/-- Issuing such a word. -/
theorem State.issueSlot_around (s : State) {r : Raw} {fx : SeqMeaning} {ws : List Write} {m : State → State} {g : Rec → Rec}
    {n : Option (BitVec 18)} {fin : State → State} (hi : s.canIssue) (hp : s.passes r) (hk : r.kind = .scalar ∨ r.kind = .na ∧ r.op ≠ 7)
    (hact : slotActs s.core r = true) (hrecs : (m s).recs = s.recs) (hsel : (m s).sel = s.sel)
    (hf : fx s.senv s = .ok (s, { writes := ws, mem := m, set := g, npc := n, fin := fin })) :
    s.issueSlot r fx = .next (fin ((m s).wordDone r (fun x => g (x.issued ws)) (n.getD s.nextPc))) := by
  have hchecks : waitsHolds s.core r = true ∧ broadcasts r = false ∧ csrBad s.sel r = false ∧ bcastIdxOk s.me r = true
      ∧ (r.kind == .na && r.op == 7 && !s.me.hact) = false ∧ (r.kind == .x && r.op == 2) = false := by
    rcases hk with h | ⟨h, hop⟩
    · simp [waitsHolds, broadcasts, csrBad, bcastIdxOk, h]
    · simp [waitsHolds, broadcasts, csrBad, bcastIdxOk, h, hop]
  obtain ⟨hwait, hbc, hcsr, hidx, hrft, hlit⟩ := hchecks
  rw [s.issueSlot_ok s r fx _ hi hp hwait (by simp [hbc]) hcsr hidx hrft (s.tokenFault_none r hp.2.2.1 hbc) hact (by rw [hlit]; exact hf), hlit]
  exact congrArg _ (s.finishOne_around r ws m g n fin _ (s.rc_lt s.sel hi.2.1) hrecs hsel)

theorem slotActs_of_holds {q : SeqCore} {r : Raw} (h : q.holds r.guard = true) : slotActs q r = true := by
  simp [slotActs_eq, h]

/-! ## The local data store (R124) -/

theorem ldsAddr_toNat (s : State) (a off n : Nat) : (ldsAddr s.core a off n).toNat = ldsEa s a off n := by
  rw [ldsAddr, BitVec.toNat_add, BitVec.toNat_ofNat, Nat.add_mod_mod]
  rfl

theorem ldsFault_eq (s : State) (a off n : Nat) : ldsFault (ldsAddr s.core a off n) n
    = if ldsEa s a off n % n ≠ 0 then some (cPROTECT, 0x00, ldsEa s a off n)
      else if 0x20000 < ldsEa s a off n + n then some (cPROTECT, 0x04, ldsEa s a off n) else none := by
  unfold ldsFault
  rw [ldsAddr_toNat]

theorem storeKey_eq {c : Nat} (hc : c < 16) : storeKey c = ldsKey c := if_neg (by simp only [ateIdx]; omega)

theorem exec_ldsForm {i : Instr} {r : Raw} {n d a off : Nat} {sg : Bool} (hr : i.raw = some r) (hf : ldsForm i = some (n, sg, d, a, off)) :
    (∀ s, exec i s = s.issueSlot r (ldsLoad d a off n sg)) ∧ r.kind = .scalar := by
  cases i
  all_goals cases hf
  all_goals cases hr
  all_goals exact ⟨fun _ => rfl, rfl⟩

theorem exec_stsForm {i : Instr} {r : Raw} {n v a off : Nat} (hr : i.raw = some r) (hf : stsForm i = some (n, v, a, off)) :
    (∀ s, exec i s = s.issueSlot r (ldsStore v a off n)) ∧ r.kind = .scalar := by
  cases i
  all_goals cases hf
  all_goals cases hr
  all_goals exact ⟨fun _ => rfl, rfl⟩

/-- The key that an access of the local data store reaches in state s. -/
def State.ldsAt (s : State) (a off n : Nat) : Nat := ldsKey s.sel + ldsEa s a off n

theorem storeKey_ldsAddr (s : State) (a off n : Nat) (hsel : s.sel < 16) :
    storeKey s.senv.c + (ldsAddr s.senv.q a off n).toNat = s.ldsAt a off n := by
  change storeKey s.sel + (ldsAddr s.core a off n).toNat = _
  rw [storeKey_eq hsel, ldsAddr_toNat]
  rfl

theorem ldsLoad_ok (s : State) (d a off n : Nat) (sg : Bool) (hsel : s.sel < 16) (h : ldsFault (ldsAddr s.core a off n) n = none) :
    let v := memRead s.mem (s.ldsAt a off n) n
    ldsLoad d a off n sg s.senv s = .ok (s, { writes := one (.s d) (if sg then (BitVec.ofInt 64 (sext v (8 * n))).toNat else v) 3 }) := by
  have h' : ldsFault (ldsAddr s.senv.q a off n) n = none := h
  unfold ldsLoad
  simp only [h', storeKey_ldsAddr s a off n hsel]
  rfl

theorem ldsStore_ok (s : State) (v a off n : Nat) (hsel : s.sel < 16) (h : ldsFault (ldsAddr s.core a off n) n = none) :
    ldsStore v a off n s.senv s
      = .ok (s, { mem := fun u => { u with mem := memWrite u.mem (s.ldsAt a off n) n (s.core.rS v).toNat } }) := by
  have h' : ldsFault (ldsAddr s.senv.q a off n) n = none := h
  unfold ldsStore
  simp only [h', storeKey_ldsAddr s a off n hsel]
  rfl

/-- A load or a store whose address fails a check faults in slot S0. -/
theorem State.lds_faultsWith (s : State) {i : Instr} {r : Raw} {n a off detail : Nat} (hr : i.raw = some r)
    (hform : (∃ d sg, ldsForm i = some (n, sg, d, a, off)) ∨ ∃ v, stsForm i = some (n, v, a, off)) (hi : s.canIssue) (hp : s.passes r)
    (hg : s.core.holds r.guard = true) (hdetail : detail < 256)
    (hfault : ldsFault (ldsAddr s.core a off n) n = some (cPROTECT, detail, ldsEa s a off n)) :
    s.faultsWith (exec i s) 0x11 detail 0 (some (ldsEa s a off n)) := by
  have hfault' : ldsFault (ldsAddr s.senv.q a off n) n = some (cPROTECT, detail, ldsEa s a off n) := hfault
  obtain ⟨fx, hexec, hk, hfx⟩ : ∃ fx, (∀ s, exec i s = s.issueSlot r fx) ∧ r.kind = .scalar
      ∧ fx s.senv s = .error (cPROTECT, detail, ldsEa s a off n) := by
    rcases hform with ⟨d, sg, hf⟩ | ⟨v, hf⟩
    · obtain ⟨hexec, hk⟩ := exec_ldsForm hr hf
      exact ⟨_, hexec, hk, by simp only [ldsLoad, hfault']⟩
    · obtain ⟨hexec, hk⟩ := exec_stsForm hr hf
      exact ⟨_, hexec, hk, by simp only [ldsStore, hfault']⟩
  obtain ⟨hwait, hbc, hcsr, hrft⟩ := plain_checks s (r := r) (by simp [plainSlot, hk])
  have hplace : Raw.place r = slS0 := if_pos hk
  rw [hexec, s.issueSlot_faults hi hp hwait hbc hcsr hrft (slotActs_of_holds hg) hfx, hplace]
  have hea : ldsEa s a off n ≠ noInfo := Nat.ne_of_lt (Nat.mod_lt _ (by decide))
  have h := s.seqFault_faultsWith slS0 (cPROTECT, detail, ldsEa s a off n) hi (Nat.ne_of_gt (by decide : cPAGE < cPROTECT))
    (by decide : cPROTECT < 256) hdetail (by decide)
  rwa [if_neg hea] at h

end Sys2Proof.Machine

open Sys2Proof Sys2Proof.Machine in
/-- Settles O10: an aligned address inside the store passes both checks of R124, and the access is one of the map of memories. -/
theorem localDataStore : Obligations.LocalDataStore := by
  refine ⟨fun i s r n d a off sg hr hf hi hp hg hal hin => ?_, fun i s r n v a off hr hf hi hp hg hal hin => ?_,
    fun i s r n a off hr hform hi hp hg => ⟨fun hmis => ?_, fun hal hout => ?_⟩⟩
  · obtain ⟨hexec, hk⟩ := exec_ldsForm hr hf
    have hok : ldsFault (ldsAddr s.core a off n) n = none := by rw [ldsFault_eq, if_neg (not_not.2 hal), if_neg (Nat.not_lt.2 hin)]
    rw [hexec]
    exact s.issueSlot_around (m := id) (g := id) (n := none) (fin := id) hi hp (.inl hk) (slotActs_of_holds hg) rfl rfl (ldsLoad_ok s d a off n sg hi.1 hok)
  · obtain ⟨hexec, hk⟩ := exec_stsForm hr hf
    have hok : ldsFault (ldsAddr s.core a off n) n = none := by rw [ldsFault_eq, if_neg (not_not.2 hal), if_neg (Nat.not_lt.2 hin)]
    refine ⟨_, (hexec s).trans (s.issueSlot_around hi hp (.inl hk) (slotActs_of_holds hg) rfl rfl (ldsStore_ok s v a off n hi.1 hok)), ?_, ?_, rfl⟩
    · exact (memRead_memWrite n s.mem _ _).trans (by rw [Nat.pow_mul])
    · exact fun x hx => memGet_memWrite_outside n s.mem _ _ x hx
  · exact s.lds_faultsWith hr hform hi hp hg (by decide) (by rw [ldsFault_eq, if_pos hmis])
  · exact s.lds_faultsWith hr hform hi hp hg (by decide) (by rw [ldsFault_eq, if_neg (not_not.2 hal), if_pos hout])
end

section
set_option Elab.async false

namespace Sys2Proof.Machine

/-! ## Hardware loops (R115, R128, R129) -/

theorem SeqCore.loop_setLoop (q : SeqCore) (l : Loop) {n m : Nat} (hn : n < 4) (hm : m < 4) :
    (q.setLoop n l).loop m = if m = n then l else q.loop m := by
  interval_cases n <;> interval_cases m <;> rfl

/-- Writing a loop leaves the registers alone. -/
theorem SeqCore.setLoop_rest (q : SeqCore) (n : Nat) (l : Loop) :
    q.setLoop n l = { q with l0 := (q.setLoop n l).l0, l1 := (q.setLoop n l).l1, l2 := (q.setLoop n l).l2, l3 := (q.setLoop n l).l3 } := by
  unfold SeqCore.setLoop
  split <;> rfl

/-- Results issued and the end of a position leave the loops and the stage owner alone. -/
theorem Rec.issued_loops (x : Rec) (ws : List Write) : (x.issued ws).core.loop = x.core.loop ∧ (x.issued ws).core.stageOwn = x.core.stageOwn := by
  rw [x.issued_sameRest ws]
  exact ⟨funext fun n => by unfold SeqCore.loop; split <;> rfl, rfl⟩

/-- The sequencer registers after a word: as it changes them, but for the PC and SSTAT. -/
theorem State.wordDone_core (s : State) (r : Raw) (f : Rec → Rec) (npc : BitVec 18) (hl : s.sel < s.recs.length) :
    ∃ w, (s.wordDone r f npc).core = { (f s.me).core with pc := npc, sstat := w } :=
  ⟨_, congrArg Rec.core (s.rc_updRec_self s.sel _ hl)⟩

/-- Results of latency 1 for p(56) to p(55 + n). -/
def stageWrites (v : Nat → Bool) (n : Nat) : List Write := (List.range n).flatMap (fun i => one (.p (56 + i)) (if v i then 1 else 0) 1)

theorem stageWrites_succ (v : Nat → Bool) (n : Nat) : stageWrites v (n + 1) = stageWrites v n ++ one (.p (56 + n)) (if v n then 1 else 0) 1 := by
  simp [stageWrites, List.range_succ]

theorem mem_stageWrites {v : Nat → Bool} {n : Nat} {w : Write} (h : w ∈ stageWrites v n) : ∃ i, i < n ∧ w.reg = .p (56 + i) := by
  obtain ⟨i, hi, hw⟩ := List.mem_flatMap.1 h
  rw [one, List.mem_singleton] at hw
  exact ⟨i, List.mem_range.1 hi, by rw [hw]⟩

/-- Each of them is read at the end of the position. -/
theorem SeqCore.rP_stageWrites (q : SeqCore) (v : Nat → Bool) {n k : Nat} (hn : n ≤ 8) (hk : k < n) :
    ((stageWrites v n).foldl SeqCore.issue q).endPos.rP (56 + k) = v k := by
  induction n with
  | zero => omega
  | succ n ih =>
    rw [stageWrites_succ, List.foldl_append]
    by_cases h : k = n
    · subst h
      rw [SeqCore.rP_one _ _ _ (by omega)]
      cases v k <;> simp
    · have hother : ∀ w ∈ one (.p (56 + n)) (if v n then 1 else 0) 1, w.reg ≠ .p (56 + k) := by
        simp [one]
        omega
      rw [SeqCore.rP_endPos_issue _ _ _ hother, ih (by omega) (by omega)]

/-- Lower predicates, and the other registers, read what they do where nothing is issued. -/
theorem SeqCore.stageWrites_others (q : SeqCore) (v : Nat → Bool) (n : Nat) :
    (∀ k, ((stageWrites v n).foldl SeqCore.issue q).endPos.rS k = q.endPos.rS k)
    ∧ ∀ k, k < 56 → ((stageWrites v n).foldl SeqCore.issue q).endPos.rP k = q.endPos.rP k := by
  refine ⟨fun k => (SeqCore.reads_s k).endPos_issue _ q fun w hw => ?_, fun k hk => SeqCore.rP_endPos_issue _ q k fun w hw => ?_⟩
  · obtain ⟨i, -, h⟩ := mem_stageWrites hw
    rw [h]
    exact nofun
  · obtain ⟨i, -, h⟩ := mem_stageWrites hw
    rw [h]
    intro he
    have := RegId.p.inj he
    omega

/-! ## LSETUP (R128) -/

theorem SeqCore.lsetup_facts (q : SeqCore) {n : Nat} (stages : Nat) (count : BitVec 32) (head : BitVec 18) (hn : n < 4) :
    (q.lsetup n stages count head).loop n = { count := count, pass := 0, head := head, stages := BitVec.ofNat 3 stages }
    ∧ (∀ m, m < 4 → m ≠ n → (q.lsetup n stages count head).loop m = if stages = 0 then q.loop m else { q.loop m with stages := 0 })
    ∧ (q.lsetup n stages count head).stageOwn = if stages = 0 then q.stageOwn else BitVec.ofNat 3 (4 + n) := by
  unfold SeqCore.lsetup
  refine ⟨?_, fun m hm hne => ?_, ?_⟩
  · rw [SeqCore.loop_setLoop _ _ hn hn, if_pos rfl]
  · rw [SeqCore.loop_setLoop _ _ hn hm, if_neg hne]
    split
    next => rfl
    next =>
      unfold SeqCore.loop
      split <;> rfl
  · rw [SeqCore.setLoop_rest]
    split <;> rfl

/-- LSETUP leaves the registers alone but for the loops and the stage owner. -/
theorem SeqCore.lsetup_rest (q : SeqCore) (n stages : Nat) (count : BitVec 32) (head : BitVec 18) :
    (q.lsetup n stages count head).rS = q.rS ∧ (q.lsetup n stages count head).rP = q.rP := by
  unfold SeqCore.lsetup
  rw [SeqCore.setLoop_rest]
  split <;> exact ⟨rfl, rfl⟩

/-- What LSETUP makes of p56 to p63 for S > 1: p56 is set where the count is not 0. -/
def setupStage (count : BitVec 32) (i : Nat) : Bool := decide (i = 0 ∧ 0 < count.toNat)

/-- LSETUP of a record's loop n. -/
def Rec.lsetup (n stages : Nat) (count : BitVec 32) (head : BitVec 18) (x : Rec) : Rec := { x with core := x.core.lsetup n stages count head }

theorem fxLsetup_ok (s : State) (g loop stages a : Nat) : fxLsetup g loop stages a s.senv s = .ok (s, {
    set := Rec.lsetup loop stages ((s.core.rS a).setWidth 32) s.nextPc
    writes := stageWrites (setupStage ((s.core.rS a).setWidth 32)) (if stages = 0 then 0 else 8) }) := by
  have hws : stageWrites (setupStage ((s.core.rS a).setWidth 32)) (if stages = 0 then 0 else 8)
      = if stages = 0 then [] else (List.range 8).flatMap (fun i =>
          one (.p (56 + i)) (if i = 0 ∧ 0 < ((s.core.rS a).setWidth 32 : BitVec 32).toNat then 1 else 0) 1) := by
    split
    next => rfl
    next => simp only [stageWrites, setupStage, decide_eq_true_eq]
  rw [hws]
  rfl

/-- The operand of an LSETUP or a LEND that names a loop has two bits (R128, R129). -/
theorem loopRows_field : (∀ row ∈ SlotKind.scalar.rows, row.op = 0x2e → row.fields[1]? = some ⟨12, 2, .any, .num⟩)
    ∧ ∀ row ∈ SlotKind.na.rows, row.op = 5 → row.fields[0]? = some ⟨18, 2, .any, .num⟩ := by
  decide +kernel

theorem lsetup_loop_lt {g loop stages a : Nat} (h : Raw.legal ⟨.scalar, 0x2e, [g, loop, stages, a]⟩ = true) : loop < 4 := by
  obtain ⟨row, hrow, -, hop, hok, -⟩ := Raw.legal_row h
  exact operand_lt hok (loopRows_field.1 row (rowOf_some hrow).1 hop) (by decide)

theorem lend_loop_lt {loop off : Nat} (h : Raw.legal ⟨.na, 5, [loop, off]⟩ = true) : loop < 4 := by
  obtain ⟨row, hrow, -, hop, hok, -⟩ := Raw.legal_row h
  exact operand_lt hok (loopRows_field.2 row (rowOf_some hrow).1 hop) (by decide)

/-- LSETUP, where its guard holds. -/
theorem State.lsetup_leaves (s : State) {g loop stages a : Nat} {r : Raw} (hr : (Instr.lsetup g loop stages a).raw = some r) (hi : s.canIssue)
    (hp : s.passes r) (hg : s.core.holds g = true) :
    ∃ t ws, exec (.lsetup g loop stages a) s = .next t
      ∧ t = s.wordDone r (fun x => (x.issued ws).lsetup loop stages ((s.core.rS a).setWidth 32) s.nextPc) s.nextPc
      ∧ ws = stageWrites (setupStage ((s.core.rS a).setWidth 32)) (if stages = 0 then 0 else 8) := by
  cases hr
  exact ⟨_, _, s.issueSlot_around (m := id) (n := none) (fin := id) hi hp (.inl rfl) (slotActs_of_holds hg) rfl rfl (fxLsetup_ok s g loop stages a), rfl, rfl⟩

/-! ## LEND (R129) -/

/-- p56 to p63 as LEND of loop n rotates them. -/
def SeqCore.rotated (q : SeqCore) (n : Nat) : Nat → Bool
  | 0 => decide (1 < (q.loop n).count.toNat)
  | i + 1 => q.rP (56 + i)

/-- One more pass is due after LEND of loop n. -/
def SeqCore.goesRound (q : SeqCore) (n : Nat) : Bool :=
  if (q.loop n).stages = 0 then decide (1 < (q.loop n).count.toNat)
  else (List.range ((q.loop n).stages.toNat + 1)).any (q.rotated n)

/-- A count that is not 0 goes down by one. -/
theorem count_down (c : BitVec 32) : (if 1 < c.toNat then c - 1 else 0) = c - (if c = 0 then 0 else 1)
    ∧ (if 0 < c.toNat then c - 1 else 0) = c - (if c = 0 then 0 else 1) := by
  by_cases h0 : c = 0
  · subst h0
    exact ⟨rfl, rfl⟩
  · have hpos : 0 < c.toNat := Nat.pos_of_ne_zero fun h => h0 (BitVec.eq_of_toNat_eq h)
    rw [if_neg h0, if_pos hpos]
    refine ⟨?_, rfl⟩
    split
    next => rfl
    next h =>
      have hone : c = 1 := BitVec.eq_of_toNat_eq (show c.toNat = 1 by omega)
      rw [hone]
      rfl

theorem SeqCore.lend_loop (q : SeqCore) (n : Nat) : (q.lend n).1.pass = (q.loop n).pass + 1
    ∧ (q.lend n).1.count = (q.loop n).count - (if (q.loop n).count = 0 then 0 else 1) := by
  obtain ⟨hsingle, hstages⟩ := count_down (q.loop n).count
  unfold SeqCore.lend
  dsimp only
  split
  · rw [← hsingle]
    split <;> exact ⟨rfl, rfl⟩
  · exact ⟨rfl, hstages⟩

theorem SeqCore.lend_rest (q : SeqCore) (n : Nat) :
    (q.lend n).2 = (q.goesRound n, if (q.loop n).stages = 0 then none else some ((List.range 8).map (q.rotated n))) := by
  have hbits : decide (1 < (q.loop n).count.toNat) :: (List.range 7).map (fun i => q.rP (56 + i)) = (List.range 8).map (q.rotated n) := rfl
  have hlt := (q.loop n).stages.isLt
  unfold SeqCore.lend SeqCore.goesRound
  dsimp only
  rw [hbits]
  by_cases hs : (q.loop n).stages = 0
  · rw [if_pos hs, if_pos hs, if_pos hs]
    split
    next h => simp [h]
    next h => simp [h]
  · rw [if_neg hs, if_neg hs, if_neg hs, ← List.map_take, List.take_range, Nat.min_eq_left (by omega), List.any_map]
    rfl

/-- Setting dies changes a record's dies alone. -/
theorem Rec.foldl_setDie (f : Rec → Nat → DieCtx) (ds : List Nat) (x : Rec) :
    ds.foldl (fun x d => x.setDie d (f x d)) x = { x with dies := (ds.foldl (fun x d => x.setDie d (f x d)) x).dies } := by
  induction ds generalizing x with
  | nil => rfl
  | cons d ds ih => exact (ih _).trans rfl

/-- What LEND does last changes the dies of its record alone. -/
def OnlyDies (c : Nat) (fin : State → State) : Prop :=
  ∀ u : State, ∃ ds, fin u = u.setRec c { u.rc c with dies := ds }

theorem OnlyDies.leaves {c : Nat} {fin : State → State} (h : OnlyDies c fin) (u : State) (hl : c < u.recs.length) :
    (fin u).mem = u.mem ∧ (fin u).sel = u.sel ∧ ((fin u).rc c).core = (u.rc c).core ∧ ∀ k, k ≠ c → (fin u).rc k = u.rc k := by
  obtain ⟨ds, hds⟩ := h u
  rw [hds]
  exact ⟨rfl, rfl, by rw [u.rc_setRec_self c _ hl], fun k hk => u.rc_setRec_ne c k _ hk⟩

/-- What LEND of loop n writes of it, as l has it: COUNT and PASS. -/
def Rec.lend (n : Nat) (l : Loop) (x : Rec) : Rec :=
  { x with core := x.core.setLoop n { x.core.loop n with count := l.count, pass := l.pass } }

/-- No debug stop is set at a loop (R441). -/
theorem Rec.debugStop_none {x : Rec} (hbps : x.bps.all (fun b => !tbit b 63) = true) (hstep : x.dbgctl.getLsbD 2 = false) (n : Nat) (l : Loop) :
    x.debugStop n l = none := by
  have hoff : ∀ i, tbit (x.bps.getD i 0) 63 = false := fun i => by
    rw [List.getD_eq_getElem?_getD]
    cases h : x.bps[i]? with
    | none => rfl
    | some b => simpa using List.all_eq_true.1 hbps b (List.mem_of_getElem? h)
  unfold Rec.debugStop
  dsimp only
  rw [List.find?_eq_none.2 fun i _ => by simp only [hoff, Bool.false_and]; exact Bool.false_ne_true]
  exact if_neg fun h => Bool.false_ne_true (hstep.symm.trans h.1)

/-- The meaning of LEND in a context with no debug stop at its loop. -/
theorem fxLend_ok (s : State) (loop off : Nat) (hstop : ∀ l, s.me.debugStop loop l = none) : ∃ m fin, fxLend loop off s.senv s = .ok (s, {
      npc := some (if s.core.goesRound loop then s.pcPlus off 18 else s.nextPc)
      writes := stageWrites (s.core.rotated loop) (if (s.core.loop loop).stages = 0 then 0 else 8)
      set := Rec.lend loop (s.core.lend loop).1
      mem := m, fin := fin }) ∧ (∃ k, m s = { s with nextId := k }) ∧ OnlyDies s.sel fin := by
  have hrest := s.core.lend_rest loop
  generalize hlend : s.core.lend loop = x at *
  obtain ⟨l, again, ps⟩ := x
  obtain ⟨rfl, hps⟩ := Prod.mk.inj hrest
  have hws : stageWrites (s.core.rotated loop) (if (s.core.loop loop).stages = 0 then 0 else 8)
      = (ps.map fun ps => ps.zipIdx.flatMap fun b => one (.p (56 + b.2)) (if b.1 then 1 else 0) 1).getD [] := by
    rw [hps]
    split <;> rfl
  have hlend' : s.senv.q.lend loop = (l, s.core.goesRound loop, ps) := hlend
  have hstop' : s.senv.rc.debugStop loop l = none := hstop l
  rw [hws]
  unfold fxLend
  dsimp only
  rw [hlend']
  dsimp only
  rw [hstop']
  refine ⟨fun u => if s.core.goesRound loop then u else { u with nextId := u.nextId + 1 },
    fun u => if s.core.goesRound loop then u else u.tagSnapshot s.sel loop l.pass s.nextId, ?_, ?_, fun u => ?_⟩
  · cases ps <;> rfl
  · split
    next => exact ⟨s.nextId, rfl⟩
    next => exact ⟨s.nextId + 1, rfl⟩
  · split
    next => exact ⟨_, (u.updRec_id' s.sel).symm⟩
    next => exact ⟨_, congrArg (u.setRec s.sel) (Rec.foldl_setDie _ _ _)⟩

/-- What the word of a LEND leaves: its record changes as the word says, but for what its dies are told. -/
theorem State.lend_leaves (s : State) {loop off : Nat} {r : Raw} (hr : (Instr.lend loop off).raw = some r) (hi : s.canIssue) (hp : s.passes r)
    (hstop : ∀ l, s.me.debugStop loop l = none) : ∃ t ws npc, exec (.lend loop off) s = .next t ∧ SameMemory s t ∧ SameRecords s t s.sel
      ∧ t.core = (s.wordDone r (fun x => (x.issued ws).lend loop (s.core.lend loop).1) npc).core
      ∧ ws = stageWrites (s.core.rotated loop) (if (s.core.loop loop).stages = 0 then 0 else 8)
      ∧ npc = if s.core.goesRound loop then s.pcPlus off 18 else s.nextPc := by
  obtain ⟨m, fin, hfx, ⟨k, hm⟩, hfin⟩ := fxLend_ok s loop off hstop
  cases hr
  have hl := s.rc_lt s.sel hi.2.1
  have hexec := s.issueSlot_around hi hp (.inr ⟨rfl, nofun⟩) rfl (by rw [hm]) (by rw [hm]) hfx
  rw [hm] at hexec
  obtain ⟨hmem, hsel, hcore, hothers⟩ := hfin.leaves _ ((State.updRec_length { s with nextId := k } s.sel _).symm ▸ hl)
  refine ⟨_, _, _, hexec, fun x => congrArg (memGet · x) hmem, fun c hc => (hothers c hc).trans (State.rc_updRec_ne { s with nextId := k } _ _ _ hc), ?_, rfl, rfl⟩
  exact (congrArg (fun c => (State.rc _ c).core) hsel).trans hcore

/-! ## What the loops' words leave -/

theorem SeqCore.loop_withPc (q : SeqCore) (pc : BitVec 18) (w : Word) : SeqCore.loop { q with pc := pc, sstat := w } = q.loop := by
  funext n
  unfold SeqCore.loop
  split <;> rfl

/-- What the registers read after a position in which stage predicates are issued, unless c holds. -/
theorem SeqCore.afterStages {q x : SeqCore} {v : Nat → Bool} {c : Prop} [Decidable c] {ws : List Write}
    (hws : ws = stageWrites v (if c then 0 else 8)) (hq : (ws.foldl SeqCore.issue x).endPos = q) : (∀ n, q.rS n = x.endPos.rS n)
    ∧ (∀ n, n < 56 → q.rP n = x.endPos.rP n) ∧ (c → ∀ n, q.rP n = x.endPos.rP n) ∧ (¬ c → ∀ k, k < 8 → q.rP (56 + k) = v k) := by
  subst hq hws
  obtain ⟨hs, hp⟩ := x.stageWrites_others v (if c then 0 else 8)
  refine ⟨hs, hp, fun hc n => ?_, fun hc k hk => ?_⟩
  · rw [if_pos hc]
    rfl
  · rw [if_neg hc]
    exact x.rP_stageWrites v (Nat.le_refl 8) hk

/-- The state after an LSETUP. -/
theorem State.afterLsetup (s t : State) {r : Raw} {loop stages : Nat} {count : BitVec 32} {npc : BitVec 18} {ws : List Write} (hn : loop < 4)
    (hl : s.sel < s.recs.length) (hws : ws = stageWrites (setupStage count) (if stages = 0 then 0 else 8))
    (ht : t = s.wordDone r (fun x => (x.issued ws).lsetup loop stages count s.nextPc) npc) :
    t.core.loop loop = { count := count, pass := 0, head := s.nextPc, stages := BitVec.ofNat 3 stages }
    ∧ (∀ m, m < 4 → m ≠ loop → t.core.loop m = if stages = 0 then s.core.loop m else { s.core.loop m with stages := 0 })
    ∧ t.core.stageOwn = (if stages = 0 then s.core.stageOwn else BitVec.ofNat 3 (4 + loop))
    ∧ t.core.pc = npc ∧ (∀ n, t.core.rS n = s.core.endPos.rS n) ∧ (∀ n, n < 56 → t.core.rP n = s.core.endPos.rP n)
    ∧ ∀ k, k < 8 → t.core.rP (56 + k) = if stages = 0 then s.core.endPos.rP (56 + k) else setupStage count k := by
  obtain ⟨w, hcore⟩ := s.wordDone_core r (fun x => (x.issued ws).lsetup loop stages count s.nextPc) npc hl
  obtain ⟨q, hq⟩ : ∃ q, (s.me.issued ws).core = q := ⟨_, rfl⟩
  rw [← ht, Rec.lsetup, hq] at hcore
  obtain ⟨hs, hp, hkeep, hset⟩ := SeqCore.afterStages (x := s.core) hws hq
  obtain ⟨hloops, hown⟩ := s.me.issued_loops ws
  rw [hq] at hloops hown
  obtain ⟨hself, hothers, howner⟩ := q.lsetup_facts stages count s.nextPc hn
  obtain ⟨hrS, hrP⟩ := q.lsetup_rest loop stages count s.nextPc
  have hloop : t.core.loop = (q.lsetup loop stages count s.nextPc).loop := by rw [hcore, SeqCore.loop_withPc]
  have hts : t.core.rS = q.rS := (congrArg SeqCore.rS hcore).trans hrS
  have htp : t.core.rP = q.rP := (congrArg SeqCore.rP hcore).trans hrP
  refine ⟨by rw [hloop, hself], fun m hm hne => ?_, ?_, by rw [hcore], fun n => by rw [hts, hs], fun n hn => by rw [htp, hp n hn], fun k hk => ?_⟩
  · rw [hloop, hothers m hm hne, hloops]
    rfl
  · have hsame : t.core.stageOwn = (q.lsetup loop stages count s.nextPc).stageOwn := by rw [hcore]
    rw [hsame, howner, hown]
    rfl
  · rw [htp]
    split
    next hc => exact hkeep hc _
    next hc => exact hset hc k hk

/-- The state after a LEND. -/
theorem State.afterLend (s : State) {c : SeqCore} {r : Raw} {loop : Nat} {npc : BitVec 18} {ws : List Write} (hn : loop < 4)
    (hl : s.sel < s.recs.length) (hws : ws = stageWrites (s.core.rotated loop) (if (s.core.loop loop).stages = 0 then 0 else 8))
    (hc : c = (s.wordDone r (fun x => (x.issued ws).lend loop (s.core.lend loop).1) npc).core) :
    c.loop loop = { s.core.loop loop with count := (s.core.lend loop).1.count, pass := (s.core.lend loop).1.pass }
    ∧ (∀ m, m < 4 → m ≠ loop → c.loop m = s.core.loop m)
    ∧ c.pc = npc ∧ (∀ n, c.rS n = s.core.endPos.rS n) ∧ (∀ n, n < 56 → c.rP n = s.core.endPos.rP n)
    ∧ ((s.core.loop loop).stages = 0 → ∀ n, c.rP n = s.core.endPos.rP n)
    ∧ ((s.core.loop loop).stages ≠ 0 → ∀ k, k < 8 → c.rP (56 + k) = s.core.rotated loop k) := by
  obtain ⟨w, hcore⟩ := s.wordDone_core r (fun x => (x.issued ws).lend loop (s.core.lend loop).1) npc hl
  obtain ⟨q, hq⟩ : ∃ q, (s.me.issued ws).core = q := ⟨_, rfl⟩
  rw [← hc, Rec.lend, hq] at hcore
  obtain ⟨hs, hp, hkeep, hset⟩ := SeqCore.afterStages (x := s.core) hws hq
  obtain ⟨hloops, -⟩ := s.me.issued_loops ws
  rw [hq] at hloops
  have hloop : c.loop = (q.setLoop loop { q.loop loop with count := (s.core.lend loop).1.count, pass := (s.core.lend loop).1.pass }).loop := by
    rw [hcore, SeqCore.loop_withPc]
  have hregs : c.rS = q.rS ∧ c.rP = q.rP := by
    rw [hcore, SeqCore.setLoop_rest]
    exact ⟨rfl, rfl⟩
  obtain ⟨hts, htp⟩ := hregs
  refine ⟨?_, fun m hm hne => ?_, by rw [hcore], fun n => by rw [hts, hs], fun n hn => by rw [htp, hp n hn], fun h n => by rw [htp, hkeep h],
    fun h k hk => by rw [htp, hset h k hk]⟩
  · rw [hloop, SeqCore.loop_setLoop _ _ hn hn, if_pos rfl, hloops]
    rfl
  · rw [hloop, SeqCore.loop_setLoop _ _ hn hm, if_neg hne, hloops]
    rfl

end Sys2Proof.Machine

open Sys2Proof Sys2Proof.Machine in
/-- Settles O16: both words issue results of latency 1 for p56 to p63, or none, and change the loops once the position has ended. -/
theorem hardwareLoops : Obligations.HardwareLoops := by
  refine ⟨fun g loop stages a s r hr hi hp hg => ?_, fun loop off s r hr hi hp hbps hstep => ?_⟩
  · obtain ⟨t, ws, hexec, ht, hws⟩ := s.lsetup_leaves hr hi hp hg
    have hn : loop < 4 := by
      cases hr
      exact lsetup_loop_lt hp.1
    obtain ⟨hself, hothers, hown, hpc, hrS, hlow, hhigh⟩ := s.afterLsetup t hn (s.rc_lt s.sel hi.2.1) hws ht
    refine ⟨t, hexec, hself, hothers, hown, hpc, hrS, hlow, fun n hlo hhi => ?_, by rw [ht]; rfl, fun k hk => by rw [ht]; exact s.rc_updRec_ne _ _ _ hk,
      fun _ => by rw [ht]; rfl⟩
    obtain ⟨k, rfl⟩ := Nat.exists_eq_add_of_le hlo
    rw [hhigh k (by omega)]
    have hstage : setupStage ((s.core.rS a).setWidth 32) k = (56 + k == 56 && decide (0 < (s.core.rS a).toNat % 2 ^ 32)) := by
      simp [setupStage, beq_eq_decide]
    rw [hstage]
  · obtain ⟨t, ws, npc, hexec, hmem, hrecs, hcore, hws, hnpc⟩ := s.lend_leaves hr hi hp (Rec.debugStop_none hbps hstep loop)
    have hn : loop < 4 := by
      cases hr
      exact lend_loop_lt hp.1
    obtain ⟨hself, hothers, hpc, hrS, hlow, hsingle, hstages⟩ := s.afterLend hn (s.rc_lt s.sel hi.2.1) hws hcore
    obtain ⟨hpass, hcount⟩ := s.core.lend_loop loop
    refine ⟨t, hexec, by rw [hself, hpass], by rw [hself, hcount], by rw [hself], by rw [hself], hothers, hrS, hlow,
      fun h => ⟨fun n _ => hsingle h n, ?_⟩, fun h => ⟨hstages h 0 (by decide), fun n hlo hhi => ?_, ?_⟩, hmem, hrecs⟩
    · rw [hpc, hnpc, SeqCore.goesRound, if_pos h]
      simp only [decide_eq_true_eq]
    · obtain ⟨k, rfl⟩ := Nat.exists_eq_add_of_le hlo
      rw [show 57 + k = 56 + (k + 1) by omega, hstages h (k + 1) (by omega)]
      rfl
    · have hlt := (s.core.loop loop).stages.isLt
      have hround : s.core.goesRound loop = (List.range ((s.core.loop loop).stages.toNat + 1)).any (fun k => t.core.rP (56 + k)) := by
        rw [SeqCore.goesRound, if_neg h]
        rw [Bool.eq_iff_iff, List.any_eq_true, List.any_eq_true]
        refine exists_congr fun k => and_congr_right fun hk => ?_
        rw [hstages h k (by have := List.mem_range.1 hk; omega)]
      rw [hpc, hnpc, hround]
end

section
set_option Elab.async false

namespace Sys2Proof.Machine

/-! ## TRAP (R127, R429, R431) -/

/-- A trap entry taken after a word is one of the state before it, where the word leaves what the entry looks at. -/
theorem State.traps_of_after {s u t : State} {b : Rec} {code detail slot : Nat} {xpc : BitVec 18} {info : Option Nat}
    (h : u.traps t b code detail slot xpc info) (hsel : u.sel = s.sel) (hmem : u.mem = s.mem) (hothers : SameRecords s u s.sel)
    (hvec : u.me.xvec = s.me.xvec) (hinn : u.core.inn = s.core.inn) (hbufs : u.me.bufs = s.me.bufs) :
    s.traps t b code detail slot xpc info := by
  obtain ⟨hme, hinfo, hrecs, htrace⟩ := h
  rw [hvec, hinn] at hme
  rw [hbufs, hmem] at htrace
  rw [hsel] at hrecs
  exact ⟨hme, hinfo, fun k hk => (hrecs k hk).trans (hothers k hk), htrace⟩

/-- What a word that issues nothing leaves of its record. -/
theorem State.afterNothing (s : State) (r : Raw) (npc : BitVec 18) (hl : s.sel < s.recs.length) :
    (s.wordDone r (fun x => x.issued []) npc).me = s.wordRec r npc := by
  rw [s.wordDone_nothing]
  exact s.rc_setRec_self s.sel _ hl

/-- The code of a TRAP has 16 bits (R127). -/
theorem trapRow_field : ∀ row ∈ SlotKind.na.rows, row.op = 6 → row.fields[0]? = some ⟨0, 16, .any, .num⟩ := by
  decide +kernel

theorem trap_code_lt {code : Nat} (h : Raw.legal ⟨.na, 6, [code]⟩ = true) : code < 2 ^ 16 := by
  obtain ⟨row, hrow, -, hop, hok, -⟩ := Raw.legal_row h
  exact operand_lt hok (trapRow_field row (rowOf_some hrow).1 hop) (by decide)

/-- The word of a TRAP, and then the trap. -/
theorem State.exec_trap (s : State) {code : Nat} {r : Raw} (hr : (Instr.trap code).raw = some r) (hi : s.canIssue) (hp : s.passes r) :
    exec (.trap code) s = .next ((s.wordDone r (fun x => x.issued []) s.nextPc).takeTrap s.sel
      { code := cSWTRAP, detail := 0, slot := slNA, die := 0xFF, xin := s.core.inn, info := code, xpc := s.nextPc }) := by
  cases hr
  exact s.issueSlot_around (fx := fxTrap code) (m := id) (g := id) (ws := []) (n := none)
    (fin := fun u => u.takeTrap s.sel { code := cSWTRAP, detail := 0, slot := slNA, die := 0xFF, xin := s.core.inn, info := code, xpc := s.nextPc })
    hi hp (.inr ⟨rfl, nofun⟩) rfl rfl rfl rfl

end Sys2Proof.Machine

open Sys2Proof Sys2Proof.Machine in
/-- Settles O17: the trap is taken once the word is done, at the next PC. -/
theorem trapEnters : Obligations.TrapEnters := by
  intro code s r hr hi hp
  have hl := s.rc_lt s.sel hi.2.1
  have hme := s.afterNothing r s.nextPc hl
  rw [s.exec_trap hr hi hp]
  obtain ⟨u, hu⟩ : ∃ u, s.wordDone r (fun x => x.issued []) s.nextPc = u := ⟨_, rfl⟩
  have hsel : u.sel = s.sel := by rw [← hu]; rfl
  rw [hu] at hme ⊢
  have hact : u.me.hact = s.me.hact := by rw [hme]; rfl
  refine ⟨fun hh => ?_, fun hh => ?_⟩
  · have hlu : u.sel < u.recs.length := by
      rw [← hu]
      exact (State.updRec_length ..).symm ▸ hl
    have hcode : code ≠ noInfo := by
      cases hr
      have := trap_code_lt hp.1
      simp only [noInfo]
      omega
    have hinn : u.core.inn = s.core.inn := (congrArg (fun x => x.core.inn) hme).trans (s.wordRec_inn r s.nextPc).1
    have hpc : u.core.pc = s.nextPc := congrArg (fun x => x.core.pc) hme
    have htraps := u.takeTrap_traps cSWTRAP 0 slNA code hlu (hact.trans hh) (by decide) (by decide) (by decide)
    rw [if_neg hcode, hinn, hpc, hsel] at htraps
    refine ⟨_, rfl, State.traps_of_after htraps hsel ?_ ?_ (by rw [hme]; rfl) hinn (by rw [hme]; rfl)⟩
    · rw [← hu]
      rfl
    · rw [← hu]
      exact fun k hk => s.rc_updRec_ne _ _ _ hk
  · have hhact : (u.rc s.sel).hact = true := hsel ▸ hact.trans hh
    unfold State.takeTrap
    dsimp only
    rw [if_pos hhact]
    have hreports : u.reports = s.reports := by rw [← hu]; rfl
    rw [← hreports]
    rfl
end

section
set_option Elab.async false

namespace Sys2Proof.Machine

/-! ## HALT (R85, R125) -/

theorem SeqCore.endPos_idle (q : SeqCore) (h : q.fly = []) : q.endPos = q := by
  obtain ⟨⟩ := q
  cases h
  rfl

theorem SeqCore.repeat_idle (n : Nat) (q : SeqCore) (h : q.fly = []) : Nat.repeat SeqCore.endPos n q = q := by
  induction n with
  | zero => rfl
  | succ n ih => rw [Nat.repeat, ih, q.endPos_idle h]

theorem SeqCore.repeat_endPos (n : Nat) (q : SeqCore) : Nat.repeat SeqCore.endPos n q.endPos = (Nat.repeat SeqCore.endPos n q).endPos := by
  induction n with
  | zero => rfl
  | succ n ih => rw [Nat.repeat, ih, Nat.repeat]

/-- Landing what is in flight is letting as many positions end. -/
theorem SeqCore.drain_eq (n : Nat) (q : SeqCore) : SeqCore.drain n q = Nat.repeat SeqCore.endPos n q := by
  induction n generalizing q with
  | zero => rfl
  | succ n ih =>
    rw [SeqCore.drain]
    split
    next h => rw [SeqCore.repeat_idle _ q (List.isEmpty_iff.1 h)]
    next => rw [ih, SeqCore.repeat_endPos, Nat.repeat]

theorem SeqCore.drain_fly (n : Nat) (q : SeqCore) (h : ∀ f ∈ q.fly, f.rest < n) : (SeqCore.drain n q).fly = [] := by
  induction n generalizing q with
  | zero => exact List.eq_nil_iff_forall_not_mem.2 fun f hf => Nat.not_lt_zero _ (h f hf)
  | succ n ih =>
    rw [SeqCore.drain]
    split
    next hempty => exact List.isEmpty_iff.1 hempty
    next =>
      refine ih _ fun f hf => ?_
      rw [SeqCore.endPos_fly] at hf
      obtain ⟨f, hmem, rfl⟩ := List.mem_map.1 hf
      obtain ⟨hmem, hrest⟩ := List.mem_filter.1 hmem
      have := h f hmem
      simp only [decide_eq_true_eq] at hrest
      change f.rest - 1 < n
      omega

theorem SeqCore.drain_sameRest (n : Nat) (q : SeqCore) : q.SameRest (SeqCore.drain n q) := by
  induction n generalizing q with
  | zero => rfl
  | succ n ih =>
    rw [SeqCore.drain]
    split
    next => rfl
    next => exact q.endPos_sameRest.trans (ih _)

/-- Where every latency is at most 24, one position more lands nothing more. -/
theorem SeqCore.endPos_drained (q : SeqCore) (h : ∀ f ∈ q.fly, f.rest < 24) : q.endPos.drained = q.drained := by
  rw [SeqCore.drained, SeqCore.drain_eq, SeqCore.repeat_endPos, ← SeqCore.drain_eq, SeqCore.endPos_idle _ (q.drain_fly 24 h)]
  rfl

/-- The results in flight of a record land. -/
def Rec.landed (x : Rec) : Rec := { x with core := x.core.drained }

/-- A record becomes HALTED. -/
def Rec.halted (x : Rec) : Rec := { x with life := .halted }

/-- The word of a HALT, and then the halt. -/
theorem State.exec_halt (s : State) {r : Raw} (hr : Instr.halt.raw = some r) (hi : s.canIssue) (hp : s.passes r) :
    exec .halt s = .next ((s.wordDone r (fun x => (x.issued []).landed) s.nextPc).updRec s.sel Rec.halted) := by
  cases hr
  exact s.issueSlot_around (fx := fxHalt) (m := id) (g := Rec.landed) (ws := []) (n := some s.nextPc)
    (fin := fun u => u.updRec s.sel Rec.halted) hi hp (.inr ⟨rfl, nofun⟩) rfl rfl rfl rfl

/-- What a HALT leaves of the sequencer's registers. -/
theorem State.halted_core (s : State) (r : Raw) (hl : s.sel < s.recs.length) : ∃ w,
    ((s.wordDone r (fun x => (x.issued []).landed) s.nextPc).updRec s.sel Rec.halted).core
      = { s.core.endPos.drained with pc := s.nextPc, sstat := w } := by
  obtain ⟨w, hw⟩ := s.wordDone_core r (fun x => (x.issued []).landed) s.nextPc hl
  exact ⟨w, (congrArg Rec.core (State.rc_updRec_self _ s.sel _ ((State.updRec_length ..).symm ▸ hl))).trans hw⟩

/-- What a word makes of its record (R82, R109), as `State.wordDone` has it. -/
def Rec.worded (r : Raw) (f : Rec → Rec) (npc : BitVec 18) (x : Rec) : Rec :=
  let y := f x
  { y with core := { y.core with pc := npc, sstat := if readsPending x.core r then wbit y.core.sstat 0 true else y.core.sstat }
           wordcnt := y.wordcnt + 1
           notes := if readsPending x.core r then (y.note (.underwait x.core.inn none)).notes else y.notes }

theorem State.wordDone_eq (s : State) (r : Raw) (f : Rec → Rec) (npc : BitVec 18) : s.wordDone r f npc = s.updRec s.sel (Rec.worded r f npc) := rfl

/-- A HALT changes its record as an empty word does, but for its life and the results that land. -/
theorem State.halted_eq (s t : State) (r : Raw) (hl : s.sel < s.recs.length)
    (ht : t = (s.wordDone r (fun x => (x.issued []).landed) s.nextPc).updRec s.sel Rec.halted) :
    t = (s.wordDone r (fun x => x.issued []) s.nextPc).updRec s.sel (fun x => { x with life := .halted, core := t.core }) := by
  rw [s.wordDone_eq, State.updRec_updRec _ _ _ _ hl] at ht
  have hcore : t.core = (Rec.worded r (fun x => (x.issued []).landed) s.nextPc s.me).core := by
    have hself : t.me = (Rec.worded r (fun x => (x.issued []).landed) s.nextPc s.me).halted := by
      rw [ht]
      exact s.rc_updRec_self s.sel (fun x => (Rec.worded r (fun x => (x.issued []).landed) s.nextPc x).halted) hl
    rw [State.core, hself]
    rfl
  rw [s.wordDone_eq, State.updRec_updRec _ _ _ _ hl, hcore, ht]
  rfl

/-! ## IDLE (R125, R359) -/

/-- Writing a message changes memory alone. -/
theorem State.pokes_only (k : Nat) (ps : List (Nat × Nat)) (s : State) : ∃ m p,
    ps.foldl (fun (s : State) (p : Nat × Nat) => s.poke (k + 8 * p.2) 8 p.1) s = { s with mem := m, poison := p } := by
  induction ps generalizing s with
  | nil => exact ⟨s.mem, s.poison, rfl⟩
  | cons p ps ih =>
    obtain ⟨m, q, h⟩ := ih (s.poke (k + 8 * p.2) 8 p.1)
    exact ⟨m, q, h⟩

theorem State.updRec_same (s : State) (c : Nat) (f : Rec → Rec) (h : f (s.rc c) = s.rc c) : s.updRec c f = s :=
  (congrArg (s.setRec c) h).trans (s.updRec_id' c)

/-- A context that is READY and logs nothing goes on past IDLE: the message is read and put back, and the context has acquired (R322). -/
theorem State.resumeIdle_only (s : State) (m : Nat) (hlog : s.noLog) (hready : s.me.life = .ready) :
    ∃ mem poison pts, s.resumeIdle s.sel m = { s with mem := mem, poison := poison, pts := pts } := by
  obtain ⟨mem, poison, hpokes⟩ := State.pokes_only (mbxMsg s.sel m)
    ((List.range 8).map (fun i => memRead s.mem (mbxMsg s.sel m + 8 * i) 8)).zipIdx s
  refine ⟨mem, poison, (State.timePasses { s with mem := mem, poison := poison } s.sel none).pts, ?_⟩
  unfold State.resumeIdle
  dsimp only
  rw [s.logged_noLog hlog]
  dsimp only
  rw [hpokes]
  refine State.updRec_same _ _ _ ?_
  change { s.me with life := Life.ready } = s.me
  rw [← hready]

/-- The word of an IDLE, and then what the mailbox decides. -/
theorem State.exec_idle (s : State) {m : Nat} {r : Raw} (hr : (Instr.idle m).raw = some r) (hi : s.canIssue) (hp : s.passes r) :
    exec (.idle m) s = .next (if (s.mbx.getD s.sel 0).getLsbD m then (s.wordDone r (fun x => x.issued []) s.nextPc).resumeIdle s.sel m
      else (s.wordDone r (fun x => x.issued []) s.nextPc).updRec s.sel (fun x => { x with life := .waiting (.idle m) })) := by
  cases hr
  exact s.issueSlot_around (fx := fxIdle m) (m := id) (g := id) (ws := []) (n := some s.nextPc)
    (fin := fun u => if (u.mbx.getD s.sel 0).getLsbD m then u.resumeIdle s.sel m else u.updRec s.sel (fun x => { x with life := .waiting (.idle m) }))
    hi hp (.inr ⟨rfl, nofun⟩) rfl rfl rfl rfl

end Sys2Proof.Machine

open Sys2Proof Sys2Proof.Machine in
/-- Settles O19: HALT lands the results before the context halts; IDLE asks the mailbox once the word is done. -/
theorem haltAndIdle : Obligations.HaltAndIdle := by
  refine ⟨fun s r hr hi hp hfly => ?_, fun m s r hr hi hp => ⟨fun hm => ?_, fun hm hlog => ?_⟩⟩
  · have hl := s.rc_lt s.sel hi.2.1
    obtain ⟨w, hcore⟩ := s.halted_core r hl
    rw [s.core.endPos_drained hfly] at hcore
    refine ⟨_, s.exec_halt hr hi hp, s.halted_eq _ r hl rfl, ?_, ?_, ?_, ?_⟩
    · rw [hcore]
      exact s.core.drain_fly 24 hfly
    · rw [hcore]
    · have hinn : s.core.drained.inn = s.core.inn := by rw [SeqCore.drained, s.core.drain_sameRest 24]
      rw [hcore, hinn]
    · have hdrained : s.core.drained = Nat.repeat SeqCore.endPos 24 s.core := s.core.drain_eq 24
      rw [hcore, ← hdrained]
      exact fun n => ⟨rfl, rfl⟩
  · rw [s.exec_idle hr hi hp, if_neg (hm ▸ Bool.false_ne_true)]
  · obtain ⟨u, hu⟩ : ∃ u, s.wordDone r (fun x => x.issued []) s.nextPc = u := ⟨_, rfl⟩
    have hsel : u.sel = s.sel := by rw [← hu]; rfl
    have hme : u.me = s.wordRec r s.nextPc := hu ▸ s.afterNothing r s.nextPc (s.rc_lt s.sel hi.2.1)
    have hlog' : u.noLog := by
      rw [State.noLog, hme]
      exact hlog
    have hready : u.me.life = .ready := (congrArg Rec.life hme).trans hi.2.2.1
    have hmemory : u.mem = s.mem := by rw [← hu]; rfl
    rw [s.exec_idle hr hi hp, if_pos hm, hu, ← hsel]
    obtain ⟨-, -, hsame, -⟩ := u.resumeIdle_noLog m hlog' (by rw [hsel, ← hu]; exact (State.updRec_length ..).symm ▸ s.rc_lt s.sel hi.2.1)
    obtain ⟨mem, poison, pts, honly⟩ := u.resumeIdle_only m hlog' hready
    refine ⟨_, rfl, fun x => (hsame x).trans (by rw [hmemory]), ?_⟩
    generalize u.resumeIdle u.sel m = t at honly ⊢
    rw [honly]
end

section
set_option Elab.async false

namespace Sys2Proof.Machine

/-! ## Loads of the sequencer (R109, R302): a state that refutes the statement -/

/-- A value of s3, marked for unit 5, lands at the end of this position. A sequencer register has unit 0 alone: the load drops what is in flight
for that unit, and `SeqCore.put` writes the register whatever the unit is. -/
def strayLanding : State :=
  Tests.S1.updRec 0 (fun x => { x with core := { x.core with
    fly := [{ reg := .s 3, vals := [(5, 77)], flags := 0, ein := 0, rest := 0, op := none }] } })

/-- LDG.D s3, [s1]. -/
def strayLoad : Instr := .ldgD .relaxed .device 0 3 1

def strayRaw : Raw := ⟨.mem, 131, [0, 3, 0, 3, 1]⟩

/-- What an outcome that goes on leaves in s3. -/
def s3After : Host.Outcome State Fault Refusal → Option Word
  | .next t => some (t.core.rS 3)
  | _ => none

theorem strayLoad_raw : strayLoad.raw = some strayRaw := by decide +kernel

theorem strayLoad_meets : strayLanding.canIssue ∧ strayLanding.passes strayRaw := Tests.wordOk_meets (by decide +kernel)

/-- The access of that load passes its checks. -/
theorem strayLoad_ok : ∃ s' b, seqLoad strayLanding strayLoad = some (.relaxed, .device, 0, .s 3, .ok (s', b)) := by
  have hok : (strayLanding.seqPart (strayLanding.core.rS 1) 8 .cohLoad .load 0).toOption.isSome = true := by decide +kernel
  cases h : strayLanding.seqPart (strayLanding.core.rS 1) 8 .cohLoad .load 0 with
  | error f =>
    rw [h] at hok
    cases hok
  | ok x => exact ⟨x.1, x.2, congrArg (fun o => some (Ord.relaxed, Scope.device, 0, RegId.s 3, o)) h⟩

/-- The register receives 77 at the end of the load's word; it held 0. -/
theorem strayLoad_changes_s3 : s3After (exec strayLoad strayLanding) = some 77 ∧ strayLanding.core.rS 3 = 0 := by
  decide +kernel

end Sys2Proof.Machine

open Sys2Proof Sys2Proof.Machine in
/-- Refutes O24: a result in flight for a unit that a sequencer register does not have lands in the destination while the load holds it pending. -/
theorem not_seqLoadsEnter : ¬ Obligations.SeqLoadsEnter := by
  rintro ⟨hloads, -⟩
  obtain ⟨s', b, hload⟩ := strayLoad_ok
  obtain ⟨hi, hp⟩ := strayLoad_meets
  obtain ⟨t, hexec, -, ⟨-, -, -, -, -, -, hold, -⟩, -⟩ := hloads _ _ s' _ _ _ _ _ b strayLoad_raw hload hi hp
  obtain ⟨hafter, hbefore⟩ := strayLoad_changes_s3
  have hkept : t.core.rS 3 = 0 := (hold 3 rfl).trans hbefore
  rw [hexec, s3After, hkept] at hafter
  exact absurd hafter (by decide)
end

section
set_option Elab.async false

namespace Sys2Proof.Machine

/-! ## The cell control page (R138 to R140): a state that refutes the statement -/

/-- x1 of cell 0 holds the address of CST, and a value of x2, marked for unit 5, lands at the end of this position. The slots of the model give an x
register unit 0 alone, and that is the unit that LDX clears of results in flight (R84); `CellCore.put` writes the register whatever the unit is. -/
def strayCellLanding : State :=
  (Tests.atX Tests.S0 1 ctlPage).updCore 0 0 0 (fun q =>
    { q with fly := [{ reg := .x 2, vals := [(5, 77)], flags := 0, ein := 0, rest := 0, op := none }] })

/-- The slot of LDX x2, [x1]. -/
def strayCtlRaw : Raw := ⟨.ls, 7, [0, 0, 2, 1, 3, 3, 0]⟩

/-- What an outcome that goes on leaves in x2 of cell 0. -/
def x2After : Host.Outcome State Fault Refusal → Option Word
  | .next t => some ((t.at 0).core.rX 2)
  | _ => none

theorem strayCtlLoad_canBundle : strayCellLanding.canBundle strayCtlRaw := Tests.bundleOk_meets (by decide +kernel)

/-- The load acts in cell 0 alone, on the control page, and reads CST, which is 0. -/
theorem strayCtlLoad_meets : strayCellLanding.myCells = [0] ∧ strayCellLanding.lanesOf strayCtlRaw 0 ≠ []
    ∧ inCtlPage ((strayCellLanding.env strayCtlRaw 0).at12 1 0) = true
    ∧ (strayCellLanding.env strayCtlRaw 0).ctlRead ((strayCellLanding.env strayCtlRaw 0).at12 1 0 - ctlPage) = some 0 := by
  decide +kernel

/-- The register receives 77 at the end of the load's bundle; it held 0. -/
theorem strayCtlLoad_changes_x2 : x2After (exec (.ldx 0 false 2 1 3 3 0) strayCellLanding) = some 77 ∧ (strayCellLanding.at 0).core.rX 2 = 0 := by
  decide +kernel

end Sys2Proof.Machine

open Sys2Proof Sys2Proof.Machine in
/-- Refutes O38: a result in flight for a unit that an x register does not have lands in the destination while the control-page load holds it pending. -/
theorem not_controlPage : ¬ Obligations.ControlPage := by
  rintro ⟨hloads, -⟩
  obtain ⟨hcells, hlanes, hpage, hread⟩ := strayCtlLoad_meets
  obtain ⟨t, hexec, -, hold, -⟩ := hloads 0 2 1 3 0 false _ _ 0 0 (rfl : (Instr.ldx 0 false 2 1 3 3 0).raw = some strayCtlRaw) strayCtlLoad_canBundle hcells hlanes hpage hread
  obtain ⟨hafter, hbefore⟩ := strayCtlLoad_changes_x2
  have hkept : (t.at 0).core.rX 2 = 0 := hold.trans hbefore
  rw [hexec, x2After, hkept] at hafter
  exact absurd hafter (by decide)
end

section
set_option Elab.async false

namespace Sys2Proof.Machine

/-! ## O37: a mark without units -/

/-- A value of x5 lands at the end of this position for operation 7, which is live in unit 0 of x5, in a mark that holds no unit marked. Whatever a slot
marks, `pendClear` drops every mark without a marked unit. -/
def emptyMark : State :=
  Tests.S0.updCore 0 0 0 (fun q =>
    { q with fly := [{ reg := .x 5, vals := [(0, 77)], flags := 0, ein := 0, rest := 0, op := some 7 }]
             pend := [{ op := 7, reg := .x 5, marked := [], live := [0] }] })

/-- The slot of TAKE x2, tk3. -/
def emptyMarkRaw : Raw := ⟨.ls, 0x40, [0, 2, 3, 0]⟩

/-- What an outcome that goes on leaves in x5 of cell 0. -/
def x5After : Host.Outcome State Fault Refusal → Option Word
  | .next t => some ((t.at 0).core.rX 5)
  | _ => none

theorem emptyMark_canBundle : emptyMark.canBundle emptyMarkRaw := Tests.bundleOk_meets (by decide +kernel)

theorem emptyMark_meets : emptyMark.myCells = [0] ∧ emptyMark.lanesOf emptyMarkRaw 0 ≠ [] := by
  decide +kernel

/-- x5 would receive 77 at the end of the position; after the bundle of TAKE it holds 0. -/
theorem emptyMark_changes_x5 : x5After (exec (.take 0 2 3 0) emptyMark) = some 0 ∧ (emptyMark.at 0).core.endPos.rX 5 = 77 := by
  decide +kernel

end Sys2Proof.Machine

open Sys2Proof Sys2Proof.Machine in
/-- Refutes O37: a mark without a marked unit is dropped by the next mark, so that a result in flight of its operation no longer lands in a register
that the slot does not name. -/
theorem not_cellOperationsEnter : ¬ Obligations.CellOperationsEnter := by
  rintro ⟨henters, -⟩
  obtain ⟨hcells, hlanes⟩ := emptyMark_meets
  have hmem : 0 ∈ emptyMark.myCells := by rw [hcells]; exact List.mem_singleton.2 rfl
  obtain ⟨t, hexec, -, -, hacts, -⟩ := henters (.take 0 2 3 0) emptyMark emptyMarkRaw (fun _ => heldCellOp (some (.x 2)) (.take 0) .device) rfl rfl
    emptyMark_canBundle (fun _ _ _ => rfl)
  obtain ⟨-, -, -, hx, -⟩ := hacts 0 hmem hlanes
  obtain ⟨hafter, hlands⟩ := emptyMark_changes_x5
  have hkept : (t.at 0).core.rX 5 = 77 := (hx 5 (by decide)).trans hlands
  rw [hexec, x5After, hkept] at hafter
  exact absurd hafter (by decide)

end

section
set_option Elab.async false

namespace Sys2Proof.Machine

/-! ## A bundle of one slot, cell by cell

Each active cell acts under an id of its own, which its operation takes (R81, R396). -/

/-- What a bundle of one slot leaves in cell l: its registers, and the operation that its slot enters under the same id. -/
def State.actsUnder (s : State) (r : Raw) (F : Nat → CellFx) (t : State) (l id : Nat) : Prop :=
  t.cell s.sel s.selDie l = (s.at l).afterBundle [s.laneFx r F l] id (s.underwaits r l) (popsEntry r)
  ∧ ∀ q, (s.laneFx r F l).req = some q → { q with id := id } ∈ (t.rc s.sel).reqs

theorem State.cellActs_dies (t : State) (c d l : Nat) (f : CellFx) (uw pop : Bool) (h : ∀ q, f.req = some q → q.isCmd = false) :
    (t.cellActs c d l [f] uw pop).dies = t.dies := by
  cases hf : f.req with
  | none => rw [t.cellActs_none c d l f uw pop hf]; rfl
  | some q =>
    have hq := h q hf
    rw [t.cellActs_some c d l f q uw pop hf]
    change (State.claimCmd _ c q).dies = _
    unfold State.claimCmd
    split
    · rename_i hbody
      simp [Req.isCmd, hbody] at hq
    · rfl

/-- The effects of one slot in one cell: its registers, its operation, the next id, and no change to the dies where it is no command. -/
theorem State.cellEffects_one (t : State) (c d l : Nat) (ein : BitVec 48) (f : CellFx) (uw em pop : Bool) (hc : c < t.recs.length) :
    let u := t.cellEffects c d l ein [f] uw em pop
    u.cell c d l = (t.cell c d l).afterBundle [f] t.nextId uw pop
    ∧ (∀ q, f.req = some q → { q with id := t.nextId } ∈ (u.rc c).reqs)
    ∧ t.nextId ≤ u.nextId ∧ u.recs.length = t.recs.length
    ∧ ((∀ q, f.req = some q → q.isCmd = false) → u.dies = t.dies) := by
  have ha : SameButAhead c d t (t.updDctx c d (fun x => x.overtaken ein l ((x.cell l).landing ++ landingNow [f]))) :=
    t.updDctx_same _ _ _ hc (fun x => x.overtaken_settled _ _ _)
  have h0 := ha.trans (State.noteUnderwait_same _ c d l ein (uw || em) (by rw [ha.length]; exact hc))
  unfold State.cellEffects
  generalize State.noteUnderwait _ _ _ _ _ _ = t0 at h0
  have hrc := t0.cellActs_rc c d l f uw pop (by rw [h0.length]; exact hc)
  refine ⟨?_, fun q hq => ?_, ?_, (t0.cellActs_length ..).trans h0.length, fun hcmd => (t0.cellActs_dies _ _ _ _ _ _ hcmd).trans h0.dies⟩
  · have hdie : ((t0.cellActs c d l [f] uw pop).rc c).die d = ((t0.rc c).die d).setCell l ((t.cell c d l).afterBundle [f] t.nextId uw pop) := by
      rw [hrc, h0.cell, h0.nextId]
      exact Rec.die_setDie_self _ _ _
    change (((t0.cellActs c d l [f] uw pop).rc c).die d).cell l = _
    rw [hdie, DieCtx.cell_setCell_self]
  · rw [hrc, hq, h0.nextId]
    exact List.mem_append_right _ (List.mem_singleton.2 rfl)
  · rw [← h0.nextId]
    exact t0.cellActs_nextId ..

theorem State.lanesDone_enters (s : State) (r : Raw) (fx : SlotMeaning) (F : Nat → CellFx) : ∀ (ls : List Nat) (t : State), ls.Nodup →
    s.sel < t.recs.length → (∀ l ∈ ls, t.cell s.sel s.selDie l = s.at l) → s.nextId ≤ t.nextId →
    (∀ l ∈ ls, ∃ id, s.nextId ≤ id ∧ s.actsUnder r F (s.lanesDone r fx F t ls) l id)
    ∧ s.nextId ≤ (s.lanesDone r fx F t ls).nextId
    ∧ ((∀ l ∈ ls, ∀ q, (s.laneFx r F l).req = some q → q.isCmd = false) → (s.lanesDone r fx F t ls).dies = t.dies) := by
  intro ls
  induction ls with
  | nil => exact fun t _ _ _ hid => ⟨nofun, hid, fun _ => rfl⟩
  | cons k ls ih =>
    intro t hnodup hc hcells hid
    obtain ⟨hk, hnodup'⟩ := List.nodup_cons.1 hnodup
    obtain ⟨hcell, hreq, hnext, hlen, hdies⟩ := t.cellEffects_one s.sel s.selDie k s.myDie.e (s.laneFx r F k) (s.underwaits r k)
      (s.emptyReads r fx k) (popsEntry r) hc
    obtain ⟨-, -, -, -, -, hstand, -⟩ := s.lanesDone_facts r fx F [k] t (List.nodup_singleton k) hc
    have hfold : s.lanesDone r fx F t (k :: ls) = s.lanesDone r fx F (s.lanesDone r fx F t [k]) ls := rfl
    change (s.lanesDone r fx F t [k]).cell _ _ _ = _ at hcell
    change ∀ q, _ → _ ∈ ((s.lanesDone r fx F t [k]).rc s.sel).reqs at hreq
    change _ ≤ (s.lanesDone r fx F t [k]).nextId at hnext
    change (s.lanesDone r fx F t [k]).recs.length = _ at hlen
    change _ → (s.lanesDone r fx F t [k]).dies = _ at hdies
    rw [hfold]
    generalize s.lanesDone r fx F t [k] = u at *
    have hne : ∀ l ∈ ls, l ≠ k := fun l hl he => hk (he ▸ hl)
    obtain ⟨hacts, hnext', hdies'⟩ := ih u hnodup' (hlen ▸ hc)
      (fun l hl => (hstand l (by simpa using hne l hl)).trans (hcells l (List.mem_cons_of_mem _ hl))) (Nat.le_trans hid hnext)
    obtain ⟨-, -, -, -, -, hstand', -, hold, -⟩ := s.lanesDone_facts r fx F ls u hnodup' (hlen ▸ hc)
    refine ⟨fun l hl => ?_, hnext', fun h => (hdies' (fun l hl => h l (List.mem_cons_of_mem _ hl))).trans (hdies (h k (List.mem_cons_self ..)))⟩
    rcases List.mem_cons.1 hl with rfl | hl
    · refine ⟨t.nextId, hid, ?_, fun q hq => hold _ (hreq q hq)⟩
      rw [hstand' l hk, hcell, hcells l (List.mem_cons_self ..)]
    · exact hacts l hl

/-- The bundle as a whole leaves the active cells, the operations, the ids and the dies as the slot's effects left them. -/
theorem State.bundleDone_lanes (s : State) (r : Raw) (fx : SlotMeaning) (F : Nat → CellFx) (hc : s.sel < s.recs.length) :
    let t := s.lanesDone r fx F s s.myCells
    (∀ l ∈ s.myCells, (s.bundleDone r fx F).cell s.sel s.selDie l = t.cell s.sel s.selDie l)
    ∧ ((s.bundleDone r fx F).rc s.sel).reqs = (t.rc s.sel).reqs ∧ (s.bundleDone r fx F).nextId = t.nextId ∧ (s.bundleDone r fx F).dies = t.dies := by
  intro t
  have hlen : s.sel < t.recs.length := by
    obtain ⟨h, -⟩ := s.lanesDone_facts r fx F s.myCells s s.myCells_nodup hc
    exact h ▸ hc
  have hlen' : s.sel < (t.idleCells s.sel s.selDie s.myDie.e s.myCells).recs.length := by simpa [State.idleCells] using hlen
  have hd := State.discardAll_same s.sel s.selDie s.nextId s.myDie.e (fun l => s.myDie.rereads [r] s.myDie.e l) s.myCells _ hlen'
  have hdone : s.bundleDone r fx F = State.updDctx _ s.sel s.selDie (fun x => x.issued s.myDie.e (s.marksNow r)
    (gatedCount s s.sel s.selDie s.myCells [r]) (max 1 fx.positions) (fx.after (s.genv r))) := rfl
  rw [hdone]
  refine ⟨fun l hl => ?_, ?_, hd.nextId, hd.dies⟩
  · have hidle := t.idleCells_cell s.sel s.selDie l s.myDie.e s.myCells hlen
    rw [if_pos (by simpa using hl)] at hidle
    rw [← hidle, ← hd.cell s.selDie l]
    change (State.dctx _ s.sel s.selDie).cell l = _
    rw [State.dctx_updDctx_self _ _ _ _ (by rw [hd.length]; exact hlen')]
    rfl
  · rw [State.rc_updDctx_self _ _ _ _ (by rw [hd.length]; exact hlen')]
    change ((State.rc _ s.sel).reqs = _)
    rw [hd.reqs]
    change ((t.updDctx s.sel s.selDie _).rc s.sel).reqs = _
    rw [t.rc_updDctx_self _ _ _ hlen]
    rfl

/-- What the slot of a bundle enters: in each active cell its effects under the id of its operation; nothing of the dies changes but by a command. -/
structure BundleEnters (s : State) (r : Raw) (F : Nat → CellFx) (t : State) : Prop where
  acts : ∀ l ∈ s.myCells, ∃ id, s.nextId ≤ id ∧ s.actsUnder r F t l id
  ids : s.nextId ≤ t.nextId
  dies : (∀ l ∈ s.myCells, ∀ q, (s.laneFx r F l).req = some q → q.isCmd = false) → t.dies = s.dies

theorem State.bundleDone_enters (s : State) (r : Raw) (fx : SlotMeaning) (F : Nat → CellFx) (hc : s.sel < s.recs.length) :
    BundleEnters s r F (s.bundleDone r fx F) := by
  obtain ⟨hcells, hreqs, hid, hdies⟩ := s.bundleDone_lanes r fx F hc
  obtain ⟨hacts, hid', hdies'⟩ := s.lanesDone_enters r fx F s.myCells s s.myCells_nodup hc (fun _ _ => rfl) (Nat.le_refl _)
  refine ⟨fun l hl => ?_, hid ▸ hid', fun h => hdies.trans (hdies' h)⟩
  obtain ⟨id, hle, hcell, hreq⟩ := hacts l hl
  exact ⟨id, hle, (hcells l hl).trans hcell, fun q hq => hreqs ▸ hreq q hq⟩

/-- Issuing a bundle whose slot acts in the cells alone, which reads no empty line where UWTRAP is set. -/
theorem State.issueLane_acts (s : State) (r : Raw) (fx : SlotMeaning) (F : Nat → CellFx) (hc : s.canBundle r) (hfx : fx.CellsOnly)
    (hemp : ∀ l ∈ s.myCells, tbit (s.at l).core.cctl 8 = true → s.emptyReads r fx l = false)
    (hcell : ∀ l ∈ s.myCells, s.lanesOf r l ≠ [] ∨ movesCursor r = true → fx.cell (s.env r l) s = .ok (s, F l)) :
    ∃ t, s.issueLane r fx = .next t ∧ BundleLeaves s r { cell := fx.cell } F t ∧ BundleEnters s r F t := by
  have hl := s.bundleDone_leaves r fx F hc.sel_lt
  have hdie := hl.die
  rw [hfx] at hdie
  refine ⟨_, ?_, ⟨hl.mem, hl.sel, hl.selDie, hl.others, hl.rest, hl.far, hl.idle, hl.active, hl.old, hl.new, hl.none, hfx ▸ hdie⟩,
    s.bundleDone_enters r fx F hc.sel_lt⟩
  have hold : ((s.bundleDone r fx F).dctx s.sel s.selDie).hold = none := by
    have := hl.goesOn.1
    rw [hfx] at this ⊢
    exact this
  rw [hfx] at hcell hemp hold ⊢
  exact s.issueLane_ok r _ F hc hemp rfl rfl hcell ⟨fun hw => (nomatch hold.symm.trans hw), fun hw => (nomatch hold.symm.trans hw)⟩

/-! ## A bundle whose slot faults -/

theorem runCells_error (s : State) (r : Raw) (fx : SlotMeaning) (f : FInfo) : ∀ ls : List Nat,
    (∃ l ∈ ls, s.lanesOf r l ≠ []) → (∀ l ∈ ls, s.lanesOf r l ≠ [] ∨ movesCursor r = true → fx.cell (s.env r l) s = .error f) →
    runCells s.sel s.selDie s.me s.myDie s.myDie.e [r] ⟨r, slotNo r.kind, fx⟩ ls s = .error f
  | [], h, _ => by simp at h
  | l :: ls, hex, hall => by
    have henv : cellEnv s s.sel s.selDie s.me s.myDie s.myDie.e l ⟨r, slotNo r.kind, fx⟩ [r] = s.env r l := rfl
    have hlanes : (s.env r l).lanes = s.lanesOf r l := rfl
    unfold runCells
    simp only [henv, hlanes]
    cases hidle : (s.lanesOf r l).isEmpty && !movesCursor r with
    | false =>
      have hacts : s.lanesOf r l ≠ [] ∨ movesCursor r = true := by
        cases hm : movesCursor r with
        | true => exact .inr rfl
        | false => exact .inl (fun e => by simp [e, hm] at hidle)
      simp [hall l (List.mem_cons_self ..) hacts]
    | true =>
      have hnone : s.lanesOf r l = [] := by
        simp only [Bool.and_eq_true, List.isEmpty_iff] at hidle
        exact hidle.1
      have hex' : ∃ k ∈ ls, s.lanesOf r k ≠ [] := by
        obtain ⟨k, hk, hne⟩ := hex
        exact ⟨k, (List.mem_cons.1 hk).resolve_left (fun e => hne (e ▸ hnone)), hne⟩
      simp [runCells_error s r fx f ls hex' (fun k hk => hall k (List.mem_cons_of_mem _ hk))]

/-- Neither check of R427 stops a bundle that can be issued. -/
theorem State.canBundle.notOverdue {s : State} {r : Raw} (h : s.canBundle r) :
    ((!(markOp r.kind r.op || s.myDie.markAsk.contains s.myDie.e) && decide (1024 ≤ s.myDie.sinceMark))
      || decide (128 < s.myDie.sinceStores + gatedCount s s.sel s.selDie s.myCells [r])) = false := by
  obtain ⟨-, -, -, hmark, hstores, -⟩ := h
  rw [Bool.or_eq_false_iff]
  refine ⟨?_, by simpa using hstores⟩
  rcases hmark with h | h | h
  · simp only [h, Bool.true_or, Bool.not_true, Bool.false_and]
  · simp only [h, Bool.or_true, Bool.not_true, Bool.false_and]
  · simp [Nat.not_le.2 h]

/-- A bundle that can be issued, of a slot that acts in the cells alone and meets a fault as it runs. -/
theorem State.issueBundle_error (s : State) (r : Raw) (fx : SlotMeaning) (f : FInfo) (hc : s.canBundle r) (hfx : fx.CellsOnly)
    (hemp : ∀ l ∈ s.myCells, s.emptyReads r fx l = false)
    (hrun : runBundle s.sel s.selDie s.me s.myDie s.myDie.e [r] s.myCells [⟨r, slotNo r.kind, fx⟩] s = .error f) :
    s.issueBundle s.sel s.selDie s.myDie.e s.core.diemask s.core.cellmask [⟨r, slotNo r.kind, fx⟩]
      = .next (s.dieFault s.sel s.selDie s.myDie.e f) := by
  have hovf := hc.notOverdue
  obtain ⟨-, -, hlegal, -, -, htrk, hmx, huw⟩ := hc
  have hrc : s.rc s.sel = s.me := rfl
  have hdie : s.me.die s.selDie = s.myDie := rfl
  have hcells : activeCells s.me s.selDie s.core.diemask s.core.cellmask = s.myCells := rfl
  have hquiet : (s.myCells.any fun l => tbit (s.cell s.sel s.selDie l).core.cctl 8 &&
      (cellReadsPending s.me s.selDie l (s.cell s.sel s.selDie l).core r (guardLanes (s.cell s.sel s.selDie l).core r.guard)
        || (!(cellEnv s s.sel s.selDie s.me s.myDie s.myDie.e l ⟨r, slotNo r.kind, fx⟩ [r]).lanes.isEmpty
          && fx.empty (cellEnv s s.sel s.selDie s.me s.myDie s.myDie.e l ⟨r, slotNo r.kind, fx⟩ [r]) s))) = false := by
    rw [List.any_eq_false]
    intro l hl
    change ¬(tbit (s.at l).core.cctl 8 && (s.underwaits r l || s.emptyReads r fx l)) = true
    cases hb : tbit (s.at l).core.cctl 8 with
    | false => simp
    | true => simp [huw l hl hb, hemp l hl]
  have hhold : ∀ g, fx.hold g s = none := fun _ => by rw [hfx]
  have hpre : ∀ g, fx.pre g s = none := fun _ => by rw [hfx]
  unfold State.issueBundle
  simp only [hrc, hdie, hcells, List.any_cons, List.any_nil, Bool.or_false, List.map, hlegal, hovf, Bool.false_eq_true, if_false, htrk, hmx,
    Bool.not_true, List.findSome?, hhold, hpre, hquiet, hrun]

/-- A slot that meets fault f in every cell where it acts stops the bundle at its die. -/
theorem State.issueLane_faults (s : State) (r : Raw) (fx : SlotMeaning) (f : FInfo) (hc : s.canBundle r) (hfx : fx.CellsOnly)
    (hemp : ∀ l ∈ s.myCells, s.emptyReads r fx l = false) (hex : ∃ l ∈ s.myCells, s.lanesOf r l ≠ [])
    (hall : ∀ l ∈ s.myCells, s.lanesOf r l ≠ [] ∨ movesCursor r = true → fx.cell (s.env r l) s = .error f) :
    s.dieFaults (s.issueLane r fx) f.1 f.2.1 f.2.2 := by
  have hbundle := s.issueBundle_error r fx f hc hfx hemp (by simp only [runBundle, runCells_error s r fx f s.myCells hex hall])
  have hhold : ((s.dieFault s.sel s.selDie s.myDie.e f).dctx s.sel s.selDie).hold = none := by
    obtain ⟨-, -, -, hnone⟩ := State.cannotBundle_none hc.1
    rw [State.dieFault, s.dctx_updDctx_self _ _ _ hc.sel_lt]
    exact hnone
  obtain ⟨hcan, hleg, -⟩ := hc
  unfold State.dieFaults State.issueLane
  dsimp only
  rw [hcan, hleg]
  simp only [Bool.not_true, Bool.false_eq_true, if_false]
  change (match s.issueBundle s.sel s.selDie s.myDie.e s.core.diemask s.core.cellmask _ with | .next s' => _ | o => o) = _
  rw [hbundle]
  simp [hhold]
  rfl

end Sys2Proof.Machine

end

section
set_option Elab.async false

namespace Sys2Proof.Machine

/-! ## A bundle that changes cells and enters no operation -/

/-- A cell after a bundle of results, and of a change at its end. -/
theorem Cell.afterBundle_sets (y : Cell) (ws : List Write) (g : Nat → Cell → Cell) (id : Nat) (uw pop : Bool) :
    y.afterBundle [{ writes := ws, set := g }] id uw pop = g 0 { y with core := y.core.after ws uw pop } := by
  have h0 : SlotOut.without { writes := ws, marks := [] } [] = { writes := ws, marks := [] } := SlotOut.without_nil _
  simp [Cell.afterBundle, standing, h0, giveIds, CellCore.after]

/-- Slot r posts nothing where it is idle, moves no cursor and takes no random bits. -/
structure Plain (r : Raw) : Prop where
  posts : postsAnyway r = none
  stays : movesCursor r = false
  pops : popsEntry r = false

/-- A slot that issues results and changes its cell at the end of the bundle does so in the active cells where it acts. -/
theorem State.issueLane_changes (s : State) (r : Raw) (fx : SlotMeaning) (ws : Nat → List Write) (g : Nat → Cell → Cell) (hc : s.canBundle r)
    (hfx : fx = { cell := fx.cell }) (hr : Plain r)
    (hcell : ∀ l ∈ s.myCells, s.lanesOf r l ≠ [] → fx.cell (s.env r l) s = .ok (s, { writes := ws l, set := fun _ => g l })) :
    ∃ t, s.issueLane r fx = .next t ∧ s.advanced t ∧ s.quiet t
      ∧ (∀ l ∈ s.myCells, t.at l = if s.lanesOf r l = [] then { s.at l with core := (s.at l).core.after [] (s.underwaits r l) false }
          else g l { s.at l with core := (s.at l).core.after (ws l) (s.underwaits r l) false })
      ∧ (∀ l, l ∉ s.myCells → t.at l = { s.at l with core := (s.at l).core.endPos })
      ∧ (∀ d l, d ≠ s.selDie → t.cell s.sel d l = s.cell s.sel d l) := by
  have hcells : fx.CellsOnly := by rw [hfx]; rfl
  have hempty : ∀ l, s.emptyReads r fx l = false := fun l => by rw [hfx]; exact Bool.and_false _
  obtain ⟨t, hrun, hleaves, -⟩ := s.issueLane_acts r fx (fun l => { writes := ws l, set := fun _ => g l }) hc hcells (fun l _ _ => hempty l)
    (fun l hl hacts => hcell l hl (hacts.resolve_right (by simp [hr.stays])))
  have hlane : ∀ l, s.laneFx r (fun l => { writes := ws l, set := fun _ => g l }) l
      = if s.lanesOf r l = [] then {} else { writes := ws l, set := fun _ => g l } := by
    intro l
    by_cases hl : s.lanesOf r l = []
    · simp [State.laneFx, hl, hr.stays, idleFx, hr.posts]
    · rw [if_neg hl, s.laneFx_acts r _ l hl]
  obtain ⟨hadv, hquiet⟩ := hleaves.quiet (fun l _ => by rw [hlane]; split <;> rfl)
  have hat : ∀ l, t.at l = t.cell s.sel s.selDie l := fun l => by rw [State.at, hleaves.sel, hleaves.selDie]
  refine ⟨t, hrun, hadv, hquiet, fun l hl => ?_, fun l hl => by rw [hat, hleaves.idle l hl], hleaves.far⟩
  obtain ⟨id, hid⟩ := hleaves.active l hl
  rw [hat, hid, hlane, hr.pops]
  by_cases hl : s.lanesOf r l = []
  · rw [if_pos hl, if_pos hl]
    exact Cell.afterBundle_writes _ [] _ _ _
  · rw [if_neg hl, if_neg hl, Cell.afterBundle_sets]

/-- So for a slot of results alone. -/
theorem State.issueLane_results (s : State) (r : Raw) (fx : SlotMeaning) (ws : Nat → List Write) (hc : s.canBundle r)
    (hfx : fx = { cell := fx.cell }) (hr : Plain r)
    (hcell : ∀ l ∈ s.myCells, s.lanesOf r l ≠ [] → fx.cell (s.env r l) s = .ok (s, { writes := ws l })) :
    ∃ t, s.issueLane r fx = .next t ∧ s.advanced t ∧ s.quiet t
      ∧ s.cellsAfter t (fun l => (s.at l).core.after (if s.lanesOf r l = [] then [] else ws l) (s.underwaits r l) false) := by
  obtain ⟨t, hrun, hadv, hquiet, hacts, hrest⟩ := s.issueLane_changes r fx ws (fun _ y => y) hc hfx hr hcell
  refine ⟨t, hrun, hadv, hquiet, fun l hl => ?_, hrest⟩
  rw [hacts l hl]
  by_cases hl : s.lanesOf r l = []
  · simp only [if_pos hl]
  · simp only [if_neg hl]

/-- So for a slot that changes the registers of its cell at the end of the bundle. -/
theorem State.issueLane_sets (s : State) (r : Raw) (fx : SlotMeaning) (g : Nat → CellCore → CellCore) (hc : s.canBundle r)
    (hfx : fx = { cell := fx.cell }) (hr : Plain r)
    (hcell : ∀ l ∈ s.myCells, s.lanesOf r l ≠ [] → fx.cell (s.env r l) s = .ok (s, { set := fun _ y => { y with core := g l y.core } })) :
    ∃ t, s.issueLane r fx = .next t ∧ s.advanced t ∧ s.quiet t ∧ s.cellsAfter t (fun l =>
      let q := (s.at l).core.after [] (s.underwaits r l) false
      if s.lanesOf r l = [] then q else g l q) := by
  obtain ⟨t, hrun, hadv, hquiet, hacts, hrest⟩ := s.issueLane_changes r fx (fun _ => []) (fun l y => { y with core := g l y.core }) hc hfx hr hcell
  refine ⟨t, hrun, hadv, hquiet, fun l hl => ?_, hrest⟩
  rw [hacts l hl]
  dsimp only
  split <;> rfl

/-! ## The rows of the accumulator (R205, R206, R221) -/

theorem accRowBad_iff (s : State) (r : Raw) (l base row : Nat) :
    accRowBad (s.env r l) base row = true ↔ 8192 * s.me.win.acc < 1024 * base + 64 * row + 64 :=
  decide_eq_true_iff

/-- The row of ACCRD and ACCWR lies in the window of every cell, or of none. -/
theorem accRowBad_false {s : State} {r : Raw} {base row : Nat} (h : 1024 * base + 64 * row + 64 ≤ 8192 * s.me.win.acc) (l : Nat) :
    accRowBad (s.env r l) base row = false :=
  Bool.eq_false_iff.2 (fun hbad => Nat.not_lt.2 h ((accRowBad_iff s r l base row).1 hbad))

/-- What ACCRD and ACCWR do in a cell. -/
theorem exec_accRow {i : Instr} {g base v row : Nat} {r : Raw} (hi : i = .accrd g base v row ∨ i = .accwr g base v row) (hr : i.raw = some r) :
    ∃ fx : SlotMeaning, (∀ s, exec i s = s.issueLane r fx) ∧ fx = { cell := fx.cell }
      ∧ ∀ e s, accRowBad e base row = true → fx.cell e s = .error (shape 2) := by
  rcases hi with rfl | rfl
  all_goals cases hr
  all_goals exact ⟨_, fun _ => rfl, rfl, fun _ _ h => if_pos h⟩

end Sys2Proof.Machine

open Sys2Proof Sys2Proof.Machine in
/-- Settles O30: whether the row lies in the window is the same in every cell of the context, and a row inside it is a result. -/
theorem accumulatorRows : Obligations.AccumulatorRows := by
  refine ⟨fun g base v row s r hc hin => ⟨fun hr => ?_, fun hr => ?_⟩, fun i g base v row s r hi hr hc hout hex => ?_⟩
  · cases hr
    exact s.issueLane_results _ (fxAccrd g base v row) _ hc rfl ⟨rfl, rfl, rfl⟩ (fun l _ _ => if_neg (by simp [accRowBad_false hin l]))
  · cases hr
    exact s.issueLane_results _ (fxAccwr g base v row) _ hc rfl ⟨rfl, rfl, rfl⟩ (fun l _ _ => if_neg (by simp [accRowBad_false hin l]))
  · obtain ⟨fx, hexec, hfx, hbad⟩ := exec_accRow hi hr
    rw [hexec]
    exact s.issueLane_faults r fx (shape 2) hc (by rw [hfx]; rfl) (fun l _ => by rw [hfx]; exact Bool.and_false _) hex
      (fun l _ _ => hbad _ _ ((accRowBad_iff s r l base row).2 hout))

namespace Sys2Proof.Machine

/-! ## Registers of a cell (R180, R218, R401) -/

theorem ofNat_append (x y : Word) : BitVec.ofNat 128 (x.toNat * 2 ^ 64 + y.toNat) = x ++ y := by
  apply BitVec.eq_of_toNat_eq
  rw [BitVec.toNat_append, BitVec.toNat_ofNat, ← Nat.shiftLeft_add_eq_or_of_lt y.isLt, Nat.shiftLeft_eq, Nat.mod_eq_of_lt]
  have := x.isLt
  have := y.isLt
  omega

theorem fxTokrd_noLog (g tk d : Nat) (s : State) (r : Raw) (l : Nat) (hlog : s.noLog) :
    (fxTokrd g tk d).cell (s.env r l) s
      = .ok (s, { writes := [(s.env r l).result (.x d) [(0, ((s.at l).core.rTk tk).toNat)] 1 0] }) := by
  have hread : s.logged (s.env r l).c inTOKRD (s.env r l).d (some (s.env r l).l) (s.env r l).ein.toNat 0 [((s.env r l).q.rTk tk).toNat] = _ :=
    s.logged_noLog hlog ..
  unfold fxTokrd
  simp only [hread]
  rfl

end Sys2Proof.Machine

open Sys2Proof Sys2Proof.Machine in
/-- Settles O31: MXPROG, TOKADD and RBSEED set the register once the position has ended, and TOKRD gives the count as a result. -/
theorem cellRegisters : Obligations.CellRegisters := by
  refine ⟨fun g x s r hr hc => ?_, fun g tk amt s r hr hc => ?_, fun a s r hr hc => ?_, fun g tk d s r hr hc hlog => ?_⟩
  · cases hr
    refine s.issueLane_sets _ (fxMxprog g x) (fun l q => { q with gtab := (s.at l).core.rX (x + 1) ++ (s.at l).core.rX x }) hc rfl
      ⟨rfl, rfl, rfl⟩ (fun l _ _ => ?_)
    simp only [← ofNat_append]
    rfl
  · cases hr
    exact s.issueLane_sets _ (fxTokadd g tk amt) (fun _ q => q.wTk tk (q.rTk tk + BitVec.ofNat 16 amt)) hc rfl ⟨rfl, rfl, rfl⟩ (fun _ _ _ => rfl)
  · cases hr
    exact s.issueLane_sets _ (fxRbseed a) (fun l q => q.reseed ((s.at l).core.rX a) (64 * s.me.field.fidx s.selDie + s.me.group.gidx l)) hc rfl
      ⟨rfl, rfl, rfl⟩ (fun _ _ _ => rfl)
  · cases hr
    exact s.issueLane_results _ (fxTokrd g tk d) _ hc rfl ⟨rfl, rfl, rfl⟩ (fun l _ _ => fxTokrd_noLog g tk d s _ l hlog)

end

section
set_option Elab.async false

namespace Sys2Proof.Machine

/-! ## A cell after a bundle of one slot -/

/-- An operation marks the units of its destination (R81, R84). -/
def CellCore.mark (q : CellCore) (id : Nat) (ms : List (RegId × List Nat)) : CellCore :=
  ms.foldl (fun (q : CellCore) m => { q with pend := pendMark id m.1 m.2 q.pend, fly := flyDrop m.1 m.2 q.fly }) q

/-- The flags and counts of the end of a bundle. -/
def CellCore.flagged (q : CellCore) (uw pop : Bool) : CellCore :=
  let q := if uw then q.orCst 0x100 else q
  if pop then { q with rbTaken := q.rbTaken + 1 } else q

theorem CellCore.after_eq (q : CellCore) (ws : List Write) (uw pop : Bool) : q.after ws uw pop = (ws.foldl CellCore.issue q).endPos.flagged uw pop := rfl

/-- A cell after a bundle whose slot enters an operation: its results issue, its units are marked, the position ends, its change follows. -/
theorem Cell.afterBundle_enter (y : Cell) (f : CellFx) (q : Req) (id : Nat) (uw pop : Bool) (hq : f.req = some q) (hlate : f.late = []) :
    y.afterBundle [f] id uw pop
      = f.set id { y with core := (f.ctl ((f.writes.foldl CellCore.issue y.core).mark id f.marks)).endPos.flagged uw pop } := by
  have h0 : SlotOut.without { writes := f.writes, marks := f.marks } [] = { writes := f.writes, marks := f.marks } := SlotOut.without_nil _
  have hlater : ∀ q : CellCore, q.later id [] = q := fun q => by simp [CellCore.later]
  simp only [Cell.afterBundle, List.map_cons, List.map_nil, standing, List.flatMap_nil, h0, giveIds, hq, hlate, List.zip_cons_cons, List.zip_nil_right,
    List.foldl_cons, List.foldl_nil, List.flatMap_cons, List.append_nil, hlater, Option.getD_some, List.foldl_map]
  rfl

/-! ## A stream that an instruction writes (R84, R204) -/

/-- Reading the doublewords of a stream after some of them have landed. -/
theorem CellCore.rSt_puts (st i : Nat) : ∀ (D : List Word) (k : Nat) (q : CellCore),
    (((D.zipIdx k).map (fun p => (p.2, p.1.toNat))).foldl (fun (q : CellCore) (p : Nat × Nat) => q.put (.st st) p.1 p.2) q).rSt st i
      = if k ≤ i ∧ i < k + D.length then D.getD (i - k) 0 else q.rSt st i
  | [], k, q => by
    rw [if_neg (by simp only [List.length_nil]; omega)]
    rfl
  | w :: D, k, q => by
    rw [List.zipIdx_cons, List.map_cons, List.foldl_cons, CellCore.rSt_puts st i D (k + 1)]
    have hput : (q.put (.st st) k w.toNat).rSt st i = if i = k then w else q.rSt st i := by
      simp only [CellCore.put, CellCore.wSt, CellCore.rSt, mapGet_mapSet, BitVec.ofNat_toNat, BitVec.setWidth_eq, Nat.add_left_cancel_iff]
    dsimp only
    rw [hput]
    simp only [List.length_cons]
    by_cases hik : i = k
    · subst hik
      rw [if_neg (by omega), if_pos rfl, if_pos (by omega), Nat.sub_self]
      rfl
    · by_cases hin : k + 1 ≤ i ∧ i < k + 1 + D.length
      · rw [if_pos hin, if_pos (by omega), show i - k = (i - (k + 1)) + 1 by omega]
        rfl
      · rw [if_neg hin, if_neg hik, if_neg (by omega)]

/-- The result in flight of an instruction that writes a whole stream at the end of its bundle. -/
def descFly (st : Nat) (D : Desc) (ein : Nat) : Fly :=
  { reg := .st st, vals := D.zipIdx.map (fun p => (p.2, p.1.toNat)), flags := 0, ein := ein, rest := 0, op := none }

theorem CellCore.landOne_descFly (q : CellCore) (st : Nat) (D : Desc) (ein : Nat) (hD : D.length = 8) : (q.landOne (descFly st D ein)).desc st = D := by
  apply List.ext_getElem
  · simp [CellCore.desc, hD]
  · intro i hi hi'
    have h := CellCore.rSt_puts st i D 0 q
    rw [if_pos (by omega), Nat.sub_zero, List.getD_eq_getElem _ _ hi'] at h
    simp only [CellCore.desc, List.getElem_map, List.getElem_range]
    exact h

theorem CellCore.flagged_desc (q : CellCore) (uw pop : Bool) (st : Nat) : (q.flagged uw pop).desc st = q.desc st := by
  cases uw <;> cases pop <;> rfl

/-- What lands last at the end of a position is what the stream then holds. -/
theorem CellCore.endPos_desc (q : CellCore) (fl : List Fly) (st : Nat) (D : Desc) (ein : Nat) (hD : D.length = 8) (hfly : q.fly = fl ++ [descFly st D ein]) :
    q.endPos.desc st = D := by
  unfold CellCore.endPos
  rw [hfly, flyNow_append, List.foldl_append]
  exact CellCore.landOne_descFly _ st D ein hD

/-- Marks of other registers leave it in flight. -/
theorem CellCore.mark_fly (id st : Nat) (D : Desc) (ein : Nat) : ∀ (ms : List (RegId × List Nat)) (q : CellCore) (fl : List Fly),
    (∀ m ∈ ms, m.1 ≠ .st st) → q.fly = fl ++ [descFly st D ein] → ∃ fl', (q.mark id ms).fly = fl' ++ [descFly st D ein]
  | [], q, fl, _, h => ⟨fl, h⟩
  | m :: ms, q, fl, hne, h => by
    refine CellCore.mark_fly id st D ein ms _ (flyDrop m.1 m.2 fl) (fun k hk => hne k (List.mem_cons_of_mem _ hk)) ?_
    have hm : RegId.st st ≠ m.1 := (hne m (List.mem_cons_self ..)).symm
    simp [h, flyDrop, descFly, hm]

/-- A slot that writes a stream leaves it written at the end of its bundle, whatever else it marks. -/
theorem CellCore.desc_written (q : CellCore) (id st : Nat) (D : Desc) (ein : Nat) (ms : List (RegId × List Nat)) (uw pop : Bool) (hD : D.length = 8)
    (hms : ∀ m ∈ ms, m.1 ≠ .st st) : ((([descWrite st D 1 ein].foldl CellCore.issue q).mark id ms).endPos.flagged uw pop).desc st = D := by
  obtain ⟨fl, hfl⟩ := CellCore.mark_fly id st D ein ms ([descWrite st D 1 ein].foldl CellCore.issue q) _ hms rfl
  rw [CellCore.flagged_desc]
  exact CellCore.endPos_desc _ fl st D ein hD hfl

/-! ## The units that an operation marks (R81, R396) -/

/-- The mark m stands, and no result in flight is one of its operation, or goes to one of its units. -/
def CellCore.holds (q : CellCore) (m : Pend) : Prop :=
  m ∈ q.pend ∧ ∀ f ∈ q.fly, f.op ≠ some m.op ∧ (f.reg = m.reg → ∀ p ∈ f.vals, p.1 ∉ m.marked)

theorem mem_pendClear {m : Pend} {r : RegId} {us : List Nat} {ps : List Pend} (hm : m ∈ ps) (hne : m.marked ≠ [])
    (hmarked : r = m.reg → ∀ u ∈ m.marked, u ∉ us) (hlive : r = m.reg → ∀ u ∈ m.live, u ∉ us) : m ∈ pendClear r us ps := by
  refine List.mem_filter.2 ⟨List.mem_map.2 ⟨m, hm, ?_⟩, by simpa using hne⟩
  by_cases hr : m.reg = r
  · have h1 : m.marked.filter (fun u => !us.contains u) = m.marked :=
      List.filter_eq_self.2 (fun u hu => by simpa using hmarked hr.symm u hu)
    have h2 : m.live.filter (fun u => !us.contains u) = m.live :=
      List.filter_eq_self.2 (fun u hu => by simpa using hlive hr.symm u hu)
    rw [if_pos hr, h1, h2]
  · rw [if_neg hr]

theorem mem_pendArrive {m : Pend} {op : Nat} {ps : List Pend} (hm : m ∈ ps) (hne : m.marked ≠ []) (hop : m.op ≠ op) : m ∈ pendArrive op ps :=
  List.mem_filter.2 ⟨List.mem_map.2 ⟨m, hm, if_neg hop⟩, by simpa using hne⟩

/-- A result that lands changes the registers of its file alone. -/
theorem CellCore.put_rest (q : CellCore) (r : RegId) (u v : Nat) : (q.put r u v).pend = q.pend ∧ (q.put r u v).mxq = q.mxq := by
  cases r
  case k n => by_cases hn : n = 0 <;> simp [CellCore.put, CellCore.wK, hn]
  all_goals exact ⟨rfl, rfl⟩

theorem CellCore.puts_rest (r : RegId) (vs : List (Nat × Nat)) (q : CellCore) :
    (vs.foldl (fun (q : CellCore) p => q.put r p.1 p.2) q).pend = q.pend ∧ (vs.foldl (fun (q : CellCore) p => q.put r p.1 p.2) q).mxq = q.mxq := by
  induction vs generalizing q with
  | nil => exact ⟨rfl, rfl⟩
  | cons p vs ih =>
    obtain ⟨hpend, hmxq⟩ := q.put_rest r p.1 p.2
    exact ⟨(ih _).1.trans hpend, (ih _).2.trans hmxq⟩

/-- The landing of another result leaves a mark. -/
theorem CellCore.landOne_mark (q : CellCore) (f : Fly) (m : Pend) (hm : m ∈ q.pend) (hne : m.marked ≠ []) (hlive : m.live = m.marked)
    (hop : f.op ≠ some m.op) (hvals : f.reg = m.reg → ∀ p ∈ f.vals, p.1 ∉ m.marked) : m ∈ (q.landOne f).pend := by
  have hunits : f.reg = m.reg → ∀ u ∈ m.marked, u ∉ f.vals.map Prod.fst := by
    intro hr u hu hin
    obtain ⟨p, hp, rfl⟩ := List.mem_map.1 hin
    exact hvals hr p hp hu
  unfold CellCore.landOne
  split
  · rename_i op hf
    refine mem_pendArrive ?_ hne (fun h => hop (hf.trans (congrArg some h.symm)))
    exact hm
  · refine mem_pendClear ?_ hne hunits (hlive ▸ hunits)
    split
    · exact hm
    · exact hm
    · rw [(CellCore.puts_rest f.reg f.vals q).1]
      exact hm

theorem CellCore.landAll_mark (m : Pend) (hne : m.marked ≠ []) (hlive : m.live = m.marked) : ∀ (fs : List Fly) (q : CellCore), m ∈ q.pend →
    (∀ f ∈ fs, f.op ≠ some m.op ∧ (f.reg = m.reg → ∀ p ∈ f.vals, p.1 ∉ m.marked)) → m ∈ (fs.foldl CellCore.landOne q).pend
  | [], _, hm, _ => hm
  | f :: fs, q, hm, hfs => by
    obtain ⟨hop, hvals⟩ := hfs f (List.mem_cons_self ..)
    exact CellCore.landAll_mark m hne hlive fs _ (q.landOne_mark f m hm hne hlive hop hvals) (fun g hg => hfs g (List.mem_cons_of_mem _ hg))

/-- A mark that stands outlasts the end of the position. -/
theorem CellCore.holds.endPos {q : CellCore} {m : Pend} (h : q.holds m) (hne : m.marked ≠ []) (hlive : m.live = m.marked) : m ∈ q.endPos.pend :=
  CellCore.landAll_mark m hne hlive _ _ h.1 (fun f hf => h.2 f (List.mem_filter.1 hf).1)

/-- The marks of one operation on different registers all stand. -/
theorem CellCore.mark_holds (id : Nat) (r : RegId) (us : List Nat) (hne : us ≠ []) : ∀ (ms : List (RegId × List Nat)) (q : CellCore),
    q.holds { op := id, reg := r, marked := us, live := us } → (∀ m ∈ ms, m.1 ≠ r) →
    (q.mark id ms).holds { op := id, reg := r, marked := us, live := us }
  | [], _, h, _ => h
  | k :: ms, q, ⟨hmem, hfly⟩, hms => by
    have hk : k.1 ≠ r := hms k (List.mem_cons_self ..)
    refine CellCore.mark_holds id r us hne ms _ ⟨?_, fun f hf => ?_⟩ (fun m hm => hms m (List.mem_cons_of_mem _ hm))
    · change _ ∈ pendMark id k.1 k.2 q.pend
      unfold pendMark
      split
      · exact hmem
      · exact List.mem_append_left _ (mem_pendClear hmem hne (fun h => absurd h hk) (fun h => absurd h hk))
    · obtain ⟨f0, hf0, rfl⟩ := List.mem_map.1 hf
      obtain ⟨hop, hvals⟩ := hfly f0 hf0
      by_cases hr : f0.reg = k.1
      · rw [if_pos hr]
        exact ⟨hop, fun h => absurd (hr.symm.trans h) hk⟩
      · rw [if_neg hr]
        exact ⟨hop, hvals⟩

/-- What a slot marks first is pending for its operation at the end of the bundle, where no result in flight is that operation's. -/
theorem CellCore.marked_pending (q : CellCore) (id : Nat) (r : RegId) (us : List Nat) (ms : List (RegId × List Nat)) (uw pop : Bool)
    (hms : ∀ m ∈ ms, m.1 ≠ r) (hfly : ∀ f ∈ q.fly, f.op ≠ some id) {u : Nat} (hu : u ∈ us) :
    u ∈ pendUnits r ((q.mark id ((r, us) :: ms)).endPos.flagged uw pop).pend
      ∧ u ∈ pendLive id r ((q.mark id ((r, us) :: ms)).endPos.flagged uw pop).pend := by
  have hne : us ≠ [] := List.ne_nil_of_mem hu
  let m : Pend := { op := id, reg := r, marked := us, live := us }
  have hfirst : CellCore.holds { q with pend := pendMark id r us q.pend, fly := flyDrop r us q.fly } m := by
    refine ⟨?_, fun f hf => ?_⟩
    · change m ∈ pendMark id r us q.pend
      rw [pendMark, if_neg (by simpa using hne)]
      exact List.mem_append_right _ (List.mem_singleton.2 rfl)
    · obtain ⟨f0, hf0, rfl⟩ := List.mem_map.1 hf
      by_cases hr : f0.reg = r
      · rw [if_pos hr]
        refine ⟨hfly f0 hf0, fun _ p hp => ?_⟩
        have := (List.mem_filter.1 hp).2
        simpa using this
      · rw [if_neg hr]
        exact ⟨hfly f0 hf0, fun h => absurd h hr⟩
  have hend : m ∈ ((q.mark id ((r, us) :: ms)).endPos).pend := (CellCore.mark_holds id r us hne ms _ hfirst hms).endPos hne rfl
  have hflag : ∀ q : CellCore, (q.flagged uw pop).pend = q.pend := fun q => by cases uw <;> cases pop <;> rfl
  rw [hflag]
  exact ⟨List.mem_flatMap.2 ⟨m, List.mem_filter.2 ⟨hend, by simp [m]⟩, hu⟩, List.mem_flatMap.2 ⟨m, List.mem_filter.2 ⟨hend, by simp [m]⟩, hu⟩⟩

end Sys2Proof.Machine

end

section
set_option Elab.async false

namespace Sys2Proof.Machine

/-! ## Operations that stand after a bundle -/

/-- Results of fixed latency belong to no operation. -/
theorem CellCore.issue_ops (id : Nat) : ∀ (ws : List Write) (q : CellCore), (∀ f ∈ q.fly, f.op ≠ some id) →
    ∀ f ∈ (ws.foldl CellCore.issue q).fly, f.op ≠ some id
  | [], _, h => h
  | w :: ws, q, h => by
    refine CellCore.issue_ops id ws _ (fun f hf => ?_)
    rcases List.mem_append.1 hf with hf | hf
    · obtain ⟨g, hg, rfl⟩ := List.mem_map.1 hf
      split
      · exact h g hg
      · exact h g hg
    · rw [List.mem_singleton.1 hf]
      exact nofun

/-- Effects f keep the units of operation o pending: they are the first that it marks, and nothing else touches them. -/
structure CellFx.Pends (f : CellFx) (o : CellOp) : Prop where
  late : f.late = []
  ctl : f.ctl = id
  set : ∀ id y, (f.set id y).core = y.core
  marks : ∀ d, o.dest = some d → ∃ ms, f.marks = (d, o.units) :: ms ∧ ∀ m ∈ ms, m.1 ≠ d

theorem State.at_of_leaves {s t : State} {r : Raw} {fx : SlotMeaning} {F : Nat → CellFx} (h : BundleLeaves s r fx F t) (l : Nat) :
    t.at l = t.cell s.sel s.selDie l := by rw [State.at, h.sel, h.selDie]

/-- The operation that a slot enters in a cell stands after the bundle. -/
theorem BundleEnters.opStands {s t : State} {r : Raw} {fx : SlotMeaning} {F : Nat → CellFx} {l : Nat} {f : CellFx} {q : Req} {o : CellOp}
    (h : BundleEnters s r F t) (hleaves : BundleLeaves s r fx F t) (hl : l ∈ s.myCells) (hf : s.laneFx r F l = f) (hq : f.req = some q)
    (ho : ∀ id, { q with id := id } = o.req s.selDie l s.myDie.e (slotNo r.kind) id r.tk) (hp : o.dest = none ∨ f.Pends o) : s.opStands t r l o := by
  obtain ⟨id, hid, hcell, hreq⟩ := h.acts l hl
  have hmem := hreq q (hf ▸ hq)
  refine ⟨_, by rw [State.me, hleaves.sel]; exact hmem, hid, ho id, fun d u hd hu hfly => ?_⟩
  have hp := hp.resolve_left (by simp [hd])
  obtain ⟨ms, hms, hne⟩ := hp.marks d hd
  rw [State.at_of_leaves hleaves, hcell, hf, Cell.afterBundle_enter _ f q id _ _ hq hp.late, hp.set, hp.ctl, hms]
  exact CellCore.marked_pending _ id d o.units ms _ _ hne (CellCore.issue_ops id _ _ hfly) hu

/-- A bundle of a slot that acts in the cells alone leaves the rest of the machine. -/
theorem BundleEnters.quietOps {s t : State} {r : Raw} {fx : SlotMeaning} {F : Nat → CellFx} (h : BundleEnters s r F t)
    (hleaves : BundleLeaves s r { cell := fx.cell } F t) : s.quietOps t :=
  BundleLeaves.quietOps hleaves ⟨s.dies, s.cmdNo, rfl⟩ h.ids

theorem State.mem_acting {s : State} {r : Raw} {l : Nat} : l ∈ s.acting r ↔ l ∈ s.myCells ∧ s.lanesOf r l ≠ [] := by
  simp [State.acting, List.mem_filter]

/-! ## The fields of a descriptor (R194) -/

theorem CellCore.desc_length (q : CellCore) (st : Nat) : (q.desc st).length = 8 := by simp [CellCore.desc]

theorem CellCore.desc_getD (q : CellCore) (st i : Nat) (hi : i < 8) : (q.desc st).getD i 0 = q.rSt st i := by
  simp [CellCore.desc, List.getD_eq_getElem?_getD, hi]

theorem setD7_length (D : Desc) (w : Word) : (setD7 D w).length = D.length := List.length_set

theorem setD7_getD (D : Desc) (w : Word) (i : Nat) (hi : i ≠ 7) : (setD7 D w).getD i 0 = D.getD i 0 := by
  simp [setD7, List.getD_eq_getElem?_getD, List.getElem?_set_ne (Ne.symm hi)]

theorem dfld_setD7 (D : Desc) (w : Word) (lo n : Nat) (hD : D.length = 8) : dfld (setD7 D w) 7 lo n = bitsOf w lo n := by
  simp [dfld, setD7, List.getD_eq_getElem?_getD, hD]

/-- The fields of D7 that say whether the stream is started, whether it has ended, and where it stands. -/
theorem mkD7_fields (go en : Bool) (rowp cur : Nat) (hcur : cur < 2 ^ 48) :
    bitsOf (mkD7 go en false rowp cur) 63 1 = (if go then 1 else 0) ∧ bitsOf (mkD7 go en false rowp cur) 62 1 = (if en then 1 else 0)
      ∧ bitsOf (mkD7 go en false rowp cur) 0 48 = cur := by
  have hrow : rowp % 256 < 256 := Nat.mod_lt _ (by decide)
  simp only [bitsOf, mkD7, BitVec.toNat_ofNat]
  generalize rowp % 256 = p at hrow
  cases go <;> cases en <;> simp only [Bool.false_eq_true, if_false, if_true] <;> omega

theorem dCur_lt (D : Desc) : dCur D < 2 ^ 48 := Nat.mod_lt _ (by decide)

theorem dEnd_bit (D : Desc) : (if dEnd D then 1 else 0) = dfld D 7 62 1 := by
  have : dfld D 7 62 1 < 2 := Nat.mod_lt _ (by decide)
  unfold dEnd
  by_cases h : dfld D 7 62 1 = 1
  · simp [h]
  · have : dfld D 7 62 1 = 0 := by omega
    simp [this]

/-- The descriptor that STGO writes. -/
def startedDesc (D : Desc) : Desc := setD7 D (mkD7 true (dEnd D) false (dfld D 7 48 8) (dCur D))

theorem startedDesc_fields (D : Desc) (hD : D.length = 8) :
    dGo (startedDesc D) = true ∧ dCur (startedDesc D) = dCur D ∧ dEnd (startedDesc D) = dEnd D := by
  obtain ⟨hgo, hend, hcur⟩ := mkD7_fields true (dEnd D) (dfld D 7 48 8) (dCur D) (dCur_lt D)
  refine ⟨?_, ?_, ?_⟩
  · rw [dGo, startedDesc, dfld_setD7 D _ _ _ hD, hgo]
    rfl
  · rw [dCur, startedDesc, dfld_setD7 D _ _ _ hD, hcur]
  · rw [dEnd, startedDesc, dfld_setD7 D _ _ _ hD, hend]
    cases dEnd D <;> rfl

/-! ## STSET, STGET and STGO (R196, R202, R203) -/

theorem fxStset_ok (g a st : Nat) (e : CellEnv) (s : State) (hheld : e.rc.stHeld e.d e.l st = false) (hweight : weightStore (e.descAt a) = false)
    (hbad : badDesc (e.descAt a) = false) : (fxStset g a st).cell e s
      = .ok (s, { writes := [descWrite st (stsetDesc (e.descAt a)) 2 e.ein.toNat], set := fun _ y => y.dropStream st }) :=
  (if_neg (by simp [hheld])).trans ((if_neg (Bool.eq_false_iff.1 hweight)).trans (if_neg (Bool.eq_false_iff.1 hbad)))

theorem fxStget_ok (g d st : Nat) (e : CellEnv) (s : State) (hheld : e.rc.stHeld e.d e.l st = false) : (fxStget g d st).cell e s
      = .ok (s, { writes := (List.range 8).map (fun i => e.result (.x (d + i)) [(0, (e.q.rSt st i).toNat)] 2 0) }) :=
  if_neg (by simp [hheld])

/-- What STGO does in a cell. -/
def stgoFx (st tk : Nat) (e : CellEnv) : CellFx :=
  { writes := [descWrite st (startedDesc (e.q.desc st)) 1 e.ein.toNat], set := fun _ y => y.dropStream st
    req := some (cellReq e tk none (.stgo st (dCur (e.q.desc st))) false false) }

theorem fxStgo_ok (g st tk : Nat) (e : CellEnv) (s : State) (hheld : e.rc.stHeld e.d e.l st = false) (hbad : dBad (e.q.desc st) = false) :
    (fxStgo g st tk).cell e s = .ok (s, stgoFx st tk e) :=
  (if_neg (by simp [hheld])).trans (if_neg (Bool.eq_false_iff.1 hbad))

/-- A cell after STGO. -/
theorem Cell.afterBundle_stgo (y : Cell) (st tk : Nat) (e : CellEnv) (id : Nat) (uw pop : Bool) :
    (y.afterBundle [stgoFx st tk e] id uw pop).core.desc st = startedDesc (e.q.desc st)
      ∧ (y.afterBundle [stgoFx st tk e] id uw pop).items = y.items.filter (fun i => i.st != st) := by
  rw [Cell.afterBundle_enter y (stgoFx st tk e) _ id uw pop rfl rfl]
  exact ⟨CellCore.desc_written y.core id st _ _ [] uw pop ((setD7_length _ _).trans (CellCore.desc_length _ _)) nofun, rfl⟩

end Sys2Proof.Machine

open Sys2Proof Sys2Proof.Machine in
/-- Settles O40: a stream that an instruction writes holds what was written once the write has landed, as it lands after what was in flight
to it (`CellCore.desc_written`); STGO changes D7 alone. -/
theorem streamRegisters : Obligations.StreamRegisters := by
  refine ⟨fun g a st s r hr hc hok => ?_, fun g d st s r hr hc hok => ?_, fun g st tk s r hr hc hok => ?_⟩
  · cases hr
    obtain ⟨t, hrun, hadv, hquiet, hcells, -⟩ := s.issueLane_changes _ (fxStset g a st) _ (fun _ y => y.dropStream st) hc rfl ⟨rfl, rfl, rfl⟩
      (fun l hl hacts => by
        obtain ⟨hheld, hweight, hbad⟩ := hok l (State.mem_acting.2 ⟨hl, hacts⟩)
        exact fxStset_ok g a st _ s hheld hweight hbad)
    refine ⟨t, hrun, hadv, hquiet, fun l hl => ?_⟩
    obtain ⟨hl, hacts⟩ := State.mem_acting.1 hl
    rw [hcells l hl, if_neg hacts]
    rfl
  · cases hr
    exact s.issueLane_results _ (fxStget g d st) _ hc rfl ⟨rfl, rfl, rfl⟩ (fun l hl hacts =>
      fxStget_ok g d st _ s (hok l (State.mem_acting.2 ⟨hl, hacts⟩)))
  · cases hr
    obtain ⟨t, hrun, hleaves, henters⟩ := s.issueLane_acts _ (fxStgo g st tk) (fun l => stgoFx st tk (s.env _ l)) hc rfl
      (fun _ _ _ => Bool.and_false _) (fun l hl hacts => by
        obtain ⟨hheld, hbad⟩ := hok l (State.mem_acting.2 ⟨hl, hacts.resolve_right nofun⟩)
        exact fxStgo_ok g st tk _ s hheld hbad)
    refine ⟨t, hrun, henters.quietOps hleaves, fun l hl => ?_⟩
    obtain ⟨hl, hacts⟩ := State.mem_acting.1 hl
    have hlane := s.laneFx_acts _ (fun l => stgoFx st tk (s.env ⟨.ls, 0x22, [g, st, tk]⟩ l)) l hacts
    obtain ⟨id, -, hcell, -⟩ := henters.acts l hl
    rw [← State.at_of_leaves hleaves, hlane] at hcell
    obtain ⟨hdesc, hitems⟩ := (s.at l).afterBundle_stgo st tk (s.env ⟨.ls, 0x22, [g, st, tk]⟩ l) id
      (s.underwaits ⟨.ls, 0x22, [g, st, tk]⟩ l) (popsEntry ⟨.ls, 0x22, [g, st, tk]⟩)
    rw [← hcell] at hdesc hitems
    change _ = startedDesc ((s.at l).core.desc st) at hdesc
    obtain ⟨hgo, hcur, hend⟩ := startedDesc_fields _ ((s.at l).core.desc_length st)
    refine ⟨henters.opStands hleaves hl hlane rfl (fun _ => rfl) (.inl rfl), hitems, hdesc ▸ hgo, hdesc ▸ hcur, hdesc ▸ hend, fun i hi => ?_⟩
    rw [← CellCore.desc_getD _ st i (by omega), hdesc, startedDesc, setD7_getD _ _ _ (by omega), CellCore.desc_getD _ st i (by omega)]

end

section
set_option Elab.async false

namespace Sys2Proof.Machine

/-! ## LDV and STV (R200, R256) -/

theorem State.laneFx_moves (s : State) {r : Raw} (F : Nat → CellFx) (l : Nat) (h : movesCursor r = true) : s.laneFx r F l = F l := by
  simp [State.laneFx, h]

/-- The descriptor of a stream past the items of a transfer. -/
def pastItems (D : Desc) : Desc := advance D (dItems D) (dfld D 7 48 8)

theorem advance_length (D : Desc) (n rowp : Nat) : (advance D n rowp).length = D.length := setD7_length _ _

/-- What LDV does in a cell: the lanes it marks, by unit, and the body and flags of its operation. -/
def ldvFx (v st tk : Nat) (e : CellEnv) (us : List (Nat × Nat)) (b : Body) (flags : Nat) (set : Cell → Cell) : CellFx :=
  { marks := transferMarks (e.q.desc st) v us
    writes := [descWrite st (pastItems (e.q.desc st)) 1 e.ein.toNat]
    set := fun _ => set
    req := some { cellReq e tk (some (.v v)) b false false with flags := flags } }

/-- What STV does in a cell. -/
def stvFx (st tk : Nat) (e : CellEnv) (ps : List Part) : CellFx :=
  { writes := [descWrite st (pastItems (e.q.desc st)) 1 e.ein.toNat]
    req := some (cellReq e tk none (.mem (dPath (e.q.desc st)) ps) true true) }

theorem transferMarks_regs (D : Desc) (v : Nat) (us : List (Nat × Nat)) :
    ∃ ms, transferMarks D v us = (.v v, (us.map Prod.fst).filter (fun u => u < 64)) :: ms ∧ ∀ m ∈ ms, m.1 = .v (v + 1) := by
  refine ⟨_, rfl, fun m hm => ?_⟩
  split at hm
  · rw [List.mem_singleton.1 hm]
  · cases hm

theorem ldvFx_pends (v st tk : Nat) (e : CellEnv) (us : List (Nat × Nat)) (b : Body) (flags : Nat) (set : Cell → Cell) (hset : ∀ y, (set y).core = y.core)
    (o : CellOp) (hdest : o.dest = some (.v v)) (hunits : o.units = (us.map Prod.fst).filter (fun u => u < 64)) :
    (ldvFx v st tk e us b flags set).Pends o := by
  refine ⟨rfl, rfl, fun _ => hset, fun d hd => ?_⟩
  obtain rfl : .v v = d := Option.some.inj (hdest.symm.trans hd)
  obtain ⟨ms, hms, hregs⟩ := transferMarks_regs (e.q.desc st) v us
  refine ⟨ms, hunits ▸ hms, fun m hm => ?_⟩
  rw [hregs m hm]
  simp

/-- The cell of a transfer, at its end: the stream has passed its items. -/
theorem Cell.afterBundle_pastItems (y : Cell) (f : CellFx) (q : Req) (st ein id : Nat) (D : Desc) (uw pop : Bool) (hD : D.length = 8)
    (hws : f.writes = [descWrite st (pastItems D) 1 ein]) (hctl : f.ctl = fun q => q) (hset : ∀ id y, (f.set id y).core = y.core) (hq : f.req = some q)
    (hlate : f.late = []) (hms : ∀ m ∈ f.marks, m.1 ≠ .st st) : (y.afterBundle [f] id uw pop).core.desc st = pastItems D := by
  rw [Cell.afterBundle_enter y f q id uw pop hq hlate, hset, hctl, hws]
  exact CellCore.desc_written y.core id st _ _ f.marks uw pop ((advance_length _ _ _).trans hD) hms

theorem ldvFx_marks (v st tk : Nat) (e : CellEnv) (us : List (Nat × Nat)) (b : Body) (flags : Nat) (set : Cell → Cell) :
    ∀ m ∈ (ldvFx v st tk e us b flags set).marks, m.1 ≠ .st st := by
  intro m hm
  obtain ⟨ms, hms, hregs⟩ := transferMarks_regs (e.q.desc st) v us
  change m ∈ transferMarks (e.q.desc st) v us at hm
  rw [hms] at hm
  rcases List.mem_cons.1 hm with rfl | hm
  · exact nofun
  · rw [hregs m hm]
    exact nofun

/-- A cell's transfer whose checks pass in the one cell that the bundle reaches. -/
theorem State.transfer_enters (s : State) {r : Raw} {fx : SlotMeaning} {f : CellFx} {q : Req} {o : CellOp} {l st : Nat} (hc : s.canBundle r)
    (hcells : s.myCells = [l]) (hfx : fx.CellsOnly) (hmoves : movesCursor r = true)
    (hemp : tbit (s.at l).core.cctl 8 = true → s.emptyReads r fx l = false) (hcell : fx.cell (s.env r l) s = .ok (s, f))
    (hws : f.writes = [descWrite st (pastItems ((s.at l).core.desc st)) 1 s.myDie.e.toNat]) (hctl : f.ctl = fun q => q)
    (hset : ∀ id y, (f.set id y).core = y.core) (hq : f.req = some q) (hlate : f.late = []) (hms : ∀ m ∈ f.marks, m.1 ≠ .st st)
    (ho : ∀ id, { q with id := id } = o.req s.selDie l s.myDie.e (slotNo r.kind) id r.tk) (hp : o.dest = none ∨ f.Pends o) :
    ∃ t, s.issueLane r fx = .next t ∧ s.quietOps t ∧ (t.at l).core.desc st = pastItems ((s.at l).core.desc st) ∧ s.opStands t r l o := by
  have honly : ∀ k ∈ s.myCells, k = l := fun k hk => by simpa [hcells] using hk
  obtain ⟨t, hrun, hleaves, henters⟩ := s.issueLane_acts r fx (fun _ => f) hc hfx (fun k hk => honly k hk ▸ hemp) (fun k hk _ => honly k hk ▸ hcell)
  have hl : l ∈ s.myCells := by simp [hcells]
  have hlane := s.laneFx_moves (fun _ => f) l hmoves
  obtain ⟨id, -, hat, -⟩ := henters.acts l hl
  refine ⟨t, hrun, henters.quietOps hleaves, ?_, henters.opStands hleaves hl hlane hq ho hp⟩
  rw [State.at_of_leaves hleaves, hat, hlane]
  exact Cell.afterBundle_pastItems _ f q st _ id _ _ _ (CellCore.desc_length _ _) hws hctl hset hq hlate hms

/-- The flags that LDV's operation raises: UW where it has read an empty line (R242). -/
def ldvFlags (s : State) (e : CellEnv) (st : Nat) : Nat :=
  if (transferItems (e.q.desc st) e.lanes false).any (fun w => s.wantEmpty e st w.2) then 0x100 else 0

theorem ldvFlags_eq (s : State) (e : CellEnv) (st : Nat) :
    (if ((transferItems (e.q.desc st) e.lanes false).map Prod.snd).any (fun t => s.wantEmpty e st t) then 0x100 else 0) = ldvFlags s e st := by
  rw [List.any_map]
  rfl

/-- LDV whose items are there (R198). -/
theorem fxLdv_reads {g : Nat} {acc : Bool} {v st tk : Nat} {e : CellEnv} {s : State} {its : List Item} (hfault : transferFault e (e.q.desc st) st v false = none)
    (hacq : e.rc.acquireWaits e.d e.l s.nextId = false) (hrel : e.rc.releaseWaits e.d e.l s.nextId = false)
    (hheld : s.itemsHeld e.c e.d e.l (e.q.desc st) st s.nextId ((transferItems (e.q.desc st) e.lanes false).map Prod.snd) = false)
    (hget : s.getItems e.c e.d e.l (e.q.desc st) st s.nextId ((transferItems (e.q.desc st) e.lanes false).map Prod.snd) = (s, its))
    (hits : itemsFault (e.q.desc st) its = none) :
    let vs := ((transferItems (e.q.desc st) e.lanes false).zip its).flatMap (fun p => itemLanes (e.q.desc st) e.lanes p.1.1 p.2)
    (fxLdv g acc v st tk).cell e s = .ok (s, ldvFx v st tk e vs (.vals vs) (ldvFlags s e st)
      (fun y => y.dropItems st (min (dCur (e.q.desc st) + dItems (e.q.desc st)) (dLen (e.q.desc st))))) := by
  unfold fxLdv
  simp only [hfault, hacq, hrel, hheld, hget, hits, ldvFlags_eq, Bool.or_false, Bool.false_eq_true, if_false]
  rfl

/-- LDV whose items must wait: they are checked, and still to be fetched. -/
theorem fxLdv_waits {g : Nat} {acc : Bool} {v st tk : Nat} {e : CellEnv} {s : State} {tss : List (List Target)}
    (hfault : transferFault e (e.q.desc st) st v false = none)
    (hwait : e.rc.acquireWaits e.d e.l s.nextId = true
      ∨ (e.rc.releaseWaits e.d e.l s.nextId = true
          ∨ s.itemsHeld e.c e.d e.l (e.q.desc st) st s.nextId ((transferItems (e.q.desc st) e.lanes false).map Prod.snd) = true)
        ∧ ∀ i ∈ e.y.items, i.fault = none)
    (htargets : s.transferTargets e.c e.d e.l (e.q.desc st) ((transferItems (e.q.desc st) e.lanes false).map Prod.snd) = .ok (s, tss)) :
    (fxLdv g acc v st tk).cell e s = .ok (s, ldvFx v st tk e (ldvUnits (e.q.desc st) e.lanes (transferItems (e.q.desc st) e.lanes false))
      (.ldv st (e.q.desc st) (transferItems (e.q.desc st) e.lanes false) e.lanes) (ldvFlags s e st) id) := by
  generalize hts : (transferItems (e.q.desc st) e.lanes false).map Prod.snd = ts at hwait htargets
  have hcond : (e.rc.acquireWaits e.d e.l s.nextId || e.rc.releaseWaits e.d e.l s.nextId || s.itemsHeld e.c e.d e.l (e.q.desc st) st s.nextId ts) = true := by
    rcases hwait with h | ⟨h | h, -⟩ <;> simp [h]
  have hahead : (if e.rc.acquireWaits e.d e.l s.nextId then none else (ts.filterMap (e.y.itemAhead st)).findSome? Item.fault) = none := by
    rcases hwait with h | ⟨-, h⟩
    · rw [if_pos h]
    · split
      · rfl
      · refine List.findSome?_eq_none_iff.2 (fun i hi => ?_)
        obtain ⟨t, -, ht⟩ := List.mem_filterMap.1 hi
        exact h i (List.mem_of_find?_eq_some ht)
  unfold fxLdv
  simp only [hts, hfault, hcond, htargets, hahead, if_true]
  rw [← hts, ldvFlags_eq]
  rfl

theorem fxStv_ok {g v st tk : Nat} {e : CellEnv} {s : State} {tss : List (List Target)} (hfault : transferFault e (e.q.desc st) st v true = none)
    (htargets : s.transferTargets e.c e.d e.l (e.q.desc st) ((transferItems (e.q.desc st) e.lanes true).map Prod.snd) = .ok (s, tss))
    (hwatch : dClass (e.q.desc st) ≠ 6 → e.unwatched ((transferItems (e.q.desc st) e.lanes true).flatMap (fun p => itemBytes (e.q.desc st) p.2)) = true) :
    (fxStv g v st tk).cell e s = .ok (s, stvFx st tk e (((transferItems (e.q.desc st) e.lanes true).zip tss).flatMap
      (fun p => itemParts (e.q.desc st) p.1.2 p.2 (stvVals (e.q.desc st) e.q v p.1.1)))) := by
  have hnone : (if dClass (e.q.desc st) = 6 then none
      else e.watch ((transferItems (e.q.desc st) e.lanes true).flatMap (fun p => itemBytes (e.q.desc st) p.2))) = none := by
    split
    · rfl
    · rename_i hclass
      simpa [CellEnv.unwatched] using hwatch hclass
  unfold fxStv
  simp only [hfault, htargets, hnone]
  rfl

/-- LDV reads an empty line, where its stream passes its checks, if one of the items that it wants lies on one. -/
theorem State.ldv_emptyReads {s : State} {r : Raw} {g : Nat} {acc : Bool} {v st tk l : Nat}
    (h : (transferItems ((s.at l).core.desc st) (s.lanesOf r l) false).any (fun w => s.wantEmpty (s.env r l) st w.2) = true
      → tbit (s.at l).core.cctl 8 = false)
    (htrap : tbit (s.at l).core.cctl 8 = true) : s.emptyReads r (fxLdv g acc v st tk) l = false := by
  have hany := mt h (by simp [htrap])
  have hno : (fxLdv g acc v st tk).empty (s.env r l) s = false := by
    change (_ && (transferItems ((s.at l).core.desc st) (s.lanesOf r l) false).any (fun w => s.wantEmpty (s.env r l) st w.2)) = false
    rw [Bool.eq_false_iff.2 hany, Bool.and_false]
  rw [State.emptyReads, hno, Bool.and_false]

/-- LDV, from what its slot does in the one cell that the bundle reaches. -/
theorem State.ldv_enters {s : State} {g : Nat} {acc : Bool} {v st tk l : Nat} {us : List (Nat × Nat)} {b : Body} {set : Cell → Cell}
    (hc : s.canBundle ⟨.ls, 0x1, [g, bit acc, v, st, tk]⟩) (hcells : s.myCells = [l])
    (hemp : tbit (s.at l).core.cctl 8 = true → s.emptyReads ⟨.ls, 0x1, [g, bit acc, v, st, tk]⟩ (fxLdv g acc v st tk) l = false)
    (hcell : (fxLdv g acc v st tk).cell (s.env ⟨.ls, 0x1, [g, bit acc, v, st, tk]⟩ l) s
      = .ok (s, ldvFx v st tk (s.env ⟨.ls, 0x1, [g, bit acc, v, st, tk]⟩ l) us b (ldvFlags s (s.env ⟨.ls, 0x1, [g, bit acc, v, st, tk]⟩ l) st) set))
    (hset : ∀ y, (set y).core = y.core) :
    ∃ t, exec (.ldv g acc v st tk) s = .next t ∧ s.quietOps t ∧ (t.at l).core.desc st = pastItems ((s.at l).core.desc st)
      ∧ s.opStands t ⟨.ls, 0x1, [g, bit acc, v, st, tk]⟩ l { loadOp (.v v) ((us.map Prod.fst).filter (fun u => u < 64)) b with
          flags := ldvFlags s (s.env ⟨.ls, 0x1, [g, bit acc, v, st, tk]⟩ l) st } :=
  s.transfer_enters hc hcells rfl rfl hemp hcell rfl rfl (fun _ => hset) rfl rfl (ldvFx_marks v st tk _ us b _ set) (fun _ => rfl)
    (.inr (ldvFx_pends v st tk _ us b _ set hset _ rfl rfl))

end Sys2Proof.Machine

open Sys2Proof Sys2Proof.Machine in
/-- Settles O41: the slot's meaning is decided by the checks and by what holds the items back (`fxLdv_reads`, `fxLdv_waits`, `fxStv_ok`); the stream
holds what was written last, and the lanes marked stay pending (`State.transfer_enters`). -/
theorem vectorTransfers : Obligations.VectorTransfers := by
  refine ⟨?_, ?_, ?_⟩
  · intro g v st tk acc s r l its hr hc hcells D want empty huw hfault hacq hrel hheld hget hits vs
    cases hr
    exact State.ldv_enters hc hcells (State.ldv_emptyReads huw) (fxLdv_reads hfault hacq hrel hheld hget hits) (fun _ => rfl)
  · intro g v st tk acc s r l tss hr hc hcells D want empty huw hfault hwait htargets
    cases hr
    exact State.ldv_enters hc hcells (State.ldv_emptyReads huw) (fxLdv_waits hfault hwait htargets) (fun _ => rfl)
  · intro g v st tk s r l tss hr hc hcells D want hfault htargets hwatch
    cases hr
    exact s.transfer_enters hc hcells rfl rfl (fun _ => Bool.and_false _) (fxStv_ok hfault htargets hwatch) rfl rfl (fun _ _ => rfl) rfl rfl
      nofun (fun _ => rfl) (.inl rfl)

end

section
set_option Elab.async false

namespace Sys2Proof.Machine

/-! ## Matrix operations (R207, R209, R210, R217) -/

/-- What a matrix operation does in a cell, by what its checks find and whether its groups overrun the tile. -/
def macroOutcome (fault : Option FInfo) (ovr : Bool) (op ops tk : Nat) (e : CellEnv) (s : State) : Except FInfo (State × CellFx) :=
  match fault with
  | some f => .error f
  | none =>
    if ovr && tbit e.q.cctl 9 then .error (cGROUPOVR, 0, noInfo)
    else .ok (s, macroFx e op ops tk (if ovr then fGOVR else 0))

/-- The meaning of matrix operation `op` with operand fields `ops`. -/
def macroMeaning (op ops tk : Nat) : SlotMeaning :=
  { cell := fun e s => macroOutcome (macroFault e op ops) (groupsOverrun e.q op ops) op ops tk e s }

theorem groupsOverrun_noGroups {q : CellCore} {op ops : Nat} (h : (op == 3) = false) : groupsOverrun q op ops = false := by
  rw [groupsOverrun, h, Bool.false_and]

theorem opsGroups_tileOps {base m n a b o tk gc : Nat} {zero neg bt : Bool} (h : gc < 16) :
    opsGroups (tileOps base m n a b o tk zero neg bt gc) = gc + 1 := by
  simp only [opsGroups, tileOps, fld]
  omega

/-- A matrix operation without groups overruns none. -/
theorem macroOp_eq (op ops tk : Nat) (h : (op == 3) = false) : macroOp op ops tk = macroMeaning op ops tk := by
  unfold macroOp macroMeaning
  simp only [groupsOverrun_noGroups h]
  rfl

/-- MMA.GRP tests its groups against the tile (R217). Its operand fields stay named while the match is split: the kernel would compare two matches by
evaluating what they match on. -/
theorem fxMmaGrp_eq (g base m n a b tk : Nat) (zero neg bt : Bool) {gc : Nat} (h : gc < 16) :
    fxMmaGrp g base m n a b tk zero neg bt gc = macroMeaning 3 (tileOps base m n a b 0 tk zero neg bt gc) tk := by
  have hgroups : opsGroups (tileOps base m n a b 0 tk zero neg bt gc) = gc + 1 := opsGroups_tileOps h
  unfold macroMeaning fxMmaGrp
  congr 1
  funext e s
  extract_lets +onlyGivenNames ops
  cases macroFault e 3 ops with
  | some f => rfl
  | none => simp [macroOutcome, groupsOverrun, ops, hgroups]

theorem grpRows_groups : ∀ row ∈ SlotKind.mx.rows, row.op = 3 → row.fields[10]? = some ⟨8, 4, .any, .num⟩ := by decide +kernel

/-- MMA.GRP has at most 16 groups (R217). -/
theorem grp_groups_lt {r : Raw} (hleg : r.legal = true) (hk : r.kind = .mx) (hop : r.op = 3) : r.ops.getD 10 0 < 16 := by
  obtain ⟨row, hrow, -, -, hok, -⟩ := Raw.legal_row hleg
  obtain ⟨hmem, hrop⟩ := rowOf_some hrow
  exact operand_lt hok (grpRows_groups row (hk ▸ hmem) (hrop.trans hop)) (by decide)

/-- The matrix operations have one meaning. -/
theorem exec_macro {i : Instr} {r : Raw} {op ops : Nat} (hr : i.raw = some r) (hf : macroForm i = some (op, ops)) (hleg : r.legal = true) :
    ∃ tk, (∀ s, exec i s = s.issueLane r (macroMeaning op ops tk)) ∧ r.kind = .mx ∧ r.tk = some tk := by
  cases i
  all_goals cases hf
  case mmaGrp g base m n a b tk zero neg bt gc =>
    cases hr
    have hgc : gc < 16 := grp_groups_lt hleg rfl rfl
    exact ⟨tk, fun s => congrArg (s.issueLane _) (fxMmaGrp_eq g base m n a b tk zero neg bt hgc), rfl, rfl⟩
  all_goals cases hr
  all_goals exact ⟨_, fun s => congrArg (s.issueLane _) (macroOp_eq _ _ _ rfl), rfl, rfl⟩

/-! ## The queue of a cell -/

theorem CellCore.issues_mxq (ws : List Write) (q : CellCore) : (ws.foldl CellCore.issue q).mxq = q.mxq := by
  induction ws generalizing q with
  | nil => rfl
  | cons w ws ih => exact ih _

theorem CellCore.arrive_mxq (q : CellCore) (op : Nat) (vals : List (RegId × Nat × Nat)) (flags : Nat) : (q.arrive op vals flags).mxq = q.mxq := by
  have h : ∀ (vs : List (RegId × Nat × Nat)) (x : CellCore),
      (vs.foldl (fun x v => if (pendLive op v.1 q.pend).contains v.2.1 then x.put v.1 v.2.1 v.2.2 else x) x).mxq = x.mxq := by
    intro vs
    induction vs with
    | nil => exact fun _ => rfl
    | cons v vs ih =>
      intro x
      rw [List.foldl_cons, ih]
      split
      · exact (x.put_rest _ _ _).2
      · rfl
  exact h vals q

theorem CellCore.landOne_mxq (q : CellCore) (f : Fly) : (q.landOne f).mxq = q.mxq := by
  unfold CellCore.landOne
  split
  · exact q.arrive_mxq _ _ _
  · split
    · rfl
    · rfl
    · exact (CellCore.puts_rest f.reg f.vals q).2

theorem CellCore.endPos_mxq (q : CellCore) : q.endPos.mxq = q.mxq := by
  have h : ∀ (fs : List Fly) (x : CellCore), (fs.foldl CellCore.landOne x).mxq = x.mxq := by
    intro fs
    induction fs with
    | nil => exact fun _ => rfl
    | cons f fs ih => exact fun x => (ih _).trans (x.landOne_mxq f)
  exact h _ _

/-- The entry of a matrix operation of cell l in the queue, under an id (R207). -/
def State.mxEntry (s : State) (l op ops id : Nat) : MxEntry :=
  { ops := ops, op := op, ein := s.myDie.e, row := 0, step := 0, grp := 0, gt := (s.at l).core.gtab, req := id }

/-- A cell after the bundle of a matrix operation: its entry stands last in the queue, and the flags are set. -/
theorem Cell.afterBundle_macro (y : Cell) (e : CellEnv) (op ops tk flags id : Nat) (uw pop : Bool) :
    let u := y.afterBundle [macroFx e op ops tk flags] id uw pop
    u.acc = y.acc ∧ (∃ w, u.core.cst = w ||| BitVec.ofNat 64 flags)
      ∧ u.core.mxq = y.core.mxq ++ [{ ops := ops, op := op, ein := e.ein, row := 0, step := 0, grp := 0, gt := e.q.gtab, req := id }] := by
  intro u
  have hu : u = _ := Cell.afterBundle_enter y (macroFx e op ops tk flags) _ id uw pop rfl rfl
  refine ⟨by rw [hu]; rfl, ⟨_, by rw [hu]; rfl⟩, ?_⟩
  rw [hu]
  change (CellCore.flagged (CellCore.endPos _) uw pop).mxq ++ _ = _
  have hflag : ∀ q : CellCore, (q.flagged uw pop).mxq = q.mxq := fun q => by cases uw <;> cases pop <;> rfl
  rw [hflag, CellCore.endPos_mxq]
  exact congrArg (· ++ _) (CellCore.issues_mxq _ _)

end Sys2Proof.Machine

open Sys2Proof Sys2Proof.Machine in
/-- Settles O42: the meaning of a matrix operation is decided by its checks (`exec_macro`), and each acting cell takes its entry under the id of its
operation (`BundleEnters`). -/
theorem macroOperationsQueue : Obligations.MacroOperationsQueue := by
  intro i s r op ops hr hf hc hok
  obtain ⟨tk, hexec, hk, htk⟩ := exec_macro hr hf hc.2.1
  have hmoves : movesCursor r = false := by simp [movesCursor, hk]
  let F : Nat → CellFx := fun l => macroFx (s.env r l) op ops tk (if groupsOverrun (s.at l).core op ops then fGOVR else 0)
  obtain ⟨t, hrun, hleaves, henters⟩ := s.issueLane_acts r (macroMeaning op ops tk) F hc rfl (fun _ _ _ => Bool.and_false _)
    (fun l hl hacts => by
      obtain ⟨hfault, hgroups⟩ := hok l (State.mem_acting.2 ⟨hl, hacts.resolve_right (by simp [hmoves])⟩)
      change (groupsOverrun (s.env r l).q op ops && tbit (s.env r l).q.cctl 9) = false at hgroups
      simp only [macroMeaning, macroOutcome, hfault, hgroups]
      rfl)
  have hcmd : ∀ l ∈ s.myCells, ∀ q, (s.laneFx r F l).req = some q → q.isCmd = false := by
    intro l _ q hq
    by_cases hacts : s.lanesOf r l = []
    · have hidle : s.laneFx r F l = idleFx s.selDie l s.myDie.e (slotNo r.kind) r := by simp [State.laneFx, hacts, hmoves]
      have hposts : postsAnyway r = some tk := by simp [postsAnyway, hk, htk]
      rw [hidle, idleFx, hposts] at hq
      cases hq
      rfl
    · rw [s.laneFx_acts r F l hacts] at hq
      cases hq
      rfl
  refine ⟨t, (hexec s).trans hrun, henters.quietOps hleaves, henters.dies hcmd, fun l hl => ?_⟩
  obtain ⟨hl, hacts⟩ := State.mem_acting.1 hl
  obtain ⟨id, hid, hcell, hreq⟩ := henters.acts l hl
  rw [s.laneFx_acts r F l hacts] at hcell hreq
  rw [← State.at_of_leaves hleaves] at hcell
  obtain ⟨hacc, ⟨w, hcst⟩, hmxq⟩ := (s.at l).afterBundle_macro (s.env r l) op ops tk (if groupsOverrun (s.at l).core op ops then fGOVR else 0) id
    (s.underwaits r l) (popsEntry r)
  rw [← hcell] at hacc hcst hmxq
  refine ⟨hacc, fun hover => ?_, { cellReq (s.env r l) tk none (.macro_ op ops []) true false with id := id },
    by rw [State.me, hleaves.sel]; exact hreq _ rfl, hid, rfl, htk.symm, rfl, rfl, hmxq⟩
  rw [hcst, if_pos hover]
  simp [tbit, fGOVR]

end

section
set_option Elab.async false

namespace Sys2Proof.Machine

/-! ## The conditions of R212 -/

/-- The first detail of a list that holds is raised (R212). -/
theorem find?_cons_shape (p : Nat → Bool) (k : Nat) (ks : List Nat) : ((k :: ks).find? p).map (fun k => (0x07, k, noInfo))
    = if p k then some (shape k) else (ks.find? p).map (fun k => (0x07, k, noInfo)) := by
  cases hk : p k with
  | true => simp only [List.find?_cons, hk]; rfl
  | false => simp only [List.find?_cons, hk, Bool.false_eq_true, if_false]

/-- The items of a row as R212's conditions write them. -/
theorem rowItems_eq (D : Desc) : (if 8 ≤ dFmt D ∧ dFmt D ≤ 14 then 128 / dBs D else if dFmt D = 1 then 64 else 32) = rowItems D := by
  simp only [rowItems, dBfp, decide_eq_true_eq]

theorem rowItems_pos (D : Desc) : 0 < rowItems D := by
  unfold rowItems dBs
  split <;> split <;> decide

theorem tileRows_pos (ops : Nat) : 0 < tileRows ops := by
  unfold tileRows
  positivity

theorem matrixFmt_eq (D : Desc) :
    (decide (dFmt D = 0) || decide (dFmt D = 1) || (decide (8 ≤ dFmt D) && decide (dFmt D ≤ 14))) = matrixFmt D := by
  simp only [matrixFmt, dBfp, Bool.decide_and, beq_eq_decide]
  ac_rfl

theorem shapeHolds_format (acc : Nat) (y : Cell) {op : Nat} (ops : Nat) (hop : (op == 1 || op == 2 || op == 3) = true) (h7 : (op == 7) = false) :
    shapeHolds acc y op ops 3 = (dStore (y.core.desc (opsA ops)) || dStore (y.core.desc (opsB ops))
      || !matrixFmt (y.core.desc (opsA ops)) || !matrixFmt (y.core.desc (opsB ops))) := by
  simp only [shapeHolds, matrixFmt_eq, hop, h7, Bool.true_and, Bool.false_and, Bool.or_false, opsA, opsB]
  ac_rfl

/-- What MMA, MMA.NEST and MMA.GRP ask of the formats of A and B beside each other (R212). -/
theorem shapeHolds_match (acc : Nat) (y : Cell) {op : Nat} (ops : Nat) (hop : (op == 1 || op == 2 || op == 3) = true) :
    shapeHolds acc y op ops 6 = ((dBfp (y.core.desc (opsA ops)) && !(dBfp (y.core.desc (opsB ops))
        && dBs (y.core.desc (opsA ops)) == dBs (y.core.desc (opsB ops)) && opsBt ops))
      || (!dBfp (y.core.desc (opsA ops)) && dFmt (y.core.desc (opsA ops)) != dFmt (y.core.desc (opsB ops)))) := by
  simp only [shapeHolds, hop, Bool.true_and, opsA, opsB, opsBt]
  by_cases hA : 8 ≤ dFmt (y.core.desc (fld ops 29 4)) ∧ dFmt (y.core.desc (fld ops 29 4)) ≤ 14
  · simp [hA, dBfp, beq_eq_decide]
  · have hb : dBfp (y.core.desc (fld ops 29 4)) = false := decide_eq_false hA
    simp [hA, hb, bne, beq_eq_decide]

theorem shapeHolds_steps (acc : Nat) (y : Cell) (op ops : Nat) : shapeHolds acc y op ops 8 = true ↔ op = 2 ∧
    ((dLen (y.core.desc (opsA ops)) - y.cursors.getD (opsA ops) 0) % (tileRows ops * rowItems (y.core.desc (opsA ops))) ≠ 0
      ∨ (dLen (y.core.desc (opsA ops)) - y.cursors.getD (opsA ops) 0) / (tileRows ops * rowItems (y.core.desc (opsA ops))) = 0) := by
  have hpos := Nat.mul_pos (tileRows_pos ops) (rowItems_pos (y.core.desc (opsA ops)))
  rw [Nat.div_eq_zero_iff_lt hpos]
  simp [shapeHolds, rowItems_eq, opsA, tileRows]

theorem shapeHolds_distinct (acc : Nat) (y : Cell) {op : Nat} (ops : Nat) (hop : (op == 1 || op == 2 || op == 3) = true) :
    shapeHolds acc y op ops 9 = true ↔ opsA ops = opsB ops := by
  simp [shapeHolds, hop, opsA, opsB]

/-- The items that MMA, MMA.NEST and MMA.GRP find too few (R210, R216, R217). -/
def tooFew (y : Cell) (op ops : Nat) (gt : BitVec 128) : Bool :=
  let M := tileRows ops
  let ra := rowItems (y.core.desc (opsA ops))
  let step := tileCols ops * rowItems (y.core.desc (opsB ops))
  let leftA := dLen (y.core.desc (opsA ops)) - y.cursors.getD (opsA ops) 0
  let leftB := dLen (y.core.desc (opsB ops)) - y.cursors.getD (opsB ops) 0
  match op with
  | 1 => decide (leftA < M * ra ∨ leftB < step)
  | 2 => decide (leftA % (M * ra) = 0 ∧ leftB < leftA / (M * ra) * step)
  | _ => decide (leftA < min (gtStart gt (opsGroups ops)) M * ra ∨ leftB < opsGroups ops * step)

theorem shapeHolds_items (acc : Nat) (y : Cell) {op : Nat} (ops : Nat) (hop : op = 1 ∨ op = 2 ∨ op = 3) : shapeHolds acc y op ops 4
    = (!dGo (y.core.desc (opsA ops)) || !dGo (y.core.desc (opsB ops)) || tooFew y op ops y.core.gtab) := by
  rcases hop with rfl | rfl | rfl
  · simp [shapeHolds, rowItems_eq, tooFew, opsA, opsB, tileRows, tileCols]
  · simp [shapeHolds, rowItems_eq, tooFew, opsA, opsB, tileRows, tileCols]
  · simp [shapeHolds, rowItems_eq, tooFew, opsA, opsB, tileRows, tileCols, opsGroups, gtStart]
    rfl

theorem mmaFault_eq (acc : Nat) (y : Cell) {op : Nat} (ops : Nat) (hop : op = 1 ∨ op = 2 ∨ op = 3) : mmaFault y op ops y.core.gtab
    = if shapeHolds acc y op ops 3 then some (shape 3) else if shapeHolds acc y op ops 4 then some (shape 4)
      else if shapeHolds acc y op ops 6 then some (shape 6) else if shapeHolds acc y op ops 8 then some (shape 8)
      else if shapeHolds acc y op ops 9 then some (shape 9) else none := by
  have hmul : (op == 1 || op == 2 || op == 3) = true := by rcases hop with rfl | rfl | rfl <;> rfl
  have h7 : (op == 7) = false := by rcases hop with rfl | rfl | rfl <;> rfl
  rw [shapeHolds_format acc y ops hmul h7, shapeHolds_items acc y ops hop, shapeHolds_match acc y ops hmul]
  simp only [shapeHolds_steps, shapeHolds_distinct acc y ops hmul]
  rfl

/-- The stream that ACCOUT stores to. -/
theorem accoutFault_eq (acc : Nat) (y : Cell) (ops : Nat) : accoutFault y ops
    = if shapeHolds acc y 7 ops 3 then some (shape 3) else if shapeHolds acc y 7 ops 4 then some (shape 4) else none := by
  have hdir : shapeHolds acc y 7 ops 3 = (!dStore (y.core.desc (opsO ops))
      || !(dFmt (y.core.desc (opsO ops)) == 0 || dFmt (y.core.desc (opsO ops)) == 1)) := by
    simp [shapeHolds, opsO, beq_eq_decide]
  have hitems : shapeHolds acc y 7 ops 4 = (!dGo (y.core.desc (opsO ops))
      || decide (dLen (y.core.desc (opsO ops)) - y.cursors.getD (opsO ops) 0 < tileRows ops * tileCols ops)) := by
    simp [shapeHolds, opsO, tileRows, tileCols]
  rw [hdir, hitems]
  rfl

/-- ACCOUT names no operands A and B. -/
theorem shapeHolds_accout (acc : Nat) (y : Cell) (ops : Nat) :
    shapeHolds acc y 7 ops 6 = false ∧ shapeHolds acc y 7 ops 8 = false ∧ shapeHolds acc y 7 ops 9 = false := ⟨rfl, rfl, rfl⟩

/-- ACCZ names no stream. -/
theorem shapeHolds_accz (acc : Nat) (y : Cell) (ops : Nat) : shapeHolds acc y 4 ops 3 = false ∧ shapeHolds acc y 4 ops 4 = false
    ∧ shapeHolds acc y 4 ops 6 = false ∧ shapeHolds acc y 4 ops 8 = false ∧ shapeHolds acc y 4 ops 9 = false := ⟨rfl, rfl, rfl, rfl, rfl⟩

theorem macroFault_least (e : CellEnv) (op ops : Nat) (hop : op ∈ [1, 2, 3, 4, 7]) (hq : e.q = e.y.core) : macroFault e op ops
    = ([1, 2, 3, 4, 6, 8, 9].find? (shapeHolds e.rc.win.acc e.y op ops)).map (fun k => (0x07, k, noInfo)) := by
  have h1 : shapeHolds e.rc.win.acc e.y op ops 1 = true ↔ (fld ops 39 2 = 3 ∨ fld ops 33 6 = 0) := by simp [shapeHolds]
  have h2 : shapeHolds e.rc.win.acc e.y op ops 2 = true ↔ 8192 * e.rc.win.acc < tileBase ops + tileRows ops * tileCols ops := by
    simp [shapeHolds, tileBase, tileRows, tileCols]
  simp only [find?_cons_shape, List.find?_nil, Option.map_none]
  simp only [List.mem_cons, List.not_mem_nil, or_false] at hop
  rcases hop with rfl | rfl | rfl | rfl | rfl
  · simp only [macroFault, hq, h1, h2, mmaFault_eq e.rc.win.acc e.y ops (.inl rfl)]
  · simp only [macroFault, hq, h1, h2, mmaFault_eq e.rc.win.acc e.y ops (.inr (.inl rfl))]
  · simp only [macroFault, hq, h1, h2, mmaFault_eq e.rc.win.acc e.y ops (.inr (.inr rfl))]
  · obtain ⟨h3, h4, h6, h8, h9⟩ := shapeHolds_accz e.rc.win.acc e.y ops
    simp only [macroFault, h1, h2, h3, h4, h6, h8, h9, Bool.false_eq_true, if_false]
  · obtain ⟨h6, h8, h9⟩ := shapeHolds_accout e.rc.win.acc e.y ops
    simp only [macroFault, h1, h2, accoutFault_eq e.rc.win.acc e.y ops, h6, h8, h9, Bool.false_eq_true, if_false]

/-- Where no entry is queued or running, a matrix operation finds the cursors of the descriptors. -/
theorem Cell.cursors_idle {y : Cell} (hrun : y.run = none) (hmxq : y.core.mxq = []) {st : Nat} (hst : st < 16) :
    y.cursors.getD st 0 = dCur (y.core.desc st) := by
  simp [Cell.cursors, hrun, hmxq, hst]

/-- The checks of a matrix operation raise SHAPE. -/
theorem macroFault_isShape {e : CellEnv} {op ops : Nat} {f : FInfo} (hop : op ∈ [1, 2, 3, 4, 7]) (hq : e.q = e.y.core)
    (hf : macroFault e op ops = some f) : ∃ k, f = shape k := by
  rw [macroFault_least e op ops hop hq, Option.map_eq_some_iff] at hf
  obtain ⟨k, -, hk⟩ := hf
  exact ⟨k, hk.symm⟩

theorem macroOutcome_fault {fault : Option FInfo} {ovr : Bool} {op ops tk : Nat} {e : CellEnv} {s : State} {f : FInfo} (h : fault = some f) :
    macroOutcome fault ovr op ops tk e s = .error f := by
  rw [h, macroOutcome]

theorem macroOutcome_overrun {fault : Option FInfo} {ovr : Bool} {op ops tk : Nat} {e : CellEnv} {s : State} (h : fault = none) (hovr : ovr = true)
    (hctl : tbit e.q.cctl 9 = true) : macroOutcome fault ovr op ops tk e s = .error (cGROUPOVR, 0, noInfo) := by
  simp [macroOutcome, h, hovr, hctl]

/-! ## The faults of a bundle in one cell -/

/-- A slot that meets fault f in its one acting cell stops the bundle. -/
theorem State.issueLane_cellFault (s : State) {r : Raw} {fx : SlotMeaning} {f : FInfo} {l : Nat} (hc : s.canBundle r) (hcells : s.myCells = [l])
    (hacts : s.lanesOf r l ≠ []) (hfx : fx.CellsOnly) (hemp : fx.empty (s.env r l) s = false) (hcell : fx.cell (s.env r l) s = .error f) :
    s.dieFaults (s.issueLane r fx) f.1 f.2.1 f.2.2 := by
  have honly : ∀ k ∈ s.myCells, k = l := fun k hk => by simpa [hcells] using hk
  refine s.issueLane_faults r fx f hc hfx (fun k hk => ?_) ⟨l, by simp [hcells], hacts⟩ (fun k hk _ => honly k hk ▸ hcell)
  rw [honly k hk, State.emptyReads, hemp, Bool.and_false]

theorem fxStset_weight {e : CellEnv} {s : State} {g a st : Nat} (hfree : e.rc.stHeld e.d e.l st = false) (hweight : weightStore (e.descAt a) = true) :
    (fxStset g a st).cell e s = .error (cWEIGHTWR, 0, noInfo) :=
  (if_neg (by simp [hfree])).trans (if_pos hweight)

theorem fxStset_illegal {e : CellEnv} {s : State} {g a st : Nat} (hfree : e.rc.stHeld e.d e.l st = false) (hweight : weightStore (e.descAt a) = false)
    (hbad : badDesc (e.descAt a) = true) : (fxStset g a st).cell e s = .error (shape 7) :=
  (if_neg (by simp [hfree])).trans ((if_neg (by rw [Bool.not_eq_true]; exact hweight)).trans (if_pos hbad))

theorem transferFault_direction {e : CellEnv} {D : Desc} {st v : Nat} {store : Bool} (h : dStore D ≠ store) :
    transferFault e D st v store = some (shape 3) := if_pos (.inl h)

theorem transferFault_ended {e : CellEnv} {D : Desc} {st v : Nat} {store : Bool} (h : dStore D = store) (hbfp : dBfp D = false)
    (hend : dEnd D = true ∨ dGo D = false) : transferFault e D st v store = some (shape 4) := by
  simp [transferFault, h, hbfp, hend]

theorem fxLdv_faults {e : CellEnv} {s : State} {g v st tk : Nat} {acc : Bool} {f : FInfo} (h : transferFault e (e.q.desc st) st v false = some f) :
    (fxLdv g acc v st tk).empty e s = false ∧ (fxLdv g acc v st tk).cell e s = .error f := by
  constructor
  · simp only [fxLdv, h, Option.isNone_some, Bool.false_and]
  · simp only [fxLdv, h]

theorem fxStv_faults {e : CellEnv} {s : State} {g v st tk : Nat} {f : FInfo} (h : transferFault e (e.q.desc st) st v true = some f) :
    (fxStv g v st tk).cell e s = .error f := by
  simp only [fxStv, h]

/-- LDV and STV meet the fault of their stream. -/
theorem State.transfer_faults {s : State} {i : Instr} {r : Raw} {l g v st tk : Nat} {acc : Bool} {f : FInfo} (hr : i.raw = some r)
    (hi : i = .ldv g acc v st tk ∨ i = .stv g v st tk) (hc : s.canBundle r) (hcells : s.myCells = [l]) (hacts : s.lanesOf r l ≠ [])
    (hf : transferFault (s.env r l) ((s.at l).core.desc st) st v (decide (r.op = 2)) = some f) :
    s.dieFaults (exec i s) f.1 f.2.1 f.2.2 := by
  rcases hi with rfl | rfl
  · cases hr
    obtain ⟨hempty, hcell⟩ := fxLdv_faults hf
    exact s.issueLane_cellFault (fx := fxLdv g acc v st tk) hc hcells hacts rfl hempty hcell
  · cases hr
    exact s.issueLane_cellFault (fx := fxStv g v st tk) hc hcells hacts rfl rfl (fxStv_faults hf)

/-- A matrix operation meets the fault of its checks, or that of its groups (R217). -/
theorem State.macro_faults {s : State} {i : Instr} {r : Raw} {op ops l : Nat} {f : FInfo} (hr : i.raw = some r) (hf : macroForm i = some (op, ops))
    (hc : s.canBundle r) (hcells : s.myCells = [l]) (hacts : s.lanesOf r l ≠ [])
    (hcell : ∀ tk, macroOutcome (macroFault (s.env r l) op ops) (groupsOverrun (s.at l).core op ops) op ops tk (s.env r l) s = .error f) :
    s.dieFaults (exec i s) f.1 f.2.1 f.2.2 := by
  obtain ⟨tk, hexec, -, -⟩ := exec_macro hr hf hc.2.1
  rw [hexec]
  exact s.issueLane_cellFault hc hcells hacts rfl rfl (hcell tk)

theorem macroForm_op {i : Instr} {op ops : Nat} (hf : macroForm i = some (op, ops)) : op ∈ [1, 2, 3, 4, 7] := by
  cases i
  all_goals cases hf
  all_goals simp

end Sys2Proof.Machine

open Sys2Proof Sys2Proof.Machine in
/-- Settles O43: in one acting cell the fault of the slot's checks is the fault of the bundle (`issueLane_cellFault`), and the checks of a
matrix operation raise the least detail whose condition holds (`macroFault_least`). -/
theorem streamAndMacroFaults : Obligations.StreamAndMacroFaults := by
  refine ⟨fun i g a v st tk acc s r l hr hc hcells hacts => ⟨fun hi hheld => ?_, ?_, fun hi hdir => ?_, fun hi hdir hbfp hend => ?_⟩,
    fun i s r op ops l hr hf hc hcells hacts => ⟨fun f hfault => ?_, fun hnone hover hctl => ?_⟩,
    fun s r op ops l hop => macroFault_least (s.env r l) op ops hop rfl, fun y st hrun hmxq hst => y.cursors_idle hrun hmxq hst⟩
  · have hcell : ∀ {β : Except FInfo (State × CellFx)},
        (if (s.env r l).rc.stHeld s.selDie l st then .error (shape 5) else β) = .error (shape 5) := if_pos hheld
    rcases hi with rfl | rfl | rfl | rfl | rfl
    all_goals cases hr
    · exact s.issueLane_cellFault (fx := fxStset g a st) hc hcells hacts rfl rfl hcell
    · exact s.issueLane_cellFault (fx := fxStget g a st) hc hcells hacts rfl rfl hcell
    · exact s.issueLane_cellFault (fx := fxStgo g st tk) hc hcells hacts rfl rfl hcell
    · exact s.issueLane_cellFault (fx := fxStsave g a st tk) hc hcells hacts rfl rfl hcell
    · exact s.issueLane_cellFault (fx := fxStload g a st tk) hc hcells hacts rfl rfl hcell
  · rintro rfl hfree
    cases hr
    refine ⟨fun hweight => ?_, fun hweight hbad => ?_⟩
    · exact s.issueLane_cellFault (fx := fxStset g a st) (f := (cWEIGHTWR, 0, noInfo)) hc hcells hacts rfl rfl (fxStset_weight hfree hweight)
    · exact s.issueLane_cellFault (fx := fxStset g a st) (f := shape 7) hc hcells hacts rfl rfl (fxStset_illegal hfree hweight hbad)
  · exact State.transfer_faults hr hi hc hcells hacts (transferFault_direction hdir)
  · exact State.transfer_faults hr hi hc hcells hacts (transferFault_ended hdir hbfp hend)
  · obtain ⟨k, rfl⟩ := macroFault_isShape (macroForm_op hf) rfl hfault
    exact State.macro_faults hr hf hc hcells hacts (fun tk => macroOutcome_fault hfault)
  · exact State.macro_faults (f := (cGROUPOVR, 0, noInfo)) hr hf hc hcells hacts (fun tk => macroOutcome_overrun hnone hover hctl)

end
